-- ==== Sys2Proof/Word.lean ====
section
/-! DEFINITION. The plainest types of the model: octets, texts, counts modulo 65536, and the one way a
record of a keyed list is changed. -/
namespace Sys2Proof

/-- The octet, the unit of every telegram and frame (00_scope, Octets). -/
abbrev Octet := BitVec 8

/-- A text: character codes in order (00_scope, Text). -/
abbrev Text := List Octet

/-- A count modulo 65536: an entry revision, a note edition, the rotation count. -/
abbrev Count16 := BitVec 16

/-- Apply `f` to every member of `l` that `p` picks and leave the others as they are. -/
def updWhere {α : Type} (p : α → Bool) (f : α → α) (l : List α) : List α :=
  l.map fun a => if p a then f a else a

end Sys2Proof
end

