-- ==== Sys2Proof/Syntax.lean ====
section
/-! DEFINITION. The commands the block takes: one constructor per row of the table of operations and
events. A telegram's row carries the port whose head telegram is taken (its fields are the octets the
port's receive buffer holds, R181); an event carries what it is about. `ms` is the milliseconds that
have passed, at the event, since the running second last counted (R130 keeps the running time to the
millisecond). -/
namespace Sys2Proof

/-- The three ports (R179). -/
inductive PortId where
  | planning | signalling | announcement
  deriving DecidableEq, Repr

/-- The two parts of the retention store (R191). -/
inductive StorePart where
  | configuration | dial
  deriving DecidableEq, Repr

/-- One command of the block. -/
inductive Instr where
  /-- POWER_ON (R191): power is applied. -/
  | powerOn
  /-- RESET_PIN (R191): the reset pin is asserted. -/
  | resetPin
  /-- TELEGRAM_FRAME_END (R180): the closing flag of a frame on port `p`. `octets` are the octets between
  the flags as they came over the link, escapes still in (R194). -/
  | telegramFrameEnd (p : PortId) (ms : Nat) (octets : List Octet)
  /-- ABORT_SEQUENCE (R194): an escape followed by a flag on the link of port `p`. -/
  | abortSequence (p : PortId)
  /-- REPLY_SENT (R182): the last octet of the reply on port `p` has been sent. -/
  | replySent (p : PortId) (ms : Nat)
  /-- UNKNOWN (R183): port `p` takes a telegram of undefined kind. -/
  | unknown (p : PortId)
  | plan (p : PortId)
  | amnd (p : PortId)
  | dlay (p : PortId)
  | canc (p : PortId)
  | rins (p : PortId)
  | plat (p : PortId)
  | pred (p : PortId)
  | rdys (p : PortId)
  | dept (p : PortId)
  | read (p : PortId)
  | csta (p : PortId)
  | time (p : PortId)
  | take (p : PortId)
  | spkn (p : PortId)
  | zone (p : PortId)
  | note (p : PortId)
  | nclr (p : PortId)
  | wall (p : PortId)
  | dial (p : PortId)
  | conf (p : PortId)
  | csav (p : PortId)
  | rset (p : PortId)
  | poll (p : PortId)
  /-- SILENCE_EXPIRY (R184): the silence timer of port `p` is at its limit. -/
  | silenceExpiry (p : PortId)
  /-- RUNNING_SECOND (R47): one second of the running seconds count. -/
  | runningSecond
  /-- MINUTE_ADVANCE (R47): the running second with which the clock enters a new minute. -/
  | minuteAdvance
  /-- HOLDOVER_EXPIRY (R55). -/
  | holdoverExpiry
  /-- PREDICTION_STALE (R32) of the entry of `run`. -/
  | predictionStale (run : Nat)
  /-- SPEAK_TIMEOUT (R105) of the TAKEN cue of this number. -/
  | speakTimeout (cue : Nat)
  /-- GAP_END (R97) of an announcement zone. -/
  | gapEnd (zone : Nat)
  /-- NOTICE_EXPIRY (R120) of the posted notice of this number. -/
  | noticeExpiry (number : Nat)
  /-- DWELL_EXPIRY (R122). -/
  | dwellExpiry
  /-- PANEL_FRAME_END (R133): the last octet of the frame leaves the bus. -/
  | panelFrameEnd (ms : Nat)
  /-- PANEL_REPLY_RECEIVED (R134): a reply begun in the window has been received to its end. `octets` are
  the octets between its flags as they came over the bus, escapes still in (R197). -/
  | panelReplyReceived (ms : Nat) (octets : List Octet)
  /-- REPLY_WINDOW_CLOSE (R133): the window closes and no reply has begun. -/
  | replyWindowClose (ms : Nat)
  /-- STRAY_PANEL_OCTETS (R133): octets that belong to no exchange. -/
  | strayPanelOctets (octets : List Octet)
  /-- KEEPALIVE_DUE (R143) of the panel at `addr`. -/
  | keepaliveDue (ms : Nat) (addr : Nat)
  /-- PROBE_DUE (R143) of the panel at `addr`. -/
  | probeDue (ms : Nat) (addr : Nat)
  /-- INTERVAL_END (R145). -/
  | intervalEnd (ms : Nat)
  /-- PASS_TRIGGER (R153): the scan timer expires. -/
  | passTrigger (ms : Nat)
  /-- LIGHT_CONVERSION_COMPLETE (R154) with the converted value 0..1023. -/
  | lightConversionComplete (ms : Nat) (value : BitVec 10)
  /-- LINE_CHECK_REQUEST (R156): the midpoint of the impulse on a line. -/
  | lineCheckRequest (ms : Nat) (line : Fin 4)
  /-- LINE_CHECK_COMPLETE (R157) with the converted value 0..1023. -/
  | lineCheckComplete (ms : Nat) (value : BitVec 10)
  /-- NEXT_IMPULSE_TIME (R170) of a line. -/
  | nextImpulseTime (ms : Nat) (line : Fin 4)
  /-- IMPULSE_END (R173) of a line. -/
  | impulseEnd (ms : Nat) (line : Fin 4)
  /-- POWER_LOSS (R191): power fails; `cut` names the part whose write was cut short, if one was. -/
  | powerLoss (cut : Option StorePart)
  deriving DecidableEq, Repr

end Sys2Proof
end

