-- ==== Sys2Proof/Config.lean ====
section
/-! DEFINITION. The configuration: one field for every parameter of the parameter table (R198), with its
default. The number, range and class of each parameter stand in Machine/Params.lean. -/
namespace Sys2Proof.Machine

open Sys2Proof

/-- The role of a panel address (R108). -/
inductive Role where
  | none
  | row (index : Nat)
  | gate (platform : Nat)
  | banner
  deriving DecidableEq, Repr

/-- Every parameter, structural and timing (R188, R198). The lists are indexed from LS0 and from address 1. -/
structure Params where
  platforms : Nat := 12
  dayStart : Nat := 240
  timePort : PortId := .planning
  channels : Nat := 2
  lightZones : List Nat := [1, 1, 2, 2, 3, 3, 4, 4]
  roles : List Role := List.replicate 60 .none
  panelZones : List Nat := List.replicate 60 1
  confirm : Nat := 2
  hysteresis : Nat := 2
  lateness : Nat := 3
  stale : Nat := 300
  boarding : Nat := 15
  overdue : Nat := 30
  departedLinger : Nat := 2
  cancelledLinger : Nat := 10
  horizon : Nat := 240
  holdover : Nat := 120
  published : Nat := 60
  diversionHold : Nat := 15
  platformLead : Nat := 10
  finalLead : Nat := 2
  delayThreshold : Nat := 5
  delayStep : Nat := 5
  repeatPeriod : Nat := 10
  zoneGap : Nat := 5
  speakTime : Nat := 90
  dwell : Nat := 8
  failThreshold : Nat := 64
  increment : Nat := 16
  decrement : Nat := 1
  interval : Nat := 1
  keepalive : Nat := 5
  probe : Nat := 10
  scanPeriod : Nat := 500
  lineThreshold : Nat := 200
  floor : Nat := 2
  ceiling : Nat := 15
  impulseWidth : Nat := 400
  fastPeriod : Nat := 2
  advanceLimit : Nat := 540
  silencePlanning : Nat := 60
  silenceSignalling : Nat := 10
  silenceAnnouncement : Nat := 30
  deriving DecidableEq, Repr

/-- Every parameter at its default (R198). -/
def Params.default : Params := {}

/-- DESIGN CHOICE (log entry 12): octet `n` of a wire field whose presence octet says that the field is
absent, where the layouts do not state the octets sent. A free value: nothing constrains it. -/
opaque Config.absentFill : Nat → Octet

/-- DESIGN CHOICE (log entry 10): whether a DIAL SET on a line that stays in ADVANCE between impulses keeps the
next impulse time, as R170 says, or removes it, as R174 says. A free value: nothing constrains it. -/
opaque Config.dialKeepsNext : Bool

end Sys2Proof.Machine
end

