-- ==== Sys2Proof/Machine/State.lean ====
section
/-! DEFINITION. The state of the 2460, block by block, as plain data; the reasons a step can stop; and the
state right after power-on with a retention store that has never been written. -/
namespace Sys2Proof.Machine

open Sys2Proof

/-! ## Station time base (R46) -/

/-- The time state. -/
inductive TimeState where
  | unset | set | holdover
  deriving DecidableEq, Repr

/-- The station time base. The service-day start, the time port and the holdover limit are parameters of the
configuration in force. -/
structure TimeBase where
  /-- The station clock, seconds of the day 0..86399. -/
  clock : Nat
  state : TimeState
  /-- The slew remainder, -30..30. -/
  slew : Int
  /-- The clock has already been held at :59 in this minute (R52). -/
  held : Bool
  /-- The holdover timer, running seconds. -/
  holdover : Nat
  /-- The running seconds counted since power-on or the reset pin. -/
  runSec : Nat
  /-- The running time at the running second last counted, milliseconds. -/
  runMs : Nat
  /-- Milliseconds since then, 0..999. -/
  subMs : Nat
  /-- The numbers of the limits a CONF has set since the running second last counted: such a limit judges its
  timer at the next running second (R43, R55, R184). -/
  limitsMoved : List Nat
  deriving DecidableEq, Repr

/-! ## Departure table (R1, R26) -/

/-- The operator delay Do with its FIX flag. FIX is set only together with a present Do (R16, R35). -/
structure OpDelay where
  minutes : Nat
  fix : Bool
  deriving DecidableEq, Repr

/-- The prediction filter (R26). -/
structure Filter where
  dp : Option Nat
  cand : Option Nat
  k : Nat
  age : Nat
  deriving DecidableEq, Repr

/-- The lifecycle states (R1). -/
inductive EntryState where
  | listed | boarding | closed | departed | cancelled | retiring
  deriving DecidableEq, Repr

/-- One entry of the departure table (R1). -/
structure Entry where
  run : Nat
  headcode : Option Text
  destination : Text
  calls : List Text
  /-- The scheduled minute As. -/
  sched : Int
  planned : Option Nat
  assigned : Option Nat
  opDelay : Option OpDelay
  filter : Filter
  /-- The displayed delay Dd. -/
  dd : Nat
  /-- The expected minute A. -/
  exp : Int
  state : EntryState
  stateTime : Option Int
  reason : Option Text
  rev : Count16
  /-- The platform announced. -/
  announced : Option Nat
  /-- The last announced delay. -/
  lastDelay : Nat
  /-- The open change record. -/
  openRec : Option Nat
  deriving DecidableEq, Repr

/-- The table controller's state. -/
structure Table where
  /-- The entries in table order (R2). -/
  entries : List Entry
  /-- The runs of the displayable set as last derived, in table order (R12). -/
  displayable : List Nat
  deriving DecidableEq, Repr

/-! ## Change tracker (R64, R65) -/

/-- The states of a change record. A free slot has no record. -/
inductive RecState where
  | opened | informed | superseded | void
  deriving DecidableEq, Repr

/-- A part of the display condition. -/
inductive Part where
  | pending | met | waived
  deriving DecidableEq, Repr

/-- A diverted gate: a platform, the minute it was opened, and whether its hold has ended (R78). -/
structure Diverted where
  platform : Nat
  minute : Int
  ended : Bool
  deriving DecidableEq, Repr

/-- One change record (R64). -/
structure ChangeRec where
  no : Nat
  run : Nat
  src : Nat
  dst : Nat
  openedMinute : Int
  openedSecond : Nat
  /-- The revision r at which the change became visible. -/
  r : Count16
  state : RecState
  announced : Bool
  displayed : Bool
  degraded : Bool
  rowPart : Part
  gatePart : Part
  /-- The address of the gate panel of platform `src`, if one is configured. -/
  gateReq : Option Nat
  /-- The number of the CHANGE cue that serves the record. -/
  cue : Option Nat
  inSpeech : Bool
  diverted : List Diverted
  deriving DecidableEq, Repr

/-- The change tracker's state: the records of the slots in use, and the closed list. -/
structure Tracker where
  records : List ChangeRec
  closed : List Nat
  deriving DecidableEq, Repr

/-! ## Cue scheduler (R84, R96) -/

/-- The kinds of cue. -/
inductive CueKind where
  | change | cancel | final | platform | delay
  deriving DecidableEq, Repr

/-- The captured content of a cue (R85). A clock is a pair hh, mm. -/
structure Captured where
  kind : CueKind
  number : Nat
  run : Nat
  zones : List Nat
  destination : Text
  headcode : Option Text
  sched : Nat × Nat
  expected : Option (Nat × Nat)
  platform : Option Nat
  src : Option Nat
  dst : Option Nat
  delay : Option Nat
  reason : Option Text
  calls : List Text
  deriving DecidableEq, Repr

/-- What a TAKEN cue holds: its captured content, its speak timer, and the speak time in force at its TAKE
(R100: a CONF of it applies to later cues). -/
structure Taken where
  content : Captured
  timer : Nat
  limit : Nat
  deriving DecidableEq, Repr

/-- The states of a cue. -/
inductive CueState where
  | waiting
  | due
  | taken (t : Taken)
  deriving DecidableEq, Repr

/-- One cue (R84). The priority is that of its kind. -/
structure Cue where
  number : Nat
  kind : CueKind
  run : Nat
  zones : List Nat
  due : Int
  state : CueState
  attempts : Nat
  pendRev : Bool
  pendDrop : Bool
  deriving DecidableEq, Repr

/-- One announcement zone (R96). Busy is derived from the TAKEN cues. -/
structure Zone where
  no : Nat
  /-- The running second at which the gap ends. -/
  gapEnd : Option Nat
  held : Bool
  deriving DecidableEq, Repr

/-- The cue scheduler's state. The PA channel count is a parameter of the configuration in force. -/
structure Cues where
  /-- The cue list in creation order. -/
  list : List Cue
  /-- The cue number last assigned. -/
  last : Nat
  zones : List Zone
  deriving DecidableEq, Repr

/-! ## Wall compositor (R108 to R122) -/

/-- A rotation item (R109). -/
inductive Item where
  | note (number : Nat)
  | delay (run : Nat)
  deriving DecidableEq, Repr

/-- A content tag (R109). -/
inductive Tag where
  | row (run : Nat) (rev : Count16)
  | gate (run : Nat) (rev : Count16)
  | diversion (run : Nat) (rev : Count16)
  | empty (platform : Nat)
  | banner (item : Item) (count : Count16)
  | notice (number : Nat) (edition : Count16)
  | blank
  deriving DecidableEq, Repr

/-- One posted notice (R117). `expiry` is the running seconds remaining. -/
structure Posted where
  number : Nat
  priority : Nat
  text : Text
  edition : Count16
  expiry : Option Nat
  deriving DecidableEq, Repr

/-- The wall mode. -/
inductive WallMode where
  | normal | blank | notice
  deriving DecidableEq, Repr

/-- The wall compositor's state. -/
structure Wall where
  /-- The row map: pairs of a panel address and a run, in ascending row index. -/
  rowMap : List (Nat × Nat)
  /-- The gate page choice of each gate panel: its address and its tag. -/
  gateChoice : List (Nat × Tag)
  /-- The rotation list as last formed. -/
  items : List Item
  current : Option Item
  /-- The model's own field: the edition or revision of the current item's content as last composed, against which a
  change of that content is seen (R123; log entry 15). -/
  mark : Option Count16
  /-- The running seconds left of the dwell under way. -/
  dwell : Option Nat
  count : Count16
  /-- The posted notice list in posting order. -/
  posted : List Posted
  mode : WallMode
  /-- The note edition counter. -/
  edition : Count16
  deriving DecidableEq, Repr

/-! ## Panel bus controller (R130 to R142) -/

/-- The states of a panel. -/
inductive PanelState where
  | absent | probing | active | failed
  deriving DecidableEq, Repr

/-- One panel record (R130). A tag or level that is absent is the spec's *none*. -/
structure Panel where
  addr : Nat
  role : Role
  zone : Nat
  state : PanelState
  ec : Nat
  addressed : Bool
  errored : Bool
  goodRun : Nat
  /-- The desired tag; absent at an unconfigured address. -/
  desired : Option Tag
  sent : Option Tag
  acked : Option Tag
  desiredLevel : Nat
  sentLevel : Option Nat
  ackedLevel : Option Nat
  /-- The running time, in milliseconds, at the end of the last exchange with the panel. -/
  lastServed : Option Nat
  overtemp : Bool
  deriving DecidableEq, Repr

/-- The remarks of a row page (R114). -/
inductive Remark where
  | onTime | expected | boarding | closed | departed | cancelled
  deriving DecidableEq, Repr

/-- The content of a row page (R114). -/
structure RowPage where
  sched : Nat × Nat
  expected : Option (Nat × Nat)
  destination : Text
  headcode : Option Text
  platform : Option Nat
  remark : Remark
  highlight : Bool
  reason : Option Text
  calls : List Text
  deriving DecidableEq, Repr

/-- The content of a delay item of the banner rotation (R124). -/
structure DelayPage where
  headcode : Option Text
  sched : Nat × Nat
  destination : Text
  delay : Nat
  expected : Nat × Nat
  platform : Option Nat
  reason : Option Text
  deriving DecidableEq, Repr

/-- The frame a panel is sent: its kind and the content composed for it (R127, R132, R197). -/
inductive Content where
  | rowf (page : RowPage)
  | gatfDiversion (platform : Nat) (page : RowPage)
  | gatfNext (platform : Nat) (page : RowPage)
  | gatfEmpty (platform : Nat)
  | banfNotice (priority : Nat) (text : Text)
  | banfDelay (page : DelayPage)
  | notf (text : Text)
  | blkf
  | polf
  deriving DecidableEq, Repr

/-- Where an exchange stands (R133): the frame is being sent, or its reply window is open since the running
time given. -/
inductive Phase where
  | sending
  | window (openedAt : Nat)
  deriving DecidableEq, Repr

/-- The exchange in flight (R133, R138, R141). -/
structure Exchange where
  addr : Nat
  seq : Octet
  level : Nat
  content : Content
  /-- The retries remembered from the urgent list, for an urgent exchange. -/
  urgent : Option Nat
  /-- The panel's state at the start. -/
  startState : PanelState
  /-- An RSET has been taken since the start. -/
  rset : Bool
  phase : Phase
  deriving DecidableEq, Repr

/-- An entry of the urgent list (R140). -/
structure Urgent where
  addr : Nat
  retries : Nat
  deriving DecidableEq, Repr

/-- The panel bus controller's state. The bus is BUSY exactly while an exchange is in flight (R139). -/
structure Bus where
  panels : List Panel
  urgent : List Urgent
  pointer : Nat
  seq : Octet
  /-- The running time at which the interval under way ends, milliseconds. -/
  intervalEnd : Nat
  exchange : Option Exchange
  deriving DecidableEq, Repr

/-! ## Analog sensing unit (R151 to R158) -/

/-- One light channel (R151); assignment 0 is unused. -/
structure LightChannel where
  no : Nat
  zone : Nat
  faultyRun : Nat
  goodRun : Nat
  fault : Bool
  reading : Option Nat
  deriving DecidableEq, Repr

/-- The converter (R152). A check holds the threshold in force when it began (R157). -/
inductive Converter where
  | idle
  | light (channel : Nat)
  | check (line : Fin 4) (threshold : Nat)
  deriving DecidableEq, Repr

/-- The light state of a brightness zone (R158). -/
structure LightZone where
  no : Nat
  level : Nat
  target : Nat
  deriving DecidableEq, Repr

/-- The analog sensing unit's state. -/
structure Sense where
  channels : List LightChannel
  converter : Converter
  /-- The line-check queue in request order, the check in conversion at its head. -/
  queue : List (Fin 4)
  /-- The scan position; present while a pass is in progress. -/
  position : Option Nat
  /-- The running time at which the scan timer falls due, milliseconds. -/
  scanDue : Nat
  zones : List LightZone
  deriving DecidableEq, Repr

/-! ## Impulse line driver (R165) -/

/-- The states of a line (R166). -/
inductive LineState where
  | off | paused | run | advance | hold | fault
  deriving DecidableEq, Repr

/-- The polarity of an impulse. -/
inductive Polarity where
  | pos | neg
  deriving DecidableEq, Repr

/-- The impulse on a line: its start, polarity and width, fixed when it begins (R172), and whether its line
check has been requested. -/
structure Impulse where
  start : Nat
  polarity : Polarity
  width : Nat
  asked : Bool
  deriving DecidableEq, Repr

/-- A DIAL held until the impulse ends (R175). -/
inductive PendingDial where
  | set (position : Nat) (polarity : Polarity)
  | off
  deriving DecidableEq, Repr

/-- One line record (R165). The check result is true for PRESENT. -/
structure Line where
  no : Fin 4
  state : LineState
  dial : Nat
  polarity : Polarity
  missed : Nat
  inUse : Bool
  impulse : Option Impulse
  result : Option Bool
  nextAt : Option Nat
  deferred : Bool
  /-- One of the decisions deferred was called for by a minute advance (R168). -/
  deferredMinute : Bool
  pendingDial : Option PendingDial
  deriving DecidableEq, Repr

/-! ## Link controller (R179) -/

/-- A telegram as it passed framing: kind, sequence number, body (R194). -/
structure Tel where
  kind : Octet
  seq : Octet
  body : List Octet
  deriving DecidableEq, Repr

/-- The notice kinds, in the order of the notice table (R185). -/
inductive NoticeKind where
  | restarted | expired | panelFailed | panelRecovered | sensorFault | clockFault | cueDropped | speakTimeout
  | changeInformed | changeVoid | changeUntracked | portSilent | holdover | timeStepped | storeInvalid
  deriving DecidableEq, Repr

/-- The subject of a notice (R185). -/
inductive Subject where
  | absent
  | run (n : Nat)
  | panel (addr : Nat)
  | line (n : Fin 4)
  | light (n : Nat)
  | port (p : PortId)
  deriving DecidableEq, Repr

/-- One notice (R185). -/
structure Notice where
  kind : NoticeKind
  subject : Subject
  time : Nat
  deriving DecidableEq, Repr

/-- The service of a port (R182). -/
inductive Service where
  | idle | serving | replying
  deriving DecidableEq, Repr

/-- The result codes (R183, R194). -/
inductive Code where
  | accepted | unknown | wrongPort | badField | noEntry | duplicate | tableFull | past | wrongState | timeUnset
  | notTimeSource | timeRange | acrossDayStart | noticeFull | noNotice | noRecord | busy | none | tooLate
  deriving DecidableEq, Repr

/-- One summary of a READ reply (R23). -/
structure Summary where
  run : Nat
  position : Nat
  state : EntryState
  sched : Int
  dd : Nat
  exp : Int
  platform : Option Nat
  rev : Count16
  rowIndex : Option Nat
  deriving DecidableEq, Repr

/-- The fate of a cue reported by SPKN (R101). -/
inductive Fate where
  | ended | due | waiting
  deriving DecidableEq, Repr

/-- The result fields of a reply (R196). -/
inductive Result where
  | none
  | revision (rev : Count16)
  | summaries (n : Nat) (list : List Summary)
  | record (r : ChangeRec) (entryRev : Option Count16)
  | clock (clock : Nat) (state : TimeState) (offset : Option Int)
  | cue (content : Captured) (attempts : Nat)
  | fate (f : Fate) (attempts : Nat)
  | zones (held : List Nat)
  | posted (count : Nat) (mode : WallMode)
  | mode (mode : WallMode) (shown : Option Nat)
  | line (state : LineState) (dial : Nat) (polarity : Polarity) (missed : Nat) (pending : Bool)
  | parameter (number : Nat) (structural : Bool) (value : Nat)
  | notices (list : List Notice) (more overflow : Bool)
  deriving DecidableEq, Repr

/-- A reply telegram, its CRC left to Machine/Wire.lean (R194). -/
structure Reply where
  kind : Octet
  seq : Octet
  code : Code
  clamped : Bool
  untracked : Bool
  field : Nat
  result : Result
  deriving DecidableEq, Repr

/-- One port record (R179). -/
structure Port where
  live : Bool
  silence : Nat
  buffer : List Tel
  service : Service
  /-- The reply being transmitted; present while REPLYING. -/
  reply : Option Reply
  notices : List Notice
  overflow : Bool
  attention : Bool
  deriving DecidableEq, Repr

/-- The three port records. -/
structure Ports where
  planning : Port
  signalling : Port
  announcement : Port
  deriving DecidableEq, Repr

/-! ## Retention store (R191) -/

/-- One part of the store and whether its contents pass its check. -/
structure StoredPart (α : Type) where
  contents : α
  good : Bool
  deriving DecidableEq, Repr

/-- What the dial part holds for one line (R176). -/
structure DialEntry where
  dial : Nat
  polarity : Polarity
  inUse : Bool
  deriving DecidableEq, Repr

/-- The retention store. -/
structure Store where
  configuration : StoredPart Params
  dials : StoredPart (List DialEntry)
  deriving DecidableEq, Repr

/-! ## The whole part -/

/-- The state of the 2460 and the queue of the commands that wait. -/
structure State where
  /-- The commands waiting, first in, first out (the model's own). -/
  pending : List Instr
  /-- Power is applied (implied by R191). -/
  powered : Bool
  inForce : Params
  /-- The pending configuration (R188). -/
  pendingCfg : Params
  ports : Ports
  time : TimeBase
  table : Table
  tracker : Tracker
  cues : Cues
  wall : Wall
  bus : Bus
  sense : Sense
  /-- The four line records, line 0 first. -/
  lines : List Line
  store : Store
  deriving DecidableEq, Repr

/-- Why a step faults. The spec describes no fault of the part as a whole: every command has an effect, or is
answered or discarded, so no command raises a fault. -/
inductive Fault where
  /-- Raised by no command; the type is closed with it. Safe. -/
  | neverRaised
  deriving DecidableEq, Repr

/-- Why a step is refused. -/
inductive Refusal where
  /-- Raised only by an arm of `exec` whose command has no meaning yet; no arm is so. Safe. -/
  | notModelled (mnemonic : String)
  deriving DecidableEq, Repr

/-! ## The state after reset -/

/-- The prediction filter of a new entry (R26). -/
def Filter.empty : Filter := { dp := none, cand := none, k := 0, age := 0 }

/-- The time base after power-on (R46). DESIGN CHOICE (log entry 2): the running time starts at 0. -/
def TimeBase.reset : TimeBase :=
  { clock := 0, state := .unset, slew := 0, held := false, holdover := 0, runSec := 0, runMs := 0, subMs := 0,
    limitsMoved := [] }

/-- The 25 announcement zones, all free (R96). -/
def Zone.allFree : List Zone := (List.range 25).map fun z => { no := z, gapEnd := none, held := false }

/-- A port record after power-on with the notices given (R179). -/
def Port.reset (notices : List Notice) : Port :=
  { live := true, silence := 0, buffer := [], service := .idle, reply := none, notices := notices,
    overflow := false, attention := true }

/-- The record of an unconfigured address at power-on (R131). DESIGN CHOICE (log entry 3): its desired level,
which no rule writes, is 0. -/
def Panel.absentAt (addr zone : Nat) : Panel :=
  { addr := addr, role := .none, zone := zone, state := .absent, ec := 0, addressed := false, errored := false,
    goodRun := 0, desired := none, sent := none, acked := none, desiredLevel := 0, sentLevel := none,
    ackedLevel := none, lastServed := none, overtemp := false }

/-- A line record loaded from an invalid dial part (R165). -/
def Line.faulted (n : Fin 4) : Line :=
  { no := n, state := .fault, dial := 0, polarity := .pos, missed := 3, inUse := true, impulse := none,
    result := none, nextAt := none, deferred := false, deferredMinute := false, pendingDial := none }

/-- A retention store that has never been written. DESIGN CHOICE (log entry 1): both of its parts fail their
checks, the case in which the spec gives every value. -/
def Store.unwritten : Store :=
  { configuration := { contents := Params.default, good := false },
    dials := { contents := [], good := false } }

/-- The 2460 right after power-on with a retention store that has never been written: every parameter at its
default (R191), every block at its reset values, and the notices of the load in the lists. -/
def State.reset : State :=
  { pending := []
    powered := true
    inForce := Params.default
    pendingCfg := Params.default
    ports :=
      { planning := Port.reset
          [ ⟨.restarted, .absent, 0⟩, ⟨.storeInvalid, .absent, 0⟩, ⟨.clockFault, .line 0, 0⟩,
            ⟨.clockFault, .line 1, 0⟩, ⟨.clockFault, .line 2, 0⟩, ⟨.clockFault, .line 3, 0⟩ ]
        signalling := Port.reset [⟨.restarted, .absent, 0⟩]
        announcement := Port.reset [⟨.restarted, .absent, 0⟩] }
    time := TimeBase.reset
    table := { entries := [], displayable := [] }
    tracker := { records := [], closed := [] }
    cues := { list := [], last := 0, zones := Zone.allFree }
    wall :=
      { rowMap := [], gateChoice := [], items := [], current := none, mark := none, dwell := none, count := 0,
        posted := [], mode := .normal, edition := 0 }
    bus :=
      { panels := (List.range 60).map fun i => Panel.absentAt (i + 1) 1
        urgent := [], pointer := 1, seq := 0, intervalEnd := 1000, exchange := none }
    sense :=
      { channels := [1, 1, 2, 2, 3, 3, 4, 4].zipIdx.map fun (z, i) =>
          { no := i, zone := z, faultyRun := 0, goodRun := 0, fault := false, reading := none }
        converter := .idle, queue := [], position := none, scanDue := 500
        zones := [1, 2, 3, 4].map fun z => { no := z, level := 15, target := 15 } }
    lines := [Line.faulted 0, Line.faulted 1, Line.faulted 2, Line.faulted 3]
    store := Store.unwritten }

end Sys2Proof.Machine
end

