-- ==== Sys2Proof/Machine/Params.lean ====
section
/-! DEFINITION. The parameter table (R198): number, range, class, and how a value is read and set. -/
namespace Sys2Proof.Machine

open Sys2Proof

/-- The code of a role (R198). -/
def roleCode : Role → Nat
  | .none => 0
  | .row i => i
  | .gate p => 100 + p
  | .banner => 200

/-- The role of a listed code (R198). -/
def roleOfCode (v : Nat) : Role :=
  if v = 0 then .none
  else if v ≤ 32 then .row v
  else if v ≤ 124 then .gate (v - 100)
  else .banner

/-- The nearest listed role code, the lower of two equally near (R198): the codes are 0..32, 101..124 and 200. -/
def nearestRoleCode (v : Nat) : Nat :=
  if v ≤ 32 then v
  else if v ≤ 66 then 32
  else if v ≤ 101 then 101
  else if v ≤ 124 then v
  else if v ≤ 162 then 124
  else 200

/-- How a CONF value is brought into its parameter's range. -/
inductive ParamRange where
  | span (lo hi : Nat)
  | role
  deriving DecidableEq, Repr

/-- The nearest value of a range (R189, R198). -/
def ParamRange.nearest : ParamRange → Nat → Nat
  | .span lo hi, v => max lo (min hi v)
  | .role, v => nearestRoleCode v

/-- One row of the parameter table. -/
structure ParamRow where
  range : ParamRange
  structural : Bool
  deriving DecidableEq, Repr

/-- The timing parameters: number, lowest and highest value (R198). -/
def timingTable : List (Nat × Nat × Nat) :=
  [ (301, 1, 3), (302, 1, 9), (303, 1, 30), (304, 60, 900), (311, 0, 60), (312, 5, 120), (313, 0, 10),
    (314, 1, 60), (315, 30, 720), (321, 10, 1440), (331, 10, 180), (332, 1, 60), (341, 1, 30), (342, 0, 10),
    (343, 1, 60), (344, 1, 30), (345, 0, 60), (346, 0, 60), (347, 30, 300), (351, 2, 30), (361, 8, 255),
    (362, 1, 64), (363, 0, 16), (364, 1, 10), (365, 1, 60), (366, 2, 120), (371, 100, 5000), (372, 0, 1023),
    (373, 0, 15), (374, 0, 15), (381, 100, 2000), (382, 1, 10), (383, 60, 719), (391, 2, 600), (392, 2, 600),
    (393, 2, 600) ]

/-- The row of a parameter number, if the parameter table gives it (R198). -/
def paramRow (n : Nat) : Option ParamRow :=
  if n = 1 then some ⟨.span 1 24, true⟩
  else if n = 2 then some ⟨.span 0 1439, true⟩
  else if n = 3 then some ⟨.span 0 1, true⟩
  else if n = 4 then some ⟨.span 1 4, true⟩
  else if 10 ≤ n ∧ n ≤ 17 then some ⟨.span 0 4, true⟩
  else if 101 ≤ n ∧ n ≤ 160 then some ⟨.role, true⟩
  else if 201 ≤ n ∧ n ≤ 260 then some ⟨.span 1 4, true⟩
  else (timingTable.find? (·.1 = n)).map fun (_, lo, hi) => ⟨.span lo hi, false⟩

/-- The number of a port as an enumerated value (R196, R198). -/
def portCode : PortId → Nat
  | .planning => 0
  | .signalling => 1
  | .announcement => 2

/-- `p` with parameter `n` set to the value `v` of its range. -/
def Params.setNumber (n v : Nat) (p : Params) : Params :=
  match n with
  | 1 => { p with platforms := v }
  | 2 => { p with dayStart := v }
  | 3 => { p with timePort := if v = 0 then .planning else .signalling }
  | 4 => { p with channels := v }
  | 301 => { p with confirm := v }
  | 302 => { p with hysteresis := v }
  | 303 => { p with lateness := v }
  | 304 => { p with stale := v }
  | 311 => { p with boarding := v }
  | 312 => { p with overdue := v }
  | 313 => { p with departedLinger := v }
  | 314 => { p with cancelledLinger := v }
  | 315 => { p with horizon := v }
  | 321 => { p with holdover := v }
  | 331 => { p with published := v }
  | 332 => { p with diversionHold := v }
  | 341 => { p with platformLead := v }
  | 342 => { p with finalLead := v }
  | 343 => { p with delayThreshold := v }
  | 344 => { p with delayStep := v }
  | 345 => { p with repeatPeriod := v }
  | 346 => { p with zoneGap := v }
  | 347 => { p with speakTime := v }
  | 351 => { p with dwell := v }
  | 361 => { p with failThreshold := v }
  | 362 => { p with increment := v }
  | 363 => { p with decrement := v }
  | 364 => { p with interval := v }
  | 365 => { p with keepalive := v }
  | 366 => { p with probe := v }
  | 371 => { p with scanPeriod := v }
  | 372 => { p with lineThreshold := v }
  | 373 => { p with floor := v }
  | 374 => { p with ceiling := v }
  | 381 => { p with impulseWidth := v }
  | 382 => { p with fastPeriod := v }
  | 383 => { p with advanceLimit := v }
  | 391 => { p with silencePlanning := v }
  | 392 => { p with silenceSignalling := v }
  | 393 => { p with silenceAnnouncement := v }
  | n =>
    if 10 ≤ n ∧ n ≤ 17 then { p with lightZones := p.lightZones.set (n - 10) v }
    else if 101 ≤ n ∧ n ≤ 160 then { p with roles := p.roles.set (n - 101) (roleOfCode v) }
    else if 201 ≤ n ∧ n ≤ 260 then { p with panelZones := p.panelZones.set (n - 201) v }
    else p

/-- The silence limit of a port, in seconds (R179). -/
def Params.silenceLimit (p : Params) : PortId → Nat
  | .planning => p.silencePlanning
  | .signalling => p.silenceSignalling
  | .announcement => p.silenceAnnouncement

/-- The parameter number of a port's silence limit (R198). -/
def silenceParam (p : PortId) : Nat := 391 + portCode p

/-- The structural parameters of `pending` over the timing parameters of `inForce` (R188, R192). -/
def Params.withStructural (inForce pending : Params) : Params :=
  { inForce with
    platforms := pending.platforms
    dayStart := pending.dayStart
    timePort := pending.timePort
    channels := pending.channels
    lightZones := pending.lightZones
    roles := pending.roles
    panelZones := pending.panelZones }

/-- The role configured for address `a` (1..60). -/
def Params.roleAt (p : Params) (a : Nat) : Role := p.roles.getD (a - 1) .none

/-- The role that address `a` keeps once the conflicts are settled (R108): a gate panel of a platform beyond
P, or of a platform that a lower address already has, counts as unconfigured. -/
def Params.settledRole (p : Params) (a : Nat) : Role :=
  match p.roleAt a with
  | .gate g =>
    if g > p.platforms then .none
    else if (List.range (a - 1)).any (fun b => p.roleAt (b + 1) = .gate g) then .none
    else .gate g
  | r => r

end Sys2Proof.Machine
end

