-- ==== Sys2Proof/Machine/Ops.lean ====
section
/-! DEFINITION. The named operations over the state: the running time and station time, the port records and
notices, the departure table, the panel records, the line records. -/
namespace Sys2Proof.Machine

open Sys2Proof

/-- What a command answers: `t` while power is applied; without power the part does nothing (R191). -/
def State.answer (s t : State) : Host.Outcome State Fault Refusal :=
  .next (if s.powered then t else s)

/-! ## Running time and station time -/

/-- The running time in milliseconds (R130). -/
def State.runTime (s : State) : Nat := s.time.runMs + s.time.subMs

/-- The running time moved on to `ms` milliseconds after the running second last counted; it never moves back
and stays within that second. DESIGN CHOICE (log entry 47): an event whose time is the very instant of the next running
second, a next impulse time among them, comes after that second (R178). -/
def State.atMs (ms : Nat) (s : State) : State :=
  { s with time := { s.time with subMs := max s.time.subMs (min ms 999) } }

/-- The service-day elapsed seconds e (R48). -/
def State.elapsed (s : State) : Int := ((s.time.clock : Int) - 60 * s.inForce.dayStart) % 86400

/-- The absolute minute of the station clock (R48). -/
def State.now (s : State) : Int := s.elapsed / 60

/-- The clock form hh, mm of an absolute minute (R40). -/
def clockForm (dayStart : Nat) (x : Int) : Nat × Nat :=
  let m := ((x + dayStart) % 1440).toNat
  (m / 60, m % 60)

/-! ## Ports and notices -/

/-- The record of a port. -/
def Ports.get (ps : Ports) : PortId → Port
  | .planning => ps.planning
  | .signalling => ps.signalling
  | .announcement => ps.announcement

/-- `ps` with the record of port `p` changed by `f`. -/
def Ports.upd (p : PortId) (f : Port → Port) (ps : Ports) : Ports :=
  match p with
  | .planning => { ps with planning := f ps.planning }
  | .signalling => { ps with signalling := f ps.signalling }
  | .announcement => { ps with announcement := f ps.announcement }

/-- The record of port `p`. -/
def State.port (s : State) (p : PortId) : Port := s.ports.get p

/-- `s` with the record of port `p` changed by `f`. -/
def State.updPort (p : PortId) (f : Port → Port) (s : State) : State :=
  { s with ports := s.ports.upd p f }

/-- A notice offered to a port's list: placed at its end, or dropped with the overflow flag set when the list
holds 16 (R185). -/
def Port.post (n : Notice) (r : Port) : Port :=
  if r.notices.length < 16 then { r with notices := r.notices ++ [n] } else { r with overflow := true }

/-- Post a notice to the lists of the ports named (R185). -/
def State.post (names : List PortId) (kind : NoticeKind) (subject : Subject) (s : State) : State :=
  names.foldl (fun t p => t.updPort p (Port.post ⟨kind, subject, s.time.clock⟩)) s

/-! ## Departure table -/

/-- The entry of a run. -/
def State.entry? (run : Nat) (s : State) : Option Entry := s.table.entries.find? (·.run = run)

/-- The displayed platform of an entry (R4). -/
def Entry.displayed (e : Entry) : Option Nat :=
  match e.assigned with
  | some p => some p
  | none => e.planned

/-- The entry is LISTED or BOARDING. -/
def Entry.awaiting (e : Entry) : Bool := e.state = .listed || e.state = .boarding

/-- The entry is LISTED, BOARDING or CLOSED. -/
def Entry.inService (e : Entry) : Bool := e.state = .listed || e.state = .boarding || e.state = .closed

/-- The order of the key (A, As, run) (R2). -/
def keyLt (a b : Entry) : Bool :=
  a.exp < b.exp || (a.exp = b.exp && (a.sched < b.sched || (a.sched = b.sched && a.run < b.run)))

/-- Put an entry into its place. -/
def insertEntry (e : Entry) : List Entry → List Entry
  | [] => [e]
  | x :: xs => if keyLt e x then e :: x :: xs else x :: insertEntry e xs

/-- The entries in table order (R2). -/
def sortEntries (l : List Entry) : List Entry := l.foldr insertEntry []

/-- `s` with these entries, in table order. -/
def State.withEntries (l : List Entry) (s : State) : State :=
  { s with table := { s.table with entries := sortEntries l } }

/-- `s` with the entry of `run` changed by `f`, where `f` does not touch its key. -/
def State.updEntry (run : Nat) (f : Entry → Entry) (s : State) : State :=
  { s with table := { s.table with entries := updWhere (·.run = run) f s.table.entries } }

/-- The entry is displayable (R12). -/
def State.canShow (s : State) (e : Entry) : Bool :=
  e.state ≠ .retiring && e.exp ≤ s.now + s.inForce.horizon

/-- Derive the displayable set afresh (R12). -/
def State.rederive (s : State) : State :=
  { s with table := { s.table with displayable := (s.table.entries.filter s.canShow).map (·.run) } }

/-- The entries of the displayable set as last derived. -/
def State.displayed (s : State) : List Entry :=
  s.table.entries.filter fun e => s.table.displayable.contains e.run

/-- The next departure at platform `p`: the earliest LISTED, BOARDING or CLOSED entry displayed there (R79). -/
def State.nextAtPlatform (s : State) (p : Nat) : Option Entry :=
  s.table.entries.find? fun e => e.inService && e.displayed = some p

/-! ## Panels -/

/-- The panel record of an address. -/
def State.panel? (addr : Nat) (s : State) : Option Panel := s.bus.panels.find? (·.addr = addr)

/-- `s` with the panel record of `addr` changed by `f`. -/
def State.updPanel (addr : Nat) (f : Panel → Panel) (s : State) : State :=
  { s with bus := { s.bus with panels := updWhere (·.addr = addr) f s.bus.panels } }

/-- The gate panel of platform `p` (R108). -/
def State.gatePanel (s : State) (p : Nat) : Option Panel := s.bus.panels.find? (·.role = .gate p)

/-- The panel is configured. -/
def Panel.configured (p : Panel) : Bool := p.role ≠ .none

/-- The row panel to which the row map assigns the entry of `run` (R112). -/
def State.rowPanelOf (s : State) (run : Nat) : Option Nat := (s.wall.rowMap.find? (·.2 = run)).map (·.1)

/-- The urgent list after the compositor's append of one address (R140). -/
def urgentAppend (addr : Nat) (l : List Urgent) : List Urgent :=
  if l.any (·.addr = addr) then updWhere (·.addr = addr) (fun u => { u with retries := 2 }) l
  else l ++ [⟨addr, 2⟩]

/-- The compositor's appends for one entry: its row panel, then the gate panel of a platform (R128). -/
def State.appendUrgent (run : Nat) (platform : Option Nat) (s : State) : State :=
  let row := (s.rowPanelOf run).toList
  let gate := ((platform.bind s.gatePanel).map (·.addr)).toList
  { s with bus := { s.bus with urgent := (row ++ gate).foldl (fun l a => urgentAppend a l) s.bus.urgent } }

/-! ## Lines -/

/-- The record of a line. -/
def State.line? (n : Fin 4) (s : State) : Option Line := s.lines.find? (·.no = n)

/-- `s` with the record of line `n` changed by `f`. -/
def State.updLine (n : Fin 4) (f : Line → Line) (s : State) : State :=
  { s with lines := updWhere (·.no = n) f s.lines }

end Sys2Proof.Machine
end

