-- ==== Sys2Proof/Machine/Flags.lean ====
section
/-! DEFINITION. The conditions that are derived from the state: lateness class, staleness, zone and cue
eligibility, the attention lines. -/
namespace Sys2Proof.Machine

open Sys2Proof

/-- The lateness class LATE (R41). -/
def Entry.late (lateness : Nat) (e : Entry) : Bool := lateness ≤ e.dd

/-- The desired tag differs from the acknowledged tag (R109, R110). -/
def Panel.tagStale (p : Panel) : Bool := p.desired ≠ p.acked

/-- The desired level differs from the acknowledged level (R110). -/
def Panel.levelStale (p : Panel) : Bool := p.ackedLevel ≠ some p.desiredLevel

/-- The panel is stale (R110). -/
def Panel.stale (p : Panel) : Bool := p.tagStale || p.levelStale

/-- The cue is TAKEN. -/
def Cue.isTaken (c : Cue) : Bool :=
  match c.state with
  | .taken _ => true
  | _ => false

/-- The zone is busy: a TAKEN cue covers it (R96). -/
def State.zoneBusy (s : State) (z : Nat) : Bool := s.cues.list.any fun c => c.isTaken && c.zones.contains z

/-- The zone is in gap or held (R96). -/
def State.zoneClosed (s : State) (z : Nat) : Bool :=
  s.cues.zones.any fun r => r.no = z && (r.gapEnd.isSome || r.held)

/-- The cue is eligible: DUE, and none of its zones is busy, in gap or held (R99). -/
def State.eligible (s : State) (c : Cue) : Bool :=
  c.state = .due && c.zones.all fun z => !s.zoneBusy z && !s.zoneClosed z

/-- Whether the attention line of a port is asserted (R106, R187). -/
def State.wantsAttention (s : State) : PortId → Bool
  | .announcement => !s.ports.announcement.notices.isEmpty || s.cues.list.any s.eligible
  | p => !(s.port p).notices.isEmpty

/-- Settle the attention lines of the three ports (R106, R187). -/
def State.settleAttention (s : State) : State :=
  { s with
    ports :=
      { planning := { s.ports.planning with attention := s.wantsAttention .planning }
        signalling := { s.ports.signalling with attention := s.wantsAttention .signalling }
        announcement := { s.ports.announcement with attention := s.wantsAttention .announcement } } }

end Sys2Proof.Machine
end

