-- ==== Sys2Proof/Machine/Operands.lean ====
section
/-! DEFINITION. The operands of the telegram commands: link framing (R180, R194), the telegram kinds and the
ports that accept them, the body layouts (R195) with how each field is read, and their encoder. -/
namespace Sys2Proof.Machine

open Sys2Proof

/-! ## Framing (R194) -/

/-- The flag octet. -/
def flagOctet : Octet := 0x9A

/-- The escape octet. -/
def escapeOctet : Octet := 0x9B

/-- Undo the escapes of the octets between two flags; none where they hold a flag or end in an escape, which
with the flag that follows is the abort sequence. DEDUCED (log entry 6): every octet after an escape is taken XOR 0x40. -/
def unescape : List Octet → Option (List Octet)
  | [] => some []
  | [x] => if x = flagOctet ∨ x = escapeOctet then none else some [x]
  | x :: y :: r =>
    if x = escapeOctet then
      if y = flagOctet then none else (unescape r).map ((y ^^^ 0x40) :: ·)
    else if x = flagOctet then none
    else (unescape (y :: r)).map (x :: ·)

/-- The octets as they are sent between two flags. -/
def escape (l : List Octet) : List Octet :=
  l.flatMap fun x => if x = flagOctet ∨ x = escapeOctet then [escapeOctet, x ^^^ 0x40] else [x]

/-- One bit of the CRC register, generator x^16 + x^12 + x^5 + 1. -/
def crcBit (c : BitVec 16) : BitVec 16 := if c.msb then (c <<< 1) ^^^ 0x1021#16 else c <<< 1

/-- The CRC register after one octet, most significant bit first. -/
def crcOctet (c : BitVec 16) (o : Octet) : BitVec 16 :=
  let c := c ^^^ (o.zeroExtend 16 <<< 8)
  crcBit (crcBit (crcBit (crcBit (crcBit (crcBit (crcBit (crcBit c)))))))

/-- The CRC over a string of octets. -/
def crc16 (l : List Octet) : BitVec 16 := l.foldl crcOctet 0xFFFF#16

/-- The CRC octets, high octet first. -/
def crcOctets (l : List Octet) : List Octet := [(crc16 l).extractLsb' 8 8, (crc16 l).extractLsb' 0 8]

/-- The octets before a correct CRC; none where the CRC does not match or there is no room for one. -/
def checkCrc (l : List Octet) : Option (List Octet) :=
  let n := l.length - 2
  if 2 ≤ l.length ∧ l.drop n = crcOctets (l.take n) then some (l.take n) else none

/-- The judgement of a telegram frame (R180): the telegram of a frame that passes framing. -/
def judgeFrame (octets : List Octet) : Option Tel :=
  match unescape octets with
  | none => none
  | some l =>
    if 4 ≤ l.length ∧ l.length ≤ 256 then
      match checkCrc l with
      | some (kind :: seq :: body) => some ⟨kind, seq, body⟩
      | _ => none
    else none

/-! ## Kinds and ports -/

/-- The telegram kinds (R195). -/
inductive Kind where
  | plan | amnd | dlay | canc | rins | plat | pred | rdys | dept | csta | note | nclr | wall | time | dial
  | conf | csav | rset | read | poll | take | spkn | zone
  deriving DecidableEq, Repr

/-- The kind octet (R195). -/
def Kind.code : Kind → Octet
  | .plan => 0x10
  | .amnd => 0x11
  | .dlay => 0x12
  | .canc => 0x13
  | .rins => 0x14
  | .plat => 0x18
  | .pred => 0x19
  | .rdys => 0x1A
  | .dept => 0x1B
  | .csta => 0x1C
  | .note => 0x20
  | .nclr => 0x21
  | .wall => 0x22
  | .time => 0x30
  | .dial => 0x31
  | .conf => 0x40
  | .csav => 0x41
  | .rset => 0x42
  | .read => 0x50
  | .poll => 0x51
  | .take => 0x60
  | .spkn => 0x61
  | .zone => 0x62

/-- Every telegram kind. -/
def Kind.all : List Kind :=
  [.plan, .amnd, .dlay, .canc, .rins, .plat, .pred, .rdys, .dept, .csta, .note, .nclr, .wall, .time, .dial,
   .conf, .csav, .rset, .read, .poll, .take, .spkn, .zone]

/-- The kind of a kind octet, if it is defined. -/
def Kind.ofCode (c : Octet) : Option Kind := Kind.all.find? (·.code = c)

/-- The kinds each port accepts (00_scope, Telegrams by port; R183). -/
def PortId.accepts : PortId → Kind → Bool
  | .planning, k =>
    [Kind.plan, .amnd, .dlay, .canc, .rins, .note, .nclr, .wall, .time, .dial, .conf, .csav, .rset, .read, .poll].contains k
  | .signalling, k => [Kind.plat, .pred, .rdys, .dept, .csta, .time, .read, .poll].contains k
  | .announcement, k => [Kind.take, .spkn, .zone, .poll].contains k

/-! ## Field coding (R194) -/

/-- A one-octet number. -/
def get8 : List Octet → Option (Nat × List Octet)
  | a :: r => some (a.toNat, r)
  | _ => none

/-- A two-octet number, high octet first. -/
def get16 : List Octet → Option (Nat × List Octet)
  | a :: b :: r => some (a.toNat * 256 + b.toNat, r)
  | _ => none

/-- A four-octet number, high octet first. -/
def get32 : List Octet → Option (Nat × List Octet)
  | a :: b :: c :: d :: r => some (((a.toNat * 256 + b.toNat) * 256 + c.toNat) * 256 + d.toNat, r)
  | _ => none

/-- A four-octet number in two's complement. -/
def getSigned32 (l : List Octet) : Option (Int × List Octet) :=
  (get32 l).map fun (n, r) => ((BitVec.ofNat 32 n).toInt, r)

/-- `n` octets as they stand. -/
def getOctets (n : Nat) (l : List Octet) : Option (List Octet × List Octet) :=
  if n ≤ l.length then some (l.take n, l.drop n) else none

/-- A text: a length octet and that many character codes. -/
def getText (l : List Octet) : Option (Text × List Octet) :=
  match get8 l with
  | some (n, r) => getOctets n r
  | none => none

/-- `n` texts. -/
def getTexts : Nat → List Octet → Option (List Text × List Octet)
  | 0, l => some ([], l)
  | n + 1, l =>
    match getText l with
    | some (t, r) => (getTexts n r).map fun (ts, r) => (t :: ts, r)
    | none => none

/-- A list of texts: a count octet and its items. -/
def getTextList (l : List Octet) : Option (List Text × List Octet) :=
  match get8 l with
  | some (n, r) => getTexts n r
  | none => none

/-- A value that uses up the whole body; none where octets are left over (R183, R194). -/
def whole {α : Type} (r : Option (α × List Octet)) : Option α :=
  match r with
  | some (a, []) => some a
  | _ => none

/-- `n` as one octet. -/
def put8 (n : Nat) : List Octet := [BitVec.ofNat 8 n]

/-- `n` as two octets, high octet first. -/
def put16 (n : Nat) : List Octet := [BitVec.ofNat 8 (n / 256), BitVec.ofNat 8 n]

/-- `n` as four octets, high octet first. -/
def put32 (n : Nat) : List Octet :=
  [BitVec.ofNat 8 (n / 16777216), BitVec.ofNat 8 (n / 65536), BitVec.ofNat 8 (n / 256), BitVec.ofNat 8 n]

/-- An integer as two octets in two's complement. -/
def putSigned16 (n : Int) : List Octet := put16 (BitVec.ofInt 16 n).toNat

/-- An integer as four octets in two's complement. -/
def putSigned32 (n : Int) : List Octet := put32 (BitVec.ofInt 32 n).toNat

/-- A text with its length octet. -/
def putText (t : Text) : List Octet := put8 t.length ++ t

/-- A list of texts with its count octet. -/
def putTextList (l : List Text) : List Octet := put8 l.length ++ l.flatMap putText

/-! ## Body layouts (R195) -/

structure PlanFields where
  run : Nat
  headcode : Text
  destination : Text
  calls : List Text
  hh : Nat
  mm : Nat
  day : Nat
  platform : Nat
  deriving DecidableEq, Repr

structure AmndFields where
  run : Nat
  presence : Nat
  headcode : Option Text
  destination : Option Text
  calls : Option (List Text)
  clock : Option (Nat × Nat)
  day : Option Nat
  platform : Option Nat
  deriving DecidableEq, Repr

structure DlayFields where
  run : Nat
  mode : Nat
  minutes : Nat
  reason : Text
  deriving DecidableEq, Repr

structure CancFields where
  run : Nat
  reason : Text
  deriving DecidableEq, Repr

structure PlatFields where
  run : Nat
  platform : Nat
  deriving DecidableEq, Repr

structure PredFields where
  run : Nat
  mode : Nat
  seconds : Int
  deriving DecidableEq, Repr

structure NoteFields where
  number : Nat
  priority : Nat
  text : Text
  expiry : Nat
  deriving DecidableEq, Repr

structure DialFields where
  line : Nat
  action : Nat
  setting : Option (Nat × Nat)
  deriving DecidableEq, Repr

structure ConfFields where
  number : Nat
  value : Nat
  deriving DecidableEq, Repr

structure ReadFields where
  startKind : Nat
  start : Nat
  direction : Nat
  count : Nat
  deriving DecidableEq, Repr

structure SpknFields where
  cue : Nat
  outcome : Nat
  deriving DecidableEq, Repr

structure ZoneFields where
  action : Nat
  zones : List Nat
  deriving DecidableEq, Repr

/-- A body of no fields. -/
def readNothing (b : List Octet) : Option Unit := if b = [] then some () else none

/-- A body of one run (RINS, RDYS, DEPT, CSTA). -/
def readRun (b : List Octet) : Option Nat := whole (get16 b)

/-- A body of one octet (NCLR, WALL). -/
def readOctet (b : List Octet) : Option Nat := whole (get8 b)

def readPlan (b : List Octet) : Option PlanFields :=
  whole do
    let (run, b) ← get16 b
    let (headcode, b) ← getOctets 4 b
    let (destination, b) ← getText b
    let (calls, b) ← getTextList b
    let (hh, b) ← get8 b
    let (mm, b) ← get8 b
    let (day, b) ← get8 b
    let (platform, b) ← get8 b
    pure ({ run, headcode, destination, calls, hh, mm, day, platform }, b)

/-- A field that is read only when its presence bit is set. -/
def getIf {α : Type} (present : Bool) (get : List Octet → Option (α × List Octet)) (l : List Octet) :
    Option (Option α × List Octet) :=
  if present then (get l).map fun (a, r) => (some a, r) else some (none, l)

/-- A clock: hh then mm. -/
def getClock (l : List Octet) : Option ((Nat × Nat) × List Octet) :=
  match get8 l with
  | some (hh, r) => (get8 r).map fun (mm, r) => ((hh, mm), r)
  | none => none

def readAmnd (b : List Octet) : Option AmndFields :=
  whole do
    let (run, b) ← get16 b
    let (presence, b) ← get8 b
    let (headcode, b) ← getIf (presence.testBit 0) (getOctets 4) b
    let (destination, b) ← getIf (presence.testBit 1) getText b
    let (calls, b) ← getIf (presence.testBit 2) getTextList b
    let (clock, b) ← getIf (presence.testBit 3) getClock b
    let (day, b) ← getIf (presence.testBit 5) get8 b
    let (platform, b) ← getIf (presence.testBit 4) get8 b
    pure ({ run, presence, headcode, destination, calls, clock, day, platform }, b)

def readDlay (b : List Octet) : Option DlayFields :=
  whole do
    let (run, b) ← get16 b
    let (mode, b) ← get8 b
    let (minutes, b) ← get16 b
    let (reason, b) ← getText b
    pure ({ run, mode, minutes, reason }, b)

def readCanc (b : List Octet) : Option CancFields :=
  whole do
    let (run, b) ← get16 b
    let (reason, b) ← getText b
    pure ({ run, reason }, b)

def readPlat (b : List Octet) : Option PlatFields :=
  whole do
    let (run, b) ← get16 b
    let (platform, b) ← get8 b
    pure ({ run, platform }, b)

def readPred (b : List Octet) : Option PredFields :=
  whole do
    let (run, b) ← get16 b
    let (mode, b) ← get8 b
    let (seconds, b) ← getSigned32 b
    pure ({ run, mode, seconds }, b)

def readNote (b : List Octet) : Option NoteFields :=
  whole do
    let (number, b) ← get8 b
    let (priority, b) ← get8 b
    let (text, b) ← getText b
    let (expiry, b) ← get16 b
    pure ({ number, priority, text, expiry }, b)

/-- The body of TIME. -/
def readTime (b : List Octet) : Option Nat := whole (get32 b)

/-- Position and polarity of a DIAL. -/
def getSetting (l : List Octet) : Option ((Nat × Nat) × List Octet) :=
  match get16 l with
  | some (position, r) => (get8 r).map fun (polarity, r) => ((position, polarity), r)
  | none => none

def readDial (b : List Octet) : Option DialFields :=
  whole do
    let (line, b) ← get8 b
    let (action, b) ← get8 b
    let (setting, b) ← getIf (action = 0) getSetting b
    pure ({ line, action, setting }, b)

def readConf (b : List Octet) : Option ConfFields :=
  whole do
    let (number, b) ← get16 b
    let (value, b) ← get16 b
    pure ({ number, value }, b)

def readRead (b : List Octet) : Option ReadFields :=
  whole do
    let (startKind, b) ← get8 b
    let (start, b) ← get16 b
    let (direction, b) ← get8 b
    let (count, b) ← get8 b
    pure ({ startKind, start, direction, count }, b)

def readSpkn (b : List Octet) : Option SpknFields :=
  whole do
    let (cue, b) ← get8 b
    let (outcome, b) ← get8 b
    pure ({ cue, outcome }, b)

def readZone (b : List Octet) : Option ZoneFields :=
  whole do
    let (action, b) ← get8 b
    let (n, b) ← get8 b
    let (zones, b) ← getOctets n b
    pure ({ action, zones := zones.map (·.toNat) }, b)

/-! ## The telegrams as one type, and their encoder -/

/-- A telegram's kind with its fields. -/
inductive Telegram where
  | plan (f : PlanFields)
  | amnd (f : AmndFields)
  | dlay (f : DlayFields)
  | canc (f : CancFields)
  | rins (run : Nat)
  | plat (f : PlatFields)
  | pred (f : PredFields)
  | rdys (run : Nat)
  | dept (run : Nat)
  | csta (run : Nat)
  | note (f : NoteFields)
  | nclr (number : Nat)
  | wall (mode : Nat)
  | time (seconds : Nat)
  | dial (f : DialFields)
  | conf (f : ConfFields)
  | csav
  | rset
  | read (f : ReadFields)
  | poll
  | take
  | spkn (f : SpknFields)
  | zone (f : ZoneFields)
  deriving DecidableEq, Repr

/-- The kind of a telegram. -/
def Telegram.kind : Telegram → Kind
  | .plan _ => .plan
  | .amnd _ => .amnd
  | .dlay _ => .dlay
  | .canc _ => .canc
  | .rins _ => .rins
  | .plat _ => .plat
  | .pred _ => .pred
  | .rdys _ => .rdys
  | .dept _ => .dept
  | .csta _ => .csta
  | .note _ => .note
  | .nclr _ => .nclr
  | .wall _ => .wall
  | .time _ => .time
  | .dial _ => .dial
  | .conf _ => .conf
  | .csav => .csav
  | .rset => .rset
  | .read _ => .read
  | .poll => .poll
  | .take => .take
  | .spkn _ => .spkn
  | .zone _ => .zone

/-- The telegram of a kind and a body; none where the body does not fit the layout (R183). -/
def readTelegram (k : Kind) (b : List Octet) : Option Telegram :=
  match k with
  | .plan => (readPlan b).map .plan
  | .amnd => (readAmnd b).map .amnd
  | .dlay => (readDlay b).map .dlay
  | .canc => (readCanc b).map .canc
  | .rins => (readRun b).map .rins
  | .plat => (readPlat b).map .plat
  | .pred => (readPred b).map .pred
  | .rdys => (readRun b).map .rdys
  | .dept => (readRun b).map .dept
  | .csta => (readRun b).map .csta
  | .note => (readNote b).map .note
  | .nclr => (readOctet b).map .nclr
  | .wall => (readOctet b).map .wall
  | .time => (readTime b).map .time
  | .dial => (readDial b).map .dial
  | .conf => (readConf b).map .conf
  | .csav => (readNothing b).map fun _ => .csav
  | .rset => (readNothing b).map fun _ => .rset
  | .read => (readRead b).map .read
  | .poll => (readNothing b).map fun _ => .poll
  | .take => (readNothing b).map fun _ => .take
  | .spkn => (readSpkn b).map .spkn
  | .zone => (readZone b).map .zone

/-- The octets of an optional field. -/
def putIf {α : Type} (put : α → List Octet) : Option α → List Octet
  | some a => put a
  | none => []

/-- The body of a telegram (R195). -/
def Telegram.body : Telegram → List Octet
  | .plan f =>
    put16 f.run ++ f.headcode ++ putText f.destination ++ putTextList f.calls ++ put8 f.hh ++ put8 f.mm ++
      put8 f.day ++ put8 f.platform
  | .amnd f =>
    put16 f.run ++ put8 f.presence ++ putIf id f.headcode ++ putIf putText f.destination ++
      putIf putTextList f.calls ++ putIf (fun c => put8 c.1 ++ put8 c.2) f.clock ++ putIf put8 f.day ++
      putIf put8 f.platform
  | .dlay f => put16 f.run ++ put8 f.mode ++ put16 f.minutes ++ putText f.reason
  | .canc f => put16 f.run ++ putText f.reason
  | .rins run | .rdys run | .dept run | .csta run => put16 run
  | .plat f => put16 f.run ++ put8 f.platform
  | .pred f => put16 f.run ++ put8 f.mode ++ putSigned32 f.seconds
  | .note f => put8 f.number ++ put8 f.priority ++ putText f.text ++ put16 f.expiry
  | .nclr n | .wall n => put8 n
  | .time n => put32 n
  | .dial f => put8 f.line ++ put8 f.action ++ putIf (fun c => put16 c.1 ++ put8 c.2) f.setting
  | .conf f => put16 f.number ++ put16 f.value
  | .csav | .rset | .poll | .take => []
  | .read f => put8 f.startKind ++ put16 f.start ++ put8 f.direction ++ put8 f.count
  | .spkn f => put8 f.cue ++ put8 f.outcome
  | .zone f => put8 f.action ++ put8 f.zones.length ++ f.zones.flatMap put8

/-- A text whose length fits its length octet. -/
def textFits (t : Text) : Bool := t.length < 256

/-- The fields of a telegram fit their octets, and what is present is what the presence octet or the action
says (R195). -/
def Telegram.fits : Telegram → Bool
  | .plan f =>
    f.run < 65536 && f.headcode.length = 4 && textFits f.destination && f.calls.length < 256 &&
      f.calls.all textFits && f.hh < 256 && f.mm < 256 && f.day < 256 && f.platform < 256
  | .amnd f =>
    f.run < 65536 && f.presence < 256 && f.headcode.isSome = f.presence.testBit 0 &&
      f.destination.isSome = f.presence.testBit 1 && f.calls.isSome = f.presence.testBit 2 &&
      f.clock.isSome = f.presence.testBit 3 && f.day.isSome = f.presence.testBit 5 &&
      f.platform.isSome = f.presence.testBit 4 && f.headcode.all (fun t => t.length = 4) &&
      f.destination.all textFits && f.calls.all (fun l => l.length < 256 && l.all textFits) &&
      f.clock.all (fun c => c.1 < 256 && c.2 < 256) && f.day.all (· < 256) && f.platform.all (· < 256)
  | .dlay f => f.run < 65536 && f.mode < 256 && f.minutes < 65536 && textFits f.reason
  | .canc f => f.run < 65536 && textFits f.reason
  | .rins run | .rdys run | .dept run | .csta run => run < 65536
  | .plat f => f.run < 65536 && f.platform < 256
  | .pred f => f.run < 65536 && f.mode < 256 && -2147483648 ≤ f.seconds && f.seconds < 2147483648
  | .note f => f.number < 256 && f.priority < 256 && textFits f.text && f.expiry < 65536
  | .nclr n | .wall n => n < 256
  | .time n => n < 4294967296
  | .dial f =>
    f.line < 256 && f.action < 256 && f.setting.isSome = (f.action = 0) &&
      f.setting.all (fun c => c.1 < 65536 && c.2 < 256)
  | .conf f => f.number < 65536 && f.value < 65536
  | .csav | .rset | .poll | .take => true
  | .read f => f.startKind < 256 && f.start < 65536 && f.direction < 256 && f.count < 256
  | .spkn f => f.cue < 256 && f.outcome < 256
  | .zone f => f.action < 256 && f.zones.length < 256 && f.zones.all (· < 256)

/-- The octets of a telegram's frame between its flags, escapes in (R194). -/
def Telegram.frame (seq : Octet) (t : Telegram) : List Octet :=
  let l := t.kind.code :: seq :: t.body
  escape (l ++ crcOctets l)

/-! ## Field values -/

/-- A received text with each code outside 0x20..0x7E replaced by a space (R183). -/
def cleanText (t : Text) : Text := t.map fun c => if 0x20 ≤ c.toNat ∧ c.toNat ≤ 0x7E then c else 0x20

/-- A text field as it is taken, and whether it was replaced or cut (R13, R183). -/
def fixText (max : Nat) (t : Text) : Text × Bool :=
  ((cleanText t).take max, cleanText t ≠ t || max < t.length)

/-- The calling points as they are taken, and whether anything was replaced or cut (R14). -/
def fixCalls (l : List Text) : List Text × Bool :=
  ((l.take 12).map fun t => (fixText 20 t).1, 12 < l.length || l.any fun t => (fixText 20 t).2)

/-- The headcode a field of four characters gives: four spaces stand for an absent headcode (R194). -/
def fixHeadcode (t : Text) : Option Text × Bool :=
  let c := cleanText t
  (if c = List.replicate 4 0x20 then none else some c, c ≠ t)

/-- A platform or platform field of 0 stands for none. -/
def optNat (n : Nat) : Option Nat := if n = 0 then none else some n

/-- The index of the first field that is out of its range: each check is an index and whether it passes (R13, R183). -/
def firstBad (checks : List (Nat × Bool)) : Option Nat := (checks.find? (!·.2)).map (·.1)

end Sys2Proof.Machine
end

