-- ==== Sys2Proof/Machine/Delay.lean ====
section
/-! DEFINITION. Delay and departure-time arithmetic: the six stages (R28 to R41) and the prediction filter. -/
namespace Sys2Proof.Machine

open Sys2Proof

/-- Stage 1: prediction seconds rounded to minutes (R28). -/
def roundPrediction (s : Int) : Nat := if s < 30 then 0 else min 720 ((s + 30) / 60).toNat

/-- What stage 2 finds (R29, R30). -/
inductive Confirmation where
  | pending | adopted | refreshed
  deriving DecidableEq, Repr

/-- Stage 2: one rounded prediction `m` taken into the filter with confirm count `c` (R29, R30). -/
def Filter.take (c m : Nat) (f : Filter) : Filter × Confirmation :=
  let f := if f.cand = some m then { f with k := min c (f.k + 1) } else { f with cand := some m, k := 1 }
  if f.k = c then
    if f.dp = some m then ({ f with age := 0 }, .refreshed)
    else ({ f with dp := some m, age := 0 }, .adopted)
  else (f, .pending)

/-- Stage 3: the raw delay Dr (R35). -/
def Entry.rawDelay (e : Entry) : Nat :=
  match e.opDelay with
  | some d => if d.fix then d.minutes else max d.minutes (e.filter.dp.getD 0)
  | none => e.filter.dp.getD 0

/-- The FIX flag (R35). -/
def Entry.fixed (e : Entry) : Bool :=
  match e.opDelay with
  | some d => d.fix
  | none => false

/-- Stage 4: the displayed delay Dd under the hysteresis H (R36, R37). -/
def Entry.newDelay (hysteresis : Nat) (e : Entry) : Nat :=
  if e.fixed then e.rawDelay
  else if e.rawDelay > e.dd then e.rawDelay
  else if e.dd - e.rawDelay ≥ hysteresis then e.rawDelay
  else e.dd

/-- Stages 3 to 5: Dd, and A from As and Dd; nothing changes where stage 4 leaves Dd as it was (R35 to R39). The
class of stage 6 follows from Dd. -/
def Entry.recompute (hysteresis : Nat) (e : Entry) : Entry :=
  let d := e.newDelay hysteresis
  if d = e.dd then e else { e with dd := d, exp := e.sched + d }

/-- The filter counted for one running second (R26): the age counts while Dp is present, and lies in 0..901. -/
def Filter.tick (f : Filter) : Filter := if f.dp.isSome then { f with age := min 901 (f.age + 1) } else f

end Sys2Proof.Machine
end

