-- ==== Sys2Proof/Machine/Scheduler.lean ====
section
/-! DEFINITION. The cue scheduler's operations: making, revising and withdrawing cues, capacity, due tests,
zones, the choice of TAKE and the captured content (R83 to R99). -/
namespace Sys2Proof.Machine

open Sys2Proof

/-- The priority of a kind (R84). -/
def CueKind.priority : CueKind → Nat
  | .change => 1
  | .cancel => 2
  | .final => 3
  | .platform => 4
  | .delay => 5

/-- The cue of a kind and a run. -/
def State.cue? (kind : CueKind) (run : Nat) (s : State) : Option Cue :=
  s.cues.list.find? fun c => c.kind = kind && c.run = run

/-- `s` with this cue list. -/
def State.withCues (l : List Cue) (s : State) : State := { s with cues := { s.cues with list := l } }

/-- A TAKEN cue names the run (R10, R93). -/
def State.namedByTaken (s : State) (run : Nat) : Bool := s.cues.list.any fun c => c.run = run && c.isTaken

/-- The test of a WAITING cue (R95). -/
def Cue.test (now : Int) (c : Cue) : Cue :=
  match c.state with
  | .waiting => if c.due ≤ now then { c with state := .due } else c
  | _ => c

/-- The revision of a cue by a trigger of its kind (R87). -/
def Cue.revise (now : Int) (zones : List Nat) (due : Int) (c : Cue) : Cue :=
  match c.state with
  | .waiting => Cue.test now { c with zones := zones, due := due }
  | .due => { c with zones := zones }
  | .taken _ => { c with pendRev := true, pendDrop := false }

/-- The first number after `last`, counting 1..255 round, that is not in `used`; `fuel` numbers are tried (R83). -/
def nextNumber (used : List Nat) : Nat → Nat → Nat
  | 0, last => last
  | fuel + 1, last =>
    let n := if last ≥ 255 then 1 else last + 1
    if used.contains n then nextNumber used fuel n else n

/-- `b` is displaced before `a`: greater priority number, then later due, then later in creation order (R94). -/
def displacedBefore (a b : Cue) : Bool :=
  a.kind.priority < b.kind.priority || (a.kind.priority = b.kind.priority && a.due ≤ b.due)

/-- The cue that a new cue of priority `prio` displaces in a full list (R94). -/
def displaced (prio : Nat) (l : List Cue) : Option Cue :=
  (l.filter fun c => c.state = .waiting && prio < c.kind.priority).foldl
    (fun best c => match best with
      | none => some c
      | some b => if displacedBefore b c then some c else best)
    none

/-- A new cue joins the list at the tail with the next number (R83, R84). -/
def State.appendCue (kind : CueKind) (run : Nat) (zones : List Nat) (due : Int) (s : State) : State :=
  let n := nextNumber (s.cues.list.map (·.number)) 255 s.cues.last
  let c : Cue :=
    { number := n, kind := kind, run := run, zones := zones, due := due,
      state := if due ≤ s.now then .due else .waiting, attempts := 0, pendRev := false, pendDrop := false }
  { s with cues := { s.cues with list := s.cues.list ++ [c], last := n } }

/-- The notice of a displaced or dropped cue (R94, R104). -/
def State.postDropped (run : Nat) (s : State) : State :=
  s.post [.planning, .announcement] .cueDropped (.run run)

/-- A trigger of a kind for a run (R87, R94). -/
def State.trigger (kind : CueKind) (run : Nat) (zones : List Nat) (due : Int) (s : State) : State :=
  if (s.cue? kind run).isSome then
    s.withCues (updWhere (fun c => c.kind = kind && c.run = run) (Cue.revise s.now zones due) s.cues.list)
  else if s.cues.list.length < 32 then s.appendCue kind run zones due
  else
    match displaced kind.priority s.cues.list with
    | some d =>
      ((s.withCues (s.cues.list.filter (·.number ≠ d.number))).postDropped d.run).appendCue kind run zones due
    | none => s.postDropped run

/-- A withdrawal of the cues that `p` picks: WAITING and DUE ones leave the list, TAKEN ones are marked
pending drop (R87). -/
def State.withdrawWhere (p : Cue → Bool) (s : State) : State :=
  s.withCues ((s.cues.list.filter fun c => !p c || c.isTaken).map
    fun c => if p c then { c with pendDrop := true } else c)

/-- A withdrawal of a kind for a run (R87). -/
def State.withdraw (kind : CueKind) (run : Nat) (s : State) : State :=
  s.withdrawWhere fun c => c.kind = kind && c.run = run

/-- The trigger condition of the PLATFORM cue (R88). DESIGN CHOICE (log entry 45): it governs a revision too, so an untracked
change or a silent replan of an entry whose platform has been announced leaves a PLATFORM cue that still stands with its
zones (R63, R68). -/
def Entry.wantsPlatformCue (e : Entry) : Bool :=
  e.displayed.isSome && e.awaiting && e.announced.isNone && e.openRec.isNone

/-- The trigger condition of the DELAY cue (R90). -/
def Params.wantsDelayCue (p : Params) (e : Entry) : Bool :=
  e.awaiting && p.delayThreshold ≤ e.dd && e.lastDelay + p.delayStep ≤ e.dd

/-- The zones of a cue of a kind, from the entry as it stands; those of a CHANGE cue are its record's (R88 to R92).
DESIGN CHOICE (log entry 41): they stand, and are sent, as zone 0, then the platforms in the order the rule names them. -/
def Entry.cueZones (e : Entry) (change : Option (Nat × Nat)) : CueKind → List Nat
  | .platform => 0 :: e.displayed.toList
  | .delay => 0 :: e.displayed.toList
  | .cancel => 0 :: e.displayed.toList
  | .final => e.displayed.toList
  | .change =>
    match change with
    | some (src, dst) => [0, src, dst]
    | none => [0]

/-- The due of a WAITING PLATFORM or FINAL cue formed afresh from A and tested; other cues are kept (R95). -/
def Cue.follow (p : Params) (now exp : Int) (c : Cue) : Cue :=
  match c.state, c.kind with
  | .waiting, .platform => Cue.test now { c with due := exp - p.platformLead }
  | .waiting, .final => Cue.test now { c with due := exp - p.finalLead }
  | _, _ => c

/-- The entry has entered CLOSED, CANCELLED or DEPARTED. -/
def leftService (old : Option Entry) (e : Entry) : Bool :=
  old.map (·.state) ≠ some e.state && (e.state = .closed || e.state = .cancelled || e.state = .departed)

/-- The entry has entered BOARDING (R91). -/
def enteredBoarding (old : Option Entry) (e : Entry) : Bool :=
  old.map (·.state) ≠ some .boarding && e.state = .boarding

/-- The withdrawals of one handover (R88, R90, R91). -/
def State.handoverWithdrawals (old : Option Entry) (e : Entry) (s : State) : State :=
  let blanked := (old.bind (·.displayed)).isSome && e.displayed.isNone
  let fellBack := old.map (·.state) = some .boarding && e.state = .listed
  s.withdrawWhere fun c =>
    c.run = e.run &&
      match c.kind with
      | .platform => blanked || leftService old e
      | .final => leftService old e || fellBack
      | .delay => e.dd < s.inForce.delayThreshold || !e.awaiting
      | _ => false

/-- The FINAL cue at one handover (R91): made or revised at an entry into BOARDING, revised if it exists at a
change to another platform in BOARDING. -/
def State.handoverFinal (old : Option Entry) (e : Entry) (s : State) : State :=
  let zones := e.cueZones none .final
  let due := e.exp - s.inForce.finalLead
  if enteredBoarding old e then s.trigger .final e.run zones due
  else if e.state = .boarding ∧ old.bind (·.displayed) ≠ e.displayed ∧ e.displayed.isSome ∧ (s.cue? .final e.run).isSome then
    s.trigger .final e.run zones due
  else s

/-- One handover of an entry, as it stood before it (if it did) and as it stands at it: withdrawals, moved dues, then the
PLATFORM, DELAY and FINAL triggers (R86, R88, R90, R91, R95). -/
def State.cueHandover (old : Option Entry) (e : Entry) (s : State) : State :=
  let s := s.handoverWithdrawals old e
  let s := s.withCues (updWhere (·.run = e.run) (Cue.follow s.inForce s.now e.exp) s.cues.list)
  let s :=
    if e.wantsPlatformCue then
      s.trigger .platform e.run (e.cueZones none .platform) (e.exp - s.inForce.platformLead)
    else s
  let s := if s.inForce.wantsDelayCue e then s.trigger .delay e.run (e.cueZones none .delay) s.now else s
  s.handoverFinal old e

/-- The entry of `e` as it stands in the table, in the state `st` in which a handover finds it (R4, R38). -/
def State.standing (e : Entry) (st : EntryState) (s : State) : Entry := { (s.entry? e.run).getD e with state := st }

/-- A handover that moves neither the displayed platform nor the state of the entry: one of the change tracker, or of Dd and
A (R38, R86, R95). -/
def State.handStanding (e : Entry) (st : EntryState) (s : State) : State :=
  s.cueHandover (some (s.standing e st)) (s.standing e st)

/-- The due test of every WAITING cue at a minute advance or a time step (R95). -/
def State.testCues (s : State) : State := s.withCues (s.cues.list.map (Cue.test s.now))

/-- A CONF of Lp or Lf forms the due of every WAITING cue of the kind afresh (R95). -/
def State.refollow (kind : CueKind) (s : State) : State :=
  s.withCues (s.cues.list.map fun c =>
    match s.entry? c.run with
    | some e => if c.kind = kind then Cue.follow s.inForce s.now e.exp c else c
    | none => c)

/-- The gap of a list of zones started at the present running second (R97). -/
def State.startGap (zones : List Nat) (s : State) : State :=
  if s.inForce.zoneGap = 0 then s
  else
    let e := s.time.runSec + s.inForce.zoneGap
    { s with
      cues :=
        { s.cues with
          zones := updWhere (fun z => zones.contains z.no)
            (fun z => { z with gapEnd := some (max e (z.gapEnd.getD 0)) }) s.cues.zones } }

/-- `c` is given before `b` by TAKE: lower priority number, then earlier due (R99). -/
def takenBefore (c b : Cue) : Bool :=
  c.kind.priority < b.kind.priority || (c.kind.priority = b.kind.priority && c.due < b.due)

/-- The cue that TAKE gives: the first in creation order of the best eligible ones (R99). -/
def State.bestCue (s : State) : Option Cue :=
  (s.cues.list.filter s.eligible).foldl
    (fun best c => match best with
      | none => some c
      | some b => if takenBefore c b then some c else best)
    none

/-- The number of TAKEN cues (R99). -/
def State.takenCount (s : State) : Nat := (s.cues.list.filter (·.isTaken)).length

/-- The content captured at TAKE from the entry, and for a CHANGE cue from its record (R85). -/
def captureContent (p : Params) (e : Entry) (change : Option (Nat × Nat)) (c : Cue) : Captured :=
  let late := if e.late p.lateness then some (clockForm p.dayStart e.exp) else none
  let base : Captured :=
    { kind := c.kind, number := c.number, run := c.run, zones := c.zones, destination := e.destination,
      headcode := e.headcode, sched := clockForm p.dayStart e.sched, expected := none, platform := none,
      src := none, dst := none, delay := none, reason := none, calls := [] }
  match c.kind with
  | .platform => { base with platform := e.displayed, expected := late, calls := e.calls }
  | .change => { base with src := change.map (·.1), dst := change.map (·.2), expected := late }
  | .delay =>
    { base with
      delay := some e.dd, expected := some (clockForm p.dayStart e.exp), platform := e.displayed,
      reason := e.reason }
  | .final => { base with platform := e.displayed, expected := late, calls := e.calls }
  | .cancel => { base with platform := e.displayed, reason := e.reason }

end Sys2Proof.Machine
end

