-- ==== Sys2Proof/Machine/Changes.lean ====
section
/-! DEFINITION. The change tracker's operations: publication, opening, supersession and voiding of change
records, the display condition, INFORMED, diversion holds and choices (R61 to R80). -/
namespace Sys2Proof.Machine

open Sys2Proof

/-- `s` with this tracker. -/
def State.withTracker (t : Tracker) (s : State) : State := { s with tracker := t }

/-- `s` with the records that `p` picks changed by `f`. -/
def State.updRecords (p : ChangeRec → Bool) (f : ChangeRec → ChangeRec) (s : State) : State :=
  { s with tracker := { s.tracker with records := updWhere p f s.tracker.records } }

/-- The record is OPEN. -/
def ChangeRec.isOpen (r : ChangeRec) : Bool := r.state = .opened

/-- The record is OPEN or INFORMED. -/
def ChangeRec.live (r : ChangeRec) : Bool := r.state = .opened || r.state = .informed

/-- The OPEN record of a run. -/
def State.openRecord? (run : Nat) (s : State) : Option ChangeRec :=
  s.tracker.records.find? fun r => r.run = run && r.isOpen

/-- The OPEN or INFORMED record of a run. DESIGN CHOICE (log entry 52): one that a removed entry has left counts as
that of a later entry of the same run (R62, R69). -/
def State.liveRecord? (run : Nat) (s : State) : Option ChangeRec :=
  s.tracker.records.find? fun r => r.run = run && r.live

/-- The platforms of the run's OPEN record, which its CHANGE cue carries (R85, R89). -/
def State.changeOf (run : Nat) (s : State) : Option (Nat × Nat) :=
  (s.openRecord? run).map fun r => (r.src, r.dst)

/-- The numbers of the run's OPEN records, to be appended to the closed list. -/
def State.openNumbers (run : Nat) (s : State) : List Nat :=
  (s.tracker.records.filter fun r => r.run = run && r.isOpen).map (·.no)

/-- The passage of the run's OPEN record to VOID (R76). -/
def State.voidRecord (run : Nat) (s : State) : State :=
  if (s.openRecord? run).isSome then
    let s := { s with tracker := { s.tracker with closed := s.tracker.closed ++ s.openNumbers run } }
    let s := s.updRecords (fun r => r.run = run && r.isOpen) fun r => { r with state := .void }
    let s := s.updEntry run fun e => { e with openRec := none }
    let s := s.post [.signalling] .changeVoid (.run run)
    s.withdraw .change run
  else s

/-- A platform change of the entry away from `src` is published (R62). -/
def State.isPublished (e : Entry) (src : Nat) (s : State) : Bool :=
  e.announced.isSome ||
    ((s.cue? .platform e.run).any (·.isTaken)) ||
    e.exp - s.inForce.published ≤ s.now ||
    ((s.gatePanel src).any fun p =>
      match p.acked with
      | some (.gate run _) => run = e.run
      | _ => false) ||
    (s.liveRecord? e.run).isSome

/-- The passage of the run's OPEN and INFORMED records to SUPERSEDED (R67). -/
def State.supersede (run : Nat) (s : State) : State :=
  let s := { s with tracker := { s.tracker with closed := s.tracker.closed ++ s.openNumbers run } }
  s.updRecords (fun r => r.run = run && r.live) fun r => { r with state := .superseded }

/-- The lowest-numbered free slot (R65). -/
def Tracker.freeSlot (t : Tracker) : Option Nat :=
  (List.range 16).map (· + 1) |>.find? fun n => !(t.records.any (·.no = n))

/-- The slot a new record takes, and the tracker with that slot cleared (R65). -/
def Tracker.takeSlot (t : Tracker) : Option (Nat × Tracker) :=
  match t.freeSlot with
  | some n => some (n, t)
  | none =>
    match t.closed with
    | n :: rest => some (n, { records := t.records.filter (·.no ≠ n), closed := rest })
    | [] => none

/-- The hold of a diverted gate has not ended (R69, R78, R79). -/
def Diverted.holds (hold : Nat) (now : Int) (d : Diverted) : Bool := !d.ended && now < d.minute + hold

/-- The diverted gates of a new record from `src` to `dst`, after those of the record it supersedes (R69). -/
def newDiverted (hold : Nat) (now : Int) (src dst : Nat) (old : List Diverted) : List Diverted :=
  let kept := old.filter fun d => d.holds hold now && d.platform ≠ src && d.platform ≠ dst
  ({ platform := src, minute := now, ended := false } :: kept).take 4

/-- The run's platform change opens a record, or is applied untracked when no slot can be had (R66, R68). The
second component is the flag UNTRACKED. DESIGN CHOICE (log entry 42): CHANGE_UNTRACKED is posted here, ahead of any
CUE_DROPPED of the cues that the handovers of the same change make afterwards (R94). -/
def State.openRecord (run src dst : Nat) (r : Count16) (s : State) : State × Bool :=
  let old := ((s.liveRecord? run).map (·.diverted)).getD []
  let s := s.supersede run
  match s.tracker.takeSlot with
  | none => (s.post [.planning] .changeUntracked (.run run), true)
  | some (n, t) =>
    let rec' : ChangeRec :=
      { no := n, run := run, src := src, dst := dst, openedMinute := s.now, openedSecond := s.time.clock % 60,
        r := r, state := .opened, announced := false, displayed := false, degraded := false,
        rowPart := .pending, gatePart := .pending, gateReq := (s.gatePanel src).map (·.addr), cue := none,
        inSpeech := false, diverted := newDiverted s.inForce.diversionHold s.now src dst old }
    let s := s.withTracker { t with records := t.records ++ [rec'] }
    let s := s.updEntry run fun e => { e with openRec := some n }
    let s := s.trigger .change run [0, src, dst] s.now
    let s := s.updRecords (·.no = n) fun x => { x with cue := (s.cue? .change run).map (·.number) }
    let s := s.withdraw .platform run
    (s.appendUrgent run (some src), false)

/-- The tracker's handling of a change of the displayed platform of `e` from `old` (R61), with the handover that follows
where a record is VOID or opened or the change is untracked; these find the entry in the state `st` (R86). The second
component is the flag UNTRACKED. -/
def State.platformChanged (e : Entry) (st : EntryState) (old : Option Nat) (s : State) : State × Bool :=
  match old, e.displayed, s.entry? e.run with
  | some _, none, _ =>
    (if (s.openRecord? e.run).isSome then (s.voidRecord e.run).handStanding e st else s, false)
  | some p, some q, some x =>
    if p ≠ q ∧ s.isPublished x p then
      let r := s.openRecord e.run p q x.rev
      (r.1.handStanding e st, r.2)
    else (s, false)
  | _, _, _ => (s, false)

/-! ## The display condition -/

/-- The row part after an evaluation (R70). -/
def State.rowPartOf (s : State) (r : ChangeRec) : Part :=
  match r.rowPart with
  | .pending =>
    match s.rowPanelOf r.run with
    | none => .met
    | some a =>
      match (s.panel? a).bind (·.acked) with
      | some (.row run rev) => if run = r.run ∧ (rev - r.r).toNat < 32768 then .met else .pending
      | _ => .pending
  | p => p

/-- The gate part after an evaluation (R71). -/
def State.gatePartOf (s : State) (r : ChangeRec) : Part :=
  match r.gatePart with
  | .pending =>
    match r.gateReq.bind s.panel? with
    | none => .met
    | some p =>
      if p.state ≠ .active then .waived
      else
        match p.desired with
        | some (.diversion run _) =>
          if run ≠ r.run then .met
          else
            match p.acked with
            | some (.diversion run' rev) =>
              if run' = r.run ∧ (rev - r.r).toNat < 32768 then .met else .pending
            | _ => .pending
        | _ => .met
  | p => p

/-- The record after an evaluation of its display condition (R72, R73). -/
def State.evaluated (s : State) (r : ChangeRec) : ChangeRec :=
  let row := s.rowPartOf r
  let gate := s.gatePartOf r
  { r with
    rowPart := row, gatePart := gate,
    degraded := r.degraded || (r.gatePart = .pending && gate = .waived),
    displayed := row ≠ .pending && gate ≠ .pending }

/-- The passage of a record to INFORMED (R75). -/
def State.inform (r : ChangeRec) (s : State) : State :=
  let s := { s with tracker := { s.tracker with closed := s.tracker.closed ++ [r.no] } }
  let s := s.updRecords (·.no = r.no) fun x => { x with state := .informed }
  let s := s.updEntry r.run fun e => { e with openRec := none, rev := e.rev + 1 }
  s.post [.signalling] .changeInformed (.run r.run)

/-- Every OPEN record whose displayed and announced flags are both set becomes INFORMED (R75). DESIGN CHOICE (log
entry 35): where there are several, in the order in which they were opened. -/
def State.informAll (s : State) : State :=
  (s.tracker.records.filter fun r => r.isOpen && r.displayed && r.announced).foldl (fun t r => t.inform r) s

/-- The evaluation of every OPEN record whose displayed flag is clear; none is made outside NORMAL (R72). -/
def State.evaluate (s : State) : State :=
  if s.wall.mode = .normal then
    (s.updRecords (fun r => r.isOpen && !r.displayed) s.evaluated).informAll
  else s

/-- The waivers at the failure of the panel at `addr`, against the row map as it stands (R73). -/
def State.waiveRows (addr : Nat) (s : State) : State :=
  if s.wall.mode = .normal then
    s.updRecords (fun r => r.isOpen && r.rowPart = .pending && s.rowPanelOf r.run = some addr)
      fun r => { r with rowPart := .waived, degraded := true }
  else s

/-! ## Speech -/

/-- The TAKE of the run's CHANGE cue (R74). -/
def State.changeTaken (run : Nat) (s : State) : State :=
  s.updRecords (fun r => r.run = run && r.isOpen) fun r => { r with inSpeech := true }

/-- In speech is cleared on every record of the run (R74). -/
def State.clearSpeech (run : Nat) (s : State) : State :=
  s.updRecords (·.run = run) fun r => { r with inSpeech := false }

/-- A DONE of the run's CHANGE cue (R74, R75). -/
def State.changeDone (run : Nat) (s : State) : State :=
  let s := s.updRecords (fun r => r.run = run && r.isOpen && r.inSpeech) fun r => { r with announced := true }
  (s.clearSpeech run).informAll

/-- The drop of the run's CHANGE cue after its third abort (R74). -/
def State.changeDropped (run : Nat) (s : State) : State :=
  (s.clearSpeech run).updRecords (fun r => r.run = run && r.isOpen) fun r => { r with cue := none }

/-! ## Time -/

/-- The test of the diversion holds (R78). -/
def State.testHolds (s : State) : State :=
  s.updRecords (fun _ => true) fun r =>
    { r with
      diverted := r.diverted.map fun d => { d with ended := d.ended || d.minute + s.inForce.diversionHold ≤ s.now } }

/-- The reduction of the tracker's minutes at a rollover (R78). -/
def State.rollTracker (s : State) : State :=
  s.updRecords (fun _ => true) fun r =>
    { r with
      openedMinute := max (-32768) (r.openedMinute - 1440),
      diverted := r.diverted.map fun d => { d with minute := max (-32768) (d.minute - 1440) } }

/-! ## Diversion choices -/

/-- The entry qualifies as the diversion entry of platform `p`, its place in the order apart (R79). DESIGN CHOICE (log
entry 52): a record that a removed entry of the same run has left counts. -/
def State.divertedFrom (s : State) (p : Nat) (e : Entry) : Bool :=
  e.inService && e.displayed.isSome && e.displayed ≠ some p &&
    s.tracker.records.any fun r =>
      r.run = e.run && r.live &&
        r.diverted.any fun d => d.platform = p && d.holds s.inForce.diversionHold s.now

/-- The diversion entry of platform `p`: the earliest that qualifies before the next departure at `p` (R79). -/
def State.diversionEntry (s : State) (p : Nat) : Option Entry :=
  (s.table.entries.takeWhile fun e => !(e.inService && e.displayed = some p)).find? (s.divertedFrom p)

end Sys2Proof.Machine
end

