-- ==== Sys2Proof/Machine/Compose.lean ====
section
/-! DEFINITION. The wall compositor's operations: row map, gate page choices, banner rotation, desired tags,
page contents, wall modes (R111 to R127); and the recomputation that follows an event of the picture. -/
namespace Sys2Proof.Machine

open Sys2Proof

/-- `s` with this wall. -/
def State.withWall (w : Wall) (s : State) : State := { s with wall := w }

/-! ## Row map and gate choices -/

/-- The place of a row panel in the map: row index, then address (R108). -/
def rowKeyLt (a b : Nat × Nat) : Bool := a.1 < b.1 || (a.1 = b.1 && a.2 < b.2)

/-- Put a row panel, as its row index and address, into its place. -/
def insertRow (k : Nat × Nat) : List (Nat × Nat) → List (Nat × Nat)
  | [] => [k]
  | x :: xs => if rowKeyLt k x then k :: x :: xs else x :: insertRow k xs

/-- The addresses of the ACTIVE row panels in ascending row index (R112). -/
def State.activeRows (s : State) : List Nat :=
  let keys := s.bus.panels.filterMap fun p =>
    match p.role, p.state with
    | .row i, .active => some (i, p.addr)
    | _, _ => none
  (keys.foldr insertRow []).map (·.2)

/-- The row map formed afresh: the first K displayable entries on the ACTIVE row panels (R112). -/
def State.freshRowMap (s : State) : List (Nat × Nat) := s.activeRows.zip (s.displayed.map (·.run))

/-- The gate page choice of platform `p` (R115). -/
def State.gateTag (s : State) (p : Nat) : Tag :=
  match s.diversionEntry p with
  | some e => .diversion e.run e.rev
  | none =>
    match s.nextAtPlatform p with
    | some e => .gate e.run e.rev
    | none => .empty p

/-- The gate page choices formed afresh (R115). -/
def State.freshGates (s : State) : List (Nat × Tag) :=
  s.bus.panels.filterMap fun p =>
    match p.role with
    | .gate g => some (p.addr, s.gateTag g)
    | _ => none

/-! ## Banner rotation -/

/-- The posted notices of one priority, in posting order. -/
def State.postedAt (s : State) (priority : Nat) : List Item :=
  (s.wall.posted.filter (·.priority = priority)).map fun n => .note n.number

/-- The rotation list formed afresh (R121). -/
def State.freshItems (s : State) : List Item :=
  s.postedAt 0 ++ s.postedAt 1 ++ s.postedAt 2 ++ s.postedAt 3 ++
    (s.displayed.filter fun e => e.awaiting && s.inForce.delayThreshold ≤ e.dd).map fun e => .delay e.run

/-- What the content of an item hangs on: the edition of its notice or the revision of its entry (R123). -/
def State.itemMark (s : State) : Item → Option Count16
  | .note n => (s.wall.posted.find? (·.number = n)).map (·.edition)
  | .delay run => (s.entry? run).map (·.rev)

/-- The rotation moved on to `item`, whose content stands at `mark`: the count increases and the dwell timer restarts
(R122, R123). -/
def Wall.showItem (dwell : Nat) (mark : Option Count16) (item : Item) (w : Wall) : Wall :=
  { w with current := some item, mark := mark, count := w.count + 1, dwell := some dwell }

/-- The rotation moved on to `item` (R122, R123). -/
def State.showItem (item : Item) (s : State) : State :=
  s.withWall (s.wall.showItem s.inForce.dwell (s.itemMark item) item)

/-- The item that takes the place of `c` when it leaves `old` for a list that opens with `first`: the next in `old` that
is still among `items`, or `first` (R123). DESIGN CHOICE (log entry 44): so also where others leave or join with it. -/
def successor (old items : List Item) (c first : Item) : Item :=
  ((old.drop (old.idxOf c + 1)).find? items.contains).getD first

/-- The rotation after its list is re-formed (R122, R123). -/
def State.rotate (s : State) : State :=
  let items := s.freshItems
  let t := s.withWall { s.wall with items := items }
  match s.wall.current, items with
  | none, [] => t
  | none, i :: _ => t.showItem i
  | some _, [] => t.withWall { t.wall with current := none, mark := none, dwell := none }
  | some c, i :: _ =>
    if items.contains c then
      if s.wall.mark = s.itemMark c then t
      else t.withWall { t.wall with mark := s.itemMark c, count := s.wall.count + 1 }
    else t.showItem (successor s.wall.items items c i)

/-! ## Desired tags -/

/-- The posted notice that the NOTICE mode shows: the lowest-numbered of priority 0 (R111). -/
def Wall.shown (w : Wall) : Option Posted :=
  (w.posted.filter (·.priority = 0)).foldl
    (fun best n => match best with
      | none => some n
      | some b => if n.number < b.number then some n else best)
    none

/-- The tag of a configured panel in NORMAL mode (R111, R113). -/
def State.normalTag (s : State) (p : Panel) : Tag :=
  match p.role with
  | .row _ =>
    match (s.wall.rowMap.find? (·.1 = p.addr)).bind fun m => s.entry? m.2 with
    | some e => .row e.run e.rev
    | none => .blank
  | .gate g => ((s.wall.gateChoice.find? (·.1 = p.addr)).map (·.2)).getD (.empty g)
  | .banner =>
    match s.wall.current with
    | some i => .banner i s.wall.count
    | none => .blank
  | .none => .blank

/-- The desired tag of a panel; an unconfigured one has none (R109, R111). -/
def State.desiredTag (s : State) (p : Panel) : Option Tag :=
  if p.configured then
    match s.wall.mode with
    | .normal => some (s.normalTag p)
    | .blank => some .blank
    | .notice =>
      match s.wall.shown with
      | some n => some (.notice n.number n.edition)
      | none => some .blank
  else none

/-- Every desired tag set afresh (R110, R111). -/
def State.setDesired (s : State) : State :=
  { s with bus := { s.bus with panels := s.bus.panels.map fun p => { p with desired := s.desiredTag p } } }

/-- The row map and the gate choices formed afresh (R112, R115). -/
def State.remap (s : State) : State :=
  s.withWall { s.wall with rowMap := s.freshRowMap, gateChoice := s.freshGates }

/-- The map, the gate choices, the rotation and the desired tags set afresh (R112, R113, R115, R121). -/
def State.compose (s : State) : State := s.remap.rotate.setDesired

/-- What follows each handover that changes the picture: composition, the tracker's evaluation (R72), and the composition
of the revisions that INFORMED passages count (R75). DEDUCED (log entry 15): a change of one entry, with the displayable
set that it gives, is one handover, and so is a removal (R10). -/
def State.recompose (s : State) : State := s.compose.evaluate.compose

/-- In NOTICE mode with no notice of priority 0 left the mode becomes NORMAL (R126). -/
def State.endNoticeMode (s : State) : State :=
  if s.wall.mode = .notice ∧ s.wall.shown = none then s.withWall { s.wall with mode := .normal } else s

/-! ## Page contents (R114, R116, R124) -/

/-- The remark of a row page (R114). -/
def Entry.remark (lateness : Nat) (e : Entry) : Remark :=
  match e.state with
  | .cancelled => .cancelled
  | .departed => .departed
  | .closed => .closed
  | .boarding => .boarding
  | _ => if e.late lateness then .expected else .onTime

/-- The row page of an entry (R114). -/
def rowPage (p : Params) (e : Entry) : RowPage :=
  { sched := clockForm p.dayStart e.sched
    expected := if e.late p.lateness then some (clockForm p.dayStart e.exp) else none
    destination := e.destination
    headcode := e.headcode
    platform := e.displayed
    remark := e.remark p.lateness
    highlight := e.openRec.isSome
    reason := e.reason
    calls := e.calls }

/-- The page of a delay item (R124). -/
def delayPage (p : Params) (e : Entry) : DelayPage :=
  { headcode := e.headcode
    sched := clockForm p.dayStart e.sched
    destination := e.destination
    delay := e.dd
    expected := clockForm p.dayStart e.exp
    platform := e.displayed
    reason := e.reason }

/-- The platform of a gate panel. -/
def Panel.platform (p : Panel) : Nat :=
  match p.role with
  | .gate g => g
  | _ => 0

/-- The content frame composed for a panel from the picture as it stands (R127). A tag that names nothing in
the picture gives a blank frame; the compositor keeps every desired tag current, so none does. -/
def State.composeContent (s : State) (p : Panel) : Content :=
  match p.desired with
  | some (.row run _) => ((s.entry? run).map fun e => Content.rowf (rowPage s.inForce e)).getD .blkf
  | some (.gate run _) =>
    ((s.entry? run).map fun e => Content.gatfNext p.platform (rowPage s.inForce e)).getD .blkf
  | some (.diversion run _) =>
    ((s.entry? run).map fun e => Content.gatfDiversion p.platform (rowPage s.inForce e)).getD .blkf
  | some (.empty g) => .gatfEmpty g
  | some (.banner (.note n) _) =>
    ((s.wall.posted.find? (·.number = n)).map fun x => Content.banfNotice x.priority x.text).getD .blkf
  | some (.banner (.delay run) _) =>
    ((s.entry? run).map fun e => Content.banfDelay (delayPage s.inForce e)).getD .blkf
  | some (.notice n _) =>
    ((s.wall.posted.find? (·.number = n)).map fun x => Content.notf x.text).getD .blkf
  | some .blank => .blkf
  | none => .blkf

end Sys2Proof.Machine
end

