-- ==== Sys2Proof/Machine/Bus.lean ====
section
/-! DEFINITION. The panel bus controller's operations: dispatch, the start and end of an exchange, outcomes,
panel failure and recovery (R132 to R149); the desired level of a panel (R160); and what ends every command
that changes the picture. -/
namespace Sys2Proof.Machine

open Sys2Proof

/-! ## Levels -/

/-- The level of a brightness zone (R158). -/
def State.zoneLevel (s : State) (z : Nat) : Nat := ((s.sense.zones.find? (·.no = z)).map (·.level)).getD 0

/-- The desired level of a panel (R160). -/
def State.panelLevel (s : State) (p : Panel) : Nat := min (s.zoneLevel p.zone) (if p.overtemp then 6 else 15)

/-- The desired level of the configured panels that `q` picks written afresh (R160). -/
def State.writeLevels (q : Panel → Bool) (s : State) : State :=
  { s with
    bus :=
      { s.bus with
        panels := updWhere (fun p => p.configured && q p) (fun p => { p with desiredLevel := s.panelLevel p })
          s.bus.panels } }

/-- The level a frame to the panel carries (R148). -/
def Panel.carriedLevel (ceiling : Nat) (p : Panel) : Nat :=
  min (min p.desiredLevel ceiling) (if p.overtemp then 6 else 15)

/-! ## Dispatch -/

/-- The panel answers or has not been asked yet, and is stale (R141). -/
def Panel.wantsFrame (p : Panel) : Bool := (p.state = .active || p.state = .probing) && p.stale

/-- The head rule of the urgent list: the first entry whose panel wants a frame, with its panel, and the list
after it; entries before it are removed (R141). -/
def urgentPick (panels : List Panel) : List Urgent → Option (Urgent × Panel) × List Urgent
  | [] => (none, [])
  | u :: rest =>
    match panels.find? (·.addr = u.addr) with
    | some p => if p.wantsFrame then (some (u, p), rest) else urgentPick panels rest
    | none => urgentPick panels rest

/-- A running time has been reached since the panel was last served; at once for a panel never served (R143). -/
def Panel.waited (now period : Nat) (p : Panel) : Bool :=
  match p.lastServed with
  | some t => t + 1000 * period ≤ now
  | none => true

/-- The panel's keepalive is due (R143). -/
def State.keepaliveIsDue (s : State) (p : Panel) : Bool :=
  p.state = .active && p.waited s.runTime s.inForce.keepalive

/-- The panel's probe is due (R143). -/
def State.probeIsDue (s : State) (p : Panel) : Bool := p.state = .failed && p.waited s.runTime s.inForce.probe

/-- The refresh cycle finds that the panel needs service (R142). -/
def State.needsService (s : State) (p : Panel) : Bool :=
  p.wantsFrame || s.keepaliveIsDue p || s.probeIsDue p

/-- The panels in the order the refresh cycle examines them (R142). -/
def State.cycleOrder (s : State) : List Panel :=
  s.bus.panels.filter (s.bus.pointer ≤ ·.addr) ++ s.bus.panels.filter (·.addr < s.bus.pointer)

/-- The frame a panel is served with: a content frame where it wants one and its tags differ, otherwise a
level frame (R141, R142). -/
def State.frameFor (s : State) (p : Panel) : Content :=
  if p.wantsFrame && p.tagStale then s.composeContent p else .polf

/-- The start of an exchange (R132, R133). -/
def State.startExchange (p : Panel) (urgent : Option Nat) (s : State) : State :=
  let content := s.frameFor p
  let level := p.carriedLevel s.inForce.ceiling
  let seq := s.bus.seq + 1
  let s := s.updPanel p.addr fun q =>
    { q with sent := if content = .polf then q.sent else p.desired, sentLevel := some level }
  { s with
    bus :=
      { s.bus with
        seq := seq
        exchange := some
          { addr := p.addr, seq := seq, level := level, content := content, urgent := urgent,
            startState := p.state, rset := false, phase := .sending } } }

/-- A dispatch decision, if the bus is IDLE: the urgent list, then the refresh cycle (R139, R141, R142). -/
def State.dispatch (s : State) : State :=
  if s.bus.exchange.isSome then s
  else
    match urgentPick s.bus.panels s.bus.urgent with
    | (some (u, p), rest) =>
      State.startExchange p (some u.retries) { s with bus := { s.bus with urgent := rest } }
    | (none, rest) =>
      let s := { s with bus := { s.bus with urgent := rest } }
      match s.cycleOrder.find? s.needsService with
      | some p =>
        State.startExchange p none
          { s with bus := { s.bus with pointer := if p.addr ≥ 60 then 1 else p.addr + 1 } }
      | none => s

/-- An occasion of R139 for a dispatch decision against the state `old` before the command: a panel has become
stale or has been appended to the urgent list, or a panel that wants a frame stands unserved. -/
def State.decisionDue (s old : State) : Bool :=
  !s.bus.urgent.isEmpty ||
    s.bus.panels.any fun p =>
      p.wantsFrame || (p.configured && p.stale && !(old.panel? p.addr).any Panel.stale)

/-- A dispatch decision if the command gives an occasion for one (R139). -/
def State.serve (s old : State) : State := if s.decisionDue old then s.dispatch else s

/-- What ends a command once the picture is recomputed: a dispatch decision where one is due against the state
`old` before the command, and the attention lines. -/
def State.finish (s old : State) : State := (s.serve old).settleAttention

/-- What ends a command that may have changed the picture: recomputation, a dispatch decision where one is due against
the state `old` before the command, and the attention lines. -/
def State.settle (s old : State) : State := s.recompose.finish old

/-! ## Failure and recovery -/

/-- A panel goes FAILED (R146). -/
def State.failPanel (addr : Nat) (s : State) : State :=
  let s := s.updPanel addr fun p => { p with state := .failed, ec := 0, goodRun := 0 }
  let s := s.waiveRows addr
  let s := s.recompose
  s.post [.planning] .panelFailed (.panel addr)

/-- The interval flags of a panel cleared (R136, R137). -/
def Panel.clearFlags (p : Panel) : Panel := { p with addressed := false, errored := false }

/-! ## Outcomes -/

/-- The class of an outcome; a good one says whether the status is OVERTEMP (R134). -/
inductive Outcome where
  | good (overtemp : Bool)
  | refused
  | failed
  deriving DecidableEq, Repr

/-- The class of the reply to an exchange (R134, R197). DEDUCED (log entry 6): octets that end in the abort sequence
are a malformed reply, which ends the exchange. -/
def classifyReply (x : Exchange) (octets : List Octet) : Outcome :=
  match (unescape octets).bind fun l => if l.length = 5 then checkCrc l else none with
  | some [addr, seq, status] =>
    if addr.toNat = x.addr ∧ seq = x.seq then
      if status = 0 then .good false
      else if status = 2 then .good true
      else if status = 1 then .refused
      else .failed
    else .failed
  | _ => .failed

/-- The overtemperature flag follows the status of a good reply, and a change of it sets the desired level
afresh (R149, R160). -/
def State.takeStatus (addr : Nat) (overtemp : Bool) (s : State) : State :=
  match s.panel? addr with
  | some p =>
    if p.overtemp = overtemp then s
    else
      (s.updPanel addr fun p => { p with overtemp := overtemp }).writeLevels fun p => p.addr = addr
  | none => s

/-- A good reply acknowledges the level and, for a content frame, the tag (R135). -/
def State.acknowledge (x : Exchange) (overtemp : Bool) (s : State) : State :=
  let s := s.updPanel x.addr fun p =>
    { p with ackedLevel := p.sentLevel, acked := if x.content = .polf then p.acked else p.sent }
  s.takeStatus x.addr overtemp

/-- The outcome of an exchange with a PROBING panel (R136). -/
def State.probingOutcome (x : Exchange) (o : Outcome) (s : State) : State :=
  match o with
  | .good overtemp =>
    (s.acknowledge x overtemp).updPanel x.addr fun p => { p.clearFlags with state := .active, ec := 0 }
  | _ => (s.updPanel x.addr Panel.clearFlags).failPanel x.addr

/-- The outcome of a probe of a FAILED panel (R137). -/
def State.probeOutcome (x : Exchange) (o : Outcome) (s : State) : State :=
  match o with
  | .good overtemp =>
    let s := s.takeStatus x.addr overtemp
    let s := s.updPanel x.addr fun p => { p with goodRun := p.goodRun + 1 }
    if (s.panel? x.addr).any (·.goodRun ≥ 3) then
      let s := s.updPanel x.addr fun p =>
        { p.clearFlags with
          state := .active, ec := 0, goodRun := 0, sent := none, acked := none, sentLevel := none,
          ackedLevel := none }
      let s := s.recompose
      s.post [.planning] .panelRecovered (.panel x.addr)
    else s
  | _ => s.updPanel x.addr fun p => { p with goodRun := 0 }

/-- What is done at the end of every exchange (R134). -/
def Panel.endOfExchange (now : Nat) (o : Outcome) (p : Panel) : Panel :=
  { p with
    addressed := true
    errored := p.errored || (match o with | .good _ => false | _ => true)
    lastServed := some now }

/-- The outcome of a refused or failed urgent exchange: the panel is appended again with the remembered
retries less one (R141). -/
def reappend (addr remembered : Nat) (l : List Urgent) : List Urgent :=
  if l.any (·.addr = addr) then
    updWhere (·.addr = addr) (fun u => { u with retries := max u.retries (remembered - 1) }) l
  else l ++ [⟨addr, remembered - 1⟩]

/-- The re-appending of the panel of an exchange (R141). -/
def State.reappendUrgent (x : Exchange) (o : Outcome) (s : State) : State :=
  match x.urgent, o with
  | some _, .good _ => s
  | some n, _ =>
    if 0 < n ∧ (s.panel? x.addr).any (fun p => p.state = .active || p.state = .probing) then
      { s with bus := { s.bus with urgent := reappend x.addr n s.bus.urgent } }
    else s
  | none, _ => s

/-- The outcome acted on by the panel's state (R135, R136, R137). -/
def State.actOn (x : Exchange) (o : Outcome) (s : State) : State :=
  match x.startState with
  | .active =>
    match o with
    | .good overtemp => s.acknowledge x overtemp
    | _ => s
  | .probing => s.probingOutcome x o
  | .failed => s.probeOutcome x o
  | .absent => s

/-- The end of the exchange in flight with an outcome (R133, R134). An exchange whose panel changed its state,
or during which an RSET was taken, is discarded but for the flags and the last-served time (R138). The next
dispatch decision follows. -/
def State.endExchange (x : Exchange) (o : Outcome) (s : State) : State :=
  let s := { s with bus := { s.bus with exchange := none } }
  let s := s.updPanel x.addr (Panel.endOfExchange s.runTime o)
  let changed := !(s.panel? x.addr).any (·.state = x.startState)
  let t := if x.rset || changed then s else (s.actOn x o).reappendUrgent x o
  t.recompose.dispatch.settleAttention

end Sys2Proof.Machine
end

