-- ==== Sys2Proof/Machine/Table.lean ====
section
/-! DEFINITION. The table controller's operations: the lifecycle transitions, revisions, the handovers of a
changed entry, removal, the evaluation of R9 and the rollover of R57. -/
namespace Sys2Proof.Machine

open Sys2Proof

/-- The transition that an entry takes by the clock, its displayed platform and A (R6, R7, R9). -/
def Entry.transition (p : Params) (now : Int) (e : Entry) : Entry :=
  if e.awaiting && e.exp ≤ now then { e with state := .closed }
  else if e.state = .listed && e.displayed.isSome && e.exp - p.boarding ≤ now then { e with state := .boarding }
  else if e.state = .boarding && e.displayed.isNone then { e with state := .listed }
  else e

/-- The same things are shown of both entries (R5). -/
def Entry.sameShown (a b : Entry) : Bool :=
  a.headcode = b.headcode && a.destination = b.destination && a.calls = b.calls && a.sched = b.sched &&
    a.displayed = b.displayed && a.dd = b.dd && a.state = b.state && a.reason = b.reason &&
    a.openRec.isSome = b.openRec.isSome

/-- One revision for the telegram or event, if it changed something shown (R5). -/
def Entry.counted (old e : Entry) : Entry := if old.sameShown e then e else { e with rev := old.rev + 1 }

/-- The entry of a run replaced, in its place in the order (R2); the displayable set derived afresh where its
state or A changed (R12). -/
def State.putEntry (old e : Entry) (s : State) : State :=
  let s := s.withEntries (updWhere (·.run = old.run) (fun _ => e) s.table.entries)
  if old.state = e.state ∧ old.exp = e.exp then s else s.rederive

/-- The handovers of a changed displayed platform: to the change tracker, with those it makes itself, and then to the cue
scheduler, before the state moves (R4, R61, R86). The second component is the flag UNTRACKED. -/
def State.handPlatform (old e : Entry) (s : State) : State × Bool :=
  let r := s.platformChanged e old.state old.displayed
  (r.1.cueHandover (some old) (r.1.standing e old.state), r.2)

/-- The change of an entry by one telegram or event, its own transitions taken: one revision, the order, then the
handovers in turn, of the displayed platform, of the state, of Dd and A (R2, R4, R5, R38, R86). The second component is the
flag UNTRACKED. DEDUCED (log entry 11): the handovers stand in this order. DESIGN CHOICE (log entry 42): where the tracker
posts CHANGE_UNTRACKED and the scheduler then drops a cue for want of room, the notices stand in that order (R68, R94). -/
def State.changeEntry (old new : Entry) (s : State) : State × Bool :=
  let e := old.counted new
  let s := s.putEntry old e
  let (s, untracked) :=
    if old.displayed = e.displayed then (s, false) else s.handPlatform old e
  let s :=
    if old.state = e.state then s else s.cueHandover (some (s.standing e old.state)) (s.standing e e.state)
  let s := if old.dd = e.dd ∧ old.exp = e.exp then s else s.handStanding e e.state
  (s, untracked)

/-- `new` with the transitions of R6 and R7, tested where its displayed platform or A changed. -/
def State.retest (s : State) (old new : Entry) : Entry :=
  if old.displayed = new.displayed ∧ old.exp = new.exp then new else new.transition s.inForce s.now

/-- A telegram or event that changes fields, the displayed platform or the delay of an entry, with what follows
for the wall where something shown changed; one that leaves every field as it was has no effect (R13). The second
component is the flag UNTRACKED. -/
def State.amendEntry (old new : Entry) (s : State) : State × Bool :=
  if old = new then (s, false)
  else
    let new := s.retest old new
    let (t, untracked) := s.changeEntry old new
    (if old.sameShown new then t else t.settle s, untracked)

/-! ## Removal (R10, R11) -/

/-- The entry of a run taken out of the table. -/
def State.dropEntry (run : Nat) (s : State) : State :=
  State.rederive { s with table := { s.table with entries := s.table.entries.filter (·.run ≠ run) } }

/-- Removal decided for the entry of a run: it leaves the table, or enters RETIRING while a TAKEN cue names it.
The steps stand in the order of R10: the table, the change record, the cues, the row map, the gate pages and the
rotation, the notice. -/
def State.decideRemoval (expired : Bool) (run : Nat) (s : State) : State :=
  let s :=
    if s.namedByTaken run then
      (s.updEntry run fun e => { e with state := .retiring, rev := e.rev + 1 }).rederive
    else s.dropEntry run
  let s := s.voidRecord run
  let s := s.withdrawWhere (·.run = run)
  let s := s.recompose
  if expired then s.post [.planning, .signalling] .expired (.run run) else s

/-- The end of a TAKEN cue reported for a run: a RETIRING entry that no TAKEN cue names any more is removed (R11, R93). -/
def State.cueEnded (run : Nat) (s : State) : State :=
  if (s.entry? run).any (·.state = .retiring) ∧ ¬ s.namedByTaken run then s.dropEntry run else s

/-! ## Time-driven transitions (R8, R9) -/

/-- The plain removal condition of R8. -/
def Entry.lingered (p : Params) (now : Int) (e : Entry) : Bool :=
  match e.state, e.stateTime with
  | .departed, some t => t + p.departedLinger ≤ now
  | .cancelled, some t => max t e.exp + p.cancelledLinger ≤ now
  | _, _ => false

/-- One entry at an evaluation: at most one transition, the first that applies (R9), and the wall re-formed for it before
the next entry (R112, R115, R121). -/
def State.evaluateEntry (s : State) (run : Nat) : State :=
  match s.entry? run with
  | some e =>
    if e.inService ∧ e.exp + s.inForce.overdue ≤ s.now then s.decideRemoval true run
    else if e.lingered s.inForce s.now then s.decideRemoval false run
    else
      let e' := e.transition s.inForce s.now
      if e'.state = e.state then s else (s.changeEntry e e').1.recompose
  | none => s

/-- The evaluation of every entry, in table order (R9), and the displayable set (R12). -/
def State.evaluateTable (s : State) : State :=
  ((s.table.entries.map (·.run)).foldl State.evaluateEntry s).rederive

/-- The table at a rollover: minutes reduced, entries below -60 removed as EXPIRED, and the displayable set handed to the
compositor (R57). DESIGN CHOICE (log entry 46): the entries are removed in table order. -/
def State.rollTable (s : State) : State :=
  let reduced := s.table.entries.map fun e =>
    { e with sched := e.sched - 1440, exp := e.exp - 1440, stateTime := e.stateTime.map (· - 1440) }
  let s := { s with table := { s.table with entries := reduced } }
  let gone := (reduced.filter fun e => e.state ≠ .retiring && e.exp < -60).map (·.run)
  (gone.foldl (fun t run => t.decideRemoval true run) s).rederive.recompose

/-- The cue list at a rollover (R95). -/
def State.rollCues (s : State) : State := s.withCues (s.cues.list.map fun c => { c with due := c.due - 1440 })

/-! ## Prediction filters -/

/-- The filter of one entry cleared, with the stages that follow where Dp was present and the entry is in
service, and the wall re-formed for the change (R31, R32, R33, R34, R121). -/
def State.clearFilter (run : Nat) (s : State) : State :=
  match s.entry? run with
  | some e =>
    let e' := { e with filter := Filter.empty }
    if e.filter.dp.isSome ∧ e.inService then
      let e' := s.retest e (e'.recompute s.inForce.hysteresis)
      (s.changeEntry e e').1.recompose
    else s.updEntry run fun _ => e'
  | none => s

/-- The filters of all entries cleared, as one event (R33). DESIGN CHOICE (log entry 33): the entries are taken in
table order as it stood before the event. -/
def State.clearFilters (s : State) : State :=
  (s.table.entries.map (·.run)).foldl (fun t run => t.clearFilter run) s

end Sys2Proof.Machine
end

