-- ==== Sys2Proof/Machine/LineDriver.lean ====
section
/-! DEFINITION. The impulse line driver's operations: target and difference, the decision, impulses, DIAL, and
the dial part of the store (R165 to R176). -/
namespace Sys2Proof.Machine

open Sys2Proof

/-- The target of the lines: the minute of the 12-hour dial that the clock shows (R167). -/
def dialTarget (clock : Nat) : Nat := (clock / 3600 % 12) * 60 + clock / 60 % 60

/-- The difference of a line (R167). -/
def Line.diff (clock : Nat) (l : Line) : Nat := (dialTarget clock + 720 - l.dial % 720) % 720

/-- The other polarity. -/
def Polarity.flip : Polarity → Polarity
  | .pos => .neg
  | .neg => .pos

/-- When a decision is made: between impulses, or at the end of the impulse that began and ended at the running
times given. -/
inductive DecisionTime where
  | between
  | atEnd (start stop : Nat)
  deriving DecidableEq, Repr

/-- An impulse begins at the line's next polarity (R169, R170, R172). -/
def Line.begin (p : Params) (now : Nat) (l : Line) : Line :=
  { l with
    impulse := some { start := now, polarity := l.polarity, width := p.impulseWidth, asked := false }
    result := none
    nextAt := none }

/-- A line put into ADVANCE or kept there by a decision (R170). -/
def Line.advance (p : Params) (now : Nat) (w : DecisionTime) (l : Line) : Line :=
  match w with
  | .atEnd start stop =>
    { l with state := .advance, nextAt := some (max (start + 1000 * p.fastPeriod) (stop + 100)) }
  | .between =>
    if l.state = .advance ∧ l.nextAt.isSome then l else Line.begin p now { l with state := .advance }

/-- A decision on a line with no impulse in progress (R168). `minute` says that a minute advance called for it. -/
def Line.decide (p : Params) (unset : Bool) (clock now : Nat) (minute : Bool) (w : DecisionTime) (l : Line) : Line :=
  let d := l.diff clock
  if unset then { l with state := .paused, nextAt := none }
  else if d = 0 then { l with state := .run, nextAt := none }
  else if d = 1 ∧ l.state = .run ∧ minute then Line.begin p now { l with state := .run }
  else if d ≤ p.advanceLimit then l.advance p now w
  else { l with state := .hold, nextAt := none }

/-- An announcement of the time base reaches a line: a decision, or a deferred one while an impulse is in
progress; none in OFF or FAULT (R167). -/
def Line.announce (p : Params) (unset : Bool) (clock now : Nat) (minute : Bool) (l : Line) : Line :=
  if l.state = .off ∨ l.state = .fault then l
  else if l.impulse.isSome then { l with deferred := true, deferredMinute := l.deferredMinute || minute }
  else l.decide p unset clock now minute .between

/-- Every line at a time set, minute advance or time step (R167). -/
def State.announceLines (minute : Bool) (s : State) : State :=
  { s with
    lines := s.lines.map (Line.announce s.inForce (s.time.state = .unset) s.time.clock s.runTime minute) }

/-- The dial part written whole from the line records, with its check (R176, R191). -/
def State.writeDials (s : State) : State :=
  { s with
    store :=
      { s.store with
        dials :=
          { contents := s.lines.map fun l => { dial := l.dial, polarity := l.polarity, inUse := l.inUse }
            good := true } } }

/-- A DIAL acting on a line with no impulse in progress (R174). What a SET leaves of a next impulse time is free
(log entry 10); it matters only where the line was in ADVANCE and stays there (R170). DESIGN CHOICE (log entry 48): an OFF
held pending keeps the missed count as R174 states, and R175's "The missed count becomes 0" is read of a pending SET. -/
def Line.applyDial (p : Params) (unset : Bool) (clock now : Nat) (w : DecisionTime) (d : PendingDial) (l : Line) : Line :=
  match d with
  | .set position polarity =>
    Line.decide p unset clock now false w
      { l with
        dial := position, polarity := polarity, missed := 0, inUse := true
        nextAt := if Config.dialKeepsNext then l.nextAt else none }
  | .off => { l with inUse := false, state := .off, nextAt := none }

/-- A DIAL acting on line `n` (R174). -/
def State.applyDial (n : Fin 4) (w : DecisionTime) (d : PendingDial) (s : State) : State :=
  (s.updLine n
    (Line.applyDial s.inForce (s.time.state = .unset) s.time.clock s.runTime w d)).writeDials

/-- The impulse and the check result removed, the deferred decision called off (R173). DESIGN CHOICE (log entry
39): the deferred decision flag is cleared also where a pending OFF is applied, of which R173 does not speak. -/
def Line.clearImpulse (l : Line) : Line :=
  { l with impulse := none, result := none, deferred := false, deferredMinute := false, pendingDial := none }

/-- The outcome of an impulse that found current (R173). -/
def Line.delivered (l : Line) : Line :=
  { l with dial := (l.dial + 1) % 720, polarity := l.polarity.flip, missed := 0 }

/-- The outcome of an impulse that found none: the third in a row puts the line into FAULT (R173). -/
def Line.missedOne (l : Line) : Line :=
  if l.missed + 1 ≥ 3 then { l with missed := 3, state := .fault, nextAt := none }
  else { l with missed := l.missed + 1 }

/-- The decision of step 4 at the end of an impulse (R173). -/
def Line.decideAtEnd (p : Params) (unset : Bool) (clock now : Nat) (i : Impulse) (before l : Line) : Line :=
  if l.state ≠ .fault ∧ l.state ≠ .off ∧ (l.state = .advance ∨ before.deferred) then
    l.decide p unset clock now before.deferredMinute (.atEnd i.start (i.start + i.width))
  else l

/-- The end of the impulse `i` of a line (R173). -/
def State.endImpulse (l : Line) (i : Impulse) (s : State) : State :=
  let unset : Bool := s.time.state = .unset
  let decided := Line.decideAtEnd s.inForce unset s.time.clock s.runTime i l
  match l.pendingDial with
  | some d =>
    (s.updLine l.no Line.clearImpulse).applyDial l.no (.atEnd i.start (i.start + i.width)) d
  | none =>
    if l.result = some true then
      (s.updLine l.no fun x => x.delivered).writeDials.updLine l.no fun x => decided x.clearImpulse
    else
      let s := s.updLine l.no fun x => decided x.missedOne.clearImpulse
      if l.missed + 1 ≥ 3 then s.post [.planning] .clockFault (.line l.no) else s

end Sys2Proof.Machine
end

