-- ==== Sys2Proof/Machine/Sensing.lean ====
section
/-! DEFINITION. The analog sensing unit's operations: the converter's choice, passes, channel classification
and zone brightness (R151 to R162). -/
namespace Sys2Proof.Machine

open Sys2Proof

/-- `s` with this sensing unit. -/
def State.withSense (u : Sense) (s : State) : State := { s with sense := u }

/-- The next conversion: the check at the head of the queue, else the light channel at the scan position, else
nothing (R152). -/
def Sense.choose (threshold : Nat) (u : Sense) : Sense :=
  match u.queue, u.position with
  | n :: _, _ => { u with converter := .check n threshold }
  | [], some c => { u with converter := .light c }
  | [], none => { u with converter := .idle }

/-- The lowest-numbered used light channel from `lowest` on (R153, R154). -/
def Sense.nextUsed (lowest : Nat) (u : Sense) : Option Nat :=
  (u.channels.find? fun c => c.zone ≠ 0 && lowest ≤ c.no).map (·.no)

/-- A reading is good (R155). -/
def goodReading (r : Nat) : Bool := 3 ≤ r && r ≤ 1020

/-- The runs and fault flag of a channel after a pass (R155). -/
def LightChannel.classify (c : LightChannel) : LightChannel :=
  match c.zone, c.reading with
  | 0, _ => c
  | _, none => c
  | _, some r =>
    if goodReading r then
      let g := min 4 (c.goodRun + 1)
      { c with goodRun := g, faultyRun := 0, fault := c.fault && g ≠ 4 }
    else
      let f := min 4 (c.faultyRun + 1)
      { c with faultyRun := f, goodRun := 0, fault := c.fault || f = 4 }

/-- The classification of every channel, with a SENSOR_FAULT for each flag that is set (R155). DESIGN CHOICE (log
entry 38): the notices are posted in channel order. -/
def State.classifyChannels (s : State) : State :=
  let after := s.sense.channels.map LightChannel.classify
  let faulted := (s.sense.channels.zip after).filterMap fun (a, b) =>
    if b.fault && !a.fault then some b.no else none
  faulted.foldl (fun t n => t.post [.planning] .sensorFault (.light n))
    (s.withSense { s.sense with channels := after })

/-- The usable readings of a zone, the channels classified (R155). -/
def Sense.usable (z : Nat) (u : Sense) : List Nat :=
  u.channels.filterMap fun c =>
    if c.zone = z && !c.fault then c.reading.bind fun r => if goodReading r then some r else none else none

/-- The target of a zone after the band of an average `a` (R158). -/
def newTarget (t a : Nat) : Nat :=
  let b := a / 64
  if b > t ∧ a ≥ 64 * b + 8 then b
  else if b < t ∧ a + 9 ≤ 64 * t then b
  else t

/-- The desired level of a target between floor and ceiling, the ceiling prevailing (R159). -/
def desiredLevel (p : Params) (t : Nat) : Nat := min (max t p.floor) p.ceiling

/-- One step from a level toward another (R159). -/
def stepToward (level desired : Nat) : Nat :=
  if level < desired then level + 1 else if level > desired then level - 1 else level

/-- A zone at the end of a pass, from its usable readings (R158, R159). -/
def LightZone.afterPass (p : Params) (usable : List Nat) (z : LightZone) : LightZone :=
  if usable = [] then
    if z.level < min p.floor p.ceiling ∨ z.level > p.ceiling then
      { z with level := stepToward z.level (desiredLevel p z.target) }
    else z
  else
    let t := newTarget z.target (usable.sum / usable.length)
    { z with target := t, level := stepToward z.level (desiredLevel p t) }

/-- The zone computation and the panel levels of the zones whose level changed (R158 to R160). -/
def State.computeZones (s : State) : State :=
  let after := s.sense.zones.map fun z => z.afterPass s.inForce (s.sense.usable z.no)
  let moved := (s.sense.zones.zip after).filterMap fun (a, b) => if a.level = b.level then none else some b.no
  (s.withSense { s.sense with zones := after }).writeLevels fun p => moved.contains p.zone

/-- The end of a pass (R154, R155, R158). -/
def State.endPass (s : State) : State :=
  let s := s.classifyChannels.computeZones
  s.withSense
    { s.sense with
      position := none
      channels := s.sense.channels.map fun c => { c with reading := none } }

/-- The converter offered to what waits (R152). -/
def State.chooseConversion (s : State) : State := s.withSense (s.sense.choose s.inForce.lineThreshold)

/-- A pass begins (R153). -/
def State.beginPass (s : State) : State :=
  let u : Sense := { s.sense with channels := s.sense.channels.map fun c => { c with reading := none } }
  match u.nextUsed 0 with
  | none => s.endPass
  | some c =>
    let s := s.withSense { u with position := some c }
    if s.sense.converter = .idle then s.chooseConversion else s

/-- The reading of a completed light conversion taken, and the scan position moved on (R154). -/
def State.takeReading (channel value : Nat) (s : State) : State :=
  let u :=
    { s.sense with
      channels := updWhere (·.no = channel) (fun c => { c with reading := some value }) s.sense.channels }
  match u.nextUsed (channel + 1) with
  | some c => (s.withSense { u with position := some c }).chooseConversion
  | none => (s.withSense u).endPass.chooseConversion

/-- A line check requested for line `n` (R156). -/
def Sense.request (threshold : Nat) (n : Fin 4) (u : Sense) : Sense :=
  if u.queue.contains n then u
  else
    let u' := { u with queue := u.queue ++ [n] }
    match u.converter with
    | .check _ _ => u'
    | _ => u'.choose threshold

end Sys2Proof.Machine
end

