-- ==== Sys2Proof/Machine/TimeKeeping.lean ====
section
/-! DEFINITION. The station time base's operations: the running second, the slew, the announcements and the
rollover (R46 to R57), and the silence of a port (R184). -/
namespace Sys2Proof.Machine

open Sys2Proof

/-! ## The running clock -/

/-- The clock after one running second (R47, R52): a skipped :59 under a remainder above 0, a held :59 under one
below 0, once in a minute. -/
def TimeBase.advance (t : TimeBase) : TimeBase :=
  if 0 < t.slew ∧ t.clock % 60 = 58 then
    { t with clock := (t.clock + 2) % 86400, slew := t.slew - 1, held := false }
  else if t.slew < 0 ∧ t.clock % 60 = 59 ∧ ¬ t.held then { t with slew := t.slew + 1, held := true }
  else { t with clock := (t.clock + 1) % 86400, held := false }

/-- The next running second makes a minute advance (R47). -/
def TimeBase.entersMinute (t : TimeBase) : Bool := t.state ≠ .unset && t.advance.clock % 60 = 0

/-- The running seconds count and the holdover timer after one running second (R47, R55). -/
def TimeBase.count (limit : Nat) (t : TimeBase) : TimeBase :=
  { t with
    runSec := t.runSec + 1
    runMs := t.runMs + 1000
    subMs := 0
    holdover := if t.state = .set ∧ t.holdover < 60 * limit then t.holdover + 1 else t.holdover
    limitsMoved := [] }

/-- The speak timer of a cue after one running second (R100). -/
def Cue.tick (c : Cue) : Cue :=
  match c.state with
  | .taken t => { c with state := .taken { t with timer := t.timer + 1 } }
  | _ => c

/-- The silence timer of a port after one running second (R184). -/
def Port.tick (p : Port) : Port := { p with silence := p.silence + 1 }

/-- The counters that run on running seconds, after one of them (R26, R47, R55, R100, R117, R122, R184). -/
def State.countSecond (s : State) : State :=
  { s with
    time := s.time.count s.inForce.holdover
    table := { s.table with entries := s.table.entries.map fun e => { e with filter := e.filter.tick } }
    cues := { s.cues with list := s.cues.list.map Cue.tick }
    wall :=
      { s.wall with
        dwell := s.wall.dwell.map (· - 1)
        posted := s.wall.posted.map fun n => { n with expiry := n.expiry.map (· - 1) } }
    ports :=
      { planning := s.ports.planning.tick
        signalling := s.ports.signalling.tick
        announcement := s.ports.announcement.tick } }

/-! ## Announcements -/

/-- The rollover (R56): every absolute minute reduced, and the table's removals (R57, R78, R95). -/
def State.rollover (s : State) : State := s.rollTracker.rollCues.rollTable

/-- The owners' actions at a minute advance or a time step, at the clock as it stands (R9, R78, R95, R167). DESIGN
CHOICE (log entry 36): the table is evaluated before the WAITING cues are tested. -/
def State.announceTime (minute : Bool) (s : State) : State :=
  (s.evaluateTable.testCues.testHolds).announceLines minute

/-- The minute advance of a clock that has just entered a new minute; at the service-day start the rollover
comes first (R47, R56). -/
def State.minuteAdvanced (s : State) : State :=
  let s := if s.elapsed = 0 then s.rollover else s
  s.announceTime true

/-! ## Limits -/

/-- A port becomes SILENT (R184). DESIGN CHOICE (log entry 43): PORT_SILENT is posted before the filters are cleared, so
ahead of any CUE_DROPPED of a cue that the clearing makes (R33, R94). -/
def State.fallSilent (p : PortId) (s : State) : State :=
  let s := s.updPort p fun r => { r with live := false }
  let s := s.post ([PortId.planning, .signalling, .announcement].filter (· ≠ p)) .portSilent (.port p)
  if p = .signalling then s.clearFilters else s

/-- The silence timer of the port stands at or above its limit while the port is LIVE (R184). -/
def State.silenceReached (s : State) (p : PortId) : Bool :=
  (s.port p).live && s.inForce.silenceLimit p ≤ (s.port p).silence

/-- The holdover timer stands at or above its limit in SET (R55). -/
def State.holdoverReached (s : State) : Bool :=
  s.time.state = .set && 60 * s.inForce.holdover ≤ s.time.holdover

/-- The passage to HOLDOVER (R55). -/
def State.enterHoldover (s : State) : State :=
  State.post [.planning] .holdover (.port s.inForce.timePort)
    { s with time := { s.time with state := .holdover } }

/-- The limits that a CONF has set since the last running second judge their timers (R55, R184). -/
def State.judgePort (s : State) (p : PortId) : State :=
  if s.time.limitsMoved.contains (silenceParam p) ∧ s.silenceReached p then s.fallSilent p else s

def State.judgeLimits (s : State) : State :=
  let s := if s.time.limitsMoved.contains 321 ∧ s.holdoverReached then s.enterHoldover else s
  ((s.judgePort .planning).judgePort .signalling).judgePort .announcement

/-- One running second, whole: the limits a CONF has moved, the counters, the clock, and the minute advance if
the clock enters a new minute in SET or HOLDOVER (R47). DESIGN CHOICE (log entry 50): what becomes due by the counts of a
second that enters a new minute, a stale prediction among it (R32), comes after that minute's evaluation (R9). -/
def State.second (s : State) : State :=
  let t := s.judgeLimits.countSecond
  let enters := t.time.entersMinute
  let t := { t with time := t.time.advance }
  if enters then (t.minuteAdvanced).settle s
  else if s.time.limitsMoved = [] then t
  else t.settle s

/-! ## TIME -/

/-- The offset of a received time from the clock (R49). -/
def timeOffset (received clock : Nat) : Int :=
  let d := ((received : Int) - clock) % 86400
  if d ≥ 43200 then d - 86400 else d

/-- Every accepted TIME leaves the state SET and the holdover timer at 0 (R49, R55). -/
def TimeBase.accept (t : TimeBase) : TimeBase := { t with state := .set, holdover := 0 }

/-- The clock set from UNSET, its second beginning now, and the time set announced (R50). -/
def State.setClock (received : Nat) (s : State) : State :=
  let t := s.time.accept
  let s :=
    { s with
      time := { t with clock := received, slew := 0, held := false, runMs := t.runMs + t.subMs, subMs := 0 } }
  (s.testCues.announceLines false).settleAttention

/-- The clock slewed (R51). -/
def State.slewClock (d : Int) (s : State) : State := { s with time := { s.time.accept with slew := d } }

/-- The clock stepped, with the rollover of a step that enters the service-day start, the announcement and the notice
(R53). DESIGN CHOICE (log entry 34): a step within a minute whose :59 has been held lets it be held again. DESIGN
CHOICE (log entry 51): TIME_STEPPED is posted after the notices of the owners' actions on the step. -/
def State.stepClock (received : Nat) (d : Int) (p : PortId) (s : State) : State :=
  let rolls : Bool := 0 < d && 86400 ≤ s.elapsed + d
  let t := { s with time := { s.time.accept with clock := received, slew := 0, held := false } }
  let t := if rolls then t.rollover else t
  let t := t.announceTime false
  (t.recompose.post [.planning, .signalling] .timeStepped (.port p)).finish s

end Sys2Proof.Machine
end

