-- ==== Sys2Proof/Machine/Link.lean ====
section
/-! DEFINITION. The link controller's operations: how a telegram is taken and answered (R182, R183), and what
applying a configuration does to every block (R131, R151, R160, R165, R191). -/
namespace Sys2Proof.Machine

open Sys2Proof

/-- What an owner answers to a telegram: the reply less its kind and sequence number (R182, R194). -/
structure Answer where
  code : Code
  clamped : Bool
  untracked : Bool
  field : Nat
  result : Result
  deriving DecidableEq, Repr

/-- An acceptance (R183). -/
def Answer.accept (result : Result) (clamped : Bool := false) (untracked : Bool := false) : Answer :=
  { code := .accepted, clamped := clamped, untracked := untracked, field := 0, result := result }

/-- A refusal (R183). -/
def Answer.refuse (code : Code) : Answer :=
  { code := code, clamped := false, untracked := false, field := 0, result := .none }

/-- A BAD_FIELD naming a field (R183). -/
def Answer.badField (field : Nat) : Answer :=
  { code := .badField, clamped := false, untracked := false, field := field, result := .none }

/-- The reply of an answer to a telegram (R194). -/
def Answer.reply (t : Tel) (a : Answer) : Reply :=
  { kind := t.kind ||| 0x80, seq := t.seq, code := a.code, clamped := a.clamped, untracked := a.untracked,
    field := a.field, result := a.result }

/-- The reply begins and the port passes to REPLYING (R182). -/
def State.answerTel (p : PortId) (t : Tel) (a : Answer) (s : State) : State :=
  s.updPort p fun r => { r with service := .replying, reply := some (a.reply t) }

/-- The telegram that port `p` is taking: the head of the buffer, in SERVING (R182). -/
def State.serving (s : State) (p : PortId) : Option Tel :=
  match (s.port p).service, (s.port p).buffer with
  | .serving, t :: _ => some t
  | _, _ => none

/-- The telegram of a kind that port `p` is taking. -/
def State.servingKind (s : State) (p : PortId) (k : Kind) : Option Tel :=
  (s.serving p).filter (·.kind = k.code)

/-- The general checks of R183 past UNKNOWN: the refusal of the first that fails, or the fields. -/
def judgeTel {α : Type} (p : PortId) (k : Kind) (read : List Octet → Option α) (body : List Octet) :
    Except Answer α :=
  if PortId.accepts p k then
    match read body with
    | some f => .ok f
    | none => .error (Answer.badField 0)
  else .error (Answer.refuse .wrongPort)

/-- A telegram of kind `k` taken on port `p`: the general checks of R183, then its owner, then the reply, its
answer completed by `finish` from the state after it. Where the port is taking no telegram of this kind the step
does not arise and nothing changes (log entry 4). -/
def State.takeWith {α : Type} (finish : State → Answer → Answer) (p : PortId) (k : Kind)
    (read : List Octet → Option α) (owner : α → State → State × Answer) (s : State) :
    Host.Outcome State Fault Refusal :=
  s.answer
    (match s.servingKind p k with
    | none => s
    | some t =>
      let r :=
        match judgeTel p k read t.body with
        | .error a => (s, a)
        | .ok f => owner f s
      r.1.answerTel p t (finish r.1 r.2))

/-- A telegram whose refusals carry no result fields (R196). -/
def State.takeTel {α : Type} (p : PortId) (k : Kind) (read : List Octet → Option α)
    (owner : α → State → State × Answer) (s : State) : Host.Outcome State Fault Refusal :=
  s.takeWith (fun _ a => a) p k read owner

/-- A run field's check: a run of 0 is out of range (R1, R13). -/
def runOk (run : Nat) : Bool := run ≠ 0

/-- The revision an accepted telegram's reply carries: that of the entry after the telegram (R13). -/
def State.revisionOf (s : State) (run : Nat) : Result :=
  match s.entry? run with
  | some e => .revision e.rev
  | none => .none

/-- An owner's checks of a telegram that names a run: its field ranges, NO_ENTRY, WRONG_STATE, and then `act` on
the entry (R13). -/
def State.onEntry (checks : List (Nat × Bool)) (run : Nat) (allowed : Entry → Bool)
    (act : Entry → State × Answer) (s : State) : State × Answer :=
  match firstBad checks with
  | some i => (s, Answer.badField i)
  | none =>
    match s.entry? run with
    | none => (s, Answer.refuse .noEntry)
    | some e => if allowed e then act e else (s, Answer.refuse .wrongState)

/-- A state with the acceptance that carries the entry's revision in it (R13). -/
def State.acceptRevision (run : Nat) (s : State) (clamped : Bool := false) (untracked : Bool := false) : State × Answer :=
  (s, Answer.accept (s.revisionOf run) clamped untracked)

/-! ## Applying a configuration -/

/-- The record of address `a` at power-on or RSET under a configuration (R131). -/
def freshPanel (p : Params) (a : Nat) : Panel :=
  let blank := Panel.absentAt a (p.panelZones.getD (a - 1) 1)
  match p.settledRole a with
  | .none => blank
  | r => { blank with role := r, state := .probing }

/-- The 60 panel records under a configuration (R131). -/
def freshPanels (p : Params) : List Panel := (List.range 60).map fun i => freshPanel p (i + 1)

/-- The record of light channel `n` at power-on (R151). -/
def freshChannel (p : Params) (n : Nat) : LightChannel :=
  { no := n, zone := p.lightZones.getD n 0, faultyRun := 0, goodRun := 0, fault := false, reading := none }

/-- The analog sensing unit at power-on (R151, R152, R153, R158). -/
def freshSense (p : Params) : Sense :=
  { channels := (List.range 8).map (freshChannel p)
    converter := .idle
    queue := []
    position := none
    scanDue := p.scanPeriod
    zones := [1, 2, 3, 4].map fun z => { no := z, level := p.ceiling, target := 15 } }

/-- A line record loaded from the dial part (R165). -/
def loadedLine (n : Fin 4) (d : DialEntry) : Line :=
  { Line.faulted n with
    state := if d.inUse then .paused else .off
    dial := d.dial
    polarity := d.polarity
    missed := 0
    inUse := d.inUse }

/-- The line records loaded from the store (R165). -/
def loadLines (part : StoredPart (List DialEntry)) : List Line :=
  ([0, 1, 2, 3] : List (Fin 4)).map fun n =>
    match part.good, part.contents[n.val]? with
    | true, some d => loadedLine n d
    | _, _ => Line.faulted n

/-- The notices that the load posts to the planning port, after RESTARTED (R179, R191). -/
def loadNotices (store : Store) : List Notice :=
  ⟨.restarted, .absent, 0⟩ ::
    ((if store.configuration.good then [] else [⟨.storeInvalid, .absent, 0⟩]) ++
      if store.dials.good then [] else ([0, 1, 2, 3] : List (Fin 4)).map fun n => ⟨.clockFault, .line n, 0⟩)

/-- The configuration loaded from the store (R191). -/
def loadParams (part : StoredPart Params) : Params := if part.good then part.contents else Params.default

/-- Every block at its reset values after power-on or the reset pin, before the panel bus makes its first
dispatch decision (R191). -/
def State.resetValues (store : Store) (pending : List Instr) : State :=
  let p := loadParams store.configuration
  let s : State :=
    { State.reset with
      pending := pending
      inForce := p
      pendingCfg := p
      ports :=
        { planning := Port.reset (loadNotices store)
          signalling := Port.reset [⟨.restarted, .absent, 0⟩]
          announcement := Port.reset [⟨.restarted, .absent, 0⟩] }
      bus := { State.reset.bus with panels := freshPanels p, intervalEnd := 1000 * p.interval }
      sense := freshSense p
      lines := loadLines store.dials
      store := store }
  let s := s.writeLevels fun _ => true
  s.recompose

/-- Power-on and the reset pin (R191). DEDUCED (log entry 5): the configured panels are stale at once, so the
first dispatch decision belongs to the same step (R139). -/
def State.restart (store : Store) (pending : List Instr) : State :=
  (State.resetValues store pending).dispatch.settleAttention

/-- A light channel when RSET applies a configuration: a changed assignment brings the values of power-on (R162). -/
def LightChannel.reassign (p : Params) (c : LightChannel) : LightChannel :=
  let z := p.lightZones.getD c.no 0
  if c.zone = z then { c with reading := none } else freshChannel p c.no

/-- The sensing unit when RSET applies a configuration: a pass and its light conversion are given up, checks go on (R162). -/
def Sense.rset (p : Params) (u : Sense) : Sense :=
  let u := { u with position := none, channels := u.channels.map (LightChannel.reassign p) }
  match u.converter with
  | .light _ => u.choose p.lineThreshold
  | _ => u

/-- RSET's effects, in the order of R192. -/
def State.resetPicture (s : State) : State :=
  let p := s.inForce.withStructural s.pendingCfg
  let s : State :=
    { s with
      inForce := p
      pendingCfg := p
      table := { entries := [], displayable := [] }
      tracker := { records := [], closed := [] }
      cues := { list := [], last := 0, zones := Zone.allFree }
      wall :=
        { s.wall with
          rowMap := [], gateChoice := [], items := [], current := none, mark := none, dwell := none,
          posted := [], mode := .normal }
      bus :=
        { s.bus with
          panels := freshPanels p
          urgent := []
          exchange := s.bus.exchange.map fun x => { x with rset := true } }
      sense := s.sense.rset p
      ports :=
        { planning := { s.ports.planning with notices := [], overflow := false }
          signalling := { s.ports.signalling with notices := [], overflow := false }
          announcement := { s.ports.announcement with notices := [], overflow := false } } }
  let s := s.writeLevels fun _ => true
  let s := s.post [.planning, .signalling, .announcement] .restarted (.port .planning)
  s.settle s

end Sys2Proof.Machine
end

