-- ==== Sys2Proof/Machine/Speech.lean ====
section
/-! DEFINITION. The end of a TAKEN cue: the gap of its zones, what a DONE hands on, and the fate of the cue
(R101 to R105). -/
namespace Sys2Proof.Machine

open Sys2Proof

/-- The TAKEN cue of a number, with what it holds. -/
def State.takenCue? (number : Nat) (s : State) : Option (Cue × Taken) :=
  match s.cues.list.find? (·.number = number) with
  | some c =>
    match c.state with
    | .taken t => some (c, t)
    | _ => none
  | none => none

/-- The cue of a number leaves the list. -/
def State.endCue (number : Nat) (s : State) : State := s.withCues (s.cues.list.filter (·.number ≠ number))

/-- The cue of a number changed in place. -/
def State.updCue (number : Nat) (f : Cue → Cue) (s : State) : State :=
  s.withCues (updWhere (·.number = number) f s.cues.list)

/-- The zones of a cue formed afresh from its entry, and for a CHANGE cue from the run's OPEN record (R103, R104). -/
def State.freshZones (s : State) (c : Cue) : List Nat :=
  match s.entry? c.run with
  | some e => e.cueZones (s.changeOf c.run) c.kind
  | none => c.zones

/-- The cue returns to DUE with these attempts, its due kept, its flags clear and its zones afresh (R103, R104). -/
def State.returnDue (c : Cue) (attempts : Nat) (s : State) : State :=
  let zones := s.freshZones c
  s.updCue c.number fun x =>
    { x with state := .due, attempts := attempts, pendRev := false, pendDrop := false, zones := zones }

/-- What a DONE hands to the owners, from the captured content (R102). -/
def State.spokenFacts (t : Captured) (s : State) : State :=
  match t.kind with
  | .platform => s.updEntry t.run fun e => { e with announced := t.platform }
  | .change => (s.changeDone t.run).updEntry t.run fun e => { e with announced := t.dst }
  | .delay => s.updEntry t.run fun e => { e with lastDelay := t.delay.getD 0 }
  | _ => s

/-- A spoken DELAY cue is repeated (R103, fate 4). -/
def State.repeats (s : State) (c : Cue) : Bool :=
  c.kind = .delay && 0 < s.inForce.repeatPeriod &&
    (s.entry? c.run).any fun e => e.awaiting && s.inForce.delayThreshold ≤ e.dd

/-- The fate of a cue after a DONE (R103). -/
def State.fateOfDone (c : Cue) (s : State) : State × Fate × Nat :=
  if c.pendDrop then (s.endCue c.number, .ended, c.attempts)
  else if c.pendRev then
    match c.kind with
    | .platform | .final => (s.endCue c.number, .ended, c.attempts)
    | _ => (s.returnDue c 0, .due, 0)
  else if s.repeats c then
    (s.updCue c.number fun x =>
        { x with state := .waiting, due := s.now + s.inForce.repeatPeriod, attempts := 0 }, .waiting, 0)
  else (s.endCue c.number, .ended, c.attempts)

/-- The fate of a cue after an ABORTED (R104). -/
def State.fateOfAbort (c : Cue) (s : State) : State × Fate × Nat :=
  if c.pendDrop then (s.endCue c.number, .ended, c.attempts)
  else if c.attempts + 1 ≥ 3 then
    let s := (s.endCue c.number).postDropped c.run
    (if c.kind = .change then s.changeDropped c.run else s, .ended, c.attempts + 1)
  else (s.returnDue c (c.attempts + 1), .due, c.attempts + 1)

/-- The outcome of the TAKEN cue `c`: the gap, the spoken facts of a DONE, the fate, and the report of its end to
the table controller (R101). The wall and the attention lines follow. -/
def State.speak (done : Bool) (c : Cue) (t : Taken) (s : State) : State × Fate × Nat :=
  let g := s.startGap t.content.zones
  let (u, fate, attempts) :=
    if done then (g.spokenFacts t.content).fateOfDone c
    else
      let g := if c.kind = .change then g.clearSpeech c.run else g
      g.fateOfAbort c
  ((u.cueEnded c.run).settle s, fate, attempts)

end Sys2Proof.Machine
end

