-- ==== Sys2Proof/Machine/BusCommands.lean ====
section
/-! DEFINITION. The panel bus controller's commands (R133 to R147). -/
namespace Sys2Proof.Machine

open Sys2Proof

/-- `s` with this exchange in flight. -/
def State.withExchange (x : Option Exchange) (s : State) : State := { s with bus := { s.bus with exchange := x } }

/-- The exchange whose frame is being sent. -/
def Bus.sending (b : Bus) : Option Exchange := b.exchange.filter (·.phase = .sending)

/-- The exchange whose reply window is open, with the running time it opened. -/
def Bus.awaiting (b : Bus) : Option (Exchange × Nat) :=
  b.exchange.bind fun x =>
    match x.phase with
    | .window t => some (x, t)
    | .sending => none

/-- PANEL_FRAME_END (R133): the reply window opens. -/
def execPanelFrameEnd (ms : Nat) (s : State) : Host.Outcome State Fault Refusal :=
  s.answer
    (match s.bus.sending with
    | some x => let t := s.atMs ms; t.withExchange (some { x with phase := .window t.runTime })
    | none => s)

/-- PANEL_REPLY_RECEIVED (R134). -/
def execPanelReplyReceived (ms : Nat) (octets : List Octet) (s : State) : Host.Outcome State Fault Refusal :=
  s.answer
    (match s.bus.awaiting with
    | some (x, _) => (s.atMs ms).endExchange x (classifyReply x octets)
    | none => s)

/-- REPLY_WINDOW_CLOSE (R133): the window of 5 milliseconds closes with no reply begun. -/
def execReplyWindowClose (ms : Nat) (s : State) : Host.Outcome State Fault Refusal :=
  s.answer
    (match s.bus.awaiting with
    | some (x, t) => if t + 5 ≤ (s.atMs ms).runTime then (s.atMs ms).endExchange x .failed else s
    | none => s)

/-- STRAY_PANEL_OCTETS (R133): octets that belong to no exchange are discarded. -/
def execStrayPanelOctets (_octets : List Octet) (s : State) : Host.Outcome State Fault Refusal := s.answer s

/-- KEEPALIVE_DUE (R139, R143): a dispatch decision if the bus is IDLE. -/
def execKeepaliveDue (ms addr : Nat) (s : State) : Host.Outcome State Fault Refusal :=
  s.answer
    (if ((s.atMs ms).panel? addr).any (s.atMs ms).keepaliveIsDue then (s.atMs ms).dispatch else s)

/-- PROBE_DUE (R139, R143): a dispatch decision if the bus is IDLE. -/
def execProbeDue (ms addr : Nat) (s : State) : Host.Outcome State Fault Refusal :=
  s.answer
    (if ((s.atMs ms).panel? addr).any (s.atMs ms).probeIsDue then (s.atMs ms).dispatch else s)

/-! ## The errored-interval monitor -/

/-- The error counter of a panel after an interval in which it was addressed (R145). -/
def Panel.counted (p : Params) (q : Panel) : Nat := if q.errored then q.ec + p.increment else q.ec - p.decrement

/-- The monitor's judgement of one panel (R145, R146). -/
def State.monitor (s : State) (q : Panel) : State :=
  if q.state = .active ∧ q.addressed then
    let ec := q.counted s.inForce
    if s.inForce.failThreshold ≤ ec then s.failPanel q.addr
    else s.updPanel q.addr fun x => { x with ec := ec }
  else s

/-- The interval flags of every panel cleared (R145). -/
def State.clearIntervalFlags (s : State) : State :=
  { s with bus := { s.bus with panels := s.bus.panels.map Panel.clearFlags } }

/-- The next interval begins (R144). -/
def State.nextInterval (s : State) : State :=
  { s with bus := { s.bus with intervalEnd := s.bus.intervalEnd + 1000 * s.inForce.interval } }

/-- The end of an interval: every panel that was ACTIVE at that moment is judged, and the next interval begins
(R144, R145). DESIGN CHOICE (log entry 37): in ascending order of address. -/
def State.endInterval (s : State) : State :=
  ((s.bus.panels.foldl State.monitor s).clearIntervalFlags.nextInterval).finish s

/-- INTERVAL_END (R145). -/
def execIntervalEnd (ms : Nat) (s : State) : Host.Outcome State Fault Refusal :=
  s.answer (if s.bus.intervalEnd ≤ (s.atMs ms).runTime then (s.atMs ms).endInterval else s)

end Sys2Proof.Machine
end

