-- ==== Sys2Proof/Machine/CueCommands.lean ====
section
/-! DEFINITION. The cue scheduler's commands: TAKE, SPKN, ZONE, the speak timeout and the gap end (R97 to R106). -/
namespace Sys2Proof.Machine

open Sys2Proof

/-- A cue is given to the announcement master: TAKEN with its content, its flag clear, its timer started (R100). -/
def State.giveCue (c : Cue) (content : Captured) (s : State) : State :=
  let t := s.updCue c.number fun x =>
    { x with
      state := .taken { content := content, timer := 0, limit := s.inForce.speakTime }, pendRev := false }
  (if c.kind = .change then t.changeTaken c.run else t).settleAttention

/-- TAKE (R99, R100). Every cue names an entry present in the table; one that did not would not be given. -/
def takeOwner (s : State) : State × Answer :=
  if s.inForce.channels ≤ s.takenCount then (s, Answer.refuse .busy)
  else
    match s.bestCue with
    | none => (s, Answer.refuse .none)
    | some c =>
      match s.entry? c.run with
      | none => (s, Answer.refuse .none)
      | some e =>
        let content := captureContent s.inForce e (s.changeOf c.run) c
        (s.giveCue c content, Answer.accept (.cue content c.attempts))

def execTake (p : PortId) (s : State) : Host.Outcome State Fault Refusal :=
  s.takeTel p .take readNothing fun _ => takeOwner

/-- SPKN (R101). -/
def spknOwner (f : SpknFields) (s : State) : State × Answer :=
  match firstBad [(1, f.cue ≠ 0), (2, f.outcome ≤ 1)] with
  | some i => (s, Answer.badField i)
  | none =>
    match s.takenCue? f.cue with
    | none => (s, Answer.refuse .tooLate)
    | some (c, t) =>
      let (u, fate, attempts) := s.speak (f.outcome = 0) c t
      (u, Answer.accept (.fate fate attempts))

def execSpkn (p : PortId) (s : State) : Host.Outcome State Fault Refusal :=
  s.takeTel p .spkn readSpkn spknOwner

/-- The held flag of the listed zones set or cleared (R98). -/
def State.holdZones (held : Bool) (zones : List Nat) (s : State) : State :=
  { s with
    cues :=
      { s.cues with
        zones := updWhere (fun z => zones.contains z.no) (fun z => { z with held := held }) s.cues.zones } }

/-- The numbers of the zones held (R98). DESIGN CHOICE (log entry 41): in ascending order. -/
def State.heldZones (s : State) : List Nat := (s.cues.zones.filter (·.held)).map (·.no)

/-- The field ranges of ZONE (R98). -/
def zoneChecks (p : Params) (f : ZoneFields) : List (Nat × Bool) :=
  [ (1, f.action ≤ 1),
    (2, f.zones ≠ [] && f.zones.length ≤ 25 && f.zones.all fun z => z ≤ 24 && z ≤ p.platforms) ]

/-- ZONE (R98). -/
def zoneOwner (f : ZoneFields) (s : State) : State × Answer :=
  match firstBad (zoneChecks s.inForce f) with
  | some i => (s, Answer.badField i)
  | none =>
    let t := (s.holdZones (f.action = 0) f.zones).settleAttention
    (t, Answer.accept (.zones t.heldZones))

def execZone (p : PortId) (s : State) : Host.Outcome State Fault Refusal :=
  s.takeTel p .zone readZone zoneOwner

/-- SPEAK_TIMEOUT (R105): the speak timer of the TAKEN cue has reached the speak time. DEDUCED (log entry 14):
the notice SPEAK_TIMEOUT comes before a CUE_DROPPED. -/
def execSpeakTimeout (cue : Nat) (s : State) : Host.Outcome State Fault Refusal :=
  s.answer
    (match s.takenCue? cue with
    | some (c, t) =>
      if t.limit ≤ t.timer then
        ((s.post [.announcement] .speakTimeout (.run c.run)).speak false c t).1
      else s
    | none => s)

/-- The gap end of a zone is reached (R97). -/
def Zone.endGap (z : Zone) : Zone := { z with gapEnd := none }

/-- GAP_END (R97). -/
def execGapEnd (zone : Nat) (s : State) : Host.Outcome State Fault Refusal :=
  s.answer
    (if s.cues.zones.any fun z => z.no = zone && z.gapEnd.any (· ≤ s.time.runSec) then
      State.settleAttention
        { s with cues := { s.cues with zones := updWhere (·.no = zone) Zone.endGap s.cues.zones } }
    else s)

end Sys2Proof.Machine
end

