-- ==== Sys2Proof/Machine/LineCommands.lean ====
section
/-! DEFINITION. The impulse line driver's commands: DIAL, the next impulse time and the impulse end (R170 to R175). -/
namespace Sys2Proof.Machine

open Sys2Proof

/-! ## DIAL -/

/-- The field ranges of DIAL (R174, R195). -/
def dialChecks (f : DialFields) : List (Nat × Bool) :=
  [ (1, f.line ≤ 3), (2, f.action ≤ 1), (3, f.setting.all (·.1 ≤ 719)), (4, f.setting.all (·.2 ≤ 1)) ]

/-- What a DIAL asks for (R174). -/
def DialFields.dial (f : DialFields) : PendingDial :=
  match f.setting with
  | some (position, polarity) => .set position (if polarity = 0 then .pos else .neg)
  | none => .off

/-- A DIAL acts at once between impulses, and is held pending during one (R174, R175). -/
def State.takeDial (n : Fin 4) (d : PendingDial) (s : State) : State :=
  if (s.line? n).any (·.impulse.isSome) then s.updLine n fun l => { l with pendingDial := some d }
  else s.applyDial n .between d

/-- What DIAL answers (R174, R175). -/
def State.lineResult (s : State) (n : Fin 4) : Result :=
  match s.line? n with
  | some l => .line l.state l.dial l.polarity l.missed l.pendingDial.isSome
  | none => .none

/-- The line that a line field names. -/
def lineOf (n : Nat) : Fin 4 := Fin.ofNat 4 n

/-- DIAL (R174). -/
def dialOwner (f : DialFields) (s : State) : State × Answer :=
  match firstBad (dialChecks f) with
  | some i => (s, Answer.badField i)
  | none =>
    let t := s.takeDial (lineOf f.line) f.dial
    (t, Answer.accept (t.lineResult (lineOf f.line)))

def execDial (p : PortId) (s : State) : Host.Outcome State Fault Refusal :=
  s.takeTel p .dial readDial dialOwner

/-! ## Events -/

/-- The next impulse time of an ADVANCE line is reached (R170). -/
def Line.nextIsDue (now : Nat) (l : Line) : Bool :=
  l.state = .advance && l.impulse.isNone && l.nextAt.any (· ≤ now)

/-- NEXT_IMPULSE_TIME (R170). -/
def execNextImpulseTime (ms : Nat) (line : Fin 4) (s : State) : Host.Outcome State Fault Refusal :=
  s.answer
    (let t := s.atMs ms
    if (t.line? line).any (Line.nextIsDue t.runTime) then t.updLine line (Line.begin t.inForce t.runTime) else s)

/-- The impulse on a line whose width has passed (R172). -/
def Line.ending (now : Nat) (l : Line) : Option (Line × Impulse) :=
  (l.impulse.filter fun i => i.start + i.width ≤ now).map fun i => (l, i)

/-- IMPULSE_END (R173). -/
def execImpulseEnd (ms : Nat) (line : Fin 4) (s : State) : Host.Outcome State Fault Refusal :=
  s.answer
    (let t := s.atMs ms
    match (t.line? line).bind (Line.ending t.runTime) with
    | some (l, i) => (t.endImpulse l i).settleAttention
    | none => s)

end Sys2Proof.Machine
end

