-- ==== Sys2Proof/Machine/LinkCommands.lean ====
section
/-! DEFINITION. The link controller's commands: frames, replies, UNKNOWN, POLL, CONF, CSAV, RSET and the silence
of a port (R179 to R193). -/
namespace Sys2Proof.Machine

open Sys2Proof

/-! ## Frames and replies -/

/-- A telegram offered to the receive buffer, and taken at once by an IDLE port (R181, R182). -/
def Port.offer (t : Tel) (r : Port) : Port :=
  if r.buffer.length < 2 then
    { r with buffer := r.buffer ++ [t], service := if r.service = .idle then .serving else r.service }
  else r

/-- A frame that passes framing: the silence timer restarts, the port is LIVE, and the telegram is offered to the
buffer (R180). -/
def Port.frameIn (t : Tel) (r : Port) : Port := Port.offer t { r with live := true, silence := 0 }

/-- TELEGRAM_FRAME_END (R180): a frame that fails framing has no effect of any kind. -/
def execTelegramFrameEnd (p : PortId) (ms : Nat) (octets : List Octet) (s : State) :
    Host.Outcome State Fault Refusal :=
  s.answer
    (match judgeFrame octets with
    | some t => (s.atMs ms).updPort p (Port.frameIn t)
    | none => s)

/-- ABORT_SEQUENCE (R180, R194): the frame in progress is discarded, with no effect of any kind. -/
def execAbortSequence (_p : PortId) (s : State) : Host.Outcome State Fault Refusal := s.answer s

/-- The end of a reply: the head telegram leaves the buffer, and the next is taken if one waits (R182). -/
def Port.replyDone (r : Port) : Port :=
  if r.service = .replying then
    { r with
      buffer := r.buffer.tail
      reply := none
      service := if r.buffer.tail = [] then .idle else .serving }
  else r

/-- REPLY_SENT (R182). -/
def execReplySent (p : PortId) (ms : Nat) (s : State) : Host.Outcome State Fault Refusal :=
  s.answer
    (if (s.port p).service = .replying then (s.atMs ms).updPort p Port.replyDone else s)

/-- UNKNOWN (R183): a telegram of undefined kind is taken and answered UNKNOWN. -/
def execUnknown (p : PortId) (s : State) : Host.Outcome State Fault Refusal :=
  s.answer
    (match s.serving p with
    | some t =>
      match Kind.ofCode t.kind with
      | none => s.answerTel p t (Answer.refuse .unknown)
      | some _ => s
    | none => s)

/-! ## POLL -/

/-- The port after a POLL of its list (R186). -/
def Port.polled (r : Port) : Port := { r with notices := r.notices.drop 4, overflow := false }

/-- POLL (R186). -/
def pollOwner (p : PortId) (s : State) : State × Answer :=
  let r := s.port p
  ((s.updPort p Port.polled).settleAttention,
    Answer.accept (.notices (r.notices.take 4) (4 < r.notices.length) r.overflow))

def execPoll (p : PortId) (s : State) : Host.Outcome State Fault Refusal :=
  s.takeTel p .poll readNothing fun _ => pollOwner p

/-! ## CONF -/

/-- C: every confirm count above the new C is reduced to it (R43). -/
def State.capConfirm (s : State) : State :=
  { s with
    table :=
      { s.table with
        entries := s.table.entries.map fun e =>
          { e with filter := { e.filter with k := min e.filter.k s.inForce.confirm } } } }

/-- Nt: every entry but a RETIRING one whose class changed counts one revision (R41). -/
def State.reclass (before : Nat) (s : State) : State :=
  { s with
    table :=
      { s.table with
        entries := s.table.entries.map fun e =>
          if e.state ≠ .retiring ∧ e.late before ≠ e.late s.inForce.lateness then { e with rev := e.rev + 1 }
          else e } }

/-- T: the ACTIVE panels at or above the threshold go FAILED in ascending address order (R147). -/
def State.failAbove (s : State) : State :=
  (s.bus.panels.filter fun p => p.state = .active && s.inForce.failThreshold ≤ p.ec).foldl
    (fun t p => t.failPanel p.addr) s

/-- What the owners do within the CONF of a timing parameter, its value set, against the state `old` before it
(R43, R55, R78, R95, R121, R147, R184). -/
def State.afterConf (n : Nat) (s old : State) : State :=
  if n = 301 then s.capConfirm
  else if n = 303 then (s.reclass old.inForce.lateness).settle old
  else if n = 304 ∨ n = 321 ∨ n = 391 ∨ n = 392 ∨ n = 393 then
    { s with time := { s.time with limitsMoved := n :: s.time.limitsMoved } }
  else if n = 332 then s.testHolds.settle old
  else if n = 341 then (s.refollow .platform).settleAttention
  else if n = 342 then (s.refollow .final).settleAttention
  else if n = 343 then s.settle old
  else if n = 361 then s.failAbove.finish old
  else s

/-- The value of a parameter set: a timing one in both copies, a structural one in the pending copy (R189). -/
def State.setParameter (n v : Nat) (structural : Bool) (s : State) : State :=
  let s := { s with pendingCfg := s.pendingCfg.setNumber n v }
  if structural then s else { s with inForce := s.inForce.setNumber n v }

/-- CONF (R189). -/
def confOwner (f : ConfFields) (s : State) : State × Answer :=
  match paramRow f.number with
  | none => (s, Answer.badField 1)
  | some row =>
    let v := row.range.nearest f.value
    let t := s.setParameter f.number v row.structural
    (if row.structural then t else t.afterConf f.number s,
      Answer.accept (.parameter f.number row.structural v) (clamped := v ≠ f.value))

def execConf (p : PortId) (s : State) : Host.Outcome State Fault Refusal :=
  s.takeTel p .conf readConf confOwner

/-! ## CSAV and RSET -/

/-- The configuration part written: the timing values in force and the pending structural values (R190). -/
def State.saveConfiguration (s : State) : State :=
  { s with
    store :=
      { s.store with
        configuration := { contents := s.inForce.withStructural s.pendingCfg, good := true } } }

/-- CSAV (R190). -/
def execCsav (p : PortId) (s : State) : Host.Outcome State Fault Refusal :=
  s.takeTel p .csav readNothing fun _ s => (s.saveConfiguration, Answer.accept .none)

/-- RSET (R192). -/
def execRset (p : PortId) (s : State) : Host.Outcome State Fault Refusal :=
  s.takeTel p .rset readNothing fun _ s => (s.resetPicture, Answer.accept .none)

/-! ## Silence -/

/-- SILENCE_EXPIRY (R184). A limit that a CONF has set since the running second last counted judges the timer at
the next running second instead. -/
def execSilenceExpiry (p : PortId) (s : State) : Host.Outcome State Fault Refusal :=
  s.answer
    (if s.silenceReached p ∧ ¬ s.time.limitsMoved.contains (silenceParam p) then (s.fallSilent p).settle s else s)

end Sys2Proof.Machine
end

