-- ==== Sys2Proof/Machine/ResetCommands.lean ====
section
/-! DEFINITION. POWER_ON, RESET_PIN and POWER_LOSS (R191). -/
namespace Sys2Proof.Machine

open Sys2Proof

/-- POWER_ON (R191): power comes back to a part that has none. With power applied already the step does not arise
(log entry 4). -/
def execPowerOn (s : State) : Host.Outcome State Fault Refusal :=
  .next (if s.powered then s else State.restart s.store s.pending)

/-- RESET_PIN (R191): the same effect as power-on. -/
def execResetPin (s : State) : Host.Outcome State Fault Refusal :=
  s.answer (State.restart s.store s.pending)

/-- The store after a loss of power that cut short the write of a part (R191). -/
def Store.cut (part : Option StorePart) (st : Store) : Store :=
  match part with
  | none => st
  | some .configuration => { st with configuration := { st.configuration with good := false } }
  | some .dial => { st with dials := { st.dials with good := false } }

/-- POWER_LOSS (R191): the store keeps its parts, but for one whose write is cut short. DESIGN CHOICE (log
entry 13): everything else is put at its value of a reset with no notice, and the attention lines are released. -/
def State.losePower (cut : Option StorePart) (s : State) : State :=
  let dark : Port := { Port.reset [] with attention := false }
  { State.reset with
    pending := s.pending
    powered := false
    ports := { planning := dark, signalling := dark, announcement := dark }
    store := s.store.cut cut }

def execPowerLoss (cut : Option StorePart) (s : State) : Host.Outcome State Fault Refusal :=
  s.answer (s.losePower cut)

end Sys2Proof.Machine
end

