-- ==== Sys2Proof/Machine/SensingCommands.lean ====
section
/-! DEFINITION. The analog sensing unit's commands (R153 to R157). -/
namespace Sys2Proof.Machine

open Sys2Proof

/-- The scan timer restarted at its expiry (R153, R161). -/
def State.restartScan (s : State) : State :=
  s.withSense { s.sense with scanDue := s.sense.scanDue + s.inForce.scanPeriod }

/-- PASS_TRIGGER (R153): a trigger while a pass is in progress is ignored. -/
def execPassTrigger (ms : Nat) (s : State) : Host.Outcome State Fault Refusal :=
  s.answer
    (if s.sense.scanDue ≤ (s.atMs ms).runTime then
      let t := (s.atMs ms).restartScan
      if t.sense.position.isSome then t else t.beginPass.finish s
    else s)

/-- LIGHT_CONVERSION_COMPLETE (R154). -/
def execLightConversionComplete (ms : Nat) (value : BitVec 10) (s : State) : Host.Outcome State Fault Refusal :=
  s.answer
    (match s.sense.converter with
    | .light c => ((s.atMs ms).takeReading c value.toNat).finish s
    | _ => s)

/-- The line check of the impulse on a line has been requested. -/
def Line.asked (l : Line) : Line := { l with impulse := l.impulse.map fun i => { i with asked := true } }

/-- The midpoint of an impulse whose check has not been requested is reached (R172). -/
def Impulse.atMidpoint (now : Nat) (i : Impulse) : Bool := !i.asked && 2 * i.start + i.width ≤ 2 * now

/-- LINE_CHECK_REQUEST (R156, R172). -/
def execLineCheckRequest (ms : Nat) (line : Fin 4) (s : State) : Host.Outcome State Fault Refusal :=
  s.answer
    (let t := s.atMs ms
    if (t.line? line).any fun l => l.impulse.any (Impulse.atMidpoint t.runTime) then
      (t.updLine line Line.asked).withSense (t.sense.request t.inForce.lineThreshold line)
    else s)

/-- The result of a line check handed to the driver, which holds it until the impulse ends (R157, R172). -/
def Line.takeResult (present : Bool) (l : Line) : Line :=
  if l.impulse.isSome then { l with result := some present } else l

/-- LINE_CHECK_COMPLETE (R157). -/
def execLineCheckComplete (ms : Nat) (value : BitVec 10) (s : State) : Host.Outcome State Fault Refusal :=
  s.answer
    (match s.sense.converter with
    | .check n threshold =>
      let t := (s.atMs ms).updLine n (Line.takeResult (threshold ≤ value.toNat))
      (t.withSense { t.sense with queue := t.sense.queue.tail }).chooseConversion
    | _ => s)

end Sys2Proof.Machine
end

