-- ==== Sys2Proof/Machine/TableCommands.lean ====
section
/-! DEFINITION. The table controller's and the change tracker's telegrams (R13 to R23, R27 to R34, R81) and the
staleness of a prediction (R32). -/
namespace Sys2Proof.Machine

open Sys2Proof

/-! ## PLAN -/

/-- The scheduled minute of a clock and a day selector (R14). -/
def schedMinute (dayStart hh mm day : Nat) : Int :=
  ((hh * 60 + mm : Int) - dayStart) % 1440 + if day = 1 then 1440 else 0

/-- The entry that PLAN creates, before its transitions (R1, R14). -/
def newEntry (dayStart : Nat) (f : PlanFields) : Entry :=
  let sched := schedMinute dayStart f.hh f.mm f.day
  { run := f.run, headcode := (fixHeadcode f.headcode).1, destination := (fixText 24 f.destination).1,
    calls := (fixCalls f.calls).1, sched := sched, planned := optNat f.platform, assigned := none,
    opDelay := none, filter := Filter.empty, dd := 0, exp := sched, state := .listed, stateTime := none,
    reason := none, rev := 0, announced := none, lastDelay := 0, openRec := none }

/-- The field ranges of PLAN (R14); of a list of more than twelve calling points the first twelve are taken. -/
def planChecks (p : Params) (f : PlanFields) : List (Nat × Bool) :=
  [ (1, runOk f.run), (3, f.destination ≠ []), (4, (f.calls.take 12).all (· ≠ [])), (5, f.hh ≤ 23),
    (6, f.mm ≤ 59), (7, f.day ≤ 1), (8, f.platform ≤ p.platforms) ]

/-- The refusal of a PLAN whose fields are in range, if one of its checks fails (R14). -/
def State.planRefusal (s : State) (f : PlanFields) : Option Code :=
  if s.time.state = .unset then some .timeUnset
  else if (s.entry? f.run).isSome then some .duplicate
  else if 96 ≤ s.table.entries.length then some .tableFull
  else if schedMinute s.inForce.dayStart f.hh f.mm f.day < s.now - s.inForce.overdue then some .past
  else none

/-- A new entry takes its place, its transitions tested, and is handed on (R14). -/
def State.createEntry (e : Entry) (s : State) : State :=
  let e := e.counted (e.transition s.inForce s.now)
  let t := (s.withEntries (e :: s.table.entries)).rederive
  (t.cueHandover none e).settle s

/-- A text of PLAN was replaced or cut (R183). -/
def planClamped (f : PlanFields) : Bool :=
  (fixHeadcode f.headcode).2 || (fixText 24 f.destination).2 || (fixCalls f.calls).2

/-- PLAN (R14). -/
def planOwner (f : PlanFields) (s : State) : State × Answer :=
  match firstBad (planChecks s.inForce f) with
  | some i => (s, Answer.badField i)
  | none =>
    match s.planRefusal f with
    | some c => (s, Answer.refuse c)
    | none =>
      State.acceptRevision f.run (s.createEntry (newEntry s.inForce.dayStart f)) (clamped := planClamped f)

def execPlan (p : PortId) (s : State) : Host.Outcome State Fault Refusal :=
  s.takeTel p .plan readPlan planOwner

/-! ## AMND -/

/-- The field ranges of AMND, with a clock and its day selector together (R15, R195). -/
def amndChecks (p : Params) (f : AmndFields) : List (Nat × Bool) :=
  [ (1, runOk f.run), (2, f.presence < 64), (4, f.destination ≠ some []),
    (5, f.calls.all fun l => (l.take 12).all (· ≠ [])),
    (6, f.clock.all (·.1 ≤ 23) && (f.clock.isSome || f.day.isNone)), (7, f.clock.all (·.2 ≤ 59)),
    (8, f.day.all (· ≤ 1) && (f.day.isSome || f.clock.isNone)), (9, f.platform.all (· ≤ p.platforms)) ]

/-- The new scheduled minute that AMND gives, if it gives one. -/
def AmndFields.sched (dayStart : Nat) (f : AmndFields) : Option Int :=
  match f.clock, f.day with
  | some (hh, mm), some day => some (schedMinute dayStart hh mm day)
  | _, _ => none

/-- The entry with the given fields replaced (R15). -/
def Entry.amend (dayStart : Nat) (f : AmndFields) (e : Entry) : Entry :=
  let sched := (f.sched dayStart).getD e.sched
  { e with
    headcode := match f.headcode with
      | some h => (fixHeadcode h).1
      | none => e.headcode
    destination := match f.destination with
      | some d => (fixText 24 d).1
      | none => e.destination
    calls := match f.calls with
      | some l => (fixCalls l).1
      | none => e.calls
    sched := sched
    exp := sched + e.dd
    planned := match f.platform with
      | some n => optNat n
      | none => e.planned }

/-- A text of AMND was replaced or cut (R183). -/
def amndClamped (f : AmndFields) : Bool :=
  f.headcode.any (fun h => (fixHeadcode h).2) || f.destination.any (fun d => (fixText 24 d).2) ||
    f.calls.any fun l => (fixCalls l).2

/-- AMND (R15). -/
def amndOwner (f : AmndFields) (s : State) : State × Answer :=
  s.onEntry (amndChecks s.inForce f) f.run Entry.inService fun e =>
    if (f.sched s.inForce.dayStart).any (· < s.now - s.inForce.overdue) then (s, Answer.refuse .past)
    else
      let (t, untracked) := s.amendEntry e (e.amend s.inForce.dayStart f)
      State.acceptRevision f.run t (clamped := amndClamped f) (untracked := untracked)

def execAmnd (p : PortId) (s : State) : Host.Outcome State Fault Refusal :=
  s.takeTel p .amnd readAmnd amndOwner

/-! ## DLAY -/

/-- A reason text as it is taken: none where the field is empty. -/
def takenReason (t : Text) : Option Text := if t = [] then none else some (fixText 40 t).1

/-- The entry with the operator delay and reason of a DLAY (R16). -/
def Entry.delay (f : DlayFields) (e : Entry) : Entry :=
  if f.mode = 2 then { e with opDelay := none, reason := takenReason f.reason }
  else
    { e with
      opDelay := some { minutes := min 720 f.minutes, fix := f.mode = 1 }
      reason := match takenReason f.reason with
        | some r => some r
        | none => e.reason }

/-- A value of DLAY was clamped or cut (R16, R183). DEDUCED (log entry 20): the minutes of a CLEAR are not read. -/
def dlayClamped (f : DlayFields) : Bool := (f.mode ≠ 2 && 720 < f.minutes) || (fixText 40 f.reason).2

/-- DLAY (R16). -/
def dlayOwner (f : DlayFields) (s : State) : State × Answer :=
  s.onEntry [(1, runOk f.run), (2, f.mode ≤ 2)] f.run Entry.inService fun e =>
    State.acceptRevision f.run (s.amendEntry e ((e.delay f).recompute s.inForce.hysteresis)).1
      (clamped := dlayClamped f)

def execDlay (p : PortId) (s : State) : Host.Outcome State Fault Refusal :=
  s.takeTel p .dlay readDlay dlayOwner

/-! ## CANC and RINS -/

/-- The entry put into CANCELLED (R17). -/
def Entry.cancel (now : Int) (reason : Option Text) (e : Entry) : Entry :=
  { e with
    state := .cancelled, stateTime := some now
    reason := match reason with
      | some r => some r
      | none => e.reason }

/-- The cancellation of an entry in service: the entry, its change record, its cues, the urgent panels (R17,
R92, R128). -/
def State.cancelEntry (e : Entry) (reason : Option Text) (s : State) : State :=
  let new := e.cancel s.now reason
  let t := (s.changeEntry e new).1
  let t := t.voidRecord e.run
  let t := t.withdrawWhere fun c => c.run = e.run && c.kind ≠ .cancel
  let t := t.trigger .cancel e.run (e.cueZones none .cancel) t.now
  (t.appendUrgent e.run e.displayed).settle s

/-- CANC (R17); for an entry already CANCELLED a repetition. -/
def cancOwner (f : CancFields) (s : State) : State × Answer :=
  s.onEntry [(1, runOk f.run)] f.run (fun e => e.state ≠ .departed && e.state ≠ .retiring) fun e =>
    let reason := takenReason f.reason
    let t :=
      if e.state = .cancelled then (s.amendEntry e { e with reason := (reason.orElse fun _ => e.reason) }).1
      else s.cancelEntry e reason
    State.acceptRevision f.run t (clamped := (fixText 40 f.reason).2)

def execCanc (p : PortId) (s : State) : Host.Outcome State Fault Refusal :=
  s.takeTel p .canc readCanc cancOwner

/-- The reinstatement of a CANCELLED entry (R18, R34, R92). -/
def State.reinstate (e : Entry) (s : State) : State :=
  let new := Entry.recompute s.inForce.hysteresis { e with state := .listed, stateTime := none, reason := none }
  let t := s.withdraw .cancel e.run
  (t.changeEntry e (new.transition s.inForce s.now)).1.settle s

/-- RINS (R18). -/
def rinsOwner (run : Nat) (s : State) : State × Answer :=
  s.onEntry [(1, runOk run)] run (fun e => e.state ≠ .departed && e.state ≠ .retiring) fun e =>
    State.acceptRevision run (if e.state = .cancelled then s.reinstate e else s)

def execRins (p : PortId) (s : State) : Host.Outcome State Fault Refusal :=
  s.takeTel p .rins readRun rinsOwner

/-! ## PLAT, RDYS and DEPT -/

/-- PLAT (R19). -/
def platOwner (f : PlatFields) (s : State) : State × Answer :=
  s.onEntry [(1, runOk f.run), (2, f.platform ≤ s.inForce.platforms)] f.run Entry.inService fun e =>
    let (t, untracked) := s.amendEntry e { e with assigned := optNat f.platform }
    State.acceptRevision f.run t (untracked := untracked)

def execPlat (p : PortId) (s : State) : Host.Outcome State Fault Refusal :=
  s.takeTel p .plat readPlat platOwner

/-- RDYS (R20). -/
def rdysOwner (run : Nat) (s : State) : State × Answer :=
  s.onEntry [(1, runOk run)] run Entry.inService fun e =>
    State.acceptRevision run (s.amendEntry e { e with state := .closed }).1

def execRdys (p : PortId) (s : State) : Host.Outcome State Fault Refusal :=
  s.takeTel p .rdys readRun rdysOwner

/-- The departure of an entry in service (R21). -/
def State.departEntry (e : Entry) (s : State) : State :=
  let t := (s.changeEntry e { e with state := .departed, stateTime := some s.now }).1
  (t.voidRecord e.run).settle s

/-- DEPT (R21). -/
def deptOwner (run : Nat) (s : State) : State × Answer :=
  s.onEntry [(1, runOk run)] run (fun e => e.state ≠ .cancelled && e.state ≠ .retiring) fun e =>
    State.acceptRevision run (if e.state = .departed then s else s.departEntry e)

def execDept (p : PortId) (s : State) : Host.Outcome State Fault Refusal :=
  s.takeTel p .dept readRun deptOwner

/-! ## PRED -/

/-- The prediction seconds brought into their range (R27). -/
def clampSeconds (n : Int) : Int := max (-3600) (min 43200 n)

/-- The filter of an entry replaced, with the stages that follow where they run (R30, R31, R38). -/
def State.refilter (e : Entry) (g : Filter) (runs : Bool) (s : State) : State :=
  let new := { e with filter := g }
  if runs then (s.amendEntry e (new.recompute s.inForce.hysteresis)).1 else s.updEntry e.run fun _ => new

/-- A prediction in seconds taken by an entry (R28, R29, R30). -/
def State.predict (e : Entry) (seconds : Int) (s : State) : State :=
  let (g, c) := e.filter.take s.inForce.confirm (roundPrediction seconds)
  s.refilter e g (c = .adopted)

/-- PRED (R27). DEDUCED (log entry 20): the seconds field of a WITHDRAW is not read, so it raises no CLAMPED. -/
def predOwner (f : PredFields) (s : State) : State × Answer :=
  s.onEntry [(1, runOk f.run), (2, f.mode ≤ 1)] f.run Entry.inService fun e =>
    if f.mode = 1 then
      State.acceptRevision f.run (s.refilter e Filter.empty e.filter.dp.isSome)
    else
      State.acceptRevision f.run (s.predict e (clampSeconds f.seconds))
        (clamped := clampSeconds f.seconds ≠ f.seconds)

def execPred (p : PortId) (s : State) : Host.Outcome State Fault Refusal :=
  s.takeTel p .pred readPred predOwner

/-- PREDICTION_STALE (R32): the age of the run's adopted prediction exceeds the stale limit. A limit that a CONF has
set since the running second last counted compares with the next count (R43). DESIGN CHOICE (log entry 50): at a
second that enters a new minute it comes after that minute's evaluation. -/
def execPredictionStale (run : Nat) (s : State) : Host.Outcome State Fault Refusal :=
  s.answer
    (match s.entry? run with
    | some e =>
      if e.filter.dp.isSome ∧ s.inForce.stale < e.filter.age ∧ ¬ s.time.limitsMoved.contains 304 then
        (s.clearFilter run).finish s
      else s
    | none => s)

/-! ## READ and CSTA -/

/-- The row index of the row panel that shows a run (R23). -/
def State.rowIndexOf (s : State) (run : Nat) : Option Nat :=
  ((s.rowPanelOf run).bind s.panel?).bind fun p =>
    match p.role with
    | .row i => some i
    | _ => none

/-- The summary of an entry at an order position (R23). -/
def State.summary (s : State) (e : Entry) (position : Nat) : Summary :=
  { run := e.run, position := position, state := e.state, sched := e.sched, dd := e.dd, exp := e.exp,
    platform := e.displayed, rev := e.rev, rowIndex := s.rowIndexOf e.run }

/-- The index in table order of the first entry that a READ chooses; past the end where there is none (R22). -/
def State.readStart (s : State) (f : ReadFields) : Nat :=
  if f.startKind = 0 then f.start - 1 else s.table.entries.findIdx (·.run = f.start)

/-- The summaries of a READ (R22, R23). -/
def State.readSummaries (s : State) (f : ReadFields) : List Summary :=
  let all := s.table.entries.zipIdx.map fun (e, i) => s.summary e (i + 1)
  let i := s.readStart f
  if all.length ≤ i then []
  else if f.direction = 0 then (all.drop i).take f.count
  else if f.direction = 1 then (all.take (i + 1)).reverse.take f.count
  else (all.drop i).take 1

/-- The field ranges of READ (R22). -/
def readChecks (f : ReadFields) : List (Nat × Bool) :=
  [ (1, f.startKind ≤ 1), (2, if f.startKind = 0 then 1 ≤ f.start ∧ f.start ≤ 96 else f.start ≠ 0),
    (3, f.direction ≤ 2 && !(f.direction = 2 && f.startKind = 0)), (4, 1 ≤ f.count ∧ f.count ≤ 4) ]

/-- READ (R22, R23). -/
def readOwner (f : ReadFields) (s : State) : State × Answer :=
  match firstBad (readChecks f) with
  | some i => (s, Answer.badField i)
  | none => (s, Answer.accept (.summaries s.table.entries.length (s.readSummaries f)))

def execRead (p : PortId) (s : State) : Host.Outcome State Fault Refusal :=
  s.takeTel p .read readRead readOwner

/-- The newest change record of a run: the OPEN one, or the one latest in the closed list (R81). -/
def State.newestRecord (s : State) (run : Nat) : Option ChangeRec :=
  match s.openRecord? run with
  | some r => some r
  | none =>
    (s.tracker.closed.reverse.filterMap fun n => s.tracker.records.find? (·.no = n)).find? (·.run = run)

/-- CSTA (R81). -/
def cstaOwner (run : Nat) (s : State) : State × Answer :=
  if runOk run then
    match s.newestRecord run with
    | some r => (s, Answer.accept (.record r ((s.entry? run).map (·.rev))))
    | none => (s, Answer.refuse .noRecord)
  else (s, Answer.badField 1)

def execCsta (p : PortId) (s : State) : Host.Outcome State Fault Refusal :=
  s.takeTel p .csta readRun cstaOwner

end Sys2Proof.Machine
end

