-- ==== Sys2Proof/Machine/TimeCommands.lean ====
section
/-! DEFINITION. The station time base's commands: TIME, the running second, the minute advance and the holdover
expiry (R47 to R56). -/
namespace Sys2Proof.Machine

open Sys2Proof

/-! ## TIME -/

/-- The clock, the time state and the offset that every reply to TIME carries (R49, R196). -/
def State.clockResult (s : State) (d : Option Int) : Result := .clock s.time.clock s.time.state d

/-- An answer to TIME without result fields takes the clock and the time state (R196). -/
def completeTime (s : State) (a : Answer) : Answer :=
  if a.result = .none then { a with result := s.clockResult none } else a

/-- The port is not the configured time port, which is LIVE, and the state is not HOLDOVER (R49). -/
def State.notTimeSource (s : State) (p : PortId) : Bool :=
  p ≠ s.inForce.timePort && (s.port s.inForce.timePort).live && s.time.state ≠ .holdover

/-- The refusal of an offset, if it is refused (R54). -/
def State.offsetRefusal (s : State) (d : Int) : Option Code :=
  if d.natAbs > 21600 then some .timeRange
  else if d < -30 ∧ s.elapsed < -d then some .acrossDayStart
  else none

/-- TIME (R49). -/
def timeOwner (p : PortId) (seconds : Nat) (s : State) : State × Answer :=
  if 86399 < seconds then (s, Answer.badField 1)
  else if s.notTimeSource p then (s, Answer.refuse .notTimeSource)
  else if s.time.state = .unset then
    let t := s.setClock seconds
    (t, Answer.accept (t.clockResult none))
  else
    let d := timeOffset seconds s.time.clock
    match s.offsetRefusal d with
    | some c => (s, { Answer.refuse c with result := s.clockResult (some d) })
    | none =>
      let t := if d.natAbs ≤ 30 then s.slewClock d else s.stepClock seconds d p
      (t, Answer.accept (t.clockResult (some d)))

def execTime (p : PortId) (s : State) : Host.Outcome State Fault Refusal :=
  s.takeWith completeTime p .time readTime (timeOwner p)

/-! ## Events -/

/-- RUNNING_SECOND (R47): one second of the running seconds count, whole. -/
def execRunningSecond (s : State) : Host.Outcome State Fault Refusal := s.answer s.second

/-- MINUTE_ADVANCE (R47): the running second with which the clock enters a new minute in SET or HOLDOVER. It
arises at no other second (log entry 8). -/
def execMinuteAdvance (s : State) : Host.Outcome State Fault Refusal :=
  s.answer (if s.time.entersMinute then s.second else s)

/-- HOLDOVER_EXPIRY (R55). A limit that a CONF has set since the running second last counted judges the timer at
the next running second instead. -/
def execHoldoverExpiry (s : State) : Host.Outcome State Fault Refusal :=
  s.answer
    (if s.holdoverReached ∧ ¬ s.time.limitsMoved.contains 321 then s.enterHoldover.settleAttention else s)

end Sys2Proof.Machine
end

