-- ==== Sys2Proof/Machine/WallCommands.lean ====
section
/-! DEFINITION. The wall compositor's commands: NOTE, NCLR, WALL, the expiry of a notice and of the dwell (R117 to
R126). -/
namespace Sys2Proof.Machine

open Sys2Proof

/-! ## NOTE -/

/-- The field ranges of NOTE (R118). -/
def noteChecks (f : NoteFields) : List (Nat × Bool) :=
  [(1, 1 ≤ f.number ∧ f.number ≤ 200), (2, f.priority ≤ 3), (3, f.text ≠ [])]

/-- The posted notice of a NOTE with the edition given (R118). -/
def postedOf (f : NoteFields) (edition : Count16) : Posted :=
  { number := f.number, priority := f.priority, text := (fixText 120 f.text).1, edition := edition,
    expiry := if f.expiry = 0 then none else some (60 * min 1440 f.expiry) }

/-- The notice of a number is posted. -/
def Wall.holds (number : Nat) (w : Wall) : Bool := w.posted.any (·.number = number)

/-- A notice posted at the tail, or in the place of the one it replaces; a current item so replaced is no longer as last
composed (R118, R123). -/
def Wall.postNotice (f : NoteFields) (w : Wall) : Wall :=
  let edition := w.edition + 1
  let n := postedOf f edition
  { w with
    edition := edition
    mark := if w.current = some (.note f.number) then none else w.mark
    posted := if w.holds f.number then updWhere (·.number = f.number) (fun _ => n) w.posted else w.posted ++ [n] }

/-- What NOTE and NCLR answer (R118, R119). -/
def State.postedResult (s : State) : Result := .posted s.wall.posted.length s.wall.mode

/-- A value of NOTE was clamped, replaced or cut (R118, R183). -/
def noteClamped (f : NoteFields) : Bool := (fixText 120 f.text).2 || 1440 < f.expiry

/-- NOTE (R118). -/
def noteOwner (f : NoteFields) (s : State) : State × Answer :=
  match firstBad (noteChecks f) with
  | some i => (s, Answer.badField i)
  | none =>
    if !s.wall.holds f.number ∧ 12 ≤ s.wall.posted.length then (s, Answer.refuse .noticeFull)
    else
      let t := (s.withWall (s.wall.postNotice f)).endNoticeMode.settle s
      (t, Answer.accept t.postedResult (clamped := noteClamped f))

def execNote (p : PortId) (s : State) : Host.Outcome State Fault Refusal :=
  s.takeTel p .note readNote noteOwner

/-! ## NCLR and the expiry of a notice -/

/-- The notice of a number removed (R119). -/
def State.removeNotice (number : Nat) (s : State) : State :=
  (s.withWall { s.wall with posted := s.wall.posted.filter (·.number ≠ number) }).endNoticeMode.settle s

/-- NCLR (R119). -/
def nclrOwner (number : Nat) (s : State) : State × Answer :=
  if 1 ≤ number ∧ number ≤ 200 then
    let t := if s.wall.holds number then s.removeNotice number else s
    (t, Answer.accept t.postedResult)
  else (s, Answer.badField 1)

def execNclr (p : PortId) (s : State) : Host.Outcome State Fault Refusal :=
  s.takeTel p .nclr readOctet nclrOwner

/-- NOTICE_EXPIRY (R120). -/
def execNoticeExpiry (number : Nat) (s : State) : Host.Outcome State Fault Refusal :=
  s.answer
    (if s.wall.posted.any fun n => n.number = number && n.expiry = some 0 then s.removeNotice number else s)

/-! ## WALL -/

/-- The wall mode of a code (R195). -/
def wallModeOf (n : Nat) : WallMode := if n = 0 then .normal else if n = 1 then .blank else .notice

/-- What WALL answers: the mode, and in NOTICE the number of the notice shown (R125). -/
def State.modeResult (s : State) : Result :=
  .mode s.wall.mode (if s.wall.mode = .notice then s.wall.shown.map (·.number) else none)

/-- WALL (R125). -/
def wallOwner (n : Nat) (s : State) : State × Answer :=
  if 2 < n then (s, Answer.badField 1)
  else if wallModeOf n = .notice ∧ s.wall.shown = none then (s, Answer.refuse .noNotice)
  else
    let t :=
      if s.wall.mode = wallModeOf n then s else (s.withWall { s.wall with mode := wallModeOf n }).settle s
    (t, Answer.accept t.modeResult)

def execWall (p : PortId) (s : State) : Host.Outcome State Fault Refusal :=
  s.takeTel p .wall readOctet wallOwner

/-! ## The dwell -/

/-- The item after the current one, round to the first (R122). -/
def Wall.nextItem (w : Wall) : Option Item :=
  match w.current with
  | some c => w.items[(w.items.idxOf c + 1) % w.items.length]?
  | none => none

/-- DWELL_EXPIRY (R122). -/
def execDwellExpiry (s : State) : Host.Outcome State Fault Refusal :=
  s.answer
    (match s.wall.dwell, s.wall.nextItem with
    | some 0, some i => (s.showItem i).settle s
    | _, _ => s)

end Sys2Proof.Machine
end

