-- ==== Sys2Proof/Machine/Dispatch.lean ====
section
/-! DEFINITION. The dispatch: one direct call of a meaning per command. -/
namespace Sys2Proof.Machine

open Sys2Proof

/-- The effect of a command on everything but the queue. -/
def exec (i : Instr) (s : State) : Host.Outcome State Fault Refusal :=
  match i with
  | .powerOn => Sys2Proof.Machine.execPowerOn s
  | .resetPin => Sys2Proof.Machine.execResetPin s
  | .telegramFrameEnd p ms octets => Sys2Proof.Machine.execTelegramFrameEnd p ms octets s
  | .abortSequence p => Sys2Proof.Machine.execAbortSequence p s
  | .replySent p ms => Sys2Proof.Machine.execReplySent p ms s
  | .unknown p => Sys2Proof.Machine.execUnknown p s
  | .plan p => Sys2Proof.Machine.execPlan p s
  | .amnd p => Sys2Proof.Machine.execAmnd p s
  | .dlay p => Sys2Proof.Machine.execDlay p s
  | .canc p => Sys2Proof.Machine.execCanc p s
  | .rins p => Sys2Proof.Machine.execRins p s
  | .plat p => Sys2Proof.Machine.execPlat p s
  | .pred p => Sys2Proof.Machine.execPred p s
  | .rdys p => Sys2Proof.Machine.execRdys p s
  | .dept p => Sys2Proof.Machine.execDept p s
  | .read p => Sys2Proof.Machine.execRead p s
  | .csta p => Sys2Proof.Machine.execCsta p s
  | .time p => Sys2Proof.Machine.execTime p s
  | .take p => Sys2Proof.Machine.execTake p s
  | .spkn p => Sys2Proof.Machine.execSpkn p s
  | .zone p => Sys2Proof.Machine.execZone p s
  | .note p => Sys2Proof.Machine.execNote p s
  | .nclr p => Sys2Proof.Machine.execNclr p s
  | .wall p => Sys2Proof.Machine.execWall p s
  | .dial p => Sys2Proof.Machine.execDial p s
  | .conf p => Sys2Proof.Machine.execConf p s
  | .csav p => Sys2Proof.Machine.execCsav p s
  | .rset p => Sys2Proof.Machine.execRset p s
  | .poll p => Sys2Proof.Machine.execPoll p s
  | .silenceExpiry p => Sys2Proof.Machine.execSilenceExpiry p s
  | .runningSecond => Sys2Proof.Machine.execRunningSecond s
  | .minuteAdvance => Sys2Proof.Machine.execMinuteAdvance s
  | .holdoverExpiry => Sys2Proof.Machine.execHoldoverExpiry s
  | .predictionStale run => Sys2Proof.Machine.execPredictionStale run s
  | .speakTimeout cue => Sys2Proof.Machine.execSpeakTimeout cue s
  | .gapEnd zone => Sys2Proof.Machine.execGapEnd zone s
  | .noticeExpiry number => Sys2Proof.Machine.execNoticeExpiry number s
  | .dwellExpiry => Sys2Proof.Machine.execDwellExpiry s
  | .panelFrameEnd ms => Sys2Proof.Machine.execPanelFrameEnd ms s
  | .panelReplyReceived ms octets => Sys2Proof.Machine.execPanelReplyReceived ms octets s
  | .replyWindowClose ms => Sys2Proof.Machine.execReplyWindowClose ms s
  | .strayPanelOctets octets => Sys2Proof.Machine.execStrayPanelOctets octets s
  | .keepaliveDue ms addr => Sys2Proof.Machine.execKeepaliveDue ms addr s
  | .probeDue ms addr => Sys2Proof.Machine.execProbeDue ms addr s
  | .intervalEnd ms => Sys2Proof.Machine.execIntervalEnd ms s
  | .passTrigger ms => Sys2Proof.Machine.execPassTrigger ms s
  | .lightConversionComplete ms value => Sys2Proof.Machine.execLightConversionComplete ms value s
  | .lineCheckRequest ms line => Sys2Proof.Machine.execLineCheckRequest ms line s
  | .lineCheckComplete ms value => Sys2Proof.Machine.execLineCheckComplete ms value s
  | .nextImpulseTime ms line => Sys2Proof.Machine.execNextImpulseTime ms line s
  | .impulseEnd ms line => Sys2Proof.Machine.execImpulseEnd ms line s
  | .powerLoss cut => Sys2Proof.Machine.execPowerLoss cut s

end Sys2Proof.Machine
end

