-- ==== Sys2Proof/Machine/Wire.lean ====
section
/-! DEFINITION. What the part sends, as functions of its state: the octets of a reply (R194, R196), of a panel
frame (R197), and the drive of an impulse line (R166). The octets of a field whose presence octet is 0, which the
layouts do not state, are a free value (log entry 12). -/
namespace Sys2Proof.Machine

open Sys2Proof

/-- `n` octets that the layouts leave open, from place `i` of the free value on. -/
def openOctets (i n : Nat) : List Octet := (List.range n).map fun k => Config.absentFill (i + k)

/-! ## Fields -/

/-- A number, or 0 for absent (R194). -/
def putOpt8 (n : Option Nat) : List Octet := put8 (n.getD 0)

/-- A headcode, four spaces for absent (R194). -/
def putHeadcode (h : Option Text) : List Octet := h.getD (List.replicate 4 0x20)

/-- A text. DESIGN CHOICE (log entry 49): an absent reason is sent as a text of length 0, in a frame and in the TAKE
reply of a kind that carries it too, for which R196 and R197 state nothing. -/
def putOptText (t : Option Text) : List Octet := putText (t.getD [])

/-- A clock: hh then mm (R194). -/
def putClock (c : Nat × Nat) : List Octet := put8 c.1 ++ put8 c.2

/-- A presence octet and a clock, the octets of an absent one left open from place `i` on. -/
def putOptClock (i : Nat) : Option (Nat × Nat) → List Octet
  | some c => put8 1 ++ putClock c
  | none => put8 0 ++ openOctets i 2

/-- A flag as one octet. DESIGN CHOICE (log entry 40): 1 for a set flag, 0 for a clear one. -/
def putFlag (b : Bool) : List Octet := put8 b.toNat

/-- A revision or another count modulo 65536. -/
def putCount (c : Count16) : List Octet := put16 c.toNat

/-! ## Enumerated values (R194, R196) -/

def Code.octet : Code → Nat
  | .accepted => 0
  | .unknown => 1
  | .wrongPort => 2
  | .badField => 3
  | .noEntry => 4
  | .duplicate => 5
  | .tableFull => 6
  | .past => 7
  | .wrongState => 8
  | .timeUnset => 10
  | .notTimeSource => 11
  | .timeRange => 12
  | .acrossDayStart => 13
  | .noticeFull => 14
  | .noNotice => 15
  | .noRecord => 16
  | .busy => 17
  | .none => 18
  | .tooLate => 19

def EntryState.octet : EntryState → Nat
  | .listed => 0
  | .boarding => 1
  | .closed => 2
  | .departed => 3
  | .cancelled => 4
  | .retiring => 5

def RecState.octet : RecState → Nat
  | .opened => 0
  | .informed => 1
  | .superseded => 2
  | .void => 3

def Part.octet : Part → Nat
  | .pending => 0
  | .met => 1
  | .waived => 2

def TimeState.octet : TimeState → Nat
  | .unset => 0
  | .set => 1
  | .holdover => 2

def Fate.octet : Fate → Nat
  | .ended => 0
  | .due => 1
  | .waiting => 2

def WallMode.octet : WallMode → Nat
  | .normal => 0
  | .blank => 1
  | .notice => 2

def LineState.octet : LineState → Nat
  | .off => 0
  | .paused => 1
  | .run => 2
  | .advance => 3
  | .hold => 4
  | .fault => 5

def Polarity.octet : Polarity → Nat
  | .pos => 0
  | .neg => 1

/-- The notice kinds are numbered 1..15 in the order of the notice table. -/
def NoticeKind.octet : NoticeKind → Nat
  | .restarted => 1
  | .expired => 2
  | .panelFailed => 3
  | .panelRecovered => 4
  | .sensorFault => 5
  | .clockFault => 6
  | .cueDropped => 7
  | .speakTimeout => 8
  | .changeInformed => 9
  | .changeVoid => 10
  | .changeUntracked => 11
  | .portSilent => 12
  | .holdover => 13
  | .timeStepped => 14
  | .storeInvalid => 15

def Remark.octet : Remark → Nat
  | .onTime => 0
  | .expected => 1
  | .boarding => 2
  | .closed => 3
  | .departed => 4
  | .cancelled => 5

/-! ## Result fields (R196) -/

/-- A subject: its type and its number; the number of an absent one is left open. -/
def Subject.octets : Subject → List Octet
  | .absent => put8 0 ++ openOctets 0 2
  | .run n => put8 1 ++ put16 n
  | .panel a => put8 2 ++ put16 a
  | .line n => put8 3 ++ put16 n.val
  | .light n => put8 4 ++ put16 n
  | .port p => put8 5 ++ put16 (portCode p)

def Notice.octets (n : Notice) : List Octet := put8 n.kind.octet ++ n.subject.octets ++ put32 n.time

def Summary.octets (m : Summary) : List Octet :=
  put16 m.run ++ put8 m.position ++ put8 m.state.octet ++ putSigned16 m.sched ++ put16 m.dd ++ putSigned16 m.exp ++
    putOpt8 m.platform ++ putCount m.rev ++ putOpt8 m.rowIndex

/-- The flags of a change record: announced, displayed, degraded. -/
def ChangeRec.flags (r : ChangeRec) : Nat := r.announced.toNat + 2 * r.displayed.toNat + 4 * r.degraded.toNat

def ChangeRec.octets (r : ChangeRec) (entryRev : Option Count16) : List Octet :=
  put8 r.no ++ put8 r.src ++ put8 r.dst ++ putSigned16 r.openedMinute ++ put8 r.openedSecond ++ putCount r.r ++
    put8 r.state.octet ++ put8 r.flags ++ put8 r.rowPart.octet ++ put8 r.gatePart.octet ++ putOpt8 r.cue ++
    match entryRev with
    | some v => put8 1 ++ putCount v
    | none => put8 0 ++ openOctets 2 2

/-- The kinds that carry an expected clock (R85); the others send 0 in its place. -/
def CueKind.carriesExpected : CueKind → Bool
  | .cancel => false
  | _ => true

def Captured.octets (c : Captured) (attempts : Nat) : List Octet :=
  put8 c.number ++ put8 c.kind.priority ++ put16 c.run ++ put8 attempts ++ put8 c.zones.length ++
    c.zones.flatMap put8 ++ putHeadcode c.headcode ++ putText c.destination ++ putClock c.sched ++
    (if c.kind.carriesExpected then putOptClock 4 c.expected else put8 0 ++ put16 0) ++ putOpt8 c.platform ++
    putOpt8 c.src ++ putOpt8 c.dst ++ put16 (c.delay.getD 0) ++ putOptText c.reason ++ putTextList c.calls

/-- The result fields of a reply (R196). -/
def Result.octets : Result → List Octet
  | .none => []
  | .revision v => putCount v
  | .summaries n l => put8 n ++ put8 l.length ++ l.flatMap Summary.octets
  | .record r v => r.octets v
  | .clock c st d =>
    put32 c ++ put8 st.octet ++
      match d with
      | .some d => put8 1 ++ putSigned32 d
      | .none => put8 0 ++ openOctets 6 4
  | .cue c attempts => c.octets attempts
  | .fate f attempts => put8 f.octet ++ put8 attempts
  | .zones l => put8 l.length ++ l.flatMap put8
  | .posted n m => put8 n ++ put8 m.octet
  | .mode m shown => put8 m.octet ++ putOpt8 shown
  | .line st d pol missed pending =>
    put8 st.octet ++ put16 d ++ put8 pol.octet ++ put8 missed ++ putFlag pending
  | .parameter n structural v => put16 n ++ putFlag structural ++ put16 v
  | .notices l more overflow => putFlag more ++ putFlag overflow ++ put8 l.length ++ l.flatMap Notice.octets

/-! ## Replies -/

/-- The octets of a reply between its flags, before the escapes: envelope, result fields, CRC (R194). -/
def Reply.octets (r : Reply) : List Octet :=
  let l :=
    r.kind :: r.seq :: put8 r.code.octet ++ put8 (r.clamped.toNat + 2 * r.untracked.toNat) ++ put8 r.field ++
      r.result.octets
  l ++ crcOctets l

/-- What port `p` transmits while REPLYING, between the two flags (R182, R194). -/
def State.transmitted (s : State) (p : PortId) : Option (List Octet) := (s.port p).reply.map fun r => escape r.octets

/-! ## Panel frames (R197) -/

def RowPage.octets (g : RowPage) : List Octet :=
  putClock g.sched ++ putOptClock 10 g.expected ++ putText g.destination ++ putHeadcode g.headcode ++
    putOpt8 g.platform ++ put8 g.remark.octet ++ putFlag g.highlight ++ putOptText g.reason ++ putTextList g.calls

def DelayPage.octets (g : DelayPage) : List Octet :=
  putHeadcode g.headcode ++ putClock g.sched ++ putText g.destination ++ put16 g.delay ++ putClock g.expected ++
    putOpt8 g.platform ++ putOptText g.reason

/-- The kind octet of a frame. -/
def Content.kindOctet : Content → Nat
  | .rowf _ => 1
  | .gatfDiversion _ _ | .gatfNext _ _ | .gatfEmpty _ => 2
  | .banfNotice _ _ | .banfDelay _ => 3
  | .notf _ => 4
  | .blkf => 5
  | .polf => 6

def Content.octets : Content → List Octet
  | .rowf g => g.octets
  | .gatfDiversion p g => put8 0 ++ put8 p ++ g.octets
  | .gatfNext p g => put8 1 ++ put8 p ++ g.octets
  | .gatfEmpty p => put8 2 ++ put8 p
  | .banfNotice pr t => put8 0 ++ put8 pr ++ putText t
  | .banfDelay g => put8 1 ++ g.octets
  | .notf t => putText t
  | .blkf | .polf => []

/-- The octets of the frame of an exchange between its flags, before the escapes (R197). -/
def Exchange.octets (x : Exchange) : List Octet :=
  let l := put8 x.addr ++ put8 x.content.kindOctet ++ [x.seq] ++ put8 x.level ++ x.content.octets
  l ++ crcOctets l

/-- What the part transmits on the panel bus while the frame is being sent, between the two flags (R133, R197). -/
def State.busTransmitted (s : State) : Option (List Octet) :=
  (s.bus.exchange.filter (·.phase = .sending)).map fun x => escape x.octets

/-! ## Impulse lines -/

/-- The drive of a line: its polarity while an impulse is in progress, none at every other moment (R166, R172). -/
def State.lineDrive (s : State) (n : Fin 4) : Option Polarity :=
  ((s.line? n).bind (·.impulse)).map (·.polarity)

end Sys2Proof.Machine
end

