-- ==== Sys2Proof/Safety.lean ====
section
/-! DEFINITION. What holds of the part in every state that a run reaches, block by block, and the words in which
the statements speak of a telegram being taken. -/
namespace Sys2Proof.Machine

open Sys2Proof

/-! ## What a change of the picture leaves alone -/

/-- The blocks that no change of the departure picture touches: the queue, power, the configuration, the time
base, the sensing unit, the impulse lines and the retention store. -/
structure Sources where
  pending : List Instr
  powered : Bool
  inForce : Params
  pendingCfg : Params
  time : TimeBase
  sense : Sense
  lines : List Line
  store : Store
  deriving DecidableEq, Repr

/-- Those blocks of a state. -/
def State.sources (s : State) : Sources :=
  { pending := s.pending, powered := s.powered, inForce := s.inForce, pendingCfg := s.pendingCfg, time := s.time,
    sense := s.sense, lines := s.lines, store := s.store }

/-- An entry but for its revision and its open change record, which the change tracker moves (R1, R75). -/
def Entry.facts (e : Entry) : Entry := { e with rev := 0, openRec := none }

/-- The facts of every entry, in table order. -/
def State.facts (s : State) : List Entry := s.table.entries.map Entry.facts

/-- A port record but for its notices and attention line, which any block may move by a posting (R185, R187). -/
def Port.link (r : Port) : Port := { r with notices := [], overflow := false, attention := false }

/-- The link part of the record of a port. -/
def State.link (s : State) (p : PortId) : Port := (s.port p).link

/-- What the wall holds but for what is formed afresh from the picture (R117, R111). -/
def Wall.board (w : Wall) : List Posted × WallMode × Count16 := (w.posted, w.mode, w.edition)

/-- A panel record but for its desired and sent tags and its sent level, which a change of the picture and the
dispatch that follows it move (R130). -/
def Panel.record (p : Panel) : Panel := { p with desired := none, sent := none, sentLevel := none }

/-- The panel records so. -/
def State.records (s : State) : List Panel := s.bus.panels.map Panel.record

/-! ## Telegrams and what answers them -/

/-- A telegram as it stands in a receive buffer (R194). -/
def Telegram.tel (seq : Octet) (tg : Telegram) : Tel := { kind := tg.kind.code, seq := seq, body := tg.body }

/-- The row of the table of operations that takes a telegram of a kind on port `p`. -/
def Kind.command (p : PortId) : Kind → Instr
  | .plan => .plan p
  | .amnd => .amnd p
  | .dlay => .dlay p
  | .canc => .canc p
  | .rins => .rins p
  | .plat => .plat p
  | .pred => .pred p
  | .rdys => .rdys p
  | .dept => .dept p
  | .csta => .csta p
  | .note => .note p
  | .nclr => .nclr p
  | .wall => .wall p
  | .time => .time p
  | .dial => .dial p
  | .conf => .conf p
  | .csav => .csav p
  | .rset => .rset p
  | .read => .read p
  | .poll => .poll p
  | .take => .take p
  | .spkn => .spkn p
  | .zone => .zone p

/-- Power is applied and port `p`, SERVING, has the telegram `t` at the head of its buffer (R182). -/
abbrev State.Serves (s : State) (p : PortId) (t : Tel) : Prop :=
  s.powered = true ∧ (s.port p).service = .serving ∧ (s.port p).buffer.head? = some t

/-- Port `p` is taking the telegram `tg`, whose fields fit their octets and whose kind the port accepts (R182, R183). -/
abbrev State.Taking (s : State) (p : PortId) (seq : Octet) (tg : Telegram) : Prop :=
  s.Serves p (tg.tel seq) ∧ PortId.accepts p tg.kind = true ∧ tg.fits = true

/-- From `s` to `t` port `p` has begun the reply of answer `a` to the telegram `tg`, and no port record has changed
besides but for notices and attention lines (R182). -/
abbrev State.Answered (s t : State) (p : PortId) (seq : Octet) (tg : Telegram) (a : Answer) : Prop :=
  t.link p = { s.link p with service := .replying, reply := some (a.reply (tg.tel seq)) } ∧
    ∀ q, q ≠ p → t.link q = s.link q

/-- Notice `n` has been offered to the list of port `q`, and what followed it came after it (R185). -/
abbrev State.Noticed (s t : State) (q : PortId) (n : Notice) : Prop :=
  ((s.port q).post n).notices <+: (t.port q).notices

/-- From `s` to `t` nothing has changed but the departure picture: the table, the change records, the cue list, what
is formed afresh from them, and what is sent of it. -/
abbrev State.Beside (s t : State) : Prop :=
  t.sources = s.sources ∧ t.wall.board = s.wall.board ∧ t.records = s.records ∧ t.cues.zones = s.cues.zones

/-- The facts of every entry but that of `run` are as they were. -/
abbrev State.OthersKept (s t : State) (run : Nat) : Prop :=
  ∀ r, r ≠ run → (t.entry? r).map Entry.facts = (s.entry? r).map Entry.facts

/-- The TAKEN cues, but for their pending flags. -/
def State.speaking (s : State) : List Cue :=
  (s.cues.list.filter (·.isTaken)).map fun c => { c with pendRev := false, pendDrop := false }

/-- The run a telegram of the table controller names, and the states of the entry in which it is not refused
WRONG_STATE (R15 to R21, R27). -/
def Telegram.named? : Telegram → Option (Nat × List EntryState)
  | .amnd f => some (f.run, [.listed, .boarding, .closed])
  | .dlay f => some (f.run, [.listed, .boarding, .closed])
  | .canc f => some (f.run, [.listed, .boarding, .closed, .cancelled])
  | .rins run => some (run, [.listed, .boarding, .closed, .cancelled])
  | .plat f => some (f.run, [.listed, .boarding, .closed])
  | .pred f => some (f.run, [.listed, .boarding, .closed])
  | .rdys run => some (run, [.listed, .boarding, .closed])
  | .dept run => some (run, [.listed, .boarding, .closed, .departed])
  | _ => none

/-- The index of a field that is out of its range, or nothing. -/
def outOf (index : Nat) (bad : Bool) : List Nat := if bad then [index] else []

/-- The fields of PLAN that are out of their ranges, in the order of the layout (R14, R195). Of a list of calling points
the first twelve are judged (log entry 18). -/
def PlanFields.faults (p : Params) (f : PlanFields) : List Nat :=
  outOf 1 (f.run = 0) ++ outOf 3 (f.destination = []) ++ outOf 4 ([] ∈ f.calls.take 12) ++ outOf 5 (23 < f.hh) ++
    outOf 6 (59 < f.mm) ++ outOf 7 (1 < f.day) ++ outOf 8 (p.platforms < f.platform)

/-- The fields of AMND that are out of their ranges, in the order of the layout, a clock and its day selector standing
together (R15, R195). -/
def AmndFields.faults (p : Params) (f : AmndFields) : List Nat :=
  outOf 1 (f.run = 0) ++ outOf 2 (64 ≤ f.presence) ++ outOf 4 (f.destination = some []) ++
    outOf 5 (∃ l ∈ f.calls, [] ∈ l.take 12) ++
    outOf 6 ((∃ c ∈ f.clock, 23 < c.1) ∨ (f.clock = none ∧ f.day ≠ none)) ++ outOf 7 (∃ c ∈ f.clock, 59 < c.2) ++
    outOf 8 ((∃ d ∈ f.day, 1 < d) ∨ (f.day = none ∧ f.clock ≠ none)) ++ outOf 9 (∃ n ∈ f.platform, p.platforms < n)

/-- The fields of a telegram that names a run that are out of their ranges, in the order of the layout (R13 to R21, R27,
R195). -/
def Telegram.faults (p : Params) : Telegram → List Nat
  | .amnd f => f.faults p
  | .dlay f => outOf 1 (f.run = 0) ++ outOf 2 (2 < f.mode)
  | .canc f => outOf 1 (f.run = 0)
  | .rins run => outOf 1 (run = 0)
  | .plat f => outOf 1 (f.run = 0) ++ outOf 2 (p.platforms < f.platform)
  | .pred f => outOf 1 (f.run = 0) ++ outOf 2 (1 < f.mode)
  | .rdys run => outOf 1 (run = 0)
  | .dept run => outOf 1 (run = 0)
  | _ => []

/-- The fields of AMND lie in their ranges. -/
def AmndFields.inRange (p : Params) (f : AmndFields) : Bool := f.faults p = []

/-- The fields of a telegram that names a run lie in their ranges (R13). -/
def Telegram.inRange (p : Params) (tg : Telegram) : Bool := tg.faults p = []

/-! ## The configuration -/

/-- The value that parameter `n` holds, coded as CONF codes it (R198). -/
def Params.value (p : Params) (n : Nat) : Nat :=
  match n with
  | 1 => p.platforms
  | 2 => p.dayStart
  | 3 => portCode p.timePort
  | 4 => p.channels
  | 301 => p.confirm
  | 302 => p.hysteresis
  | 303 => p.lateness
  | 304 => p.stale
  | 311 => p.boarding
  | 312 => p.overdue
  | 313 => p.departedLinger
  | 314 => p.cancelledLinger
  | 315 => p.horizon
  | 321 => p.holdover
  | 331 => p.published
  | 332 => p.diversionHold
  | 341 => p.platformLead
  | 342 => p.finalLead
  | 343 => p.delayThreshold
  | 344 => p.delayStep
  | 345 => p.repeatPeriod
  | 346 => p.zoneGap
  | 347 => p.speakTime
  | 351 => p.dwell
  | 361 => p.failThreshold
  | 362 => p.increment
  | 363 => p.decrement
  | 364 => p.interval
  | 365 => p.keepalive
  | 366 => p.probe
  | 371 => p.scanPeriod
  | 372 => p.lineThreshold
  | 373 => p.floor
  | 374 => p.ceiling
  | 381 => p.impulseWidth
  | 382 => p.fastPeriod
  | 383 => p.advanceLimit
  | 391 => p.silencePlanning
  | 392 => p.silenceSignalling
  | 393 => p.silenceAnnouncement
  | n =>
    if 10 ≤ n ∧ n ≤ 17 then p.lightZones.getD (n - 10) 0
    else if 101 ≤ n ∧ n ≤ 160 then roleCode (p.roles.getD (n - 101) .none)
    else if 201 ≤ n ∧ n ≤ 260 then p.panelZones.getD (n - 201) 0
    else 0

/-- A value lies in the range of a parameter (R198). -/
def ParamRange.holds : ParamRange → Nat → Bool
  | .span lo hi, v => lo ≤ v && v ≤ hi
  | .role, v => v ≤ 32 || (101 ≤ v && v ≤ 124) || v = 200

/-- Every parameter holds a value of its range (R188, R198). -/
abbrev Params.Ok (p : Params) : Prop :=
  p.lightZones.length = 8 ∧ p.roles.length = 60 ∧ p.panelZones.length = 60 ∧ p.timePort ≠ .announcement ∧
    ∀ n < 394, ∀ row ∈ paramRow n, row.range.holds (p.value n) = true

/-- The two copies of the configuration and the stored one (R188, R191). -/
abbrev State.ConfigOk (s : State) : Prop :=
  s.inForce.Ok ∧ s.pendingCfg.Ok ∧ s.store.configuration.contents.Ok

/-- The cue list (R83, R84, R99). -/
abbrev State.CuesOk (s : State) : Prop :=
  s.cues.list.length ≤ 32 ∧ (s.cues.list.map (·.number)).Nodup ∧
    (∀ c ∈ s.cues.list, 1 ≤ c.number ∧ c.number ≤ 255 ∧ c.attempts ≤ 2) ∧
    (s.cues.list.map fun c => (c.kind, c.run)).Nodup ∧ s.cues.last ≤ 255

/-! ## Station time passing -/

/-- No transition, removal or cue is left due at the clock as it stands (R6 to R9, R95). -/
abbrev State.NothingDue (s : State) : Prop :=
  (∀ e ∈ s.table.entries,
    (e.awaiting = true → s.now < e.exp) ∧
      (e.state = .listed → e.displayed ≠ none → s.now < e.exp - s.inForce.boarding) ∧
      (e.inService = true → s.now < e.exp + s.inForce.overdue) ∧
      (∀ m, e.state = .departed → e.stateTime = some m → s.now < m + s.inForce.departedLinger) ∧
      ∀ m, e.state = .cancelled → e.stateTime = some m → s.now < max m e.exp + s.inForce.cancelledLinger) ∧
    ∀ c ∈ s.cues.list, c.state = .waiting → s.now < c.due

/-- From `s` to `t` the absolute minutes have been reduced by `shift`; an entry is gone only where it was overdue, had
lingered, or had fallen more than an hour behind the service day; what is shown of the rest, but for its state and clock
forms, is as it was (R8, R9, R56, R57). -/
abbrev State.Passed (s t : State) (shift : Int) : Prop :=
  (∀ x ∈ t.table.entries, ∃ e ∈ s.table.entries,
    x.run = e.run ∧ x.sched = e.sched - shift ∧ x.exp = e.exp - shift ∧ x.dd = e.dd ∧ x.displayed = e.displayed ∧
      x.stateTime = e.stateTime.map (· - shift) ∧ x.reason = e.reason ∧ x.headcode = e.headcode ∧
      x.destination = e.destination ∧ x.calls = e.calls ∧ x.announced = e.announced ∧ x.lastDelay = e.lastDelay ∧
      x.opDelay = e.opDelay) ∧
    ∀ e ∈ s.table.entries,
      (∃ x ∈ t.table.entries, x.run = e.run) ∨
        (e.inService = true ∧ e.exp - shift + s.inForce.overdue ≤ t.now) ∨
        (shift = 1440 ∧ e.exp - shift < -60 ∧ e.state ≠ .retiring) ∨
        (∃ m, e.state = .departed ∧ e.stateTime = some m ∧ m - shift + s.inForce.departedLinger ≤ t.now) ∨
        ∃ m, e.state = .cancelled ∧ e.stateTime = some m ∧ max m e.exp - shift + s.inForce.cancelledLinger ≤ t.now

/-- What the evaluation of every entry has done between `s` and `t`, the absolute minutes reduced by `shift` and the
filters moved by `tick`: `r` is the entry `e` so reduced. One that is overdue, or at a rollover more than an hour behind
the service day, is EXPIRED, and one that has lingered leaves without a notice; removed, it leaves the table, or is
RETIRING while a TAKEN cue names it, its change record is void and its other cues are withdrawn (R8 to R11, R57, R76). Any
other is CLOSED, BOARDING or LISTED again where the clock and its platform say so, and otherwise keeps its state (R6, R7,
R9). One revision is counted for a change of state, and none without (R5). -/
abbrev State.Evaluated (s t : State) (shift : Int) (tick : Filter → Filter) : Prop :=
  s.CuesOk → ∀ e ∈ s.table.entries, ∀ r : Entry,
    r =
        { e with
          sched := e.sched - shift, exp := e.exp - shift, stateTime := e.stateTime.map (· - shift)
          filter := tick e.filter } →
    ∀ expired lingered : Prop,
      (expired ↔
        (r.inService = true ∧ r.exp + s.inForce.overdue ≤ t.now) ∨
          (shift = 1440 ∧ r.exp < -60 ∧ r.state ≠ .retiring)) →
      (lingered ↔
        (∃ m, r.state = .departed ∧ r.stateTime = some m ∧ m + s.inForce.departedLinger ≤ t.now) ∨
          ∃ m, r.state = .cancelled ∧ r.stateTime = some m ∧ max m r.exp + s.inForce.cancelledLinger ≤ t.now) →
      (expired → ∀ q, q = .planning ∨ q = .signalling →
        ⟨.expired, .run e.run, t.time.clock⟩ ∈ (t.port q).notices ∨ (t.port q).overflow = true) ∧
      (expired ∨ lingered →
        t.openRecord? e.run = none ∧ (∀ c ∈ t.cues.list, c.run = e.run → c.isTaken = true ∧ c.pendDrop = true) ∧
          (s.namedByTaken e.run = false → t.entry? e.run = none) ∧
          (s.namedByTaken e.run = true →
            ∃ x, t.entry? e.run = some x ∧ x.facts = { r.facts with state := .retiring } ∧
              (s.openRecord? e.run = none → x.rev = e.rev + 1))) ∧
      (¬(expired ∨ lingered) →
        ∃ x, t.entry? e.run = some x ∧
          x.facts =
            { r.facts with
              state :=
                if (r.state = .listed ∨ r.state = .boarding) ∧ r.exp ≤ t.now then .closed
                else if r.state = .listed ∧ r.displayed ≠ none ∧ r.exp - s.inForce.boarding ≤ t.now then .boarding
                else if r.state = .boarding ∧ r.displayed = none then .listed
                else r.state } ∧
          (s.openRecord? e.run = none → x.rev = if x.state = e.state then e.rev else e.rev + 1))

/-- The displayable set is that of the table and the clock as they stand (R12). -/
abbrev State.Displayable (t : State) : Prop :=
  t.table.displayable =
    (t.table.entries.filter fun e => decide (e.state ≠ .retiring ∧ e.exp ≤ t.now + t.inForce.horizon)).map (·.run)

/-- From `s` to `t` every prediction filter has been cleared: an entry in service that held a prediction has run stages 3 to
6 and its transitions, with one revision where something shown changed; no other fact of any entry has moved, and none has
left the table or joined it (R33, R34, R38). -/
abbrev State.FiltersCleared (s t : State) : Prop :=
  (∀ run, (t.entry? run).isSome = (s.entry? run).isSome) ∧
    ∀ e ∈ s.table.entries, ∃ x, t.entry? e.run = some x ∧
      ∀ cleared new : Entry, cleared = { e with filter := Filter.empty } →
        new =
            (if e.inService = true ∧ e.filter.dp ≠ none then
              s.retest e (Entry.recompute s.inForce.hysteresis cleared)
            else cleared) →
          x.facts = new.facts ∧
            (s.openRecord? e.run = none → x.rev = if e.sameShown new = true then e.rev else e.rev + 1)

/-- The minutes of the change records have been reduced by `shift`, none below -32768, and the diversion holds tested at
the clock as it stands (R78). -/
abbrev State.HoldsTested (s t : State) (shift : Int) : Prop :=
  ∀ roll : Int → Int, (∀ m, roll m = if shift = 0 then m else max (-32768) (m - shift)) →
    (t.tracker.records.map fun r => (r.no, r.run, r.openedMinute, r.diverted)) =
      s.tracker.records.map fun r =>
        (r.no, r.run, roll r.openedMinute,
          r.diverted.map fun d =>
            { d with
              minute := roll d.minute
              ended := d.ended || decide (roll d.minute + s.inForce.diversionHold ≤ t.now) })

/-- The dues of the cues have been reduced by `shift`, and each WAITING cue of an entry that kept its state tested (R95). -/
abbrev State.CuesRolled (s t : State) (shift : Int) : Prop :=
  s.CuesOk → ∀ c ∈ s.cues.list, ∀ c' ∈ t.cues.list,
    c'.number = c.number → c'.kind = c.kind → c'.run = c.run →
      (c.state ≠ .waiting → c'.due = c.due - shift) ∧ (c.state = .due → c'.state = .due) ∧
        ((t.entry? c.run).map (·.state) = (s.entry? c.run).map (·.state) →
          c'.due = c.due - shift ∧
            (c.state = .waiting → c'.state = if c'.due ≤ t.now then .due else .waiting))

/-- The next running second puts the time state into HOLDOVER: a CONF has moved the limit, and the timer stands at it in
SET (R55). -/
abbrev State.HoldoverJudged (s : State) : Prop :=
  321 ∈ s.time.limitsMoved ∧ s.time.state = .set ∧ 60 * s.inForce.holdover ≤ s.time.holdover

/-- The next running second makes port `p` SILENT: a CONF has moved its limit, and its timer stands at it (R184). -/
abbrev State.SilenceJudged (s : State) (p : PortId) : Prop :=
  silenceParam p ∈ s.time.limitsMoved ∧ (s.port p).live = true ∧ s.inForce.silenceLimit p ≤ (s.port p).silence

/-! ## Impulse lines -/

/-- The impulse that line `l` gives when one begins at running time `now` (R172). -/
def Line.nextImpulse (p : Params) (now : Nat) (l : Line) : Impulse :=
  { start := now, polarity := l.polarity, width := p.impulseWidth, asked := false }

/-- How a decision at the clock places line `l`, no impulse being in progress on it and the state being SET or HOLDOVER
(R168, R170): `d` is its difference. -/
abbrev Line.PlacedBy (p : Params) (now : Nat) (minute : Bool) (l l' : Line) (d : Nat) : Prop :=
  (d = 0 → l'.state = .run ∧ l'.impulse = none ∧ l'.nextAt = none) ∧
    (d = 1 → l.state = .run → minute = true →
      l'.state = .run ∧ l'.impulse = some (l.nextImpulse p now) ∧ l'.nextAt = none) ∧
    (1 ≤ d → ¬(d = 1 ∧ l.state = .run ∧ minute = true) →
      (d ≤ p.advanceLimit → l'.state = .advance ∧
        (l.state = .advance → l.nextAt ≠ none → l'.impulse = none ∧ l'.nextAt = l.nextAt) ∧
        (l.state ≠ .advance ∨ l.nextAt = none → l'.impulse = some (l.nextImpulse p now) ∧ l'.nextAt = none)) ∧
      (p.advanceLimit < d → l'.state = .hold ∧ l'.impulse = none ∧ l'.nextAt = none))

/-- How an announcement at the clock leaves line `l` (R167). -/
abbrev Line.Announced (p : Params) (clock now : Nat) (minute : Bool) (l l' : Line) : Prop :=
  (l.state = .off ∨ l.state = .fault → l' = l) ∧
    (l.state ≠ .off → l.state ≠ .fault → l.impulse ≠ none →
      l' = { l with deferred := true, deferredMinute := l.deferredMinute || minute }) ∧
    (l.state ≠ .off → l.state ≠ .fault → l.impulse = none →
      l'.dial = l.dial ∧ l'.polarity = l.polarity ∧ l'.missed = l.missed ∧ l'.inUse = l.inUse ∧
        ∀ d, d < 720 → (l.dial + d) % 720 = clock / 60 % 720 → l.PlacedBy p now minute l' d)

/-- Every line at an announcement of the time base. -/
abbrev State.LinesAnnounced (s t : State) (minute : Bool) : Prop :=
  ∀ (n : Fin 4) (l : Line), s.line? n = some l →
    ∃ l', t.line? n = some l' ∧ l.Announced t.inForce t.time.clock t.runTime minute l'

/-- The dial part as the line records give it, with a good check (R176). -/
abbrev State.DialsStored (t : State) : Prop :=
  t.store.dials =
    { contents := t.lines.map fun l => { dial := l.dial, polarity := l.polarity, inUse := l.inUse }, good := true }

/-! ## Cues -/

/-- The gap of a list of zones has been started (R97). -/
abbrev State.GapStarted (s t : State) (zones : List Nat) : Prop :=
  t.cues.zones =
    s.cues.zones.map fun z =>
      if z.no ∈ zones ∧ s.inForce.zoneGap ≠ 0 then
        { z with gapEnd := some (max (s.time.runSec + s.inForce.zoneGap) (z.gapEnd.getD 0)) }
      else z

/-- A cue of a kind and a run that its trigger has reached: one that is TAKEN is to be revised, any other covers these
zones (R87). -/
abbrev Cue.Reached (kind : CueKind) (run : Nat) (zones : List Nat) (c : Cue) : Prop :=
  c.kind = kind ∧ c.run = run ∧ (c.isTaken = true → c.pendRev = true ∧ c.pendDrop = false) ∧
    (c.isTaken = false → ∀ z, z ∈ c.zones ↔ z ∈ zones)

/-- Every cue of a kind and a run has been withdrawn: those left are TAKEN and marked pending drop (R87). -/
abbrev State.Withdrawn (t : State) (kind : CueKind) (run : Nat) : Prop :=
  ∀ c ∈ t.cues.list, c.kind = kind → c.run = run → c.isTaken = true ∧ c.pendDrop = true

/-- The entry has entered CLOSED, CANCELLED or DEPARTED (R88, R91). -/
abbrev leftFrom (old : Option Entry) (x : Entry) : Prop :=
  old.map (·.state) ≠ some x.state ∧ (x.state = .closed ∨ x.state = .cancelled ∨ x.state = .departed)

/-- The trigger condition of the PLATFORM cue, its record apart (R88). -/
abbrev Entry.CallsPlatform (x : Entry) : Prop := x.displayed ≠ none ∧ x.awaiting = true ∧ x.announced = none

/-- The trigger condition of the DELAY cue (R90). -/
abbrev Entry.CallsDelay (p : Params) (x : Entry) : Prop :=
  x.awaiting = true ∧ p.delayThreshold ≤ x.dd ∧ x.lastDelay + p.delayStep ≤ x.dd

/-- From `s` to `t` the cue scheduler has been handed an entry, `old` before and `x` after: the cues of R88, R90 and R91
that it calls for are made or revised, the others withdrawn or left, and none is made besides but CHANGE and CANCEL. -/
abbrev State.CuesFollow (s t : State) (old : Option Entry) (x : Entry) : Prop :=
  (x.CallsPlatform → x.openRec = none → s.openRecord? x.run = none →
      ∃ c ∈ t.cues.list, c.Reached .platform x.run (0 :: x.displayed.toList) ∧
        (c.state = .waiting → c.due = x.exp - t.inForce.platformLead ∧ t.now < c.due)) ∧
    ((old.bind (·.displayed) ≠ none ∧ x.displayed = none) ∨ leftFrom old x → t.Withdrawn .platform x.run) ∧
    (x.CallsDelay t.inForce →
      ∃ c ∈ t.cues.list, c.Reached .delay x.run (0 :: x.displayed.toList) ∧ c.state ≠ .waiting) ∧
    (x.dd < t.inForce.delayThreshold ∨ x.awaiting = false → t.Withdrawn .delay x.run) ∧
    (old.map (·.state) ≠ some .boarding → x.state = .boarding →
      ∃ c ∈ t.cues.list, c.Reached .final x.run x.displayed.toList ∧
        (c.state = .waiting → c.due = x.exp - t.inForce.finalLead ∧ t.now < c.due)) ∧
    (old.map (·.state) = some .boarding → x.state = .boarding → old.bind (·.displayed) ≠ x.displayed →
      ∀ c ∈ t.cues.list, c.kind = .final → c.run = x.run → c.Reached .final x.run x.displayed.toList) ∧
    (leftFrom old x ∨ (old.map (·.state) = some .boarding ∧ x.state = .listed) → t.Withdrawn .final x.run) ∧
    ∀ c ∈ t.cues.list, c.run = x.run → (∀ b ∈ s.cues.list, b.number ≠ c.number) →
      (c.kind = .platform → x.CallsPlatform) ∧ (c.kind = .delay → x.CallsDelay t.inForce) ∧
        (c.kind = .final → x.state = .boarding ∧ old.map (·.state) ≠ some .boarding)

/-- A cue as its trigger makes it (R84, R87). -/
abbrev Cue.Made (now : Int) (kind : CueKind) (run : Nat) (zones : List Nat) (due : Int) (c : Cue) : Prop :=
  c.kind = kind ∧ c.run = run ∧ (∀ z, z ∈ c.zones ↔ z ∈ zones) ∧ c.due = due ∧
    c.state = (if due ≤ now then .due else .waiting) ∧ c.attempts = 0 ∧ c.pendRev = false ∧ c.pendDrop = false

/-- A trigger that finds no cue of its kind and run brings the list `l` to `l'`: with room the new cue joins at the tail; in
a list of 32 the WAITING cue of the greatest priority number above the new cue's, then the latest due, then the latest
creation gives its place, or without one the new cue is dropped. CUE_DROPPED is to name the run `lost` (R83, R94). -/
abbrev CueCalled (now : Int) (kind : CueKind) (run : Nat) (zones : List Nat) (due : Int) (l l' : List Cue)
    (lost : Option Nat) : Prop :=
  (l.length < 32 → lost = none ∧ ∃ c, l' = l ++ [c] ∧ c.Made now kind run zones due) ∧
    (l.length = 32 →
      (∀ before d after, l = before ++ d :: after → d.state = .waiting → kind.priority < d.kind.priority →
        (∀ b ∈ before, b.state = .waiting →
          b.kind.priority < d.kind.priority ∨ (b.kind.priority = d.kind.priority ∧ b.due ≤ d.due)) →
        (∀ b ∈ after, b.state = .waiting →
          b.kind.priority < d.kind.priority ∨ (b.kind.priority = d.kind.priority ∧ b.due < d.due)) →
          lost = some d.run ∧ ∃ c, l' = before ++ after ++ [c] ∧ c.Made now kind run zones due) ∧
        ((∀ c ∈ l, c.state = .waiting → c.kind.priority ≤ kind.priority) → lost = some run ∧ l' = l))

/-- CUE_DROPPED has been posted to the planning and the announcement port for these runs in turn, ahead of whatever else
(R94). -/
abbrev State.RunsDropped (s t : State) (runs : List Nat) : Prop :=
  ∀ q, q = .planning ∨ q = .announcement →
    (runs.foldl (fun r run => r.post ⟨.cueDropped, .run run, s.time.clock⟩) (s.port q)).notices <+: (t.port q).notices

/-- Where a telegram or event changes the state, the displayed platform, Dd or A of an entry, the list having room for
what it calls for, the cues follow (R38, R86). -/
abbrev State.CuesHanded (s t : State) (e x : Entry) : Prop :=
  s.CuesOk → s.cues.list.length ≤ 28 →
    e.state ≠ x.state ∨ e.displayed ≠ x.displayed ∨ e.dd ≠ x.dd ∨ e.exp ≠ x.exp → s.CuesFollow t (some e) x

/-! ## Change records -/

/-- The change records (R64, R65). -/
abbrev State.TrackerOk (s : State) : Prop :=
  (s.tracker.records.map (·.no)).Nodup ∧ (∀ r ∈ s.tracker.records, 1 ≤ r.no ∧ r.no ≤ 16) ∧
    s.tracker.closed.Nodup ∧
    (∀ n ∈ s.tracker.closed, ∃ r ∈ s.tracker.records, r.no = n ∧ r.isOpen = false) ∧
    (∀ r ∈ s.tracker.records, r.isOpen = false → r.no ∈ s.tracker.closed) ∧
    ((s.tracker.records.filter (·.isOpen)).map (·.run)).Nodup

/-- An address is that of the row panel to which the row map assigns a run, or of the gate panel of a platform (R128). -/
abbrev State.Concerned (s : State) (run : Nat) (platform : Option Nat) (a : Nat) : Prop :=
  s.rowPanelOf run = some a ∨ ∃ p q, platform = some p ∧ s.gatePanel p = some q ∧ q.addr = a

/-- The panel of an address is ACTIVE or PROBING, and stale (R110, R141). -/
abbrev State.Wanting (t : State) (a : Nat) : Prop :=
  ∃ q, t.panel? a = some q ∧ (q.state = .active ∨ q.state = .probing) ∧
    (q.desired ≠ q.acked ∨ q.ackedLevel ≠ some q.desiredLevel)

/-- The compositor's appends for a run and a platform. With the bus BUSY each panel concerned stands in the urgent list
with two retries, the row panel before the gate panel where both are new to it, and no entry moves (R128, R140). With the
bus IDLE and the list empty the first of them that wants a frame is served at once under its two retries, and those after
it stay in the list (R139, R141). -/
abbrev State.UrgentGained (s t : State) (run : Nat) (platform : Option Nat) : Prop :=
  (s.bus.exchange ≠ none →
    s.bus.urgent.map (·.addr) <+: t.bus.urgent.map (·.addr) ∧
      (∀ a, s.Concerned run platform a → ⟨a, 2⟩ ∈ t.bus.urgent) ∧
      (∀ u ∈ t.bus.urgent, u ∈ s.bus.urgent ∨ (u.retries = 2 ∧ s.Concerned run platform u.addr)) ∧
      ∀ p row gate, s.rowPanelOf run = some row → platform = some p → s.gatePanel p = some gate → row ≠ gate.addr →
        (∀ u ∈ s.bus.urgent, u.addr ≠ row ∧ u.addr ≠ gate.addr) →
          t.bus.urgent = s.bus.urgent ++ [⟨row, 2⟩, ⟨gate.addr, 2⟩]) ∧
    (s.bus.exchange = none → s.bus.urgent = [] → ∀ l : List Nat,
      l =
          (s.rowPanelOf run).toList ++
            ((platform.bind s.gatePanel).map (·.addr)).toList.filter (s.rowPanelOf run ≠ some ·) →
      (∀ before a after, l = before ++ a :: after → t.Wanting a → (∀ b ∈ before, ¬t.Wanting b) →
        (∃ x, t.bus.exchange = some x ∧ x.addr = a ∧ x.urgent = some 2) ∧
          t.bus.urgent = after.map fun b => ⟨b, 2⟩) ∧
        ((∀ a ∈ l, ¬t.Wanting a) → t.bus.urgent = []))

/-- The OPEN records of a run have become VOID, which is posted to the signalling port before anything else (R76). -/
abbrev State.Voided (s t : State) (run : Nat) : Prop :=
  t.openRecord? run = none ∧
    (s.TrackerOk → ∀ r ∈ s.tracker.records, r.run = run → r.isOpen = true →
      (∃ r' ∈ t.tracker.records, r'.no = r.no ∧ r'.run = run ∧ r'.state = .void) ∧ r.no ∈ t.tracker.closed ∧
        s.Noticed t .signalling ⟨.changeVoid, .run run, s.time.clock⟩)

/-- A revision covers a record's (R70). -/
abbrev ChangeRec.Covered (r : ChangeRec) (rev : Count16) : Prop := (rev - r.r).toNat < 32768

/-- The row part that an evaluation against the picture of `t` gives the record `r` (R70). -/
abbrev State.RowJudged (t : State) (r : ChangeRec) (part : Part) : Prop :=
  (r.rowPart ≠ .pending → part = r.rowPart) ∧
    (r.rowPart = .pending →
      (t.rowPanelOf r.run = none → part = .met) ∧
        ∀ a q, t.rowPanelOf r.run = some a → t.panel? a = some q →
          ((∃ rev, q.acked = some (.row r.run rev) ∧ r.Covered rev) → part = .met) ∧
            ((∀ rev, q.acked = some (.row r.run rev) → ¬r.Covered rev) → part = .pending))

/-- The gate part that an evaluation against the picture of `t` gives the record `r` (R71). -/
abbrev State.GateJudged (t : State) (r : ChangeRec) (part : Part) : Prop :=
  (r.gatePart ≠ .pending → part = r.gatePart) ∧
    (r.gatePart = .pending →
      (r.gateReq = none → part = .met) ∧
        ∀ a q, r.gateReq = some a → t.panel? a = some q →
          (q.state ≠ .active → part = .waived) ∧
            (q.state = .active → (∀ rev, q.desired ≠ some (.diversion r.run rev)) → part = .met) ∧
            (q.state = .active → (∃ rev, q.desired = some (.diversion r.run rev)) →
              ((∃ rev, q.acked = some (.diversion r.run rev) ∧ r.Covered rev) → part = .met) ∧
                ((∀ rev, q.acked = some (.diversion r.run rev) → ¬r.Covered rev) → part = .pending)))

/-- The record `r` of `s` has become INFORMED by `t`: it joins the closed list, the entry's highlight ends with one
revision, and CHANGE_INFORMED is posted (R75). -/
abbrev State.Informed (s t : State) (r : ChangeRec) : Prop :=
  r.no ∈ t.tracker.closed ∧
    (⟨.changeInformed, .run r.run, s.time.clock⟩ ∈ (t.port .signalling).notices ∨
      (t.port .signalling).overflow = true) ∧
    ∀ e, s.entry? r.run = some e → ∃ y, t.entry? r.run = some y ∧ y.openRec = none ∧ y.rev = e.rev + 1

/-- From `s` to `t` an evaluation against the picture of `t` has brought the OPEN record `r` to `r'` (R70 to R73, R75). -/
abbrev State.RecordJudged (s t : State) (r r' : ChangeRec) : Prop :=
  t.RowJudged r r'.rowPart ∧ t.GateJudged r r'.gatePart ∧
    (r'.displayed = true ↔ r'.rowPart ≠ .pending ∧ r'.gatePart ≠ .pending) ∧
    (r'.degraded = true ↔ r.degraded = true ∨ (r.gatePart = .pending ∧ r'.gatePart = .waived)) ∧
    r'.announced = r.announced ∧
    (r'.displayed = true → r.announced = true → r'.state = .informed ∧ s.Informed t r) ∧
    (¬(r'.displayed = true ∧ r.announced = true) → r'.state = .opened)

/-- From `s` to `t` every OPEN record that `p` picks and that is not yet displayed has been evaluated (R72). -/
abbrev State.OpenJudged (s t : State) (p : ChangeRec → Prop) : Prop :=
  s.TrackerOk → ∀ r ∈ s.tracker.records, r.isOpen = true → r.displayed = false → p r →
    ∃ r' ∈ t.tracker.records, r'.no = r.no ∧ s.RecordJudged t r r'

/-- From `s` to `t` every OPEN record not yet displayed has been evaluated; none is outside NORMAL (R72). -/
abbrev State.RecordsJudged (s t : State) : Prop :=
  (s.wall.mode ≠ .normal → t.tracker = s.tracker) ∧ (s.wall.mode = .normal → s.OpenJudged t fun _ => True)

/-- In NORMAL mode the failure of the panel at `a` has waived the row part of an OPEN record whose entry it showed, and the
gate part of one that waits for it (R73). -/
abbrev State.WaivedBy (s t : State) (a : Nat) : Prop :=
  s.wall.mode = .normal → s.TrackerOk → ∀ r ∈ s.tracker.records, r.isOpen = true → r.displayed = false →
    (r.rowPart = .pending → s.rowPanelOf r.run = some a →
      ∃ r' ∈ t.tracker.records, r'.no = r.no ∧ r'.rowPart = .waived ∧ r'.degraded = true) ∧
      (r.gatePart = .pending → r.gateReq = some a →
        ∃ r' ∈ t.tracker.records, r'.no = r.no ∧ r'.gatePart = .waived ∧ r'.degraded = true)

/-! ## Light -/

/-- The zone `z` at the end of a pass with these usable readings: the band of their average with the hysteresis of both
directions, one step toward the target between floor and ceiling, and with none of them a step only where the level
stands outside floor and ceiling; a zone whose level moved gives its panels that level (R158 to R160). -/
abbrev State.ZonePassed (s t : State) (z : LightZone) (usable : List Nat) : Prop :=
  ∃ z' ∈ t.sense.zones, z'.no = z.no ∧
    (usable = [] → z'.target = z.target) ∧
    (usable ≠ [] → ∀ a, a = usable.sum / usable.length →
      (z.target < a / 64 → 64 * (a / 64) + 8 ≤ a → z'.target = a / 64) ∧
        (a / 64 < z.target → a + 9 ≤ 64 * z.target → z'.target = a / 64) ∧
        (¬(z.target < a / 64 ∧ 64 * (a / 64) + 8 ≤ a) → ¬(a / 64 < z.target ∧ a + 9 ≤ 64 * z.target) →
          z'.target = z.target)) ∧
    ∀ goal, goal = min (max z'.target s.inForce.floor) s.inForce.ceiling →
      (usable = [] → min s.inForce.floor s.inForce.ceiling ≤ z.level → z.level ≤ s.inForce.ceiling →
        z'.level = z.level) ∧
        (usable ≠ [] ∨ z.level < min s.inForce.floor s.inForce.ceiling ∨ s.inForce.ceiling < z.level →
          (z.level < goal → z'.level = z.level + 1) ∧ (goal < z.level → z'.level + 1 = z.level) ∧
            (z.level = goal → z'.level = z.level)) ∧
        ∀ q ∈ s.bus.panels, q.role ≠ .none → q.zone = z.no →
          ∃ q' ∈ t.bus.panels, q'.addr = q.addr ∧
            q'.desiredLevel =
              if z'.level = z.level then q.desiredLevel else min z'.level (if q.overtemp then 6 else 15)

/-- A change from platform `src` of an entry that stands as `new` after the telegram is published (R62). -/
abbrev State.Publishes (s : State) (new : Entry) (src : Nat) : Prop :=
  new.announced ≠ none ∨ (∃ c ∈ s.cues.list, c.run = new.run ∧ c.kind = .platform ∧ c.isTaken = true) ∨
    new.exp - s.inForce.published ≤ s.now ∨
    (∃ q rev, s.gatePanel src = some q ∧ q.acked = some (.gate new.run rev)) ∨
    (s.liveRecord? new.run).isSome = true

/-! ## Invariants -/

/-- The fields of an entry that the delay arithmetic keeps (R1, R26, R39). -/
abbrev Entry.Ok (confirm : Nat) (e : Entry) : Prop :=
  e.exp = e.sched + e.dd ∧ e.dd ≤ 720 ∧ (∀ d ∈ e.opDelay, d.minutes ≤ 720) ∧ (∀ m ∈ e.filter.dp, m ≤ 720) ∧
    (∀ m ∈ e.filter.cand, m ≤ 720) ∧ e.filter.k ≤ confirm ∧ e.filter.age ≤ 901 ∧
    (e.filter.dp = none → e.filter.age = 0)

/-- The table stands in strictly ascending order of its key, holds no run twice and at most 96 entries (R2). -/
abbrev State.TableOk (s : State) : Prop :=
  s.table.entries.Pairwise (fun a b => keyLt a b = true) ∧ (s.table.entries.map (·.run)).Nodup ∧
    s.table.entries.length ≤ 96 ∧ ∀ e ∈ s.table.entries, e.Ok s.inForce.confirm

/-- The number of TAKEN cues never exceeds the PA channel count, and no zone is covered by two of them (R99). -/
abbrev State.SpeechOk (s : State) : Prop :=
  s.takenCount ≤ s.inForce.channels ∧
    s.cues.list.Pairwise fun a b => a.isTaken = true → b.isTaken = true → ∀ z ∈ a.zones, z ∉ b.zones

/-- Every cue names a run present in the table; those of a RETIRING entry are TAKEN and marked pending drop, and there is
one (R11, R83, R93). -/
abbrev State.CuesNamed (s : State) : Prop :=
  (∀ c ∈ s.cues.list, (s.entry? c.run).isSome = true) ∧
    ∀ e ∈ s.table.entries, e.state = .retiring →
      (∃ c ∈ s.cues.list, c.run = e.run) ∧
        ∀ c ∈ s.cues.list, c.run = e.run → c.isTaken = true ∧ c.pendDrop = true

/-- An entry's open change record field names the OPEN record of its run, only entries in service hold one, and every
OPEN record is held by an entry (R76, R77). -/
abbrev State.RecordsNamed (s : State) : Prop :=
  (∀ e ∈ s.table.entries, e.openRec = (s.openRecord? e.run).map (·.no) ∧ (e.openRec ≠ none → e.inService = true)) ∧
    ∀ r ∈ s.tracker.records, r.isOpen = true → (s.entry? r.run).isSome = true

/-- The panel records (R130, R131, R145). -/
abbrev State.PanelsOk (s : State) : Prop :=
  s.bus.panels.map (·.addr) = (List.range 60).map (· + 1) ∧ 1 ≤ s.inForce.failThreshold ∧
    (∀ p ∈ s.bus.panels, p.state = .active → p.ec < s.inForce.failThreshold) ∧
    (∀ p ∈ s.bus.panels, p.goodRun ≤ 2) ∧ (∀ p ∈ s.bus.panels, p.state = .absent ↔ p.role = .none)

/-- Every panel's desired tag names the picture as it stands (R110, R111). -/
abbrev State.DesiredCurrent (s : State) : Prop := ∀ p ∈ s.bus.panels, p.desired = s.desiredTag p

/-- The row map, the gate choices and the rotation list are those formed afresh, and the content of the current item is
as last composed (R112, R115, R121, R123; the field `mark` is the model's, log entry 15). -/
abbrev State.PictureCurrent (s : State) : Prop :=
  s.wall.rowMap = s.freshRowMap ∧ s.wall.gateChoice = s.freshGates ∧ s.wall.items = s.freshItems ∧
    s.wall.mark = s.wall.current.bind s.itemMark

/-- The delay item that is current in `t`, if one is, is that of an entry whose revision has not moved since `s`. -/
abbrev State.CurrentUnrevised (s t : State) : Prop :=
  ∀ run, t.wall.current = some (.delay run) → (t.entry? run).map (·.rev) = (s.entry? run).map (·.rev)

/-- The entry leaves from platform `p` (R79, R115). -/
abbrev Entry.LeavesFrom (p : Nat) (e : Entry) : Prop := e.inService = true ∧ e.displayed = some p

/-- The entry sends passengers from platform `p` to its own: an OPEN or INFORMED record of it holds a pair of `p` whose hold
has not ended (R78, R79). -/
abbrev State.SendsFrom (s : State) (p : Nat) (e : Entry) : Prop :=
  e.inService = true ∧ e.displayed ≠ none ∧ e.displayed ≠ some p ∧
    ∃ r ∈ s.tracker.records, r.run = e.run ∧ (r.state = .opened ∨ r.state = .informed) ∧
      ∃ d ∈ r.diverted, d.platform = p ∧ d.ended = false ∧ s.now < d.minute + s.inForce.diversionHold

/-- The gate page of platform `p` is that of the first entry in table order that leaves from it or sends passengers from it,
and empty without one (R79, R115). -/
abbrev State.GateShows (s : State) (p : Nat) (tag : Tag) : Prop :=
  (∀ before e after, s.table.entries = before ++ e :: after →
      (∀ b ∈ before, ¬b.LeavesFrom p ∧ ¬s.SendsFrom p b) →
        (s.SendsFrom p e → tag = .diversion e.run e.rev) ∧ (e.LeavesFrom p → tag = .gate e.run e.rev)) ∧
    ((∀ e ∈ s.table.entries, ¬e.LeavesFrom p ∧ ¬s.SendsFrom p e) → tag = .empty p)

/-- What the row map, the gate choices and the rotation list hold, and what every panel wants in each mode (R111 to R113,
R115, R121). -/
abbrev State.PictureShown (s : State) : Prop :=
  (∀ rows : List (Nat × Nat),
      rows.Pairwise (fun a b => a.1 < b.1 ∨ (a.1 = b.1 ∧ a.2 < b.2)) →
      (∀ i a, (i, a) ∈ rows ↔ ∃ q ∈ s.bus.panels, q.role = .row i ∧ q.state = .active ∧ q.addr = a) →
        s.wall.rowMap = (rows.map (·.2)).zip (s.displayed.map (·.run))) ∧
    (∀ q ∈ s.bus.panels, ∀ g, q.role = .gate g → ∃ tag, (q.addr, tag) ∈ s.wall.gateChoice ∧ s.GateShows g tag) ∧
    s.wall.items =
      ([0, 1, 2, 3].flatMap fun k => (s.wall.posted.filter (·.priority = k)).map fun n => Item.note n.number) ++
        ((s.displayed.filter fun e =>
          decide ((e.state = .listed ∨ e.state = .boarding) ∧ s.inForce.delayThreshold ≤ e.dd)).map
            fun e => Item.delay e.run) ∧
    ∀ q ∈ s.bus.panels,
      (q.role = .none → q.desired = none) ∧
        (q.role ≠ .none → s.wall.mode = .blank → q.desired = some .blank) ∧
        (q.role ≠ .none → s.wall.mode = .notice → ∀ n ∈ s.wall.posted, n.priority = 0 →
          (∀ m ∈ s.wall.posted, m.priority = 0 → n.number ≤ m.number) →
            q.desired = some (.notice n.number n.edition)) ∧
        (s.wall.mode = .normal →
          (∀ i, q.role = .row i →
            (∀ run e, (q.addr, run) ∈ s.wall.rowMap → s.entry? run = some e → q.desired = some (.row run e.rev)) ∧
              ((∀ run, (q.addr, run) ∉ s.wall.rowMap) → q.desired = some .blank)) ∧
            (∀ g, q.role = .gate g → ∃ tag, q.desired = some tag ∧ s.GateShows g tag) ∧
            (q.role = .banner →
              (∀ i, s.wall.current = some i → q.desired = some (.banner i s.wall.count)) ∧
                (s.wall.current = none → q.desired = some .blank)))

/-- The page that an entry gives a row panel or a gate panel (R114, R116). -/
abbrev Entry.Shown (p : Params) (e : Entry) (page : RowPage) : Prop :=
  page =
    { sched := clockForm p.dayStart e.sched
      expected := if p.lateness ≤ e.dd then some (clockForm p.dayStart e.exp) else none
      destination := e.destination, headcode := e.headcode, platform := e.displayed
      remark :=
        if e.state = .cancelled then .cancelled
        else if e.state = .departed then .departed
        else if e.state = .closed then .closed
        else if e.state = .boarding then .boarding
        else if p.lateness ≤ e.dd then .expected
        else .onTime
      highlight := decide (e.openRec ≠ none), reason := e.reason, calls := e.calls }

/-- The content `c` is that of the page which the desired tag of panel `q` names (R114, R116, R124, R127). -/
abbrev State.Composed (s : State) (q : Panel) (c : Content) : Prop :=
  (∀ run e, s.entry? run = some e →
      (∀ rev, q.desired = some (.row run rev) → ∃ page, c = .rowf page ∧ e.Shown s.inForce page) ∧
        (∀ rev g, q.desired = some (.gate run rev) → q.role = .gate g →
          ∃ page, c = .gatfNext g page ∧ e.Shown s.inForce page) ∧
        (∀ rev g, q.desired = some (.diversion run rev) → q.role = .gate g →
          ∃ page, c = .gatfDiversion g page ∧ e.Shown s.inForce page) ∧
        (∀ count, q.desired = some (.banner (.delay run) count) →
          c =
            .banfDelay
              { headcode := e.headcode, sched := clockForm s.inForce.dayStart e.sched, destination := e.destination
                delay := e.dd, expected := clockForm s.inForce.dayStart e.exp, platform := e.displayed
                reason := e.reason })) ∧
    (∀ g, q.desired = some (.empty g) → c = .gatfEmpty g) ∧
    (∀ n ∈ s.wall.posted,
      (∀ count, q.desired = some (.banner (.note n.number) count) → c = .banfNotice n.priority n.text) ∧
        ∀ edition, q.desired = some (.notice n.number edition) → c = .notf n.text) ∧
    (q.desired = some .blank → c = .blkf)

/-- While the bus is IDLE no panel waits to be sent what it ought to show (R139). -/
abbrev State.BusOk (s : State) : Prop :=
  (s.bus.exchange = none → s.bus.urgent = [] ∧ ∀ p ∈ s.bus.panels, p.wantsFrame = false) ∧
    (s.bus.urgent.map (·.addr)).Nodup ∧ (∀ u ∈ s.bus.urgent, u.retries ≤ 2) ∧
    (∀ x ∈ s.bus.exchange, ∀ n ∈ x.urgent, n ≤ 2) ∧ 1 ≤ s.bus.pointer ∧ s.bus.pointer ≤ 60

/-- A dial position held pending lies in 0..719 (R174, R175). -/
def PendingDial.inRange : PendingDial → Bool
  | .set position _ => position < 720
  | .off => true

/-- The impulse lines, and the dial positions stored (R165, R173, R176). -/
abbrev State.LinesOk (s : State) : Prop :=
  (∀ d ∈ s.store.dials.contents, d.dial < 720) ∧
  s.lines.map (·.no) = [0, 1, 2, 3] ∧
    ∀ l ∈ s.lines, l.dial < 720 ∧ l.missed ≤ 3 ∧ (l.nextAt.isSome = true → l.state = .advance ∧ l.impulse = none) ∧
      (l.state = .off → l.inUse = false) ∧ (l.inUse = false → l.state = .off) ∧
      (l.impulse.isSome = true → l.state = .run ∨ l.state = .advance) ∧
      (l.impulse = none → l.result = none ∧ l.deferred = false ∧ l.pendingDial = none) ∧
      (l.state = .advance → l.impulse.isSome = true ∨ l.nextAt.isSome = true) ∧
      ∀ d ∈ l.pendingDial, d.inRange = true

/-- The station clock and the slew remainder lie in their ranges (R46). -/
abbrev State.TimeOk (s : State) : Prop :=
  s.time.clock < 86400 ∧ -30 ≤ s.time.slew ∧ s.time.slew ≤ 30 ∧ s.time.subMs ≤ 999 ∧
    (s.time.state = .unset → s.time.slew = 0 ∧ s.time.holdover = 0 ∧ s.table.entries = []) ∧ s.time.holdover ≤ 86400

/-- One port record (R179, R181, R182, R185). -/
abbrev Port.Ok (r : Port) : Prop :=
  r.notices.length ≤ 16 ∧ r.buffer.length ≤ 2 ∧ (r.service = .idle ↔ r.buffer = []) ∧
    (r.service = .replying ↔ r.reply.isSome = true)

/-- The three port records. -/
abbrev State.PortsOk (s : State) : Prop :=
  s.ports.planning.Ok ∧ s.ports.signalling.Ok ∧ s.ports.announcement.Ok

/-- Every attention line stands as its condition says (R106, R187). -/
abbrev State.AttentionOk (s : State) : Prop :=
  s.powered = true → ∀ p : PortId, (s.port p).attention = s.wantsAttention p

/-- One posted notice (R117, R118). -/
abbrev Posted.Ok (n : Posted) : Prop :=
  1 ≤ n.number ∧ n.number ≤ 200 ∧ n.priority ≤ 3 ∧ n.text ≠ [] ∧ n.text.length ≤ 120 ∧ ∀ d ∈ n.expiry, d ≤ 86400

/-- The wall: the posted notice list, the mode and the rotation (R117, R121, R122, R126). -/
abbrev State.WallOk (s : State) : Prop :=
  s.wall.posted.length ≤ 12 ∧ (s.wall.posted.map (·.number)).Nodup ∧ (∀ n ∈ s.wall.posted, n.Ok) ∧
    (s.wall.mode = .notice → ∃ n ∈ s.wall.posted, n.priority = 0) ∧
    s.wall.items.Nodup ∧ s.wall.items.length ≤ 108 ∧ (∀ c ∈ s.wall.current, c ∈ s.wall.items) ∧
    (s.wall.current = none ↔ s.wall.items = []) ∧ (s.wall.current = none ↔ s.wall.dwell = none)

/-- The levels: no zone and no panel is above 15, and no panel in overtemperature wants more than 6 (R158, R160). -/
abbrev State.LevelsOk (s : State) : Prop :=
  (∀ z ∈ s.sense.zones, z.level ≤ 15 ∧ z.target ≤ 15) ∧
    ∀ p ∈ s.bus.panels, p.desiredLevel ≤ 15 ∧ (p.overtemp = true → p.desiredLevel ≤ 6)

/-- A check in conversion stands at the head of the queue; a light conversion is that of the scan position, with no check
queued; an idle converter has nothing to do (R152, R156). -/
def Sense.converterInStep (u : Sense) : Bool :=
  match u.converter with
  | .check n _ => u.queue.head? = some n
  | .light c => u.queue = [] && u.position = some c
  | .idle => u.queue = [] && u.position = none

/-- The analog sensing unit (R152, R156). -/
abbrev State.SenseOk (s : State) : Prop :=
  s.sense.channels.map (·.no) = List.range 8 ∧ s.sense.zones.map (·.no) = [1, 2, 3, 4] ∧ s.sense.queue.Nodup ∧
    (∀ c ∈ s.sense.channels, c.faultyRun ≤ 4 ∧ c.goodRun ≤ 4) ∧
    s.sense.converterInStep = true

end Sys2Proof.Machine
end

