-- ==== Sys2Proof/Certificates/Slice0/Obligations.lean ====
section
/-! DEFINITION. The statements for the provers, chapter by chapter of the manual. A statement about every state takes
as premises only what the telegram or event itself asks for, and those invariants of Safety.lean that are stated, at
the end, as kept by every step. -/

open Sys2Proof Sys2Proof.Machine

/-! ## The links: octets, frames, telegrams (R180 to R183, R194, R195) -/

/-- R194: the escapes of any string of octets are undone by the receiver, and no flag stands between them. -/
def Obligations.EscapesAreUndone : Prop :=
  ∀ l : List Octet, flagOctet ∉ escape l ∧ unescape (escape l) = some l

/-- R195: every telegram whose fields fit its layout is read back, kind and fields, from its kind octet and body. -/
def Obligations.TelegramBodiesReadBack : Prop :=
  ∀ tg : Telegram, tg.fits = true →
    Kind.ofCode tg.kind.code = some tg.kind ∧ readTelegram tg.kind tg.body = some tg

/-- R180, R194: the frame of a telegram with a body of at most 252 octets passes framing as that telegram. -/
def Obligations.FramesPassFraming : Prop :=
  ∀ (seq : Octet) (tg : Telegram), tg.body.length ≤ 252 → judgeFrame (tg.frame seq) = some (tg.tel seq)

/-- R180, R194, R133: a frame that is too short, too long, or fails its CRC, one with a flag inside it, one that ends
in an escape (its closing flag makes that the abort sequence), an abort sequence and stray octets on the bus change
nothing at all. How an escape before an unlisted octet reads is DEDUCED (log entry 6). -/
def Obligations.DiscardedOctetsChangeNothing : Prop :=
  (∀ (s : State) (p : PortId) (ms : Nat) (octets : List Octet),
      (flagOctet ∈ octets ∨ (∃ before, octets = before ++ [escapeOctet] ∧ unescape before ≠ none) ∨
          ∃ u, unescape octets = some u ∧
            (u.length < 4 ∨ 256 < u.length ∨ u.drop (u.length - 2) ≠ crcOctets (u.take (u.length - 2)))) →
        exec (.telegramFrameEnd p ms octets) s = .next s) ∧
    (∀ (s : State) (p : PortId), exec (.abortSequence p) s = .next s) ∧
    ∀ (s : State) (octets : List Octet), exec (.strayPanelOctets octets) s = .next s

/-- R181: the buffer holds at most two telegrams; one that passes framing joins at the tail, or is dropped from a full
buffer with nothing answered and nothing posted; the head leaves when its reply has been sent. -/
def Obligations.ReceiveBufferHoldsTwo : Prop :=
  (∀ s t : State, (∀ p, (s.port p).buffer.length ≤ 2) → step s = .next t → ∀ p, (t.port p).buffer.length ≤ 2) ∧
    (∀ (s : State) (p : PortId) (ms : Nat) (octets : List Octet) (tel : Tel), s.powered = true →
      judgeFrame octets = some tel →
        ∃ t, exec (.telegramFrameEnd p ms octets) s = .next t ∧
          t = { s with ports := t.ports, time := { s.time with subMs := t.time.subMs } } ∧
          (∀ q, q ≠ p → t.port q = s.port q) ∧
          t.port p =
            { s.port p with
              live := true
              silence := 0
              buffer :=
                if (s.port p).buffer.length < 2 then (s.port p).buffer ++ [tel] else (s.port p).buffer
              service :=
                if (s.port p).buffer.length < 2 ∧ (s.port p).service = .idle then .serving
                else (s.port p).service }) ∧
    ∀ (s : State) (p : PortId) (ms : Nat), s.powered = true → (s.port p).service = .replying →
      ∃ t, exec (.replySent p ms) s = .next t ∧
        t = { s with ports := t.ports, time := { s.time with subMs := t.time.subMs } } ∧
        (∀ q, q ≠ p → t.port q = s.port q) ∧
        t.port p =
          { s.port p with
            buffer := (s.port p).buffer.tail
            reply := none
            service := if (s.port p).buffer.length ≤ 1 then .idle else .serving }

/-- R183: a telegram of undefined kind is answered UNKNOWN under its own kind octet OR 0x80 and its own sequence
number, and has no other effect. -/
def Obligations.UnknownKindIsAnswered : Prop :=
  ∀ (s : State) (p : PortId) (tel : Tel), s.Serves p tel → Kind.ofCode tel.kind = none →
    ∃ t, exec (.unknown p) s = .next t ∧ t = { s with ports := t.ports } ∧
      (∀ q, q ≠ p → t.port q = s.port q) ∧
      t.port p =
        { s.port p with
          service := .replying
          reply :=
            some
              { kind := tel.kind ||| 0x80#8, seq := tel.seq, code := .unknown, clamped := false, untracked := false,
                field := 0, result := .none } }

/-- R183: a telegram of any kind is refused WRONG_PORT on a port that does not accept the kind, and BAD_FIELD with
index 0 where its body does not fit the layout; it then has no effect. A refusal of TIME carries the clock (R196). -/
def Obligations.GeneralChecksRefuse : Prop :=
  ∀ (s : State) (p : PortId) (k : Kind) (tel : Tel), s.Serves p tel → tel.kind = k.code →
    (PortId.accepts p k = false ∨ readTelegram k tel.body = none) →
      ∃ t, exec (k.command p) s = .next t ∧ t = { s with ports := t.ports } ∧
        (∀ q, q ≠ p → t.port q = s.port q) ∧
        t.port p =
          { s.port p with
            service := .replying
            reply :=
              some
                { kind := tel.kind ||| 0x80#8, seq := tel.seq
                  code := if PortId.accepts p k = false then .wrongPort else .badField
                  clamped := false, untracked := false, field := 0
                  result := if k = .time then .clock s.time.clock s.time.state none else .none } }

/-- Every command has a next state and leaves the queue of waiting commands alone; without power only POWER_ON does
anything (the model's choice, log entry 4). -/
def Obligations.EveryCommandGoesOn : Prop :=
  ∀ (i : Instr) (s : State),
    (∃ t, exec i s = .next t ∧ t.pending = s.pending) ∧ (s.powered = false → i ≠ .powerOn → exec i s = .next s)

/-- A step takes the command at the front of the queue and runs it on the state with the queue's rest; with none
waiting the block idles (the model's choice, log entry 7). -/
def Obligations.StepTakesTheFront : Prop :=
  (∀ (c : Instr) (rest : List Instr) (s : State), step { s with pending := c :: rest } = exec c { s with pending := rest }) ∧
    ∀ s : State, s.pending = [] → step s = .next s

/-! ## Power, configuration, notices (R179, R184, R186, R188 to R192, R198) -/

/-- R191, R46, R131, R151, R160, R165, R179: power-on and the reset pin have the same effect: the configuration of a good
store or every default, the clock 00:00:00 and UNSET, every list empty, each line as the dial part gives it, every
configured panel PROBING, and RESTARTED in every notice list with STORE_INVALID and CLOCK_FAULT after it in the
planning one where a part fails its check. The scan timer and the first interval run from the running time as it then
stands, whose value is the model's choice (log entry 2). With a panel configured the first dispatch decision is made
in the same step, so that the bus then has its first exchange in flight, the sequence counter 1 and the refresh
pointer past that panel: the model's choice (log entry 5). -/
def Obligations.PowerOnLoadsTheStore : Prop :=
  ∀ s : State,
    ∃ t,
      (s.powered = false → exec .powerOn s = .next t) ∧ (s.powered = true → exec .resetPin s = .next t) ∧
        t.powered = true ∧ t.pending = s.pending ∧ t.store = s.store ∧
        t.inForce = (if s.store.configuration.good then s.store.configuration.contents else Params.default) ∧
        t.pendingCfg = t.inForce ∧ t.time.clock = 0 ∧ t.time.state = .unset ∧ t.time.slew = 0 ∧ t.time.holdover = 0 ∧
        t.table.entries = [] ∧ t.tracker.records = [] ∧ t.tracker.closed = [] ∧ t.cues.list = [] ∧
        (∀ z ∈ t.cues.zones, z.gapEnd = none ∧ z.held = false) ∧
        t.wall.posted = [] ∧ t.wall.mode = .normal ∧ t.wall.edition = 0 ∧ t.wall.rowMap = [] ∧ t.wall.current = none ∧
        t.wall.count = 0 ∧ t.bus.urgent = [] ∧
        (∀ a, 1 ≤ a → a ≤ 60 →
          ∃ q, t.panel? a = some q ∧ q.role = t.inForce.settledRole a ∧
            q.state = (if t.inForce.settledRole a = .none then .absent else .probing) ∧ q.acked = none ∧
            q.ackedLevel = none ∧ q.ec = 0 ∧ q.goodRun = 0 ∧ q.overtemp = false ∧ q.lastServed = none ∧
            q.zone = t.inForce.panelZones.getD (a - 1) 1 ∧ q.addressed = false ∧ q.errored = false ∧
            (q.role ≠ .none → 1 ≤ q.zone → q.zone ≤ 4 → q.desiredLevel = min t.inForce.ceiling 15)) ∧
        t.sense.converter = .idle ∧ t.sense.queue = [] ∧ t.sense.position = none ∧
        t.sense.scanDue = t.runTime + t.inForce.scanPeriod ∧
        t.sense.channels =
          ((List.range 8).map fun n =>
            { no := n, zone := t.inForce.lightZones.getD n 0, faultyRun := 0, goodRun := 0, fault := false
              reading := none }) ∧
        ((∀ a, 1 ≤ a → a ≤ 60 → t.inForce.settledRole a = .none) →
          t.bus.seq = 0 ∧ t.bus.pointer = 1 ∧ t.bus.exchange = none) ∧
        (∀ a, 1 ≤ a → a ≤ 60 → t.inForce.settledRole a ≠ .none →
          (∀ b, 1 ≤ b → b < a → t.inForce.settledRole b = .none) →
            t.bus.seq = 1 ∧ t.bus.pointer = (if a = 60 then 1 else a + 1) ∧
              ∃ x, t.bus.exchange = some x ∧ x.addr = a ∧ x.seq = 1 ∧ x.urgent = none) ∧
        t.bus.intervalEnd = t.runTime + 1000 * t.inForce.interval ∧
        (∀ z ∈ t.sense.zones, z.level = t.inForce.ceiling ∧ z.target = 15) ∧
        (∀ n : Fin 4,
          ∃ l, t.line? n = some l ∧ l.impulse = none ∧ l.result = none ∧ l.nextAt = none ∧ l.deferred = false ∧
            l.pendingDial = none ∧
            (∀ d, s.store.dials.good = true → s.store.dials.contents[n.val]? = some d →
              l.dial = d.dial ∧ l.polarity = d.polarity ∧ l.inUse = d.inUse ∧ l.missed = 0 ∧
                l.state = if d.inUse then .paused else .off) ∧
            (s.store.dials.good = false →
              l.dial = 0 ∧ l.polarity = .pos ∧ l.inUse = true ∧ l.missed = 3 ∧ l.state = .fault)) ∧
        (∀ p : PortId,
          (t.port p).live = true ∧ (t.port p).silence = 0 ∧ (t.port p).buffer = [] ∧ (t.port p).service = .idle ∧
            (t.port p).reply = none ∧ (t.port p).overflow = false ∧ (t.port p).attention = true) ∧
        (t.port .signalling).notices = [⟨.restarted, .absent, 0⟩] ∧
        (t.port .announcement).notices = [⟨.restarted, .absent, 0⟩] ∧
        (t.port .planning).notices =
          [⟨.restarted, .absent, 0⟩] ++
            (if s.store.configuration.good then [] else [⟨.storeInvalid, .absent, 0⟩]) ++
            if s.store.dials.good then []
            else
              [⟨.clockFault, .line 0, 0⟩, ⟨.clockFault, .line 1, 0⟩, ⟨.clockFault, .line 2, 0⟩,
                ⟨.clockFault, .line 3, 0⟩]

/-- R191: a loss of power keeps the store but for a part whose write it cuts short, which fails its check; the other
part keeps its contents. What is cut short reaches the model with the command (log entry 13). -/
def Obligations.PowerLossKeepsTheStore : Prop :=
  ∀ (s : State) (cut : Option StorePart), s.powered = true →
    ∃ t, exec (.powerLoss cut) s = .next t ∧ t.powered = false ∧ t.pending = s.pending ∧
      (cut ≠ some .configuration → t.store.configuration = s.store.configuration) ∧
      (cut ≠ some .dial → t.store.dials = s.store.dials) ∧
      (cut = some .configuration → t.store.configuration.good = false) ∧
      (cut = some .dial → t.store.dials.good = false)

/-- R190: CSAV writes the timing values in force and the pending structural values, with a good check, before its
reply; it changes no value in force, applies no pending value and leaves the dial part; repeated, it writes the same
values again. -/
def Obligations.CsavWritesTheConfiguration : Prop :=
  ∀ (s : State) (p : PortId) (seq : Octet), s.Taking p seq .csav →
    ∃ t, exec (.csav p) s = .next t ∧ s.Answered t p seq .csav (.accept .none) ∧
      t = { s with ports := t.ports, store := { s.store with configuration := t.store.configuration } } ∧
      t.store.configuration.good = true ∧
      (∀ n row, paramRow n = some row →
        t.store.configuration.contents.value n = (if row.structural then s.pendingCfg else s.inForce).value n) ∧
      ∀ (u v : State) (q : PortId) (seq' : Octet), u.inForce = s.inForce → u.pendingCfg = s.pendingCfg →
        u.Taking q seq' .csav → exec (.csav q) u = .next v → v.store.configuration = t.store.configuration

/-- R192, R131, R162: RSET applies the pending structural values over the timing values in force, empties the picture,
the wall, the notice lists and the urgent list, puts every panel to its reset values under its new role, zone and
level, and keeps the clock, the lines, the store and the links. A light channel whose assignment changed takes the
values of power-on, the others keep their record, and a light conversion is abandoned where a check is not. -/
def Obligations.RsetClearsThePicture : Prop :=
  ∀ (s : State) (p : PortId) (seq : Octet), s.Taking p seq .rset →
    ∃ t, exec (.rset p) s = .next t ∧ s.Answered t p seq .rset (.accept .none) ∧
      (∀ n row, paramRow n = some row →
        t.inForce.value n = (if row.structural then s.pendingCfg else s.inForce).value n) ∧
      t.pendingCfg = t.inForce ∧ t.time = s.time ∧ t.lines = s.lines ∧ t.store = s.store ∧ t.pending = s.pending ∧
      t.table.entries = [] ∧ t.tracker.records = [] ∧ t.tracker.closed = [] ∧ t.cues.list = [] ∧
      (∀ z ∈ t.cues.zones, z.gapEnd = none ∧ z.held = false) ∧
      t.wall.posted = [] ∧ t.wall.mode = .normal ∧ t.wall.current = none ∧ t.wall.count = s.wall.count ∧
      t.wall.edition = s.wall.edition ∧ t.bus.urgent = [] ∧
      (∀ a, 1 ≤ a → a ≤ 60 →
        ∃ q, t.panel? a = some q ∧ q.role = t.inForce.settledRole a ∧
          q.state = (if t.inForce.settledRole a = .none then .absent else .probing) ∧
          q.zone = t.inForce.panelZones.getD (a - 1) 1 ∧ q.acked = none ∧ q.ackedLevel = none ∧ q.ec = 0 ∧
          q.goodRun = 0 ∧ q.addressed = false ∧ q.errored = false ∧ q.overtemp = false ∧ q.lastServed = none ∧
          (q.role ≠ .none → q.desiredLevel = min (s.zoneLevel q.zone) 15) ∧
          (s.bus.exchange ≠ none ∨ (∀ x, t.bus.exchange = some x → x.addr ≠ a) →
            q.sent = none ∧ q.sentLevel = none)) ∧
      t.wall.rowMap = [] ∧ t.wall.items = [] ∧ t.wall.dwell = none ∧
      (∀ x, s.bus.exchange = some x → t.bus.exchange = some { x with rset := true }) ∧
      (∀ k ∈ s.sense.channels,
        ∃ k' ∈ t.sense.channels, k'.no = k.no ∧ k'.zone = t.inForce.lightZones.getD k.no 0 ∧ k'.reading = none ∧
          (k'.zone = k.zone → k'.faultyRun = k.faultyRun ∧ k'.goodRun = k.goodRun ∧ k'.fault = k.fault) ∧
          (k'.zone ≠ k.zone → k'.faultyRun = 0 ∧ k'.goodRun = 0 ∧ k'.fault = false)) ∧
      (∀ n threshold, s.sense.converter = .check n threshold → t.sense.converter = s.sense.converter) ∧
      (∀ c, s.sense.converter = .light c → s.SenseOk → t.sense.converter = .idle) ∧
      t.sense.position = none ∧ t.sense.queue = s.sense.queue ∧ t.sense.zones = s.sense.zones ∧
      t.sense.scanDue = s.sense.scanDue ∧
      ∀ q : PortId,
        (t.port q).notices = [⟨.restarted, .port .planning, s.time.clock⟩] ∧ (t.port q).overflow = false ∧
          (t.port q).attention = true

/-- R189, R198, R41, R43, R73, R78, R95, R121, R147, R161, R177: a value is brought to the nearest of its parameter's
range, the lower of two equally near. CONF puts it into the pending copy, and for a timing parameter into the
configuration in force, and no other parameter moves; the reply names the parameter, its class and the value held.
Within the CONF the confirm counts are capped, the entries whose lateness class changed count a revision, the
diversion holds are tested, the WAITING cues of a lead take their due afresh, the delay items of the rotation are
re-formed, and the panels at or above a lowered T go FAILED with a notice each, the first of them, of the lowest
address (log entry 37), with the waivers of its failure. A stale, holdover or silence limit waits for the next running
second (log entry 8). Which parameters act within the CONF, and that at every other number the lines, the sensing
unit, the cues, the entries and the panel records stand, is the model's reading (log entry 25). A number that the
table does not give is BAD_FIELD with index 1 and changes nothing. -/
def Obligations.ConfSetsOneParameter : Prop :=
  (∀ (n : Nat) (row : ParamRow) (v : Nat), paramRow n = some row →
    row.range.holds (row.range.nearest v) = true ∧
      ∀ w, row.range.holds w = true →
        (v - row.range.nearest v) + (row.range.nearest v - v) ≤ (v - w) + (w - v) ∧
          ((v - row.range.nearest v) + (row.range.nearest v - v) = (v - w) + (w - v) → row.range.nearest v ≤ w)) ∧
  ∀ (s : State) (p : PortId) (seq : Octet) (f : ConfFields), s.Taking p seq (.conf f) →
    (∀ row, paramRow f.number = some row → s.ConfigOk →
      ∃ t, exec (.conf p) s = .next t ∧
        s.Answered t p seq (.conf f)
          (.accept (.parameter f.number row.structural (row.range.nearest f.value))
            (clamped := row.range.nearest f.value ≠ f.value)) ∧
        t.pendingCfg.value f.number = row.range.nearest f.value ∧
        (row.structural = false → t.inForce.value f.number = row.range.nearest f.value) ∧
        (row.structural = true → t = { s with ports := t.ports, pendingCfg := t.pendingCfg }) ∧
        (∀ m row', m ≠ f.number → paramRow m = some row' →
          t.pendingCfg.value m = s.pendingCfg.value m ∧ t.inForce.value m = s.inForce.value m) ∧
        t.time =
          (if f.number ∈ [304, 321, 391, 392, 393] then
            { s.time with limitsMoved := f.number :: s.time.limitsMoved }
          else s.time) ∧
        t.lines = s.lines ∧ t.sense = s.sense ∧
        t.store = s.store ∧ t.wall.board = s.wall.board ∧
        (f.number = 301 →
          t.table.entries =
            s.table.entries.map fun e =>
              { e with filter := { e.filter with k := min e.filter.k (row.range.nearest f.value) } }) ∧
        (f.number = 303 → s.TableOk → ∀ e ∈ s.table.entries, s.openRecord? e.run = none →
          (t.entry? e.run).map (·.rev) =
            some
              (if e.state ≠ .retiring ∧ ¬(s.inForce.lateness ≤ e.dd ↔ row.range.nearest f.value ≤ e.dd) then e.rev + 1
              else e.rev)) ∧
        (f.number = 361 → s.PanelsOk → ∀ a q, s.panel? a = some q →
          (t.panel? a).map Panel.record =
            some
              (if q.state = .active ∧ row.range.nearest f.value ≤ q.ec then
                { q.record with state := .failed, ec := 0, goodRun := 0 }
              else q.record) ∧
          (q.state = .active → row.range.nearest f.value ≤ q.ec →
            (⟨.panelFailed, .panel a, s.time.clock⟩ ∈ (t.port .planning).notices ∨
                (t.port .planning).overflow = true) ∧
              ((∀ b ∈ s.bus.panels, b.addr < a → b.state = .active → b.ec < row.range.nearest f.value) →
                s.WaivedBy t a))) ∧
        (f.number = 361 → s.wall.mode ≠ .normal → t.tracker = s.tracker) ∧
        (f.number = 332 →
          (t.tracker.records.map fun r => (r.no, r.diverted)) =
            s.tracker.records.map fun r =>
              (r.no,
                r.diverted.map fun d =>
                  { d with ended := d.ended || decide (d.minute + row.range.nearest f.value ≤ s.now) })) ∧
        (∀ kind, (f.number = 341 ∧ kind = CueKind.platform) ∨ (f.number = 342 ∧ kind = CueKind.final) →
          t.cues.list =
            s.cues.list.map fun c =>
              match s.entry? c.run with
              | some e =>
                if c.kind = kind ∧ c.state = .waiting then
                  { c with
                    due := e.exp - row.range.nearest f.value
                    state := if e.exp - row.range.nearest f.value ≤ s.now then .due else .waiting }
                else c
              | none => c) ∧
        (f.number ≠ 341 → f.number ≠ 342 → t.cues = s.cues) ∧
        (f.number = 343 → ∀ run, Item.delay run ∈ t.wall.items ↔
          ∃ e ∈ s.displayed, e.run = run ∧ e.awaiting = true ∧ row.range.nearest f.value ≤ e.dd) ∧
        (f.number ≠ 301 → t.facts = s.facts) ∧ (f.number ≠ 361 → t.records = s.records)) ∧
    (paramRow f.number = none →
      exec (.conf p) s = .next (s.answerTel p ((Telegram.conf f).tel seq) (.badField 1)))

/-- R186: POLL returns the four oldest notices of its own port's list with the more and overflow flags, takes them off
the list and clears the overflow flag; nothing else changes but attention lines. -/
def Obligations.PollFetchesTheOldest : Prop :=
  ∀ (s : State) (p : PortId) (seq : Octet), s.Taking p seq .poll →
    ∃ t, exec (.poll p) s = .next t ∧
      s.Answered t p seq .poll
        (.accept (.notices ((s.port p).notices.take 4) (4 < (s.port p).notices.length) (s.port p).overflow)) ∧
      (t.port p).notices = (s.port p).notices.drop 4 ∧ (t.port p).overflow = false ∧
      (∀ q, q ≠ p → t.port q = { s.port q with attention := (t.port q).attention }) ∧
      (t.port p).attention = t.wantsAttention p ∧ t = { s with ports := t.ports }

/-- R184, R33: a LIVE port whose silence timer stands at its limit becomes SILENT, with PORT_SILENT to the other two
ports; at the signalling port every prediction filter is cleared, and an entry in service that held a prediction runs
stages 3 to 6 and its transitions, with one revision where something shown changed (R34, R38); no entry leaves the
table and no other fact of any entry moves. At another port the picture is untouched. The notice comes ahead of what
the clearing posts (log entry 43). R55: a holdover timer at its limit in SET puts the time state into HOLDOVER, with
HOLDOVER to the planning port. While a limit that a CONF has set waits for the next running second (log entry 8;
RunningSecondMovesTheClock says what that second does), the expiry does nothing. A command whose event does not arise
in the state changes nothing (the model's choice, log entry 4). -/
def Obligations.SilenceAndHoldoverAreReported : Prop :=
  (∀ (s : State) (p : PortId), s.powered = true → (s.port p).live = true →
    s.inForce.silenceLimit p ≤ (s.port p).silence →
      (s.time.limitsMoved.contains (silenceParam p) = false →
        ∃ t, exec (.silenceExpiry p) s = .next t ∧ t.link p = { s.link p with live := false } ∧
          (∀ q, q ≠ p → t.link q = s.link q ∧ s.Noticed t q ⟨.portSilent, .port p, s.time.clock⟩) ∧
          (s.port p).notices <+: (t.port p).notices ∧ s.Beside t ∧
          (p = .signalling → s.TableOk → s.FiltersCleared t) ∧
          (p ≠ .signalling → t.facts = s.facts ∧ t.cues = s.cues)) ∧
        (s.time.limitsMoved.contains (silenceParam p) = true → exec (.silenceExpiry p) s = .next s)) ∧
    (∀ (s : State) (p : PortId), (s.port p).live = false ∨ (s.port p).silence < s.inForce.silenceLimit p →
      exec (.silenceExpiry p) s = .next s) ∧
    ∀ s : State, s.powered = true →
      (s.time.state = .set → 60 * s.inForce.holdover ≤ s.time.holdover → s.time.limitsMoved.contains 321 = false →
          ∃ t, exec .holdoverExpiry s = .next t ∧
            t = { s with time := { s.time with state := .holdover }, ports := t.ports } ∧
            (∀ q, t.link q = s.link q) ∧
            (t.port .planning).notices =
              ((s.port .planning).post ⟨.holdover, .port s.inForce.timePort, s.time.clock⟩).notices ∧
            ∀ q, q ≠ .planning → (t.port q).notices = (s.port q).notices) ∧
        (s.time.state ≠ .set ∨ s.time.holdover < 60 * s.inForce.holdover ∨
            s.time.limitsMoved.contains 321 = true → exec .holdoverExpiry s = .next s)


/-! ## The departure table (R1 to R23, R66 to R69, R76, R81) -/

/-- R14, R86, R88, R91: PLAN creates the entry its fields give, LISTED, or BOARDING or CLOSED where the clock says so
at once, with revision 0, or 1 after such a transition; the reply carries that revision, its PLATFORM and FINAL cues
are made, and nothing but the picture changes (R83, R94: in a list of 32 the PLATFORM cue, and then the FINAL cue,
displaces the WAITING cue of the greatest priority number, the latest due and the latest creation, or is dropped, each
with CUE_DROPPED). Of a list of calling points the first twelve are judged (log entry 18). -/
def Obligations.PlanCreatesTheEntry : Prop :=
  ∀ (s : State) (p : PortId) (seq : Octet) (f : PlanFields), s.Taking p seq (.plan f) → s.TableOk →
    f.run ≠ 0 → f.destination ≠ [] → (∀ c ∈ f.calls.take 12, c ≠ []) → f.hh ≤ 23 → f.mm ≤ 59 → f.day ≤ 1 →
    f.platform ≤ s.inForce.platforms → s.time.state ≠ .unset → s.entry? f.run = none → s.table.entries.length < 96 →
    ∀ sched : Int, sched = ((f.hh * 60 + f.mm : Int) - s.inForce.dayStart) % 1440 + 1440 * f.day →
      s.now - s.inForce.overdue ≤ sched →
      ∃ t e, exec (.plan p) s = .next t ∧ t.entry? f.run = some e ∧
        s.Answered t p seq (.plan f)
          (.accept (.revision e.rev)
            (clamped :=
              (fixHeadcode f.headcode).2 || (fixText 24 f.destination).2 || (fixCalls f.calls).2)) ∧
        e.facts =
          { run := f.run, headcode := (fixHeadcode f.headcode).1, destination := (fixText 24 f.destination).1
            calls := (fixCalls f.calls).1, sched := sched, planned := if f.platform = 0 then none else some f.platform
            assigned := none, opDelay := none, filter := ⟨none, none, 0, 0⟩, dd := 0, exp := sched
            state :=
              if sched ≤ s.now then .closed
              else if f.platform ≠ 0 ∧ sched - s.inForce.boarding ≤ s.now then .boarding
              else .listed
            stateTime := none, reason := none, rev := 0, announced := none, lastDelay := 0, openRec := none } ∧
        (s.openRecord? f.run = none → e.rev = if e.state = .listed then 0 else 1) ∧
        (s.CuesOk → s.cues.list.length ≤ 28 → s.CuesFollow t none e) ∧
        (s.ConfigOk → s.CuesOk → (∀ c ∈ s.cues.list, c.run ≠ f.run) →
          (f.platform = 0 ∨ e.state = .closed → t.cues.list = s.cues.list) ∧
            (f.platform ≠ 0 → e.state = .listed →
              ∃ lost,
                CueCalled s.now .platform f.run [0, f.platform] (sched - s.inForce.platformLead) s.cues.list t.cues.list
                    lost ∧
                  s.RunsDropped t lost.toList) ∧
            (e.state = .boarding →
              ∃ l lost lost',
                CueCalled s.now .platform f.run [0, f.platform] (sched - s.inForce.platformLead) s.cues.list l lost ∧
                  CueCalled s.now .final f.run [f.platform] (sched - s.inForce.finalLead) l t.cues.list lost' ∧
                  s.RunsDropped t (lost.toList ++ lost'.toList))) ∧
        s.OthersKept t f.run ∧ s.Beside t ∧ (s.CuesOk → t.speaking = s.speaking)

/-- R13, R14, R195: a PLAN with a field out of range is refused BAD_FIELD with the index of the first such field
(PlanFields.faults); one whose fields are in range is refused TIME_UNSET, DUPLICATE, TABLE_FULL or PAST, by the first
of them that holds. Refused, it changes nothing. Of a list of calling points the first twelve are judged (log entry
18); a run of 0 is index 1 (log entry 16). -/
def Obligations.PlanIsRefusedInOrder : Prop :=
  ∀ (s : State) (p : PortId) (seq : Octet) (f : PlanFields), s.Taking p seq (.plan f) →
    (∀ i rest, f.faults s.inForce = i :: rest →
      exec (.plan p) s = .next (s.answerTel p ((Telegram.plan f).tel seq) (.badField i))) ∧
    (f.faults s.inForce = [] →
    ∀ sched : Int, sched = ((f.hh * 60 + f.mm : Int) - s.inForce.dayStart) % 1440 + 1440 * f.day →
      ∀ code : Code,
        (s.time.state = .unset ∧ code = .timeUnset) ∨
          (s.time.state ≠ .unset ∧ (s.entry? f.run).isSome = true ∧ code = .duplicate) ∨
          (s.time.state ≠ .unset ∧ s.entry? f.run = none ∧ 96 ≤ s.table.entries.length ∧ code = .tableFull) ∨
          (s.time.state ≠ .unset ∧ s.entry? f.run = none ∧ s.table.entries.length < 96 ∧
            sched < s.now - s.inForce.overdue ∧ code = .past) →
        exec (.plan p) s = .next (s.answerTel p ((Telegram.plan f).tel seq) (.refuse code)))

/-- R13, R15 to R21, R27, R195: a telegram that names a run is refused BAD_FIELD with the index of the first of its
fields out of range (Telegram.faults); with its fields in range it is refused NO_ENTRY where the run is not in the
table and WRONG_STATE in the states its item gives. Refused, it changes nothing. Of a list of calling points the first
twelve are judged (log entry 18); a run of 0 is index 1 (log entry 16); of several failing fields of AMND the lowest
is named (log entry 19). -/
def Obligations.RunTelegramsAreRefused : Prop :=
  ∀ (s : State) (p : PortId) (seq : Octet) (tg : Telegram) (run : Nat) (states : List EntryState),
    s.Taking p seq tg → tg.named? = some (run, states) →
      (∀ i rest, tg.faults s.inForce = i :: rest →
        exec (tg.kind.command p) s = .next (s.answerTel p (tg.tel seq) (.badField i))) ∧
      (tg.inRange s.inForce = true → s.entry? run = none →
        exec (tg.kind.command p) s = .next (s.answerTel p (tg.tel seq) (.refuse .noEntry))) ∧
      ∀ e, tg.inRange s.inForce = true → s.entry? run = some e → e.state ∉ states →
        exec (tg.kind.command p) s = .next (s.answerTel p (tg.tel seq) (.refuse .wrongState))

/-- R6, R7: the transitions tested after a change of displayed platform or A: CLOSED when now has reached A, BOARDING
when the window is open and a platform is shown, back to LISTED when the platform of a BOARDING entry is blank, and
LISTED still where the window is not open or no platform is shown; nothing but the state moves, no state moves where
neither changed, and no other state moves at all. -/
def Obligations.TransitionsFollowTheClock : Prop :=
  ∀ (s : State) (old new : Entry),
    s.retest old new = { new with state := (s.retest old new).state } ∧
      (old.displayed = new.displayed ∧ old.exp = new.exp → (s.retest old new).state = new.state) ∧
      (¬(old.displayed = new.displayed ∧ old.exp = new.exp) →
        (new.state = .listed ∨ new.state = .boarding → new.exp ≤ s.now → (s.retest old new).state = .closed) ∧
          (new.state = .listed → s.now < new.exp → new.displayed ≠ none → new.exp - s.inForce.boarding ≤ s.now →
            (s.retest old new).state = .boarding) ∧
          (new.state = .listed → s.now < new.exp → (new.displayed = none ∨ s.now < new.exp - s.inForce.boarding) →
            (s.retest old new).state = .listed) ∧
          (new.state = .boarding → s.now < new.exp → new.displayed = none → (s.retest old new).state = .listed) ∧
          (new.state = .boarding → s.now < new.exp → new.displayed ≠ none → (s.retest old new).state = .boarding) ∧
          (new.state ≠ .listed → new.state ≠ .boarding → (s.retest old new).state = new.state))

/-- R28: predictions round to the nearest whole minute, a half going up, at least 0 and at most 720; stage 2 compares
only the rounded minutes, so two predictions that round alike act alike. -/
def Obligations.PredictionsRoundToMinutes : Prop :=
  (∀ n : Int, n < 30 → roundPrediction n = 0) ∧
    (∀ n : Int, 30 ≤ n → (roundPrediction n : Int) = min 720 ((n + 30) / 60)) ∧
    ∀ (s : State) (e : Entry) (a b : Int), roundPrediction a = roundPrediction b → s.predict e a = s.predict e b

/-- R35 to R37, R39: stages 3 to 5. FIX takes Do at once; otherwise the greater source is an increase taken at once,
or a decrease taken when it reaches H and held when it does not; A is As plus Dd wherever Dd moves; nothing else
moves. -/
def Obligations.DelayStagesFollowTheRules : Prop :=
  ∀ (h : Nat) (e : Entry), ∃ d : Nat,
    e.recompute h = { e with dd := d, exp := (e.recompute h).exp } ∧
      (d ≠ e.dd → (e.recompute h).exp = e.sched + d) ∧ (d = e.dd → e.recompute h = e) ∧
      (∀ o, e.opDelay = some o → o.fix = true → d = o.minutes) ∧
      ∀ raw : Nat, (∀ o, e.opDelay = some o → o.fix = false) →
        (∀ o, e.opDelay = some o → o.minutes ≤ raw) → (∀ m, e.filter.dp = some m → m ≤ raw) →
        (raw = 0 ∨ (∃ o, e.opDelay = some o ∧ o.minutes = raw) ∨ e.filter.dp = some raw) →
          (e.dd < raw → d = raw) ∧ (raw ≤ e.dd → h ≤ e.dd - raw → d = raw) ∧
            (raw ≤ e.dd → e.dd - raw < h → d = e.dd)

/-- R15, R86 to R91: AMND replaces the fields given, forms A from the new As, tests the transitions, and counts one
revision where something shown changed; the cues follow; an amended clock in the past is refused PAST and changes
nothing. Of a list of calling points the first twelve are judged (log entry 18). -/
def Obligations.AmndReplacesTheFieldsGiven : Prop :=
  ∀ (s : State) (p : PortId) (seq : Octet) (f : AmndFields) (e new : Entry) (sched : Int),
    s.Taking p seq (.amnd f) → s.TableOk →
    f.inRange s.inForce = true → s.entry? f.run = some e → e.inService = true →
    sched =
      (match f.clock with
      | some c => ((c.1 * 60 + c.2 : Int) - s.inForce.dayStart) % 1440 + 1440 * f.day.getD 0
      | none => e.sched) →
    new =
      { e with
        headcode := match f.headcode with
          | some h => (fixHeadcode h).1
          | none => e.headcode
        destination := match f.destination with
          | some d => (fixText 24 d).1
          | none => e.destination
        calls := match f.calls with
          | some l => (fixCalls l).1
          | none => e.calls
        sched := sched
        exp := sched + e.dd
        planned := match f.platform with
          | some n => if n = 0 then none else some n
          | none => e.planned } →
    (f.clock ≠ none → sched < s.now - s.inForce.overdue →
        exec (.amnd p) s = .next (s.answerTel p ((Telegram.amnd f).tel seq) (.refuse .past))) ∧
      (f.clock = none ∨ s.now - s.inForce.overdue ≤ sched →
        ∃ t x untracked, exec (.amnd p) s = .next t ∧ t.entry? f.run = some x ∧
          s.Answered t p seq (.amnd f)
            (.accept (.revision x.rev)
              (clamped :=
                f.headcode.any (fun h => (fixHeadcode h).2) || f.destination.any (fun d => (fixText 24 d).2) ||
                  f.calls.any fun l => (fixCalls l).2)
              (untracked := untracked)) ∧
          x.facts = (s.retest e new).facts ∧
          (s.openRecord? f.run = none → e.displayed = new.displayed → untracked = false ∧
            x.rev = if e.sameShown (s.retest e new) then e.rev else e.rev + 1) ∧
          (e.displayed ≠ new.displayed → (e.displayed = none → s.openRecord? f.run = none) → x.rev = e.rev + 1) ∧
          s.CuesHanded t e x ∧ s.OthersKept t f.run ∧ s.Beside t ∧ (s.CuesOk → t.speaking = s.speaking))

/-- R16, R38, R86 to R91: DLAY sets or clears Do with FIX and the reason, runs stages 3 to 6 and the transitions, and
counts one revision where Dd, the state or the reason changed; the cues follow, a DELAY cue that finds the list full
being dropped with CUE_DROPPED (R94). The minutes of a CLEAR are not read (log entry 20). -/
def Obligations.DlaySetsTheOperatorDelay : Prop :=
  ∀ (s : State) (p : PortId) (seq : Octet) (f : DlayFields) (e new : Entry), s.Taking p seq (.dlay f) → s.TableOk →
    f.run ≠ 0 → f.mode ≤ 2 → s.entry? f.run = some e → e.inService = true →
    new =
      Entry.recompute s.inForce.hysteresis
        { e with
          opDelay := if f.mode = 2 then none else some { minutes := min 720 f.minutes, fix := f.mode = 1 }
          reason :=
            if f.reason ≠ [] then some (fixText 40 f.reason).1 else if f.mode = 2 then none else e.reason } →
      ∃ t x, exec (.dlay p) s = .next t ∧ t.entry? f.run = some x ∧
        s.Answered t p seq (.dlay f)
          (.accept (.revision x.rev) (clamped := (f.mode ≠ 2 ∧ 720 < f.minutes) || (fixText 40 f.reason).2)) ∧
        x.facts = (s.retest e new).facts ∧
        (s.openRecord? f.run = none → x.rev = if e.sameShown (s.retest e new) then e.rev else e.rev + 1) ∧
        s.CuesHanded t e x ∧
        (s.CuesOk → (∀ c ∈ s.cues.list, c.run ≠ f.run) → e.state = x.state → e.dd ≠ x.dd ∨ e.exp ≠ x.exp →
          x.CallsDelay s.inForce → ¬x.CallsPlatform →
            ∃ lost,
              CueCalled s.now .delay f.run (0 :: x.displayed.toList) s.now s.cues.list t.cues.list lost ∧
                s.RunsDropped t lost.toList) ∧
        s.OthersKept t f.run ∧ s.Beside t ∧ (s.CuesOk → t.speaking = s.speaking)

/-- R17, R76, R92, R94, R128: CANC puts an entry in service into CANCELLED at now with one revision, voids its OPEN
record with CHANGE_VOID, takes every WAITING and DUE cue of the run but the CANCEL cue off the list and marks the
TAKEN ones, and appends the entry's panels to the urgent list; with room in the list the CANCEL cue stands in it. In a
full one the WAITING cue of the greatest priority number, then the latest due, then the latest creation gives its
place with CUE_DROPPED, or the CANCEL cue is dropped so. For an entry already CANCELLED it replaces the reason alone. -/
def Obligations.CancCancelsTheEntry : Prop :=
  ∀ (s : State) (p : PortId) (seq : Octet) (f : CancFields) (e : Entry), s.Taking p seq (.canc f) → s.TableOk →
    f.run ≠ 0 → s.entry? f.run = some e → e.state ≠ .departed → e.state ≠ .retiring →
    ∀ reason, reason = (if f.reason = [] then e.reason else some (fixText 40 f.reason).1) →
      ∃ t x, exec (.canc p) s = .next t ∧ t.entry? f.run = some x ∧
        s.Answered t p seq (.canc f) (.accept (.revision x.rev) (clamped := (fixText 40 f.reason).2)) ∧
        (e.state ≠ .cancelled →
          x.facts = { e.facts with state := .cancelled, stateTime := some s.now, reason := reason } ∧
            x.rev = e.rev + 1 ∧ s.Voided t f.run ∧ s.UrgentGained t f.run e.displayed ∧
            (∀ c ∈ t.cues.list, c.run = f.run → c.kind ≠ .cancel → c.isTaken = true ∧ c.pendDrop = true) ∧
            (s.cues.list.length < 32 →
              ∃ c ∈ t.cues.list, c.Reached .cancel f.run (0 :: e.displayed.toList) ∧ c.state ≠ .waiting) ∧
            (s.CuesOk → s.cues.list.length = 32 → (∀ c ∈ s.cues.list, c.run ≠ f.run) →
              (∀ before d after, s.cues.list = before ++ d :: after → d.state = .waiting → 2 < d.kind.priority →
                (∀ b ∈ before, b.state = .waiting →
                  b.kind.priority < d.kind.priority ∨ (b.kind.priority = d.kind.priority ∧ b.due ≤ d.due)) →
                (∀ b ∈ after, b.state = .waiting →
                  b.kind.priority < d.kind.priority ∨ (b.kind.priority = d.kind.priority ∧ b.due < d.due)) →
                  (∃ c, t.cues.list = before ++ after ++ [c] ∧ c.Reached .cancel f.run (0 :: e.displayed.toList) ∧
                    c.state = .due ∧ c.attempts = 0) ∧
                  ∀ q, q = .planning ∨ q = .announcement → s.Noticed t q ⟨.cueDropped, .run d.run, s.time.clock⟩) ∧
              ((∀ c ∈ s.cues.list, c.state = .waiting → c.kind.priority ≤ 2) →
                t.cues.list = s.cues.list ∧
                  ∀ q, q = .planning ∨ q = .announcement →
                    s.Noticed t q ⟨.cueDropped, .run f.run, s.time.clock⟩))) ∧
        (e.state = .cancelled → x.facts = { e.facts with reason := reason } ∧ t.cues = s.cues ∧
          (s.openRecord? f.run = none → x.rev = if reason = e.reason then e.rev else e.rev + 1)) ∧
        s.OthersKept t f.run ∧ s.Beside t ∧ (s.CuesOk → t.speaking = s.speaking)

/-- R18, R34, R86 to R92: RINS returns a CANCELLED entry to LISTED without state time and reason, runs stages 3 to 6,
tests the transitions, withdraws the CANCEL cue and makes the others that are called for; in service it changes
nothing. -/
def Obligations.RinsReinstatesTheEntry : Prop :=
  ∀ (s : State) (p : PortId) (seq : Octet) (run : Nat) (e : Entry), s.Taking p seq (.rins run) → s.TableOk →
    run ≠ 0 → s.entry? run = some e →
    (e.inService = true →
        exec (.rins p) s = .next (s.answerTel p ((Telegram.rins run).tel seq) (.accept (.revision e.rev)))) ∧
      (e.state = .cancelled → ∀ new : Entry,
        new = Entry.recompute s.inForce.hysteresis { e with state := .listed, stateTime := none, reason := none } →
          ∃ t x, exec (.rins p) s = .next t ∧ t.entry? run = some x ∧
            s.Answered t p seq (.rins run) (.accept (.revision x.rev)) ∧
            x.facts =
              { new.facts with
                state :=
                  if new.exp ≤ s.now then .closed
                  else if new.displayed ≠ none ∧ new.exp - s.inForce.boarding ≤ s.now then .boarding
                  else .listed } ∧
            (s.openRecord? run = none → x.rev = e.rev + 1) ∧
            t.Withdrawn .cancel run ∧ s.CuesHanded t e x ∧
            s.OthersKept t run ∧ s.Beside t ∧ (s.CuesOk → t.speaking = s.speaking))

/-- R19, R4, R86 to R91: PLAT sets or withdraws the assigned platform and tests the transitions; a changed displayed
platform counts one revision and the cues follow; where it stays as it was there is no revision and no other block is
touched. -/
def Obligations.PlatAssignsThePlatform : Prop :=
  ∀ (s : State) (p : PortId) (seq : Octet) (f : PlatFields) (e new : Entry), s.Taking p seq (.plat f) → s.TableOk →
    f.run ≠ 0 → f.platform ≤ s.inForce.platforms → s.entry? f.run = some e → e.inService = true →
    new = { e with assigned := if f.platform = 0 then none else some f.platform } →
      ∃ t x untracked, exec (.plat p) s = .next t ∧ t.entry? f.run = some x ∧
        s.Answered t p seq (.plat f) (.accept (.revision x.rev) (untracked := untracked)) ∧
        x.facts = (s.retest e new).facts ∧
        (e.displayed = new.displayed → x = new ∧ untracked = false ∧ t.tracker = s.tracker ∧ t.cues = s.cues ∧
          t.wall = s.wall ∧ t.bus = s.bus) ∧
        (e.displayed ≠ new.displayed → (e.displayed = none → s.openRecord? f.run = none) → x.rev = e.rev + 1) ∧
        s.CuesHanded t e x ∧ s.OthersKept t f.run ∧ s.Beside t ∧ (s.CuesOk → t.speaking = s.speaking)

/-- R61, R62, R65 to R73, R128: a PLAT, also one that withdraws an assignment, or an AMND that changes the displayed
platform of a published entry opens a change record at the entry's new revision in the lowest free slot, or else that
of the oldest closed record; it supersedes the run's earlier record, keeps the diverted gates whose holds run, appends
the panels concerned to the urgent list, withdraws the PLATFORM cue and calls the CHANGE cue, which in a
full list displaces a WAITING cue or is dropped (R89, R94). In NORMAL
mode the new record, and every other OPEN one, is evaluated against the picture that follows; in another none is, and the
OPEN records of other runs are as they were. With
every slot held by an OPEN record of another run the change is applied untracked, with CHANGE_UNTRACKED ahead of any
other notice to the planning port (log entry 42). A record left by a removed entry of the same run counts as the run's
(log entry 52). -/
def Obligations.PublishedChangeOpensARecord : Prop :=
  ∀ (s : State) (p : PortId) (seq : Octet) (tg : Telegram) (run src dst : Nat) (e new : Entry), s.Taking p seq tg →
    s.TableOk → s.TrackerOk → s.CuesOk → s.entry? run = some e → e.inService = true → tg.inRange s.inForce = true →
    (∃ platform, tg = .plat { run := run, platform := platform } ∧
        new = { e with assigned := if platform = 0 then none else some platform }) ∨
      (∃ f, tg = .amnd f ∧ f.run = run ∧ new = e.amend s.inForce.dayStart f ∧
        (f.clock = none ∨ s.now - s.inForce.overdue ≤ new.sched)) →
    e.displayed = some src → new.displayed = some dst → src ≠ dst → s.Publishes new src →
      ∃ t x clamped untracked, exec (tg.kind.command p) s = .next t ∧ t.entry? run = some x ∧ x.rev = e.rev + 1 ∧
        s.Answered t p seq tg (.accept (.revision x.rev) clamped untracked) ∧
        (s.tracker.records.length < 16 ∨ s.tracker.closed ++ s.openNumbers run ≠ [] → untracked = false ∧
          s.UrgentGained t run (some src) ∧
          (∃ r ∈ t.tracker.records, r.run = run ∧ r.src = src ∧ r.dst = dst ∧ r.state = .opened ∧
            r.r = x.rev ∧ r.announced = false ∧ r.inSpeech = false ∧ r.openedMinute = s.now ∧
            r.openedSecond = s.time.clock % 60 ∧ x.openRec = some r.no ∧
            r.gateReq = (s.gatePanel src).map (·.addr) ∧
            r.diverted =
              ({ platform := src, minute := s.now, ended := false } ::
                (((s.liveRecord? run).map (·.diverted)).getD []).filter fun d =>
                  !d.ended && decide (s.now < d.minute + s.inForce.diversionHold) && d.platform ≠ src &&
                    d.platform ≠ dst).take 4 ∧
            (s.tracker.records.length < 16 →
              (∀ q ∈ s.tracker.records, q.no ≠ r.no) ∧
                (∀ n, 1 ≤ n → n < r.no → ∃ q ∈ s.tracker.records, q.no = n) ∧
                s.tracker.closed ++ s.openNumbers run <+: t.tracker.closed) ∧
            (s.tracker.records.length = 16 → ∀ n rest, s.tracker.closed ++ s.openNumbers run = n :: rest →
              r.no = n ∧ rest <+: t.tracker.closed) ∧
            (∀ q ∈ s.tracker.records, q.run = run → q.live = true → q.no ≠ r.no →
              ∃ q' ∈ t.tracker.records, q'.no = q.no ∧ q'.run = run ∧ q'.state = .superseded) ∧
            (s.cues.list.length < 32 →
              ∃ c ∈ t.cues.list, c.Reached .change run [0, src, dst] ∧ c.state ≠ .waiting ∧ r.cue = some c.number) ∧
            ((∀ c ∈ s.cues.list, c.run ≠ run) → e.state = .listed → x.state = .listed → ¬x.CallsDelay s.inForce →
              (∃ lost,
                CueCalled s.now .change run [0, src, dst] s.now s.cues.list t.cues.list lost ∧
                  s.RunsDropped t lost.toList) ∧
                (∀ c ∈ t.cues.list, c.run = run → r.cue = some c.number) ∧
                ((∀ c ∈ t.cues.list, c.run ≠ run) → r.cue = none)) ∧
            (s.wall.mode = .normal →
              s.RecordJudged t
                { r with rowPart := .pending, gatePart := .pending, displayed := false, degraded := false } r) ∧
            (s.wall.mode ≠ .normal →
              r.rowPart = .pending ∧ r.gatePart = .pending ∧ r.displayed = false ∧ r.degraded = false)) ∧
          (∀ r ∈ t.tracker.records, r.run = run → r.state = .opened → x.openRec = some r.no) ∧
          t.Withdrawn .platform run) ∧
        (s.tracker.records.length = 16 → (∀ r ∈ s.tracker.records, r.isOpen = true ∧ r.run ≠ run) →
          untracked = true ∧ x.openRec = e.openRec ∧
            s.Noticed t .planning ⟨.changeUntracked, .run run, s.time.clock⟩) ∧
        (s.wall.mode = .normal → s.OpenJudged t fun q => q.run ≠ run) ∧
        (s.wall.mode ≠ .normal → ∀ q ∈ s.tracker.records, q.isOpen = true → q.run ≠ run → q ∈ t.tracker.records)

/-- R27, R29 to R31, R86 to R91: PRED moves the candidate and its count, adopts a prediction counted C times,
refreshes an adopted one with no other effect, or withdraws; stages 3 to 6 run at an adoption and at the withdrawal of
a present Dp, with one revision where something shown changed, and the cues follow. The seconds of a WITHDRAW are not
read (log entry 20). -/
def Obligations.PredMovesTheFilter : Prop :=
  ∀ (s : State) (p : PortId) (seq : Octet) (f : PredFields) (e : Entry), s.Taking p seq (.pred f) → s.TableOk →
    f.run ≠ 0 → f.mode ≤ 1 → s.entry? f.run = some e → e.inService = true →
    ∀ m k : Nat, m = roundPrediction (max (-3600) (min 43200 f.seconds)) →
      k = (if e.filter.cand = some m then min s.inForce.confirm (e.filter.k + 1) else 1) →
      ∃ t x, exec (.pred p) s = .next t ∧ t.entry? f.run = some x ∧
        s.Answered t p seq (.pred f)
          (.accept (.revision x.rev) (clamped := f.mode = 0 ∧ (f.seconds < -3600 ∨ 43200 < f.seconds))) ∧
        (f.mode = 0 → k < s.inForce.confirm →
          t.table.entries = updWhere (·.run = f.run) (fun _ => x) s.table.entries ∧
            x = { e with filter := { e.filter with cand := some m, k := k } } ∧ t.cues = s.cues ∧ t.bus = s.bus) ∧
        (f.mode = 0 → k = s.inForce.confirm → e.filter.dp = some m →
          t.table.entries = updWhere (·.run = f.run) (fun _ => x) s.table.entries ∧
            x = { e with filter := { e.filter with cand := some m, k := k, age := 0 } } ∧ t.cues = s.cues ∧
            t.bus = s.bus) ∧
        (f.mode = 0 → k = s.inForce.confirm → e.filter.dp ≠ some m →
          x.facts =
            (s.retest e
              (Entry.recompute s.inForce.hysteresis
                { e with filter := { dp := some m, cand := some m, k := k, age := 0 } })).facts) ∧
        (f.mode = 0 → k = s.inForce.confirm → e.filter.dp ≠ some m → s.openRecord? f.run = none → ∀ new,
          new =
            s.retest e
              (Entry.recompute s.inForce.hysteresis
                { e with filter := { dp := some m, cand := some m, k := k, age := 0 } }) →
            x.rev = if e.sameShown new then e.rev else e.rev + 1) ∧
        (f.mode = 1 →
          x.facts =
            (if e.filter.dp = none then { e with filter := Filter.empty }
            else s.retest e (Entry.recompute s.inForce.hysteresis { e with filter := Filter.empty })).facts) ∧
        (f.mode = 1 → e.filter.dp = none → x.rev = e.rev ∧ t.cues = s.cues ∧ t.bus = s.bus) ∧
        (f.mode = 1 → e.filter.dp ≠ none → s.openRecord? f.run = none → ∀ new,
          new = s.retest e (Entry.recompute s.inForce.hysteresis { e with filter := Filter.empty }) →
            x.rev = if e.sameShown new then e.rev else e.rev + 1) ∧
        s.CuesHanded t e x ∧ s.OthersKept t f.run ∧ s.Beside t ∧ (s.CuesOk → t.speaking = s.speaking)

/-- R20, R21, R76, R86 to R91: RDYS closes an entry in service; DEPT records its departure at now with one revision
and voids its OPEN record with CHANGE_VOID; the cues follow both. Repeated, neither has any effect. -/
def Obligations.RdysAndDeptMoveTheEntry : Prop :=
  ∀ (s : State) (p : PortId) (seq : Octet) (run : Nat) (e : Entry), s.TableOk → run ≠ 0 → s.entry? run = some e →
    (s.Taking p seq (.rdys run) → e.inService = true →
        ∃ t x, exec (.rdys p) s = .next t ∧ t.entry? run = some x ∧
          s.Answered t p seq (.rdys run) (.accept (.revision x.rev)) ∧ x.facts = { e.facts with state := .closed } ∧
          (e.state = .closed → t = s.answerTel p ((Telegram.rdys run).tel seq) (.accept (.revision e.rev))) ∧
          (e.state ≠ .closed → s.openRecord? run = none → x.rev = e.rev + 1) ∧
          s.CuesHanded t e x ∧ s.OthersKept t run ∧ s.Beside t ∧ (s.CuesOk → t.speaking = s.speaking)) ∧
      (s.Taking p seq (.dept run) → e.inService = true →
        ∃ t x, exec (.dept p) s = .next t ∧ t.entry? run = some x ∧
          s.Answered t p seq (.dept run) (.accept (.revision x.rev)) ∧
          x.facts = { e.facts with state := .departed, stateTime := some s.now } ∧ x.rev = e.rev + 1 ∧
          s.Voided t run ∧ s.CuesHanded t e x ∧ s.OthersKept t run ∧ s.Beside t ∧ (s.CuesOk → t.speaking = s.speaking)) ∧
      (s.Taking p seq (.dept run) → e.state = .departed →
        exec (.dept p) s = .next (s.answerTel p ((Telegram.dept run).tel seq) (.accept (.revision e.rev))))

/-- R22, R23: READ from a position or a run returns up to count summaries forward, backward, or the first alone, with
their order positions and the number of entries; fields out of range are BAD_FIELD. It changes nothing. -/
def Obligations.ReadSummarisesTheTable : Prop :=
  ∀ (s : State) (p : PortId) (seq : Octet) (f : ReadFields), s.Taking p seq (.read f) →
    ∃ a, exec (.read p) s = .next (s.answerTel p ((Telegram.read f).tel seq) a) ∧
      (1 < f.startKind → a = .badField 1) ∧
      (f.startKind = 0 → f.start = 0 ∨ 96 < f.start → a = .badField 2) ∧
      (f.startKind = 1 → f.start = 0 → a = .badField 2) ∧
      ((f.startKind = 0 ∧ 1 ≤ f.start ∧ f.start ≤ 96) ∨ (f.startKind = 1 ∧ f.start ≠ 0) →
        ((2 < f.direction ∨ (f.direction = 2 ∧ f.startKind = 0)) → a = .badField 3) ∧
        (f.direction ≤ 1 ∨ (f.direction = 2 ∧ f.startKind = 1) →
          ((f.count = 0 ∨ 4 < f.count) → a = .badField 4) ∧
          (1 ≤ f.count → f.count ≤ 4 →
            ∃ l, a = .accept (.summaries s.table.entries.length l) ∧
              (∀ i, (f.startKind = 0 ∧ i + 1 = f.start) ∨ (f.startKind = 1 ∧ i = s.table.entries.findIdx (·.run = f.start)) →
                l.length =
                    (if s.table.entries.length ≤ i then 0
                    else if f.direction = 0 then min f.count (s.table.entries.length - i)
                    else if f.direction = 1 then min f.count (i + 1)
                    else 1) ∧
                  ∀ j, j < l.length →
                    l[j]? =
                      (s.table.entries[if f.direction = 1 then i - j else i + j]?).map fun e =>
                        { run := e.run, position := (if f.direction = 1 then i - j else i + j) + 1, state := e.state
                          sched := e.sched, dd := e.dd, exp := e.exp, platform := e.displayed, rev := e.rev
                          rowIndex := s.rowIndexOf e.run }))))

/-- R81: CSTA returns the OPEN record of the run, or else the one latest in the closed list, with the entry's revision
if it is in the table; NO_RECORD where there is none. It changes nothing. -/
def Obligations.CstaReportsTheNewestRecord : Prop :=
  ∀ (s : State) (p : PortId) (seq : Octet) (run : Nat), s.Taking p seq (.csta run) → s.TrackerOk →
    ∃ a, exec (.csta p) s = .next (s.answerTel p ((Telegram.csta run).tel seq) a) ∧
      (run = 0 → a = .badField 1) ∧
      (run ≠ 0 →
        (∀ r ∈ s.tracker.records, r.run = run → r.isOpen = true →
          a = .accept (.record r ((s.entry? run).map (·.rev)))) ∧
        ((∀ r ∈ s.tracker.records, r.run = run → r.isOpen = false) →
          (∀ before n after r, s.tracker.closed = before ++ n :: after → r ∈ s.tracker.records → r.no = n →
            r.run = run → (∀ m ∈ after, ∀ q ∈ s.tracker.records, q.no = m → q.run ≠ run) →
              a = .accept (.record r ((s.entry? run).map (·.rev)))) ∧
          ((∀ r ∈ s.tracker.records, r.run ≠ run) → a = .refuse .noRecord)))

/-- R32, R34, R86 to R91: an adopted prediction whose age has passed the stale limit clears the run's filter; an entry
in service then runs stages 3 to 6 and its transitions, with one revision where something shown changed, and the cues
follow. At any other age nothing happens. A command whose event does not arise in the state changes nothing (the
model's choice, log entry 4). -/
def Obligations.StalePredictionsAreCleared : Prop :=
  ∀ (s : State) (run : Nat) (e : Entry), s.powered = true → s.TableOk → s.entry? run = some e →
    s.time.limitsMoved.contains 304 = false →
      (e.filter.dp ≠ none → s.inForce.stale < e.filter.age →
        ∃ t x, exec (.predictionStale run) s = .next t ∧ t.entry? run = some x ∧
          x.facts =
            (if e.inService then
              s.retest e (Entry.recompute s.inForce.hysteresis { e with filter := Filter.empty })
            else { e with filter := Filter.empty }).facts ∧
          (s.openRecord? run = none → ∀ new,
            new = s.retest e (Entry.recompute s.inForce.hysteresis { e with filter := Filter.empty }) →
              x.rev = if e.inService = false ∨ e.sameShown new = true then e.rev else e.rev + 1) ∧
          s.CuesHanded t e x ∧ (∀ q, t.link q = s.link q) ∧ s.OthersKept t run ∧ s.Beside t ∧ (s.CuesOk → t.speaking = s.speaking)) ∧
      (e.filter.dp = none ∨ e.filter.age ≤ s.inForce.stale → exec (.predictionStale run) s = .next s)

/-! ## Station time (R46 to R57) -/

/-- R49, R54: the offset is the shortest signed difference; a TIME is refused by the first check that fails, and then
changes nothing. Every reply carries the clock and the time state, and the offset once it is formed. -/
def Obligations.TimeIsCheckedInOrder : Prop :=
  (∀ received clock : Nat, received < 86400 → clock < 86400 →
      -43200 ≤ timeOffset received clock ∧ timeOffset received clock < 43200 ∧
        ((clock : Int) + timeOffset received clock) % 86400 = received) ∧
    ∀ (s : State) (p : PortId) (seq : Octet) (v : Nat), s.Taking p seq (.time v) →
      ∀ (d : Int) (a : Answer), d = timeOffset v s.time.clock →
        (86399 < v ∧ a = { Answer.badField 1 with result := .clock s.time.clock s.time.state none }) ∨
          (v ≤ 86399 ∧ p ≠ s.inForce.timePort ∧ (s.port s.inForce.timePort).live = true ∧ s.time.state ≠ .holdover ∧
            a = { Answer.refuse .notTimeSource with result := .clock s.time.clock s.time.state none }) ∨
          (v ≤ 86399 ∧
            (p = s.inForce.timePort ∨ (s.port s.inForce.timePort).live = false ∨ s.time.state = .holdover) ∧
            s.time.state ≠ .unset ∧
            ((d < -21600 ∨ 21600 < d) ∧
                a = { Answer.refuse .timeRange with result := .clock s.time.clock s.time.state (some d) } ∨
              -21600 ≤ d ∧ d < -30 ∧ s.elapsed < -d ∧
                a = { Answer.refuse .acrossDayStart with result := .clock s.time.clock s.time.state (some d) })) →
        exec (.time p) s = .next (s.answerTel p ((Telegram.time v).tel seq) a)

/-- R50, R51, R53, R55, R56, R60: an accepted TIME sets the clock from UNSET, else slews by an offset of at most 30
seconds, or steps by a greater one with the owners' actions complete: at a step over the service-day start every
absolute minute of entries, change records and cues is reduced by 1440, then every entry is evaluated (R6 to R11), the
WAITING cues and the diversion holds are tested (R78, R95) and the lines decide (R167); the state is then SET and the
holdover timer 0. At a set the second begins anew, at a slew or a step the phase of the running second stays (the
model's reading, log entry 30). That a step lets a held :59 be held again is the model's choice (log entry 34), as
is TIME_STEPPED after every notice of the owners' actions (log entry 51). -/
def Obligations.TimeSetsSlewsOrSteps : Prop :=
  ∀ (s : State) (p : PortId) (seq : Octet) (v : Nat), s.Taking p seq (.time v) → v ≤ 86399 →
    (p = s.inForce.timePort ∨ (s.port s.inForce.timePort).live = false ∨ s.time.state = .holdover) →
    ∀ d : Int, d = timeOffset v s.time.clock →
      (s.time.state = .unset →
        ∃ t, exec (.time p) s = .next t ∧ s.Answered t p seq (.time v) (.accept (.clock v .set none)) ∧
          t = { s with time := t.time, cues := t.cues, lines := t.lines, ports := t.ports } ∧
          t.time =
            { s.time with
              clock := v, state := .set, slew := 0, held := false, holdover := 0, runMs := s.runTime, subMs := 0 } ∧
          s.LinesAnnounced t false ∧ ∀ q, (t.port q).notices = (s.port q).notices) ∧
        (s.time.state ≠ .unset → -30 ≤ d → d ≤ 30 →
          ∃ t, exec (.time p) s = .next t ∧
            s.Answered t p seq (.time v) (.accept (.clock s.time.clock .set (some d))) ∧
            t = { s with time := t.time, ports := t.ports } ∧
            t.time = { s.time with state := .set, slew := d, holdover := 0 } ∧
            ∀ q, (t.port q).notices = (s.port q).notices) ∧
        (s.time.state ≠ .unset → d < -30 ∨ 30 < d → -21600 ≤ d → d ≤ 21600 → (d < 0 → -d ≤ s.elapsed) → s.TableOk →
          ∃ t, exec (.time p) s = .next t ∧ s.Answered t p seq (.time v) (.accept (.clock v .set (some d))) ∧
            t.time = { s.time with clock := v, state := .set, slew := 0, held := false, holdover := 0 } ∧
            t.NothingDue ∧ s.LinesAnnounced t false ∧
            (∀ shift : Int, shift = (if 0 < d ∧ 86400 ≤ s.elapsed + d then 1440 else 0) →
              s.Passed t shift ∧ s.Evaluated t shift id ∧ s.HoldsTested t shift ∧ s.CuesRolled t shift) ∧
            t.Displayable ∧
            (∀ q, q = .planning ∨ q = .signalling →
              (t.port q).notices.getLast? = some ⟨.timeStepped, .port p, v⟩ ∨ (t.port q).overflow = true) ∧
            t.store = s.store ∧ t.sense = s.sense ∧ t.inForce = s.inForce ∧ t.wall.board = s.wall.board ∧
            t.records = s.records)

/-- R47, R52, R26, R43, R55, R100, R117, R122, R184: one running second moves the clock by one, skips :59 under a
remainder above 0 and holds it once under one below 0, and moves every running-second timer, whether or not it enters
a minute. A limit that a CONF has set since the last second judges its timer as it stood (log entry 8): a LIVE port at
its limit becomes SILENT with PORT_SILENT and what follows of it, and a holdover timer at its limit in SET gives
HOLDOVER; a stale limit so set judges from then on. Where the signalling port so falls silent, the entries stand as if
its silence had expired first and the second had come then (R33). A second that is no minute advance, no limit
waiting, does nothing else. -/
def Obligations.RunningSecondMovesTheClock : Prop :=
  ∀ s : State, s.powered = true →
    ∃ t, exec .runningSecond s = .next t ∧ t.time.runSec = s.time.runSec + 1 ∧ t.time.runMs = s.time.runMs + 1000 ∧
      t.time.subMs = 0 ∧ t.time.limitsMoved = [] ∧
      (0 < s.time.slew → s.time.clock % 60 = 58 →
        t.time.clock = (s.time.clock + 2) % 86400 ∧ t.time.slew = s.time.slew - 1 ∧ t.time.held = false) ∧
      (s.time.slew < 0 → s.time.clock % 60 = 59 → s.time.held = false →
        t.time.clock = s.time.clock ∧ t.time.slew = s.time.slew + 1 ∧ t.time.held = true) ∧
      (¬(0 < s.time.slew ∧ s.time.clock % 60 = 58) →
        ¬(s.time.slew < 0 ∧ s.time.clock % 60 = 59 ∧ s.time.held = false) →
          t.time.clock = (s.time.clock + 1) % 86400 ∧ t.time.slew = s.time.slew ∧ t.time.held = false) ∧
      (s.time.entersMinute = true ↔ s.time.state ≠ .unset ∧ t.time.clock % 60 = 0) ∧
      t.time.holdover =
        (if s.time.state = .set ∧ s.time.holdover < 60 * s.inForce.holdover then s.time.holdover + 1
        else s.time.holdover) ∧
      t.time.state = (if s.HoldoverJudged then .holdover else s.time.state) ∧
      (s.HoldoverJudged →
        s.Noticed t .planning ⟨.holdover, .port s.inForce.timePort, s.time.clock⟩) ∧
      (∀ q, t.link q =
        { s.link q with live := (s.port q).live && !decide (s.SilenceJudged q), silence := (s.port q).silence + 1 }) ∧
      (∀ p q, s.SilenceJudged p → q ≠ p →
        ⟨.portSilent, .port p, s.time.clock⟩ ∈ (t.port q).notices ∨ (t.port q).overflow = true) ∧
      (∀ x ∈ t.table.entries,
        ∃ e ∈ s.table.entries, x.run = e.run ∧
          x.filter =
            if s.SilenceJudged .signalling then Filter.empty
            else
              { e.filter with
                age := if e.filter.dp = none then e.filter.age else min 901 (e.filter.age + 1) }) ∧
      (s.SilenceJudged .signalling → s.TableOk →
        (s.time.entersMinute = false → s.FiltersCleared t) ∧
          ∃ u v, exec (.silenceExpiry .signalling) { s with time := { s.time with limitsMoved := [] } } = .next u ∧
            exec .runningSecond u = .next v ∧ t.facts = v.facts ∧
            ∀ run, s.openRecord? run = none → (t.entry? run).map (·.rev) = (v.entry? run).map (·.rev)) ∧
      (s.CuesOk →
        t.speaking =
          s.speaking.map fun c =>
            match c.state with
            | .taken x =>
              { c with
                state := .taken { x with timer := x.timer + 1 }
                due := c.due - if s.time.entersMinute = true ∧ t.elapsed = 0 then 1440 else 0 }
            | _ => c) ∧
      t.wall.posted = (s.wall.posted.map fun n => { n with expiry := n.expiry.map fun d => d - 1 }) ∧
      (s.TableOk → s.WallOk → ¬s.SilenceJudged .signalling →
        (t.wall.current = s.wall.current → t.wall.dwell = s.wall.dwell.map fun d => d - 1) ∧
          ∀ c, t.wall.current = some c → s.wall.current ≠ some c → t.wall.dwell = some s.inForce.dwell) ∧
      t.sense = s.sense ∧ t.store = s.store ∧ t.inForce = s.inForce ∧ t.records = s.records ∧
      t.cues.zones = s.cues.zones ∧ t.wall.mode = s.wall.mode ∧
      (s.time.entersMinute = false → t.lines = s.lines) ∧
      (s.time.entersMinute = false → s.time.limitsMoved = [] →
        t =
          { s with
            time := t.time
            table :=
              { s.table with
                entries := s.table.entries.map fun e =>
                  { e with
                    filter :=
                      { e.filter with
                        age := if e.filter.dp = none then e.filter.age else min 901 (e.filter.age + 1) } } }
            cues :=
              { s.cues with
                list := s.cues.list.map fun c =>
                  match c.state with
                  | .taken x => { c with state := .taken { x with timer := x.timer + 1 } }
                  | _ => c }
            wall :=
              { s.wall with
                dwell := s.wall.dwell.map fun d => d - 1
                posted := s.wall.posted.map fun n => { n with expiry := n.expiry.map fun d => d - 1 } }
            ports :=
              { planning := { s.ports.planning with silence := s.ports.planning.silence + 1 }
                signalling := { s.ports.signalling with silence := s.ports.signalling.silence + 1 }
                announcement := { s.ports.announcement with silence := s.ports.announcement.silence + 1 } } })

/-- R47, R6 to R11, R56, R57, R78, R95, R167: with the running second in which the clock enters a new minute the
owners act: at the service-day start every absolute minute of entries, change records and cues is reduced by 1440
first; then every entry is evaluated: EXPIRED, removed, RETIRING while a TAKEN cue names it, CLOSED, BOARDING, or in
its state as before, with one revision where the state changed; the WAITING cues and the diversion holds are tested,
no transition, removal or cue is left due, the displayable set is derived afresh (R12), and every line takes its
decision. A minute advance is that second, and arises at no other. That the two rows are one event is the model's
choice (log entry 8), as is the order of table and cues in it (log entry 36), that what the second's counts make due,
a stale prediction among it, comes after the evaluation (log entry 50), and so is a row that arises at no other
second changing nothing (log entry 4). -/
def Obligations.MinuteAdvanceBringsEverythingUpToDate : Prop :=
  ∀ s : State, s.powered = true →
    (s.time.entersMinute = true → exec .minuteAdvance s = exec .runningSecond s ∧
      (s.TableOk → s.time.limitsMoved = [] →
        ∃ t, exec .minuteAdvance s = .next t ∧ t.NothingDue ∧ s.LinesAnnounced t true ∧
          (∀ shift : Int, shift = (if t.elapsed = 0 then 1440 else 0) →
            s.Passed t shift ∧ s.HoldsTested t shift ∧ s.CuesRolled t shift ∧
              s.Evaluated t shift fun g =>
                { g with age := if g.dp = none then g.age else min 901 (g.age + 1) }) ∧
          t.Displayable ∧ (∀ q, t.link q = { s.link q with silence := (s.port q).silence + 1 }) ∧
          t.store = s.store ∧ t.sense = s.sense ∧ t.inForce = s.inForce ∧ t.records = s.records)) ∧
      (s.time.entersMinute = false → exec .minuteAdvance s = .next s)

/-! ## Announcement cues (R83 to R106) -/

/-- R99, R100, R85: TAKE is BUSY when every channel speaks, NONE when no cue is eligible, and otherwise gives the
eligible cue of lowest priority number, then earliest due, then earliest creation; the cue is TAKEN with its timer at
0 and the content captured from the entry as it stands, and nothing else changes but a CHANGE cue's in speech mark. A
zone is in gap while its gap end is present (log entry 9). -/
def Obligations.TakeGivesTheBestCue : Prop :=
  ∀ (s : State) (p : PortId) (seq : Octet), s.Taking p seq .take →
    (∀ c, s.eligible c = true ↔
      c.state = .due ∧ (∀ b ∈ s.cues.list, b.isTaken = true → ∀ z ∈ c.zones, z ∉ b.zones) ∧
        ∀ r ∈ s.cues.zones, r.no ∈ c.zones → r.gapEnd = none ∧ r.held = false) ∧
      (s.inForce.channels ≤ s.takenCount →
        exec (.take p) s = .next (s.answerTel p (Telegram.take.tel seq) (.refuse .busy))) ∧
      (s.takenCount < s.inForce.channels → (∀ c ∈ s.cues.list, s.eligible c = false) →
        exec (.take p) s = .next (s.answerTel p (Telegram.take.tel seq) (.refuse .none))) ∧
      ∀ (before after : List Cue) (c : Cue) (e : Entry), s.takenCount < s.inForce.channels → s.CuesOk →
        s.cues.list = before ++ c :: after → s.eligible c = true → s.entry? c.run = some e →
        (∀ b ∈ before, s.eligible b = true →
          c.kind.priority < b.kind.priority ∨ (c.kind.priority = b.kind.priority ∧ c.due < b.due)) →
        (∀ b ∈ after, s.eligible b = true →
          c.kind.priority < b.kind.priority ∨ (c.kind.priority = b.kind.priority ∧ c.due ≤ b.due)) →
        ∀ content : Captured,
          content =
            { kind := c.kind, number := c.number, run := c.run, zones := c.zones, destination := e.destination
              headcode := e.headcode, sched := clockForm s.inForce.dayStart e.sched
              expected :=
                if c.kind = .delay ∨ (c.kind ≠ .cancel ∧ s.inForce.lateness ≤ e.dd) then
                  some (clockForm s.inForce.dayStart e.exp)
                else none
              platform := if c.kind = .change then none else e.displayed
              src := if c.kind = .change then (s.openRecord? c.run).map (·.src) else none
              dst := if c.kind = .change then (s.openRecord? c.run).map (·.dst) else none
              delay := if c.kind = .delay then some e.dd else none
              reason := if c.kind = .delay ∨ c.kind = .cancel then e.reason else none
              calls := if c.kind = .platform ∨ c.kind = .final then e.calls else [] } →
          ∃ t, exec (.take p) s = .next t ∧
            s.Answered t p seq .take (.accept (.cue content c.attempts)) ∧
            t = { s with cues := { s.cues with list := t.cues.list }, tracker := t.tracker, ports := t.ports } ∧
            t.cues.list =
              before ++
                { c with
                  state := .taken { content := content, timer := 0, limit := s.inForce.speakTime }
                  pendRev := false } ::
                  after ∧
            t.tracker =
              { s.tracker with
                records := s.tracker.records.map fun r =>
                  if c.kind = .change ∧ r.run = c.run ∧ r.isOpen = true then { r with inSpeech := true } else r } ∧
            ∀ q, (t.port q).notices = (s.port q).notices

/-- R101 to R103, R97, R93, R74, R75: SPKN is TOO_LATE for a cue that is not TAKEN. A DONE starts the gap of the
captured zones, hands the captured facts to the entry and the change record, and gives the cue the first fate that
applies; after a CHANGE cue in speech is cleared on every record of its run, and a change displayed already is then
INFORMED; an entry that only this cue kept in RETIRING leaves the table. The attempts of an ENDED cue are those it
held (log entry 21), and its zones stand in the order of log entry 41. -/
def Obligations.DoneHandsTheSpokenFacts : Prop :=
  ∀ (s : State) (p : PortId) (seq : Octet) (f : SpknFields), s.Taking p seq (.spkn f) →
    (f.cue = 0 → exec (.spkn p) s = .next (s.answerTel p ((Telegram.spkn f).tel seq) (.badField 1))) ∧
      (f.cue ≠ 0 → 1 < f.outcome →
        exec (.spkn p) s = .next (s.answerTel p ((Telegram.spkn f).tel seq) (.badField 2))) ∧
      (f.cue ≠ 0 → f.outcome ≤ 1 → (∀ c ∈ s.cues.list, c.number = f.cue → c.isTaken = false) →
        exec (.spkn p) s = .next (s.answerTel p ((Telegram.spkn f).tel seq) (.refuse .tooLate))) ∧
      ∀ (before after : List Cue) (c : Cue) (x : Taken), f.outcome = 0 → s.CuesOk →
        s.cues.list = before ++ c :: after → c.number = f.cue → c.state = .taken x → x.content.kind = c.kind →
        x.content.run = c.run →
        ∀ repeats : Prop,
          (repeats ↔
            c.kind = .delay ∧ 0 < s.inForce.repeatPeriod ∧
              ∃ e, s.entry? c.run = some e ∧ (e.state = .listed ∨ e.state = .boarding) ∧
                s.inForce.delayThreshold ≤ e.dd) →
          ∃ t rest fate n, exec (.spkn p) s = .next t ∧
            s.Answered t p seq (.spkn f) (.accept (.fate fate n)) ∧ t.cues.list = before ++ rest ++ after ∧
            (c.pendDrop = true → rest = [] ∧ fate = .ended ∧ n = c.attempts) ∧
            (c.pendDrop = false → c.pendRev = true →
              (c.kind = .platform ∨ c.kind = .final → rest = [] ∧ fate = .ended ∧ n = c.attempts) ∧
                (c.kind = .change ∨ c.kind = .delay ∨ c.kind = .cancel →
                  fate = .due ∧ n = 0 ∧
                    ∃ z,
                      rest =
                          [{ c with
                              state := .due, attempts := 0, pendRev := false, pendDrop := false, zones := z }] ∧
                        (c.kind ≠ .change → ∀ e, s.entry? c.run = some e → z = 0 :: e.displayed.toList) ∧
                        (c.kind = .change → s.TrackerOk → (s.entry? c.run).isSome = true →
                          ∀ r, s.openRecord? c.run = some r →
                            ¬(r.displayed = true ∧ (r.inSpeech = true ∨ r.announced = true)) → z = [0, r.src, r.dst]))) ∧
            (c.pendDrop = false → c.pendRev = false →
              (repeats →
                  fate = .waiting ∧ n = 0 ∧
                    rest = [{ c with state := .waiting, due := s.now + s.inForce.repeatPeriod, attempts := 0 }]) ∧
                (¬repeats → rest = [] ∧ fate = .ended ∧ n = c.attempts)) ∧
            s.GapStarted t x.content.zones ∧
            (∀ e, s.entry? c.run = some e → e.state ≠ .retiring →
              ∃ y, t.entry? c.run = some y ∧
                y.facts =
                  { e.facts with
                    announced :=
                      if c.kind = .platform then x.content.platform
                      else if c.kind = .change then x.content.dst
                      else e.announced
                    lastDelay := if c.kind = .delay then x.content.delay.getD 0 else e.lastDelay }) ∧
            (∀ e, s.entry? c.run = some e → e.state = .retiring →
              (∀ b ∈ before ++ after, b.run = c.run → b.isTaken = false) → t.entry? c.run = none) ∧
            (c.kind = .change → ∀ r ∈ s.tracker.records, r.run = c.run → r.isOpen = true → r.inSpeech = true →
              ∃ r' ∈ t.tracker.records, r'.no = r.no ∧ r'.run = r.run ∧ r'.announced = true ∧
                (s.TrackerOk → r.displayed = true →
                  r'.state = .informed ∧ ((s.entry? r.run).any (·.state = .retiring) = false → s.Informed t r))) ∧
            (t.tracker.records.map fun r => (r.no, r.run, r.inSpeech, r.cue)) =
              (s.tracker.records.map fun r =>
                (r.no, r.run, r.inSpeech && !decide (c.kind = .change ∧ r.run = c.run), r.cue)) ∧
            s.OthersKept t c.run ∧ t.sources = s.sources ∧ t.wall.board = s.wall.board ∧ t.records = s.records

/-- R104, R105, R97, R74: an ABORTED cue, by SPKN or by its speak timer, starts the gap of its zones, hands nothing
on, and returns to DUE with one more attempt and its zones afresh, or leaves the list at the third with CUE_DROPPED,
or without a notice where a drop was pending. In speech is cleared on the records of a CHANGE cue's run, and its OPEN
record loses the CHANGE cue at the third. The timeout posts SPEAK_TIMEOUT, before a CUE_DROPPED (log entry 14); before
the speak time is reached nothing happens. The attempts of an ENDED cue are those of log entry 21, and zones stand in
the order of log entry 41. A command whose event does not arise in the state changes nothing (the model's choice, log
entry 4). -/
def Obligations.AbortedCuesAreOfferedAgain : Prop :=
  (∀ (s : State) (i : Instr) (before after : List Cue) (c : Cue) (x : Taken), s.powered = true → s.CuesOk →
      s.cues.list = before ++ c :: after → c.state = .taken x →
      (i = .speakTimeout c.number ∧ x.limit ≤ x.timer) ∨
        (∃ p seq, i = .spkn p ∧ s.Taking p seq (.spkn { cue := c.number, outcome := 1 })) →
      ∃ t rest fate n, exec i s = .next t ∧ t.cues.list = before ++ rest ++ after ∧
        (c.pendDrop = true → rest = [] ∧ fate = .ended ∧ n = c.attempts) ∧
        (c.pendDrop = false → c.attempts < 2 →
          fate = .due ∧ n = c.attempts + 1 ∧
            ∃ z,
              rest =
                  [{ c with
                      state := .due, attempts := c.attempts + 1, pendRev := false, pendDrop := false
                      zones := z }] ∧
                ∀ e, s.entry? c.run = some e →
                  (c.kind = .final → z = e.displayed.toList) ∧
                    (c.kind = .platform ∨ c.kind = .delay ∨ c.kind = .cancel → z = 0 :: e.displayed.toList) ∧
                    (c.kind = .change → ∀ r, s.openRecord? c.run = some r → z = [0, r.src, r.dst])) ∧
        (c.pendDrop = false → c.attempts = 2 →
          rest = [] ∧ fate = .ended ∧ n = 3 ∧
            s.Noticed t .planning ⟨.cueDropped, .run c.run, s.time.clock⟩ ∧
            (⟨.cueDropped, .run c.run, s.time.clock⟩ ∈ (t.port .announcement).notices ∨
              (t.port .announcement).overflow = true)) ∧
        s.GapStarted t x.content.zones ∧
        (t.tracker.records.map fun r => (r.no, r.run, r.inSpeech, r.cue)) =
          (s.tracker.records.map fun r =>
            (r.no, r.run, r.inSpeech && !decide (c.kind = .change ∧ r.run = c.run),
              if c.kind = .change ∧ r.run = c.run ∧ r.isOpen = true ∧ c.pendDrop = false ∧ c.attempts = 2 then none
              else r.cue)) ∧
        (∀ number, i = .speakTimeout number →
          s.Noticed t .announcement ⟨.speakTimeout, .run c.run, s.time.clock⟩ ∧ ∀ q, t.link q = s.link q) ∧
        (∀ p seq, i = .spkn p → s.Taking p seq (.spkn { cue := c.number, outcome := 1 }) →
          s.Answered t p seq (.spkn { cue := c.number, outcome := 1 }) (.accept (.fate fate n))) ∧
        ((∀ e, s.entry? c.run = some e → e.state ≠ .retiring) → t.facts = s.facts) ∧
        s.OthersKept t c.run ∧ t.sources = s.sources ∧ t.wall.board = s.wall.board ∧ t.records = s.records) ∧
    ∀ (s : State) (number : Nat),
      (∀ c ∈ s.cues.list, c.number = number → ∀ x, c.state = .taken x → x.timer < x.limit) →
        exec (.speakTimeout number) s = .next s

/-- R98, R97, R96: ZONE holds or releases the zones it lists, 1 to 25 of them each in 0..P, and answers the set held
in ascending order (log entry 41); an empty list, a longer one or a zone beyond is index 2 (log entry 29); a gap that
has been reached ends. Neither touches a cue. A command whose event does not arise in the state changes nothing (the
model's choice, log entry 4). -/
def Obligations.ZonesAreHeldAndFreed : Prop :=
  (∀ (s : State) (p : PortId) (seq : Octet) (f : ZoneFields), s.Taking p seq (.zone f) →
      (1 < f.action → exec (.zone p) s = .next (s.answerTel p ((Telegram.zone f).tel seq) (.badField 1))) ∧
        (f.action ≤ 1 →
          (f.zones = [] ∨ 25 < f.zones.length ∨ ∃ z ∈ f.zones, 24 < z ∨ s.inForce.platforms < z) →
            exec (.zone p) s = .next (s.answerTel p ((Telegram.zone f).tel seq) (.badField 2))) ∧
        (f.action ≤ 1 → f.zones ≠ [] → f.zones.length ≤ 25 →
          (∀ z ∈ f.zones, z ≤ 24 ∧ z ≤ s.inForce.platforms) →
            ∃ t, exec (.zone p) s = .next t ∧
              t = { s with cues := { s.cues with zones := t.cues.zones }, ports := t.ports } ∧
              t.cues.zones =
                (s.cues.zones.map fun z =>
                  if z.no ∈ f.zones then { z with held := decide (f.action = 0) } else z) ∧
              s.Answered t p seq (.zone f)
                (.accept (.zones ((t.cues.zones.filter (·.held)).map (·.no)))) ∧
              ∀ q, (t.port q).notices = (s.port q).notices)) ∧
    ∀ (s : State) (number : Nat), s.powered = true →
      ((∃ z ∈ s.cues.zones, z.no = number ∧ ∃ g, z.gapEnd = some g ∧ g ≤ s.time.runSec) →
          ∃ t, exec (.gapEnd number) s = .next t ∧
            t = { s with cues := { s.cues with zones := t.cues.zones }, ports := t.ports } ∧
            t.cues.zones =
              (s.cues.zones.map fun z => if z.no = number then { z with gapEnd := none } else z) ∧
            ∀ q, t.port q = { s.port q with attention := (t.port q).attention }) ∧
        ((∀ z ∈ s.cues.zones, z.no = number → ∀ g, z.gapEnd = some g → s.time.runSec < g) →
          exec (.gapEnd number) s = .next s)

/-! ## The wall (R117 to R126) -/

/-- R117 to R120, R122, R123, R126, R72: NOTE posts a notice at the tail or in the place of its number with the next
edition, NCLR and the expiry take one off; a list without priority 0 ends the NOTICE mode, and every OPEN change
record is then evaluated. The first item of an empty rotation becomes current, with its dwell and one count; a NOTE
that replaces the current item counts one and leaves the dwell. Where the notice taken off is the current item of the
rotation, the item after it becomes current, or the first where it stood last, the dwell starts again and the count
moves by one, but stays where none is left; where it is not, the rotation stays. A revision that the tracker counts
for the current item within the same command is left out of these counts (log entry 15). Nothing of the facts of the
table or of the cue list changes. A command whose event does not arise in the state changes nothing (the model's
choice, log entry 4). -/
def Obligations.NoticesArePostedAndRemoved : Prop :=
  (∀ (s : State) (p : PortId) (seq : Octet) (f : NoteFields), s.Taking p seq (.note f) →
      (f.number = 0 ∨ 200 < f.number →
        exec (.note p) s = .next (s.answerTel p ((Telegram.note f).tel seq) (.badField 1))) ∧
        (1 ≤ f.number → f.number ≤ 200 → 3 < f.priority →
          exec (.note p) s = .next (s.answerTel p ((Telegram.note f).tel seq) (.badField 2))) ∧
        (1 ≤ f.number → f.number ≤ 200 → f.priority ≤ 3 → f.text = [] →
          exec (.note p) s = .next (s.answerTel p ((Telegram.note f).tel seq) (.badField 3))) ∧
        (1 ≤ f.number → f.number ≤ 200 → f.priority ≤ 3 → f.text ≠ [] →
          ((∀ n ∈ s.wall.posted, n.number ≠ f.number) → 12 ≤ s.wall.posted.length →
              exec (.note p) s = .next (s.answerTel p ((Telegram.note f).tel seq) (.refuse .noticeFull))) ∧
            ((∃ n ∈ s.wall.posted, n.number = f.number) ∨ s.wall.posted.length < 12 →
              ∀ new : Posted,
                new =
                    { number := f.number, priority := f.priority, text := (fixText 120 f.text).1
                      edition := s.wall.edition + 1
                      expiry := if f.expiry = 0 then none else some (60 * min 1440 f.expiry) } →
                  ∃ t, exec (.note p) s = .next t ∧ t.wall.edition = s.wall.edition + 1 ∧
                    ((∀ n ∈ s.wall.posted, n.number ≠ f.number) → t.wall.posted = s.wall.posted ++ [new]) ∧
                    ((∃ n ∈ s.wall.posted, n.number = f.number) →
                      t.wall.posted = s.wall.posted.map fun n => if n.number = f.number then new else n) ∧
                    t.wall.mode =
                      (if s.wall.mode = .notice ∧ ∀ n ∈ t.wall.posted, n.priority ≠ 0 then .normal
                      else s.wall.mode) ∧
                    s.Answered t p seq (.note f)
                      (.accept (.posted t.wall.posted.length t.wall.mode)
                        (clamped := (fixText 120 f.text).2 || 1440 < f.expiry)) ∧
                    (s.PictureCurrent → s.WallOk → s.CurrentUnrevised t →
                      (s.wall.current = none →
                        t.wall.current = some (.note f.number) ∧ t.wall.dwell = some s.inForce.dwell ∧
                          t.wall.count = s.wall.count + 1) ∧
                        (s.wall.current ≠ none →
                          t.wall.current = s.wall.current ∧ t.wall.dwell = s.wall.dwell ∧
                            t.wall.count =
                              if s.wall.current = some (.note f.number) then s.wall.count + 1 else s.wall.count)) ∧
                    (t.wall.mode ≠ .normal → t.tracker = s.tracker) ∧
                    (t.wall.mode = .normal → s.OpenJudged t fun _ => True) ∧
                    t.facts = s.facts ∧ t.cues = s.cues ∧ t.sources = s.sources ∧ t.records = s.records))) ∧
    (∀ (s : State) (p : PortId) (seq : Octet) (number : Nat), s.Taking p seq (.nclr number) →
      (number = 0 ∨ 200 < number →
        exec (.nclr p) s = .next (s.answerTel p ((Telegram.nclr number).tel seq) (.badField 1))) ∧
        (1 ≤ number → number ≤ 200 → (∀ n ∈ s.wall.posted, n.number ≠ number) →
          exec (.nclr p) s =
            .next
              (s.answerTel p ((Telegram.nclr number).tel seq)
                (.accept (.posted s.wall.posted.length s.wall.mode))))) ∧
    (∀ (s : State) (i : Instr) (number : Nat),
      (∃ n ∈ s.wall.posted, n.number = number) →
      (i = .noticeExpiry number ∧ s.powered = true ∧ ∃ n ∈ s.wall.posted, n.number = number ∧ n.expiry = some 0) ∨
        (∃ p seq, i = .nclr p ∧ s.Taking p seq (.nclr number) ∧ 1 ≤ number ∧ number ≤ 200) →
        ∃ t, exec i s = .next t ∧ t.wall.edition = s.wall.edition ∧
          t.wall.posted = s.wall.posted.filter (·.number ≠ number) ∧
          t.wall.mode =
            (if s.wall.mode = .notice ∧ ∀ n ∈ t.wall.posted, n.priority ≠ 0 then .normal else s.wall.mode) ∧
          (∀ p seq, i = .nclr p → s.Taking p seq (.nclr number) →
            s.Answered t p seq (.nclr number) (.accept (.posted t.wall.posted.length t.wall.mode))) ∧
          (i = .noticeExpiry number → ∀ q, t.link q = s.link q) ∧
          (s.PictureCurrent → s.WallOk →
            (∀ before after, s.wall.current = some (.note number) →
              s.wall.items = before ++ .note number :: after →
                t.wall.current = (after ++ before).head? ∧
                  (t.wall.dwell = t.wall.current.map fun _ => s.inForce.dwell) ∧
                  (s.CurrentUnrevised t →
                    t.wall.count = if t.wall.current = none then s.wall.count else s.wall.count + 1)) ∧
              (s.wall.current ≠ some (.note number) →
                t.wall.current = s.wall.current ∧ t.wall.dwell = s.wall.dwell ∧
                  (s.CurrentUnrevised t → t.wall.count = s.wall.count))) ∧
          (t.wall.mode ≠ .normal → t.tracker = s.tracker) ∧
          (t.wall.mode = .normal → s.OpenJudged t fun _ => True) ∧
          t.facts = s.facts ∧ t.cues = s.cues ∧ t.sources = s.sources ∧ t.records = s.records) ∧
    ∀ (s : State) (number : Nat), (∀ n ∈ s.wall.posted, n.number = number → n.expiry ≠ some 0) →
      exec (.noticeExpiry number) s = .next s

/-- R125, R111, R122, R72: WALL sets the mode and every configured panel's desired tag with it, and at the return to
NORMAL mode every OPEN change record is evaluated against the wall then formed; at a dwell expiry the item
after the current one becomes current, round to the first, and the count and the dwell go on. A command whose event
does not arise in the state changes nothing (the model's choice, log entry 4). -/
def Obligations.WallModesAndTheRotationMove : Prop :=
  (∀ (s : State) (p : PortId) (seq : Octet) (n : Nat), s.Taking p seq (.wall n) →
      (2 < n → exec (.wall p) s = .next (s.answerTel p ((Telegram.wall n).tel seq) (.badField 1))) ∧
        (n = 2 → (∀ x ∈ s.wall.posted, x.priority ≠ 0) →
          exec (.wall p) s = .next (s.answerTel p ((Telegram.wall n).tel seq) (.refuse .noNotice))) ∧
        (n < 2 ∨ (n = 2 ∧ ∃ x ∈ s.wall.posted, x.priority = 0) →
          ∀ mode : WallMode, mode = (if n = 0 then .normal else if n = 1 then .blank else .notice) →
            ∃ t shown, exec (.wall p) s = .next t ∧ t.wall.mode = mode ∧ t.wall.posted = s.wall.posted ∧
              s.Answered t p seq (.wall n) (.accept (.mode mode shown)) ∧
              (n < 2 → shown = none) ∧
              (n = 2 → ∃ x ∈ s.wall.posted, x.priority = 0 ∧ shown = some x.number ∧
                (∀ y ∈ s.wall.posted, y.priority = 0 → x.number ≤ y.number) ∧
                (s.wall.mode ≠ mode → ∀ a ∈ t.bus.panels, a.role ≠ .none →
                  a.desired = some (.notice x.number x.edition))) ∧
              (n = 1 → s.wall.mode ≠ mode → ∀ a ∈ t.bus.panels, a.role ≠ .none → a.desired = some .blank) ∧
              (n = 0 → s.wall.mode ≠ mode →
                t.DesiredCurrent ∧ (s.PictureCurrent → t.PictureCurrent) ∧ s.OpenJudged t fun _ => True) ∧
              (n ≠ 0 → t.tracker = s.tracker) ∧
              (s.wall.mode = mode →
                t = s.answerTel p ((Telegram.wall n).tel seq) (.accept (.mode mode shown))) ∧
              t.facts = s.facts ∧ t.cues = s.cues ∧ t.sources = s.sources ∧ t.records = s.records)) ∧
    ∀ s : State, s.powered = true →
      (∀ (before after : List Item) (c : Item), s.PictureCurrent → s.wall.dwell = some 0 →
        s.wall.current = some c → s.wall.items = before ++ c :: after → c ∉ before →
          ∃ t, exec .dwellExpiry s = .next t ∧ t.wall.current = (after ++ before ++ [c]).head? ∧
            t.wall.dwell = some s.inForce.dwell ∧ (t.tracker = s.tracker → t.wall.count = s.wall.count + 1) ∧
            t.wall.board = s.wall.board ∧ t.facts = s.facts ∧ t.cues = s.cues ∧ t.sources = s.sources ∧
            t.records = s.records ∧ ∀ q, t.link q = s.link q) ∧
        (s.wall.dwell ≠ some 0 ∨ s.wall.current = none → exec .dwellExpiry s = .next s)

/-! ## The panel bus (R130 to R149) -/

/-- R133, R139, R143: the end of a frame opens the reply window; a window closes no earlier than 5 milliseconds later;
with the bus IDLE a keepalive or probe that has fallen due is served with a level frame to the first panel due from
the refresh pointer on; a busy bus, or a time not reached, lets nothing happen. A command whose event does not arise
in the state changes nothing (the model's choice, log entry 4). -/
def Obligations.FramesWindowsAndDueTimes : Prop :=
  (∀ (s : State) (ms : Nat) (x : Exchange), s.powered = true → s.bus.exchange = some x → x.phase = .sending →
      ∃ t, exec (.panelFrameEnd ms) s = .next t ∧ t.time = { s.time with subMs := max s.time.subMs (min ms 999) } ∧
        t =
          { s with
            time := t.time
            bus := { s.bus with exchange := some { x with phase := .window (t.time.runMs + t.time.subMs) } } }) ∧
    (∀ (s : State) (ms : Nat), (∀ x, s.bus.exchange = some x → x.phase ≠ .sending) →
      exec (.panelFrameEnd ms) s = .next s) ∧
    (∀ (s : State) (ms : Nat) (octets : List Octet), (∀ x w, s.bus.exchange = some x → x.phase ≠ .window w) →
      exec (.panelReplyReceived ms octets) s = .next s ∧ exec (.replyWindowClose ms) s = .next s) ∧
    (∀ (s : State) (ms : Nat) (x : Exchange) (w : Nat), s.bus.exchange = some x → x.phase = .window w →
      s.time.runMs + max s.time.subMs (min ms 999) < w + 5 → exec (.replyWindowClose ms) s = .next s) ∧
    ∀ (s : State) (ms addr : Nat) (i : Instr) (state : PanelState) (period : Nat) (due : Panel → Prop),
      s.powered = true → s.PanelsOk → s.BusOk →
      (i = .keepaliveDue ms addr ∧ state = .active ∧ period = s.inForce.keepalive) ∨
        (i = .probeDue ms addr ∧ state = .failed ∧ period = s.inForce.probe) →
      (∀ q : Panel, due q ↔
        (q.state = .active ∧
            ∀ at', q.lastServed = some at' → at' + 1000 * s.inForce.keepalive ≤ (s.atMs ms).runTime) ∨
          (q.state = .failed ∧
            ∀ at', q.lastServed = some at' → at' + 1000 * s.inForce.probe ≤ (s.atMs ms).runTime)) →
      (∀ q, s.panel? addr = some q → q.state = state → due q →
        (s.bus.exchange ≠ none → exec i s = .next (s.atMs ms)) ∧
          (s.bus.exchange = none →
            ∃ t r x, exec i s = .next t ∧ r ∈ s.bus.panels ∧ due r ∧ t.bus.exchange = some x ∧ x.addr = r.addr ∧
              x.seq = s.bus.seq + 1 ∧ x.content = .polf ∧ x.urgent = none ∧ x.startState = r.state ∧
              x.rset = false ∧ x.phase = .sending ∧ t.bus.seq = s.bus.seq + 1 ∧
              t.bus.pointer = (if r.addr ≥ 60 then 1 else r.addr + 1) ∧
              (∀ b ∈ s.bus.panels, due b →
                (if s.bus.pointer ≤ r.addr then r.addr else r.addr + 60) ≤
                  if s.bus.pointer ≤ b.addr then b.addr else b.addr + 60) ∧
              t = { s with time := t.time, bus := t.bus })) ∧
        ((∀ q, s.panel? addr = some q → q.state = state → ¬due q) → exec i s = .next s)

/-- R134: a reply is good or refused only when it is well formed, with a good CRC, the frame's address and its
sequence number; every other octet string is a failed reply, octets that end in the abort sequence among them (log
entry 6). -/
def Obligations.RepliesAreClassed : Prop :=
  ∀ (x : Exchange) (octets : List Octet),
    (∀ a n status : Octet, octets = escape ([a, n, status] ++ crcOctets [a, n, status]) →
      classifyReply x octets =
        if a.toNat = x.addr ∧ n = x.seq ∧ status = 0 then .good false
        else if a.toNat = x.addr ∧ n = x.seq ∧ status = 2 then .good true
        else if a.toNat = x.addr ∧ n = x.seq ∧ status = 1 then .refused
        else .failed) ∧
      (classifyReply x octets ≠ .failed →
        ∃ a n status : Octet, unescape octets = some ([a, n, status] ++ crcOctets [a, n, status]) ∧
          a.toNat = x.addr ∧ n = x.seq ∧ status.toNat ≤ 2)

/-- R70 to R73, R75, R133 to R138, R141, R149: the end of an exchange marks the panel addressed, and errored unless
good, and acts by the state: an ACTIVE panel acknowledges what it was sent, a PROBING one becomes ACTIVE or FAILED, a
FAILED one recovers at its third good probe running. An outcome after a change of state or an RSET does nothing more;
that it writes the flags and the time also of a panel that an RSET made ABSENT is log entry 22. Every OPEN change
record not yet displayed is evaluated against the picture that follows, and one that is displayed and announced
becomes INFORMED. A refused or failed urgent exchange puts its panel back with one retry less. -/
def Obligations.OutcomesMoveThePanel : Prop :=
  ∀ (s : State) (i : Instr) (ms : Nat) (x : Exchange) (w : Nat) (o : Outcome) (q : Panel) (now : Nat),
    s.powered = true → s.PanelsOk → s.bus.exchange = some x → x.phase = .window w → s.panel? x.addr = some q →
    now = s.time.runMs + max s.time.subMs (min ms 999) →
    (∃ octets, i = .panelReplyReceived ms octets ∧ o = classifyReply x octets) ∨
      (i = .replyWindowClose ms ∧ w + 5 ≤ now ∧ o = .failed) →
    ∃ t r, exec i s = .next t ∧ t.panel? x.addr = some r ∧ r.lastServed = some now ∧
      (x.rset = true ∨ q.state ≠ x.startState →
        r.record =
          { q.record with
            addressed := true, errored := q.errored || decide (∀ b, o ≠ .good b), lastServed := some now }) ∧
      (x.rset = false → q.state = x.startState →
        (q.state = .active →
          (∀ hot, o = .good hot →
            r.record =
              { q.record with
                addressed := true, lastServed := some now, ackedLevel := q.sentLevel
                acked := if x.content = .polf then q.acked else q.sent
                overtemp := hot, desiredLevel := r.desiredLevel }) ∧
            ((∀ hot, o ≠ .good hot) →
              r.record = { q.record with addressed := true, errored := true, lastServed := some now })) ∧
          (q.state = .probing →
            (∀ hot, o = .good hot →
              r.record =
                { q.record with
                  addressed := false, errored := false, lastServed := some now, ackedLevel := q.sentLevel
                  acked := if x.content = .polf then q.acked else q.sent
                  overtemp := hot, state := .active, ec := 0, desiredLevel := r.desiredLevel }) ∧
              ((∀ hot, o ≠ .good hot) →
                r.record =
                    { q.record with
                      addressed := false, errored := false, lastServed := some now, state := .failed, ec := 0
                      goodRun := 0 } ∧
                  s.Noticed t .planning ⟨.panelFailed, .panel x.addr, s.time.clock⟩)) ∧
          (q.state = .failed →
            (∀ hot, o = .good hot → r.overtemp = hot ∧
              (q.goodRun < 2 →
                r.state = .failed ∧ r.goodRun = q.goodRun + 1 ∧ r.acked = q.acked ∧ r.ackedLevel = q.ackedLevel) ∧
              (q.goodRun = 2 →
                r.state = .active ∧ r.ec = 0 ∧ r.goodRun = 0 ∧ r.addressed = false ∧ r.errored = false ∧
                  r.acked = none ∧ r.ackedLevel = none ∧
                  s.Noticed t .planning ⟨.panelRecovered, .panel x.addr, s.time.clock⟩)) ∧
              ((∀ hot, o ≠ .good hot) →
                r.record =
                  { q.record with
                    addressed := true, errored := true, lastServed := some now, goodRun := 0 }))) ∧
      (s.PictureCurrent → s.RecordsJudged t) ∧
      (∀ l, State.reappendUrgent x o { s with bus := { s.bus with urgent := l } } =
        { s with
          bus :=
            { s.bus with
              urgent :=
                match x.urgent with
                | none => l
                | some n =>
                  if (∃ hot, o = .good hot) ∨ n = 0 ∨ ¬(q.state = .active ∨ q.state = .probing) then l
                  else if ∃ u ∈ l, u.addr = x.addr then
                    l.map fun u => if u.addr = x.addr then { u with retries := max u.retries (n - 1) } else u
                  else l ++ [⟨x.addr, n - 1⟩] } }) ∧
      (∀ n, x.urgent = some (n + 1) → x.rset = false → x.startState = .active → q.state = .active →
        (∀ hot, o ≠ .good hot) → s.bus.urgent = [] → (r.desired ≠ r.acked ∨ r.ackedLevel ≠ some r.desiredLevel) →
          ∃ y, t.bus.exchange = some y ∧ y.addr = x.addr ∧ y.urgent = some n) ∧
      (r.overtemp ≠ q.overtemp → r.desiredLevel = min (s.zoneLevel q.zone) (if r.overtemp then 6 else 15)) ∧
      (r.overtemp = q.overtemp → r.desiredLevel = q.desiredLevel) ∧
      (∀ a, a ≠ x.addr → (t.panel? a).map Panel.record = (s.panel? a).map Panel.record) ∧
      t.time = { s.time with subMs := max s.time.subMs (min ms 999) } ∧ t.facts = s.facts ∧ t.cues = s.cues ∧
      t.wall.board = s.wall.board ∧ t.lines = s.lines ∧ t.sense = s.sense ∧ t.store = s.store ∧
      t.inForce = s.inForce ∧ ∀ p, t.link p = s.link p

/-- R148, R132, R133, R141, R142, R114, R116, R124, R127: whatever starts an exchange sends the panel its desired
level lowered to the ceiling, and to 6 under overtemperature, under the next sequence number, and records that level
and the desired tag as sent. An IDLE bus serves the first entry of the urgent list whose panel is ACTIVE or PROBING
and stale, the entries before it leaving the list; with none such, the first panel in need of service from the refresh
pointer on, which moves behind it. A tag that differs is sent a content frame, anything else a level frame. The
content is the page that the desired tag names, composed from the picture as it stands. -/
def Obligations.FramesKeepTheLevelCaps : Prop :=
  (∀ (i : Instr) (s t : State), s.PanelsOk → exec i s = .next t → t.bus.seq ≠ s.bus.seq →
    (i ≠ .powerOn → i ≠ .resetPin → (∀ cut, i ≠ .powerLoss cut) → t.bus.seq = s.bus.seq + 1) ∧
    ∀ x, t.bus.exchange = some x →
      x.seq = t.bus.seq ∧ x.phase = .sending ∧ x.level ≤ t.inForce.ceiling ∧
        ∃ q, t.panel? x.addr = some q ∧ q.state ≠ .absent ∧ (q.overtemp = true → x.level ≤ 6) ∧
          x.level = min (min q.desiredLevel t.inForce.ceiling) (if q.overtemp then 6 else 15) ∧
          q.sentLevel = some x.level ∧ (x.content ≠ .polf → q.sent = q.desired)) ∧
  ∀ s : State, s.PanelsOk →
    (s.bus.exchange ≠ none → s.dispatch = s) ∧
    ∀ wants : Panel → Prop,
      (∀ q, wants q ↔
        (q.state = .active ∨ q.state = .probing) ∧ (q.desired ≠ q.acked ∨ q.ackedLevel ≠ some q.desiredLevel)) →
      s.bus.exchange = none →
        (∀ before u after q, s.bus.urgent = before ++ u :: after → s.panel? u.addr = some q → wants q →
          (∀ b ∈ before, ∀ r, s.panel? b.addr = some r → ¬wants r) →
            ∃ x, s.dispatch.bus.exchange = some x ∧ x.addr = u.addr ∧ x.urgent = some u.retries ∧
              x.content = (if q.desired ≠ q.acked then s.composeContent q else .polf) ∧ x.startState = q.state ∧
              s.dispatch.bus.urgent = after ∧ s.dispatch.bus.pointer = s.bus.pointer) ∧
        ((∀ u ∈ s.bus.urgent, ∀ r, s.panel? u.addr = some r → ¬wants r) →
          s.dispatch.bus.urgent = [] ∧
          (∀ q ∈ s.bus.panels, (wants q ∨ s.keepaliveIsDue q = true ∨ s.probeIsDue q = true) →
            (∀ b ∈ s.bus.panels, (wants b ∨ s.keepaliveIsDue b = true ∨ s.probeIsDue b = true) →
              (if s.bus.pointer ≤ q.addr then q.addr else q.addr + 60) ≤
                if s.bus.pointer ≤ b.addr then b.addr else b.addr + 60) →
              ∃ x, s.dispatch.bus.exchange = some x ∧ x.addr = q.addr ∧ x.urgent = none ∧
                (wants q → q.desired ≠ q.acked → x.content = s.composeContent q) ∧
                (¬wants q ∨ q.desired = q.acked → x.content = .polf) ∧
                x.startState = q.state ∧ s.dispatch.bus.pointer = if q.addr ≥ 60 then 1 else q.addr + 1) ∧
          ((∀ q ∈ s.bus.panels, ¬wants q ∧ s.keepaliveIsDue q = false ∧ s.probeIsDue q = false) →
            s.dispatch.bus.exchange = none ∧ s.dispatch.bus.pointer = s.bus.pointer)) ∧
        (s.WallOk → ∀ q : Panel, s.Composed q (s.composeContent q))

/-- R73, R144 to R146: at the end of an interval the error counter of every ACTIVE panel addressed in it rises or
falls, a panel at the threshold goes FAILED with a notice, every interval flag is cleared and the next interval
begins. The failed panel of lowest address, which is the first taken (log entry 37), waives the row part of an OPEN
change record whose entry it showed and the gate part of one that waits for it, in NORMAL mode. A command whose event
does not arise in the state changes nothing (the model's choice, log entry 4). -/
def Obligations.IntervalEndsJudgeThePanels : Prop :=
  ∀ (s : State) (ms now : Nat), s.powered = true → now = s.time.runMs + max s.time.subMs (min ms 999) →
    (now < s.bus.intervalEnd → exec (.intervalEnd ms) s = .next s) ∧
      (s.bus.intervalEnd ≤ now → s.PanelsOk →
        ∃ t, exec (.intervalEnd ms) s = .next t ∧
          t.bus.intervalEnd = s.bus.intervalEnd + 1000 * s.inForce.interval ∧
          (∀ a q, s.panel? a = some q →
            ∃ r, t.panel? a = some r ∧
              ∀ ec, ec = (if q.errored then q.ec + s.inForce.increment else q.ec - s.inForce.decrement) →
                (q.state = .active → q.addressed = true → ec < s.inForce.failThreshold →
                  r.record = { q.record with addressed := false, errored := false, ec := ec }) ∧
                  (q.state = .active → q.addressed = true → s.inForce.failThreshold ≤ ec →
                    r.record =
                        { q.record with
                          addressed := false, errored := false, ec := 0, goodRun := 0, state := .failed } ∧
                      (⟨.panelFailed, .panel a, s.time.clock⟩ ∈ (t.port .planning).notices ∨
                        (t.port .planning).overflow = true)) ∧
                  (q.state ≠ .active ∨ q.addressed = false →
                    r.record = { q.record with addressed := false, errored := false })) ∧
          (∀ fails : Panel → Prop,
            (∀ q, fails q ↔
              q.state = .active ∧ q.addressed = true ∧
                s.inForce.failThreshold ≤
                  if q.errored then q.ec + s.inForce.increment else q.ec - s.inForce.decrement) →
            ∀ a q, s.panel? a = some q → fails q → (∀ b ∈ s.bus.panels, b.addr < a → ¬fails b) → s.WaivedBy t a) ∧
          (s.wall.mode ≠ .normal → t.tracker = s.tracker) ∧
          t.time = { s.time with subMs := max s.time.subMs (min ms 999) } ∧ t.facts = s.facts ∧ t.cues = s.cues ∧
          t.wall.board = s.wall.board ∧ t.lines = s.lines ∧ t.sense = s.sense ∧ t.store = s.store ∧
          t.inForce = s.inForce ∧ ∀ p, t.link p = s.link p)

/-! ## Light and line sensing (R151 to R160) -/

/-- R153, R154, R152, R158 to R160: the scan timer restarts at every expiry; with no pass in progress a pass begins at
the lowest used light channel with no reading held, converted at once by an idle converter; with no channel used it ends
at once, and each zone is computed from no reading; a conversion's value becomes the
channel's reading and the next used channel is converted. A command whose event does not arise in the state changes
nothing (the model's choice, log entry 4). -/
def Obligations.PassesReadTheUsedChannels : Prop :=
  (∀ (s : State) (ms now : Nat), s.powered = true → s.SenseOk → now = s.time.runMs + max s.time.subMs (min ms 999) →
      (now < s.sense.scanDue → exec (.passTrigger ms) s = .next s) ∧
        (s.sense.scanDue ≤ now →
          ∃ t, exec (.passTrigger ms) s = .next t ∧ t.sense.scanDue = s.sense.scanDue + s.inForce.scanPeriod ∧
            t.time = { s.time with subMs := max s.time.subMs (min ms 999) } ∧ t.sense.queue = s.sense.queue ∧
            (s.sense.position ≠ none →
              t = { s with time := t.time, sense := { s.sense with scanDue := t.sense.scanDue } }) ∧
            (s.sense.position = none →
              t.sense.channels = (s.sense.channels.map fun c => { c with reading := none }) ∧
                ((∀ c ∈ s.sense.channels, c.zone = 0) → t.sense.position = none ∧
                  t.sense.converter = s.sense.converter ∧ (∀ z ∈ s.sense.zones, s.ZonePassed t z []) ∧
                  ∀ p, (t.port p).notices = (s.port p).notices) ∧
                ∀ (before after : List LightChannel) (c : LightChannel),
                  s.sense.channels = before ++ c :: after → c.zone ≠ 0 → (∀ b ∈ before, b.zone = 0) →
                    t.sense.position = some c.no ∧ t.sense.zones = s.sense.zones ∧
                      t.sense.converter =
                        if s.sense.converter = .idle then .light c.no else s.sense.converter) ∧
            t.facts = s.facts ∧ t.cues = s.cues ∧ t.lines = s.lines ∧ t.store = s.store ∧
            t.wall.board = s.wall.board ∧ ∀ p, t.link p = s.link p)) ∧
    (∀ (s : State) (ms : Nat) (value : BitVec 10) (c : Nat) (before between after : List LightChannel)
        (k n : LightChannel), s.powered = true → s.SenseOk → s.sense.converter = .light c →
      s.sense.channels = before ++ k :: between ++ n :: after → k.no = c → (∀ b ∈ between, b.zone = 0) →
      n.zone ≠ 0 →
        ∃ t, exec (.lightConversionComplete ms value) s = .next t ∧
          t.sense =
            { s.sense with
              channels := before ++ { k with reading := some value.toNat } :: between ++ n :: after
              position := some n.no, converter := .light n.no } ∧
          t.facts = s.facts ∧ t.cues = s.cues ∧ t.lines = s.lines ∧ t.store = s.store ∧
          t.wall.board = s.wall.board ∧ ∀ p, t.link p = s.link p) ∧
    ∀ (s : State) (ms : Nat) (value : BitVec 10), (∀ c, s.sense.converter ≠ .light c) →
      exec (.lightConversionComplete ms value) s = .next s

/-- R154, R155, R158 to R160: at the end of a pass each used channel is classed, four faulty readings running set its
fault flag with a notice and four good ones clear it; each zone takes the band of the average of its usable readings,
with the hysteresis of both directions, and moves its level one step toward it between floor and ceiling; a zone whose
level moved gives its panels that level. -/
def Obligations.PassEndsSetTheLevels : Prop :=
  ∀ (s : State) (ms : Nat) (value : BitVec 10) (c : Nat), s.powered = true → s.SenseOk → s.PanelsOk →
    s.sense.converter = .light c → (∀ k ∈ s.sense.channels, k.no = c → k.zone ≠ 0) →
    (∀ k ∈ s.sense.channels, c < k.no → k.zone = 0) →
    ∀ reading : LightChannel → Option Nat,
      (∀ k, reading k = if k.no = c then some value.toNat else k.reading) →
      ∃ t, exec (.lightConversionComplete ms value) s = .next t ∧
        t.sense.position = none ∧ t.sense.converter = .idle ∧ t.sense.queue = [] ∧
        t.sense.scanDue = s.sense.scanDue ∧
        (∀ k ∈ s.sense.channels, ∃ k' ∈ t.sense.channels, k'.no = k.no ∧ k'.zone = k.zone ∧ k'.reading = none ∧
          (k.zone = 0 ∨ reading k = none →
            k'.faultyRun = k.faultyRun ∧ k'.goodRun = k.goodRun ∧ k'.fault = k.fault) ∧
          ∀ r, k.zone ≠ 0 → reading k = some r →
            (r ≤ 2 ∨ 1021 ≤ r →
              k'.faultyRun = min 4 (k.faultyRun + 1) ∧ k'.goodRun = 0 ∧
                (k'.fault = true ↔ k.fault = true ∨ 3 ≤ k.faultyRun) ∧
                (k.fault = false → 3 ≤ k.faultyRun →
                  ⟨.sensorFault, .light k.no, s.time.clock⟩ ∈ (t.port .planning).notices ∨
                    (t.port .planning).overflow = true)) ∧
              (3 ≤ r → r ≤ 1020 →
                k'.goodRun = min 4 (k.goodRun + 1) ∧ k'.faultyRun = 0 ∧
                  (k'.fault = true ↔ k.fault = true ∧ k.goodRun < 3))) ∧
        (∀ z ∈ s.sense.zones,
          s.ZonePassed t z
            (s.sense.channels.filterMap fun k =>
              if k.zone = z.no ∧ ¬(k.fault = true ∧ k.goodRun < 3) then
                (reading k).filter fun r => 3 ≤ r ∧ r ≤ 1020
              else none)) ∧
        t.facts = s.facts ∧ t.cues = s.cues ∧ t.lines = s.lines ∧ t.store = s.store ∧
        t.wall.board = s.wall.board ∧ ∀ p, t.link p = s.link p

/-- R156, R157, R172, R152: the midpoint of an impulse requests a line check once; it abandons a light conversion and
queues behind a check; a check of value at or above the threshold in force when it began finds current, its result
goes to the line's impulse, and the next conversion is a queued check, or else the light channel at the scan position.
A command whose event does not arise in the state changes nothing (the model's choice, log entry 4). -/
def Obligations.LineChecksGoFirst : Prop :=
  (∀ (s : State) (ms : Nat) (n : Fin 4), s.powered = true → s.SenseOk → s.LinesOk → ∀ l, s.line? n = some l →
      (∀ m, l.impulse = some m → m.asked = false →
        2 * m.start + m.width ≤ 2 * (s.time.runMs + max s.time.subMs (min ms 999)) →
          ∃ t, exec (.lineCheckRequest ms n) s = .next t ∧
            t = { s with time := t.time, lines := t.lines, sense := t.sense } ∧
            t.line? n = some { l with impulse := some { m with asked := true } } ∧
            (∀ k, k ≠ n → t.line? k = s.line? k) ∧
            (n ∈ s.sense.queue → t.sense = s.sense) ∧
            (n ∉ s.sense.queue →
              t.sense =
                { s.sense with
                  queue := s.sense.queue ++ [n]
                  converter :=
                    if s.sense.queue = [] then .check n s.inForce.lineThreshold else s.sense.converter })) ∧
        ((∀ m, l.impulse = some m → m.asked = true ∨
            2 * (s.time.runMs + max s.time.subMs (min ms 999)) < 2 * m.start + m.width) →
          exec (.lineCheckRequest ms n) s = .next s)) ∧
    (∀ (s : State) (ms : Nat) (value : BitVec 10) (n : Fin 4) (threshold : Nat), s.powered = true → s.SenseOk →
      s.LinesOk → s.sense.converter = .check n threshold →
        ∃ t, exec (.lineCheckComplete ms value) s = .next t ∧
          t = { s with time := t.time, lines := t.lines, sense := t.sense } ∧
          t.sense =
            { s.sense with
              queue := s.sense.queue.tail
              converter := match s.sense.queue.tail, s.sense.position with
                | m :: _, _ => .check m s.inForce.lineThreshold
                | [], some c => .light c
                | [], none => .idle } ∧
          (∀ k, k ≠ n → t.line? k = s.line? k) ∧
          ∀ l, s.line? n = some l →
            t.line? n =
              some (if l.impulse = none then l else { l with result := some (decide (threshold ≤ value.toNat)) })) ∧
    ∀ (s : State) (ms : Nat) (value : BitVec 10), (∀ n threshold, s.sense.converter ≠ .check n threshold) →
      exec (.lineCheckComplete ms value) s = .next s

/-! ## The impulse lines (R165 to R176) -/

/-- R174, R175, R176, R191: DIAL with no impulse in progress sets the dial, the polarity and the in-use flag, or takes
the line out of use, stores them, and decides the line at once; during an impulse it is held pending and nothing is
stored. Whether a line that waits in ADVANCE and stays there keeps its next impulse time (R170) or begins at once
(R174) is a free value (log entry 10). That a write puts the dial part whole, all four lines from their records, with
a good check is the model's reading (log entry 24). -/
def Obligations.DialSetsTheLine : Prop :=
  ∀ (s : State) (p : PortId) (seq : Octet) (f : DialFields), s.Taking p seq (.dial f) → s.LinesOk →
    (3 < f.line → exec (.dial p) s = .next (s.answerTel p ((Telegram.dial f).tel seq) (.badField 1))) ∧
      (f.line ≤ 3 → 1 < f.action →
        exec (.dial p) s = .next (s.answerTel p ((Telegram.dial f).tel seq) (.badField 2))) ∧
      (∀ position polarity, f.line ≤ 3 → f.action ≤ 1 → f.setting = some (position, polarity) →
        (719 < position → exec (.dial p) s = .next (s.answerTel p ((Telegram.dial f).tel seq) (.badField 3))) ∧
          (position ≤ 719 → 1 < polarity →
            exec (.dial p) s = .next (s.answerTel p ((Telegram.dial f).tel seq) (.badField 4)))) ∧
      ∀ (n : Fin 4) (l : Line), f.line = n.val → f.action ≤ 1 → s.line? n = some l →
        (∀ position polarity, f.setting = some (position, polarity) → position ≤ 719 ∧ polarity ≤ 1) →
          ∃ t l', exec (.dial p) s = .next t ∧ t.line? n = some l' ∧ (∀ k, k ≠ n → t.line? k = s.line? k) ∧
            s.Answered t p seq (.dial f)
              (.accept (.line l'.state l'.dial l'.polarity l'.missed (decide (l'.pendingDial ≠ none)))) ∧
            t = { s with ports := t.ports, lines := t.lines, store := t.store } ∧
            (∀ q, (t.port q).notices = (s.port q).notices) ∧ t.store.configuration = s.store.configuration ∧
            (l.impulse ≠ none →
              t.store = s.store ∧
                l' =
                  { l with
                    pendingDial :=
                      some
                        (match f.setting with
                        | some (position, polarity) => .set position (if polarity = 0 then .pos else .neg)
                        | none => .off) }) ∧
            (l.impulse = none → t.DialsStored ∧
              (f.setting = none → l' = { l with inUse := false, state := .off, nextAt := none }) ∧
              ∀ position polarity, f.setting = some (position, polarity) →
                l'.dial = position ∧ l'.polarity = (if polarity = 0 then .pos else .neg) ∧ l'.missed = 0 ∧
                  l'.inUse = true ∧
                  (s.time.state = .unset → l'.state = .paused ∧ l'.impulse = none ∧ l'.nextAt = none) ∧
                  (s.time.state ≠ .unset → ∀ d, d < 720 → (position + d) % 720 = s.time.clock / 60 % 720 →
                    Line.PlacedBy s.inForce s.runTime false { l with
                        polarity := l'.polarity
                        nextAt := if Config.dialKeepsNext then l.nextAt else none } l' d))

/-- R167 to R170, R172, R173, R175, R176, R191: the next impulse of an ADVANCE line begins at its time. At the end of
an impulse that found current the dial moves one minute, the polarity reverses and both are stored; one that found
none counts a miss, and the third in a row puts the line into FAULT with a notice. A DIAL held pending is applied
instead. A line in ADVANCE, or with a decision deferred, is then decided, a fast impulse following no sooner than the
fast period and the rest, and a RUN line one minute behind by a deferred minute advance giving its normal impulse at
once. That a minute advance called for it is remembered (log entry 9), and it is called off also by a pending OFF (log
entry 39), which keeps the missed count (log entry 48). A write puts the dial part whole, all four lines from their
records, with a good check (the model's reading, log entry 24). A command whose event does not arise in the state
changes nothing (the model's choice, log entry 4). -/
def Obligations.ImpulsesMoveTheDial : Prop :=
  ∀ (s : State) (ms : Nat) (n : Fin 4) (l : Line) (now : Nat), s.powered = true → s.LinesOk → s.line? n = some l →
    now = s.time.runMs + max s.time.subMs (min ms 999) →
    ((l.nextAt = none ∨ ∃ at', l.nextAt = some at' ∧ now < at') → exec (.nextImpulseTime ms n) s = .next s) ∧
      (∀ at', l.nextAt = some at' → at' ≤ now →
        ∃ t, exec (.nextImpulseTime ms n) s = .next t ∧ t = { s with time := t.time, lines := t.lines } ∧
          t.line? n = some { l with impulse := some (l.nextImpulse s.inForce now), nextAt := none } ∧
          ∀ k, k ≠ n → t.line? k = s.line? k) ∧
      ((∀ m, l.impulse = some m → now < m.start + m.width) → exec (.impulseEnd ms n) s = .next s) ∧
      ∀ m, l.impulse = some m → m.start + m.width ≤ now →
        ∃ t l', exec (.impulseEnd ms n) s = .next t ∧ t.line? n = some l' ∧ (∀ k, k ≠ n → t.line? k = s.line? k) ∧
          t = { s with time := t.time, ports := t.ports, lines := t.lines, store := t.store } ∧
          t.store.configuration = s.store.configuration ∧ (∀ q, t.link q = s.link q) ∧
          l'.result = none ∧ l'.pendingDial = none ∧ l'.deferred = false ∧
          (l.pendingDial = none → l.result = some true →
            l'.dial = (l.dial + 1) % 720 ∧ l'.polarity = (if l.polarity = .pos then .neg else .pos) ∧
              l'.missed = 0 ∧ t.DialsStored ∧ ∀ q, (t.port q).notices = (s.port q).notices) ∧
          (l.pendingDial = none → l.result ≠ some true →
            l'.dial = l.dial ∧ l'.polarity = l.polarity ∧ l'.missed = min 3 (l.missed + 1) ∧ t.store = s.store ∧
              (2 ≤ l.missed →
                l'.state = .fault ∧ l'.impulse = none ∧ l'.nextAt = none ∧
                  s.Noticed t .planning ⟨.clockFault, .line n, s.time.clock⟩) ∧
              (l.missed < 2 → ∀ q, (t.port q).notices = (s.port q).notices)) ∧
          (l.pendingDial = some .off →
            t.DialsStored ∧ l'.dial = l.dial ∧ l'.polarity = l.polarity ∧ l'.missed = l.missed ∧
              l'.inUse = false ∧ l'.state = .off ∧ l'.impulse = none ∧ l'.nextAt = none) ∧
          (∀ position polarity, l.pendingDial = some (.set position polarity) →
            t.DialsStored ∧ l'.dial = position ∧ l'.polarity = polarity ∧ l'.missed = 0 ∧ l'.inUse = true) ∧
          (l.pendingDial = none → l'.state ≠ .fault → l.state = .run → l.deferred = false →
            l'.state = .run ∧ l'.impulse = none ∧ l'.nextAt = none) ∧
          ((∃ position polarity, l.pendingDial = some (.set position polarity)) ∨
              (l.pendingDial = none ∧ (l.state = .advance ∨ l.deferred = true) ∧ l'.state ≠ .fault) →
            (s.time.state = .unset → l'.state = .paused ∧ l'.impulse = none ∧ l'.nextAt = none) ∧
              (s.time.state ≠ .unset → ∀ d, d < 720 → (l'.dial + d) % 720 = s.time.clock / 60 % 720 →
                (d = 0 → l'.state = .run ∧ l'.impulse = none ∧ l'.nextAt = none) ∧
                  (d = 1 → l.state = .run → l.deferredMinute = true → l.pendingDial = none →
                    l'.state = .run ∧ l'.impulse = some (l'.nextImpulse s.inForce now) ∧ l'.nextAt = none) ∧
                  (1 ≤ d → d ≤ s.inForce.advanceLimit →
                    ¬(d = 1 ∧ l.state = .run ∧ l.deferredMinute = true ∧ l.pendingDial = none) →
                      l'.state = .advance ∧ l'.impulse = none ∧
                        l'.nextAt =
                          some (max (m.start + 1000 * s.inForce.fastPeriod) (m.start + m.width + 100))) ∧
                  (s.inForce.advanceLimit < d →
                    ¬(d = 1 ∧ l.state = .run ∧ l.deferredMinute = true ∧ l.pendingDial = none) →
                      l'.state = .hold ∧ l'.impulse = none ∧ l'.nextAt = none)))

/-! ## Rules of the whole machine, and what every step keeps -/

/-- R47 to R53, R173 to R176, R188 to R192: only the commands named move the clock, a dial, the configuration in
force, and either part of the retention store; no telegram but DIAL and TIME, and no event but a second, an impulse
end or a reset, reaches a dial or the clock. -/
def Obligations.OnlyTheseCommandsMove : Prop :=
  ∀ (i : Instr) (s t : State), exec i s = .next t → i ≠ .powerOn → i ≠ .resetPin → (∀ cut, i ≠ .powerLoss cut) →
    ((∀ p, i ≠ .time p) → i ≠ .runningSecond → i ≠ .minuteAdvance →
      t.time.clock = s.time.clock ∧ t.time.runSec = s.time.runSec ∧ t.time.slew = s.time.slew) ∧
      ((∀ p, i ≠ .dial p) → (∀ ms n, i ≠ .impulseEnd ms n) →
        (t.lines.map fun l => (l.no, l.dial, l.polarity, l.missed, l.inUse)) =
            (s.lines.map fun l => (l.no, l.dial, l.polarity, l.missed, l.inUse)) ∧
          t.store.dials = s.store.dials) ∧
      ((∀ p, i ≠ .conf p) → (∀ p, i ≠ .rset p) → t.inForce = s.inForce ∧ t.pendingCfg = s.pendingCfg) ∧
      ((∀ p, i ≠ .csav p) → t.store.configuration = s.store.configuration) ∧
      ((∀ p, i ≠ .wall p) → (∀ p, i ≠ .note p) → (∀ p, i ≠ .nclr p) → (∀ number, i ≠ .noticeExpiry number) →
        (∀ p, i ≠ .rset p) → t.wall.mode = s.wall.mode) ∧
      ((∀ p, i ≠ .plan p) → ∀ x ∈ t.table.entries, ∃ e ∈ s.table.entries, x.run = e.run)

/-- R188, R198, R191: every step keeps each parameter, in force, pending and stored, within its range. -/
def Obligations.ConfigurationStaysInRange : Prop :=
  ∀ s t : State, s.ConfigOk → step s = .next t → t.ConfigOk

/-- R2, R26, R39, R43, R46, R64, R65, R77: every step keeps the table in strict order of its key with no run twice, at
most 96 entries and A equal to As plus Dd, and the change records in their slots with one OPEN record a run, each
named by its entry, which is in service; the clock and the slew remainder keep their ranges and an unset clock has an
empty table. -/
def Obligations.TableTimeAndRecordsStayInOrder : Prop :=
  ∀ s t : State, step s = .next t →
    (s.ConfigOk → s.TableOk → t.TableOk) ∧ (s.ConfigOk → s.TimeOk → t.TimeOk) ∧ (s.TrackerOk → t.TrackerOk) ∧
      (s.ConfigOk → s.TableOk → s.TrackerOk → s.RecordsNamed → t.RecordsNamed)

/-- R83, R84, R93, R99: every step keeps at most 32 cues, their numbers distinct in 1..255, one of a kind for a run,
no more of them TAKEN than there are PA channels, and no zone under two TAKEN cues. Every cue names a run of the
table, and those of a RETIRING entry are TAKEN and marked pending drop. -/
def Obligations.CuesStayWithinTheirChannels : Prop :=
  ∀ s t : State, step s = .next t →
    (s.CuesOk ∧ s.SpeechOk → t.CuesOk ∧ t.SpeechOk) ∧ (s.ConfigOk → s.TableOk → s.CuesOk → s.CuesNamed → t.CuesNamed)

/-- R79, R110 to R115, R117, R121, R122, R126, R106, R187: every step leaves the row map, the gate choices, the
rotation list and every desired tag as they would be formed afresh, and every attention line as its condition says. So
formed, the row map holds the first displayable entries on the ACTIVE row panels in ascending row index, each gate
panel shows the first entry in table order that leaves from its platform or sends passengers from it, the rotation
holds the posted notices and then the delay items, and every panel wants what its role and the wall mode name. It
keeps at most 12 notices posted, each within its ranges and no number twice, the NOTICE mode only with a notice of
priority 0, and the current item, with its dwell, in a rotation list that names nothing twice. A record left by a
removed entry of the same run counts for the gate panels (the model's choice, log entry 52). -/
def Obligations.ThePictureStaysCurrent : Prop :=
  ∀ s t : State, s.ConfigOk → s.TableOk → s.TimeOk → step s = .next t →
    (s.DesiredCurrent ∧ s.PictureCurrent →
        t.DesiredCurrent ∧ t.PictureCurrent ∧ (s.PanelsOk → s.WallOk → t.PictureShown)) ∧ (s.AttentionOk → t.AttentionOk) ∧
      (s.WallOk → t.WallOk)

/-- R130, R139, R141, R145, R152, R156, R165, R173, R181, R182: every step keeps the error counter of an ACTIVE panel
below the threshold, an IDLE bus with no panel waiting for a frame, the converter at the head of its queue, every dial
in 0..719, every port's buffer and service in step, and every level at most 15, or 6 in overtemperature (R158, R160). -/
def Obligations.PanelsSensorsLinesAndPortsStayWhole : Prop :=
  ∀ s t : State, step s = .next t →
    (s.ConfigOk → s.PanelsOk → t.PanelsOk) ∧ (s.BusOk → t.BusOk) ∧ (s.SenseOk → t.SenseOk) ∧
      (s.LinesOk → t.LinesOk) ∧ (s.PortsOk → t.PortsOk) ∧ (s.ConfigOk → s.PanelsOk → s.LevelsOk → t.LevelsOk)

/-- The state right after reset meets every invariant, has no change record, no cue and no entry, and its lines stand
in FAULT with the stored configuration invalid (the model's choice of an unwritten store, log entry 1). -/
def Obligations.ResetMeetsEveryInvariant : Prop :=
  State.reset.ConfigOk ∧ State.reset.TableOk ∧ State.reset.TimeOk ∧ State.reset.TrackerOk ∧ State.reset.CuesOk ∧
    State.reset.SpeechOk ∧ State.reset.DesiredCurrent ∧ State.reset.PictureCurrent ∧ State.reset.AttentionOk ∧
    State.reset.RecordsNamed ∧ State.reset.CuesNamed ∧ State.reset.WallOk ∧ State.reset.LevelsOk ∧
    State.reset.PanelsOk ∧ State.reset.BusOk ∧ State.reset.SenseOk ∧ State.reset.LinesOk ∧ State.reset.PortsOk ∧
    State.reset.table.entries = [] ∧ State.reset.cues.list = [] ∧ State.reset.tracker.records = [] ∧
    (∀ l ∈ State.reset.lines, l.state = .fault) ∧ State.reset.store.configuration.good = false
end

