-- ==== Sys2Proof/Laws/State.lean ====
section
/-! SUPPORT. One lemma per field per update of the state: what an update leaves as it was, true by unfolding. -/
namespace Sys2Proof.Machine

open Sys2Proof

@[simp] theorem State.atMs_pending (ms : Nat) (s : State) : (s.atMs ms).pending = s.pending := rfl
@[simp] theorem State.atMs_powered (ms : Nat) (s : State) : (s.atMs ms).powered = s.powered := rfl
@[simp] theorem State.atMs_inForce (ms : Nat) (s : State) : (s.atMs ms).inForce = s.inForce := rfl
@[simp] theorem State.atMs_pendingCfg (ms : Nat) (s : State) : (s.atMs ms).pendingCfg = s.pendingCfg := rfl
@[simp] theorem State.atMs_ports (ms : Nat) (s : State) : (s.atMs ms).ports = s.ports := rfl
@[simp] theorem State.atMs_table (ms : Nat) (s : State) : (s.atMs ms).table = s.table := rfl
@[simp] theorem State.atMs_tracker (ms : Nat) (s : State) : (s.atMs ms).tracker = s.tracker := rfl
@[simp] theorem State.atMs_cues (ms : Nat) (s : State) : (s.atMs ms).cues = s.cues := rfl
@[simp] theorem State.atMs_wall (ms : Nat) (s : State) : (s.atMs ms).wall = s.wall := rfl
@[simp] theorem State.atMs_bus (ms : Nat) (s : State) : (s.atMs ms).bus = s.bus := rfl
@[simp] theorem State.atMs_sense (ms : Nat) (s : State) : (s.atMs ms).sense = s.sense := rfl
@[simp] theorem State.atMs_lines (ms : Nat) (s : State) : (s.atMs ms).lines = s.lines := rfl
@[simp] theorem State.atMs_store (ms : Nat) (s : State) : (s.atMs ms).store = s.store := rfl

@[simp] theorem State.updPort_pending (p : PortId) (f : Port → Port) (s : State) : (s.updPort p f).pending = s.pending := rfl
@[simp] theorem State.updPort_powered (p : PortId) (f : Port → Port) (s : State) : (s.updPort p f).powered = s.powered := rfl
@[simp] theorem State.updPort_inForce (p : PortId) (f : Port → Port) (s : State) : (s.updPort p f).inForce = s.inForce := rfl
@[simp] theorem State.updPort_pendingCfg (p : PortId) (f : Port → Port) (s : State) : (s.updPort p f).pendingCfg = s.pendingCfg := rfl
@[simp] theorem State.updPort_time (p : PortId) (f : Port → Port) (s : State) : (s.updPort p f).time = s.time := rfl
@[simp] theorem State.updPort_table (p : PortId) (f : Port → Port) (s : State) : (s.updPort p f).table = s.table := rfl
@[simp] theorem State.updPort_tracker (p : PortId) (f : Port → Port) (s : State) : (s.updPort p f).tracker = s.tracker := rfl
@[simp] theorem State.updPort_cues (p : PortId) (f : Port → Port) (s : State) : (s.updPort p f).cues = s.cues := rfl
@[simp] theorem State.updPort_wall (p : PortId) (f : Port → Port) (s : State) : (s.updPort p f).wall = s.wall := rfl
@[simp] theorem State.updPort_bus (p : PortId) (f : Port → Port) (s : State) : (s.updPort p f).bus = s.bus := rfl
@[simp] theorem State.updPort_sense (p : PortId) (f : Port → Port) (s : State) : (s.updPort p f).sense = s.sense := rfl
@[simp] theorem State.updPort_lines (p : PortId) (f : Port → Port) (s : State) : (s.updPort p f).lines = s.lines := rfl
@[simp] theorem State.updPort_store (p : PortId) (f : Port → Port) (s : State) : (s.updPort p f).store = s.store := rfl

@[simp] theorem State.withEntries_pending (l : List Entry) (s : State) : (s.withEntries l).pending = s.pending := rfl
@[simp] theorem State.withEntries_powered (l : List Entry) (s : State) : (s.withEntries l).powered = s.powered := rfl
@[simp] theorem State.withEntries_inForce (l : List Entry) (s : State) : (s.withEntries l).inForce = s.inForce := rfl
@[simp] theorem State.withEntries_pendingCfg (l : List Entry) (s : State) : (s.withEntries l).pendingCfg = s.pendingCfg := rfl
@[simp] theorem State.withEntries_ports (l : List Entry) (s : State) : (s.withEntries l).ports = s.ports := rfl
@[simp] theorem State.withEntries_time (l : List Entry) (s : State) : (s.withEntries l).time = s.time := rfl
@[simp] theorem State.withEntries_tracker (l : List Entry) (s : State) : (s.withEntries l).tracker = s.tracker := rfl
@[simp] theorem State.withEntries_cues (l : List Entry) (s : State) : (s.withEntries l).cues = s.cues := rfl
@[simp] theorem State.withEntries_wall (l : List Entry) (s : State) : (s.withEntries l).wall = s.wall := rfl
@[simp] theorem State.withEntries_bus (l : List Entry) (s : State) : (s.withEntries l).bus = s.bus := rfl
@[simp] theorem State.withEntries_sense (l : List Entry) (s : State) : (s.withEntries l).sense = s.sense := rfl
@[simp] theorem State.withEntries_lines (l : List Entry) (s : State) : (s.withEntries l).lines = s.lines := rfl
@[simp] theorem State.withEntries_store (l : List Entry) (s : State) : (s.withEntries l).store = s.store := rfl

@[simp] theorem State.updEntry_pending (run : Nat) (f : Entry → Entry) (s : State) : (s.updEntry run f).pending = s.pending := rfl
@[simp] theorem State.updEntry_powered (run : Nat) (f : Entry → Entry) (s : State) : (s.updEntry run f).powered = s.powered := rfl
@[simp] theorem State.updEntry_inForce (run : Nat) (f : Entry → Entry) (s : State) : (s.updEntry run f).inForce = s.inForce := rfl
@[simp] theorem State.updEntry_pendingCfg (run : Nat) (f : Entry → Entry) (s : State) : (s.updEntry run f).pendingCfg = s.pendingCfg := rfl
@[simp] theorem State.updEntry_ports (run : Nat) (f : Entry → Entry) (s : State) : (s.updEntry run f).ports = s.ports := rfl
@[simp] theorem State.updEntry_time (run : Nat) (f : Entry → Entry) (s : State) : (s.updEntry run f).time = s.time := rfl
@[simp] theorem State.updEntry_tracker (run : Nat) (f : Entry → Entry) (s : State) : (s.updEntry run f).tracker = s.tracker := rfl
@[simp] theorem State.updEntry_cues (run : Nat) (f : Entry → Entry) (s : State) : (s.updEntry run f).cues = s.cues := rfl
@[simp] theorem State.updEntry_wall (run : Nat) (f : Entry → Entry) (s : State) : (s.updEntry run f).wall = s.wall := rfl
@[simp] theorem State.updEntry_bus (run : Nat) (f : Entry → Entry) (s : State) : (s.updEntry run f).bus = s.bus := rfl
@[simp] theorem State.updEntry_sense (run : Nat) (f : Entry → Entry) (s : State) : (s.updEntry run f).sense = s.sense := rfl
@[simp] theorem State.updEntry_lines (run : Nat) (f : Entry → Entry) (s : State) : (s.updEntry run f).lines = s.lines := rfl
@[simp] theorem State.updEntry_store (run : Nat) (f : Entry → Entry) (s : State) : (s.updEntry run f).store = s.store := rfl

@[simp] theorem State.rederive_pending (s : State) : (s.rederive).pending = s.pending := rfl
@[simp] theorem State.rederive_powered (s : State) : (s.rederive).powered = s.powered := rfl
@[simp] theorem State.rederive_inForce (s : State) : (s.rederive).inForce = s.inForce := rfl
@[simp] theorem State.rederive_pendingCfg (s : State) : (s.rederive).pendingCfg = s.pendingCfg := rfl
@[simp] theorem State.rederive_ports (s : State) : (s.rederive).ports = s.ports := rfl
@[simp] theorem State.rederive_time (s : State) : (s.rederive).time = s.time := rfl
@[simp] theorem State.rederive_tracker (s : State) : (s.rederive).tracker = s.tracker := rfl
@[simp] theorem State.rederive_cues (s : State) : (s.rederive).cues = s.cues := rfl
@[simp] theorem State.rederive_wall (s : State) : (s.rederive).wall = s.wall := rfl
@[simp] theorem State.rederive_bus (s : State) : (s.rederive).bus = s.bus := rfl
@[simp] theorem State.rederive_sense (s : State) : (s.rederive).sense = s.sense := rfl
@[simp] theorem State.rederive_lines (s : State) : (s.rederive).lines = s.lines := rfl
@[simp] theorem State.rederive_store (s : State) : (s.rederive).store = s.store := rfl

@[simp] theorem State.updPanel_pending (addr : Nat) (f : Panel → Panel) (s : State) : (s.updPanel addr f).pending = s.pending := rfl
@[simp] theorem State.updPanel_powered (addr : Nat) (f : Panel → Panel) (s : State) : (s.updPanel addr f).powered = s.powered := rfl
@[simp] theorem State.updPanel_inForce (addr : Nat) (f : Panel → Panel) (s : State) : (s.updPanel addr f).inForce = s.inForce := rfl
@[simp] theorem State.updPanel_pendingCfg (addr : Nat) (f : Panel → Panel) (s : State) : (s.updPanel addr f).pendingCfg = s.pendingCfg := rfl
@[simp] theorem State.updPanel_ports (addr : Nat) (f : Panel → Panel) (s : State) : (s.updPanel addr f).ports = s.ports := rfl
@[simp] theorem State.updPanel_time (addr : Nat) (f : Panel → Panel) (s : State) : (s.updPanel addr f).time = s.time := rfl
@[simp] theorem State.updPanel_table (addr : Nat) (f : Panel → Panel) (s : State) : (s.updPanel addr f).table = s.table := rfl
@[simp] theorem State.updPanel_tracker (addr : Nat) (f : Panel → Panel) (s : State) : (s.updPanel addr f).tracker = s.tracker := rfl
@[simp] theorem State.updPanel_cues (addr : Nat) (f : Panel → Panel) (s : State) : (s.updPanel addr f).cues = s.cues := rfl
@[simp] theorem State.updPanel_wall (addr : Nat) (f : Panel → Panel) (s : State) : (s.updPanel addr f).wall = s.wall := rfl
@[simp] theorem State.updPanel_sense (addr : Nat) (f : Panel → Panel) (s : State) : (s.updPanel addr f).sense = s.sense := rfl
@[simp] theorem State.updPanel_lines (addr : Nat) (f : Panel → Panel) (s : State) : (s.updPanel addr f).lines = s.lines := rfl
@[simp] theorem State.updPanel_store (addr : Nat) (f : Panel → Panel) (s : State) : (s.updPanel addr f).store = s.store := rfl

@[simp] theorem State.appendUrgent_pending (run : Nat) (platform : Option Nat) (s : State) : (s.appendUrgent run platform).pending = s.pending := rfl
@[simp] theorem State.appendUrgent_powered (run : Nat) (platform : Option Nat) (s : State) : (s.appendUrgent run platform).powered = s.powered := rfl
@[simp] theorem State.appendUrgent_inForce (run : Nat) (platform : Option Nat) (s : State) : (s.appendUrgent run platform).inForce = s.inForce := rfl
@[simp] theorem State.appendUrgent_pendingCfg (run : Nat) (platform : Option Nat) (s : State) : (s.appendUrgent run platform).pendingCfg = s.pendingCfg := rfl
@[simp] theorem State.appendUrgent_ports (run : Nat) (platform : Option Nat) (s : State) : (s.appendUrgent run platform).ports = s.ports := rfl
@[simp] theorem State.appendUrgent_time (run : Nat) (platform : Option Nat) (s : State) : (s.appendUrgent run platform).time = s.time := rfl
@[simp] theorem State.appendUrgent_table (run : Nat) (platform : Option Nat) (s : State) : (s.appendUrgent run platform).table = s.table := rfl
@[simp] theorem State.appendUrgent_tracker (run : Nat) (platform : Option Nat) (s : State) : (s.appendUrgent run platform).tracker = s.tracker := rfl
@[simp] theorem State.appendUrgent_cues (run : Nat) (platform : Option Nat) (s : State) : (s.appendUrgent run platform).cues = s.cues := rfl
@[simp] theorem State.appendUrgent_wall (run : Nat) (platform : Option Nat) (s : State) : (s.appendUrgent run platform).wall = s.wall := rfl
@[simp] theorem State.appendUrgent_sense (run : Nat) (platform : Option Nat) (s : State) : (s.appendUrgent run platform).sense = s.sense := rfl
@[simp] theorem State.appendUrgent_lines (run : Nat) (platform : Option Nat) (s : State) : (s.appendUrgent run platform).lines = s.lines := rfl
@[simp] theorem State.appendUrgent_store (run : Nat) (platform : Option Nat) (s : State) : (s.appendUrgent run platform).store = s.store := rfl

@[simp] theorem State.updLine_pending (n : Fin 4) (f : Line → Line) (s : State) : (s.updLine n f).pending = s.pending := rfl
@[simp] theorem State.updLine_powered (n : Fin 4) (f : Line → Line) (s : State) : (s.updLine n f).powered = s.powered := rfl
@[simp] theorem State.updLine_inForce (n : Fin 4) (f : Line → Line) (s : State) : (s.updLine n f).inForce = s.inForce := rfl
@[simp] theorem State.updLine_pendingCfg (n : Fin 4) (f : Line → Line) (s : State) : (s.updLine n f).pendingCfg = s.pendingCfg := rfl
@[simp] theorem State.updLine_ports (n : Fin 4) (f : Line → Line) (s : State) : (s.updLine n f).ports = s.ports := rfl
@[simp] theorem State.updLine_time (n : Fin 4) (f : Line → Line) (s : State) : (s.updLine n f).time = s.time := rfl
@[simp] theorem State.updLine_table (n : Fin 4) (f : Line → Line) (s : State) : (s.updLine n f).table = s.table := rfl
@[simp] theorem State.updLine_tracker (n : Fin 4) (f : Line → Line) (s : State) : (s.updLine n f).tracker = s.tracker := rfl
@[simp] theorem State.updLine_cues (n : Fin 4) (f : Line → Line) (s : State) : (s.updLine n f).cues = s.cues := rfl
@[simp] theorem State.updLine_wall (n : Fin 4) (f : Line → Line) (s : State) : (s.updLine n f).wall = s.wall := rfl
@[simp] theorem State.updLine_bus (n : Fin 4) (f : Line → Line) (s : State) : (s.updLine n f).bus = s.bus := rfl
@[simp] theorem State.updLine_sense (n : Fin 4) (f : Line → Line) (s : State) : (s.updLine n f).sense = s.sense := rfl
@[simp] theorem State.updLine_store (n : Fin 4) (f : Line → Line) (s : State) : (s.updLine n f).store = s.store := rfl

@[simp] theorem State.settleAttention_pending (s : State) : (s.settleAttention).pending = s.pending := rfl
@[simp] theorem State.settleAttention_powered (s : State) : (s.settleAttention).powered = s.powered := rfl
@[simp] theorem State.settleAttention_inForce (s : State) : (s.settleAttention).inForce = s.inForce := rfl
@[simp] theorem State.settleAttention_pendingCfg (s : State) : (s.settleAttention).pendingCfg = s.pendingCfg := rfl
@[simp] theorem State.settleAttention_time (s : State) : (s.settleAttention).time = s.time := rfl
@[simp] theorem State.settleAttention_table (s : State) : (s.settleAttention).table = s.table := rfl
@[simp] theorem State.settleAttention_tracker (s : State) : (s.settleAttention).tracker = s.tracker := rfl
@[simp] theorem State.settleAttention_cues (s : State) : (s.settleAttention).cues = s.cues := rfl
@[simp] theorem State.settleAttention_wall (s : State) : (s.settleAttention).wall = s.wall := rfl
@[simp] theorem State.settleAttention_bus (s : State) : (s.settleAttention).bus = s.bus := rfl
@[simp] theorem State.settleAttention_sense (s : State) : (s.settleAttention).sense = s.sense := rfl
@[simp] theorem State.settleAttention_lines (s : State) : (s.settleAttention).lines = s.lines := rfl
@[simp] theorem State.settleAttention_store (s : State) : (s.settleAttention).store = s.store := rfl

@[simp] theorem State.withCues_pending (l : List Cue) (s : State) : (s.withCues l).pending = s.pending := rfl
@[simp] theorem State.withCues_powered (l : List Cue) (s : State) : (s.withCues l).powered = s.powered := rfl
@[simp] theorem State.withCues_inForce (l : List Cue) (s : State) : (s.withCues l).inForce = s.inForce := rfl
@[simp] theorem State.withCues_pendingCfg (l : List Cue) (s : State) : (s.withCues l).pendingCfg = s.pendingCfg := rfl
@[simp] theorem State.withCues_ports (l : List Cue) (s : State) : (s.withCues l).ports = s.ports := rfl
@[simp] theorem State.withCues_time (l : List Cue) (s : State) : (s.withCues l).time = s.time := rfl
@[simp] theorem State.withCues_table (l : List Cue) (s : State) : (s.withCues l).table = s.table := rfl
@[simp] theorem State.withCues_tracker (l : List Cue) (s : State) : (s.withCues l).tracker = s.tracker := rfl
@[simp] theorem State.withCues_wall (l : List Cue) (s : State) : (s.withCues l).wall = s.wall := rfl
@[simp] theorem State.withCues_bus (l : List Cue) (s : State) : (s.withCues l).bus = s.bus := rfl
@[simp] theorem State.withCues_sense (l : List Cue) (s : State) : (s.withCues l).sense = s.sense := rfl
@[simp] theorem State.withCues_lines (l : List Cue) (s : State) : (s.withCues l).lines = s.lines := rfl
@[simp] theorem State.withCues_store (l : List Cue) (s : State) : (s.withCues l).store = s.store := rfl

@[simp] theorem State.appendCue_pending (kind : CueKind) (run : Nat) (zones : List Nat) (due : Int) (s : State) : (s.appendCue kind run zones due).pending = s.pending := rfl
@[simp] theorem State.appendCue_powered (kind : CueKind) (run : Nat) (zones : List Nat) (due : Int) (s : State) : (s.appendCue kind run zones due).powered = s.powered := rfl
@[simp] theorem State.appendCue_inForce (kind : CueKind) (run : Nat) (zones : List Nat) (due : Int) (s : State) : (s.appendCue kind run zones due).inForce = s.inForce := rfl
@[simp] theorem State.appendCue_pendingCfg (kind : CueKind) (run : Nat) (zones : List Nat) (due : Int) (s : State) : (s.appendCue kind run zones due).pendingCfg = s.pendingCfg := rfl
@[simp] theorem State.appendCue_ports (kind : CueKind) (run : Nat) (zones : List Nat) (due : Int) (s : State) : (s.appendCue kind run zones due).ports = s.ports := rfl
@[simp] theorem State.appendCue_time (kind : CueKind) (run : Nat) (zones : List Nat) (due : Int) (s : State) : (s.appendCue kind run zones due).time = s.time := rfl
@[simp] theorem State.appendCue_table (kind : CueKind) (run : Nat) (zones : List Nat) (due : Int) (s : State) : (s.appendCue kind run zones due).table = s.table := rfl
@[simp] theorem State.appendCue_tracker (kind : CueKind) (run : Nat) (zones : List Nat) (due : Int) (s : State) : (s.appendCue kind run zones due).tracker = s.tracker := rfl
@[simp] theorem State.appendCue_wall (kind : CueKind) (run : Nat) (zones : List Nat) (due : Int) (s : State) : (s.appendCue kind run zones due).wall = s.wall := rfl
@[simp] theorem State.appendCue_bus (kind : CueKind) (run : Nat) (zones : List Nat) (due : Int) (s : State) : (s.appendCue kind run zones due).bus = s.bus := rfl
@[simp] theorem State.appendCue_sense (kind : CueKind) (run : Nat) (zones : List Nat) (due : Int) (s : State) : (s.appendCue kind run zones due).sense = s.sense := rfl
@[simp] theorem State.appendCue_lines (kind : CueKind) (run : Nat) (zones : List Nat) (due : Int) (s : State) : (s.appendCue kind run zones due).lines = s.lines := rfl
@[simp] theorem State.appendCue_store (kind : CueKind) (run : Nat) (zones : List Nat) (due : Int) (s : State) : (s.appendCue kind run zones due).store = s.store := rfl

@[simp] theorem State.withdrawWhere_pending (c : Cue → Bool) (s : State) : (s.withdrawWhere c).pending = s.pending := rfl
@[simp] theorem State.withdrawWhere_powered (c : Cue → Bool) (s : State) : (s.withdrawWhere c).powered = s.powered := rfl
@[simp] theorem State.withdrawWhere_inForce (c : Cue → Bool) (s : State) : (s.withdrawWhere c).inForce = s.inForce := rfl
@[simp] theorem State.withdrawWhere_pendingCfg (c : Cue → Bool) (s : State) : (s.withdrawWhere c).pendingCfg = s.pendingCfg := rfl
@[simp] theorem State.withdrawWhere_ports (c : Cue → Bool) (s : State) : (s.withdrawWhere c).ports = s.ports := rfl
@[simp] theorem State.withdrawWhere_time (c : Cue → Bool) (s : State) : (s.withdrawWhere c).time = s.time := rfl
@[simp] theorem State.withdrawWhere_table (c : Cue → Bool) (s : State) : (s.withdrawWhere c).table = s.table := rfl
@[simp] theorem State.withdrawWhere_tracker (c : Cue → Bool) (s : State) : (s.withdrawWhere c).tracker = s.tracker := rfl
@[simp] theorem State.withdrawWhere_wall (c : Cue → Bool) (s : State) : (s.withdrawWhere c).wall = s.wall := rfl
@[simp] theorem State.withdrawWhere_bus (c : Cue → Bool) (s : State) : (s.withdrawWhere c).bus = s.bus := rfl
@[simp] theorem State.withdrawWhere_sense (c : Cue → Bool) (s : State) : (s.withdrawWhere c).sense = s.sense := rfl
@[simp] theorem State.withdrawWhere_lines (c : Cue → Bool) (s : State) : (s.withdrawWhere c).lines = s.lines := rfl
@[simp] theorem State.withdrawWhere_store (c : Cue → Bool) (s : State) : (s.withdrawWhere c).store = s.store := rfl

@[simp] theorem State.withdraw_pending (kind : CueKind) (run : Nat) (s : State) : (s.withdraw kind run).pending = s.pending := rfl
@[simp] theorem State.withdraw_powered (kind : CueKind) (run : Nat) (s : State) : (s.withdraw kind run).powered = s.powered := rfl
@[simp] theorem State.withdraw_inForce (kind : CueKind) (run : Nat) (s : State) : (s.withdraw kind run).inForce = s.inForce := rfl
@[simp] theorem State.withdraw_pendingCfg (kind : CueKind) (run : Nat) (s : State) : (s.withdraw kind run).pendingCfg = s.pendingCfg := rfl
@[simp] theorem State.withdraw_ports (kind : CueKind) (run : Nat) (s : State) : (s.withdraw kind run).ports = s.ports := rfl
@[simp] theorem State.withdraw_time (kind : CueKind) (run : Nat) (s : State) : (s.withdraw kind run).time = s.time := rfl
@[simp] theorem State.withdraw_table (kind : CueKind) (run : Nat) (s : State) : (s.withdraw kind run).table = s.table := rfl
@[simp] theorem State.withdraw_tracker (kind : CueKind) (run : Nat) (s : State) : (s.withdraw kind run).tracker = s.tracker := rfl
@[simp] theorem State.withdraw_wall (kind : CueKind) (run : Nat) (s : State) : (s.withdraw kind run).wall = s.wall := rfl
@[simp] theorem State.withdraw_bus (kind : CueKind) (run : Nat) (s : State) : (s.withdraw kind run).bus = s.bus := rfl
@[simp] theorem State.withdraw_sense (kind : CueKind) (run : Nat) (s : State) : (s.withdraw kind run).sense = s.sense := rfl
@[simp] theorem State.withdraw_lines (kind : CueKind) (run : Nat) (s : State) : (s.withdraw kind run).lines = s.lines := rfl
@[simp] theorem State.withdraw_store (kind : CueKind) (run : Nat) (s : State) : (s.withdraw kind run).store = s.store := rfl

@[simp] theorem State.handoverWithdrawals_pending (old : Option Entry) (e : Entry) (s : State) : (s.handoverWithdrawals old e).pending = s.pending := rfl
@[simp] theorem State.handoverWithdrawals_powered (old : Option Entry) (e : Entry) (s : State) : (s.handoverWithdrawals old e).powered = s.powered := rfl
@[simp] theorem State.handoverWithdrawals_inForce (old : Option Entry) (e : Entry) (s : State) : (s.handoverWithdrawals old e).inForce = s.inForce := rfl
@[simp] theorem State.handoverWithdrawals_pendingCfg (old : Option Entry) (e : Entry) (s : State) : (s.handoverWithdrawals old e).pendingCfg = s.pendingCfg := rfl
@[simp] theorem State.handoverWithdrawals_ports (old : Option Entry) (e : Entry) (s : State) : (s.handoverWithdrawals old e).ports = s.ports := rfl
@[simp] theorem State.handoverWithdrawals_time (old : Option Entry) (e : Entry) (s : State) : (s.handoverWithdrawals old e).time = s.time := rfl
@[simp] theorem State.handoverWithdrawals_table (old : Option Entry) (e : Entry) (s : State) : (s.handoverWithdrawals old e).table = s.table := rfl
@[simp] theorem State.handoverWithdrawals_tracker (old : Option Entry) (e : Entry) (s : State) : (s.handoverWithdrawals old e).tracker = s.tracker := rfl
@[simp] theorem State.handoverWithdrawals_wall (old : Option Entry) (e : Entry) (s : State) : (s.handoverWithdrawals old e).wall = s.wall := rfl
@[simp] theorem State.handoverWithdrawals_bus (old : Option Entry) (e : Entry) (s : State) : (s.handoverWithdrawals old e).bus = s.bus := rfl
@[simp] theorem State.handoverWithdrawals_sense (old : Option Entry) (e : Entry) (s : State) : (s.handoverWithdrawals old e).sense = s.sense := rfl
@[simp] theorem State.handoverWithdrawals_lines (old : Option Entry) (e : Entry) (s : State) : (s.handoverWithdrawals old e).lines = s.lines := rfl
@[simp] theorem State.handoverWithdrawals_store (old : Option Entry) (e : Entry) (s : State) : (s.handoverWithdrawals old e).store = s.store := rfl

@[simp] theorem State.testCues_pending (s : State) : (s.testCues).pending = s.pending := rfl
@[simp] theorem State.testCues_powered (s : State) : (s.testCues).powered = s.powered := rfl
@[simp] theorem State.testCues_inForce (s : State) : (s.testCues).inForce = s.inForce := rfl
@[simp] theorem State.testCues_pendingCfg (s : State) : (s.testCues).pendingCfg = s.pendingCfg := rfl
@[simp] theorem State.testCues_ports (s : State) : (s.testCues).ports = s.ports := rfl
@[simp] theorem State.testCues_time (s : State) : (s.testCues).time = s.time := rfl
@[simp] theorem State.testCues_table (s : State) : (s.testCues).table = s.table := rfl
@[simp] theorem State.testCues_tracker (s : State) : (s.testCues).tracker = s.tracker := rfl
@[simp] theorem State.testCues_wall (s : State) : (s.testCues).wall = s.wall := rfl
@[simp] theorem State.testCues_bus (s : State) : (s.testCues).bus = s.bus := rfl
@[simp] theorem State.testCues_sense (s : State) : (s.testCues).sense = s.sense := rfl
@[simp] theorem State.testCues_lines (s : State) : (s.testCues).lines = s.lines := rfl
@[simp] theorem State.testCues_store (s : State) : (s.testCues).store = s.store := rfl

@[simp] theorem State.refollow_pending (kind : CueKind) (s : State) : (s.refollow kind).pending = s.pending := rfl
@[simp] theorem State.refollow_powered (kind : CueKind) (s : State) : (s.refollow kind).powered = s.powered := rfl
@[simp] theorem State.refollow_inForce (kind : CueKind) (s : State) : (s.refollow kind).inForce = s.inForce := rfl
@[simp] theorem State.refollow_pendingCfg (kind : CueKind) (s : State) : (s.refollow kind).pendingCfg = s.pendingCfg := rfl
@[simp] theorem State.refollow_ports (kind : CueKind) (s : State) : (s.refollow kind).ports = s.ports := rfl
@[simp] theorem State.refollow_time (kind : CueKind) (s : State) : (s.refollow kind).time = s.time := rfl
@[simp] theorem State.refollow_table (kind : CueKind) (s : State) : (s.refollow kind).table = s.table := rfl
@[simp] theorem State.refollow_tracker (kind : CueKind) (s : State) : (s.refollow kind).tracker = s.tracker := rfl
@[simp] theorem State.refollow_wall (kind : CueKind) (s : State) : (s.refollow kind).wall = s.wall := rfl
@[simp] theorem State.refollow_bus (kind : CueKind) (s : State) : (s.refollow kind).bus = s.bus := rfl
@[simp] theorem State.refollow_sense (kind : CueKind) (s : State) : (s.refollow kind).sense = s.sense := rfl
@[simp] theorem State.refollow_lines (kind : CueKind) (s : State) : (s.refollow kind).lines = s.lines := rfl
@[simp] theorem State.refollow_store (kind : CueKind) (s : State) : (s.refollow kind).store = s.store := rfl

@[simp] theorem State.withTracker_pending (t : Tracker) (s : State) : (s.withTracker t).pending = s.pending := rfl
@[simp] theorem State.withTracker_powered (t : Tracker) (s : State) : (s.withTracker t).powered = s.powered := rfl
@[simp] theorem State.withTracker_inForce (t : Tracker) (s : State) : (s.withTracker t).inForce = s.inForce := rfl
@[simp] theorem State.withTracker_pendingCfg (t : Tracker) (s : State) : (s.withTracker t).pendingCfg = s.pendingCfg := rfl
@[simp] theorem State.withTracker_ports (t : Tracker) (s : State) : (s.withTracker t).ports = s.ports := rfl
@[simp] theorem State.withTracker_time (t : Tracker) (s : State) : (s.withTracker t).time = s.time := rfl
@[simp] theorem State.withTracker_table (t : Tracker) (s : State) : (s.withTracker t).table = s.table := rfl
@[simp] theorem State.withTracker_cues (t : Tracker) (s : State) : (s.withTracker t).cues = s.cues := rfl
@[simp] theorem State.withTracker_wall (t : Tracker) (s : State) : (s.withTracker t).wall = s.wall := rfl
@[simp] theorem State.withTracker_bus (t : Tracker) (s : State) : (s.withTracker t).bus = s.bus := rfl
@[simp] theorem State.withTracker_sense (t : Tracker) (s : State) : (s.withTracker t).sense = s.sense := rfl
@[simp] theorem State.withTracker_lines (t : Tracker) (s : State) : (s.withTracker t).lines = s.lines := rfl
@[simp] theorem State.withTracker_store (t : Tracker) (s : State) : (s.withTracker t).store = s.store := rfl

@[simp] theorem State.updRecords_pending (c : ChangeRec → Bool) (f : ChangeRec → ChangeRec) (s : State) : (s.updRecords c f).pending = s.pending := rfl
@[simp] theorem State.updRecords_powered (c : ChangeRec → Bool) (f : ChangeRec → ChangeRec) (s : State) : (s.updRecords c f).powered = s.powered := rfl
@[simp] theorem State.updRecords_inForce (c : ChangeRec → Bool) (f : ChangeRec → ChangeRec) (s : State) : (s.updRecords c f).inForce = s.inForce := rfl
@[simp] theorem State.updRecords_pendingCfg (c : ChangeRec → Bool) (f : ChangeRec → ChangeRec) (s : State) : (s.updRecords c f).pendingCfg = s.pendingCfg := rfl
@[simp] theorem State.updRecords_ports (c : ChangeRec → Bool) (f : ChangeRec → ChangeRec) (s : State) : (s.updRecords c f).ports = s.ports := rfl
@[simp] theorem State.updRecords_time (c : ChangeRec → Bool) (f : ChangeRec → ChangeRec) (s : State) : (s.updRecords c f).time = s.time := rfl
@[simp] theorem State.updRecords_table (c : ChangeRec → Bool) (f : ChangeRec → ChangeRec) (s : State) : (s.updRecords c f).table = s.table := rfl
@[simp] theorem State.updRecords_cues (c : ChangeRec → Bool) (f : ChangeRec → ChangeRec) (s : State) : (s.updRecords c f).cues = s.cues := rfl
@[simp] theorem State.updRecords_wall (c : ChangeRec → Bool) (f : ChangeRec → ChangeRec) (s : State) : (s.updRecords c f).wall = s.wall := rfl
@[simp] theorem State.updRecords_bus (c : ChangeRec → Bool) (f : ChangeRec → ChangeRec) (s : State) : (s.updRecords c f).bus = s.bus := rfl
@[simp] theorem State.updRecords_sense (c : ChangeRec → Bool) (f : ChangeRec → ChangeRec) (s : State) : (s.updRecords c f).sense = s.sense := rfl
@[simp] theorem State.updRecords_lines (c : ChangeRec → Bool) (f : ChangeRec → ChangeRec) (s : State) : (s.updRecords c f).lines = s.lines := rfl
@[simp] theorem State.updRecords_store (c : ChangeRec → Bool) (f : ChangeRec → ChangeRec) (s : State) : (s.updRecords c f).store = s.store := rfl

@[simp] theorem State.supersede_pending (run : Nat) (s : State) : (s.supersede run).pending = s.pending := rfl
@[simp] theorem State.supersede_powered (run : Nat) (s : State) : (s.supersede run).powered = s.powered := rfl
@[simp] theorem State.supersede_inForce (run : Nat) (s : State) : (s.supersede run).inForce = s.inForce := rfl
@[simp] theorem State.supersede_pendingCfg (run : Nat) (s : State) : (s.supersede run).pendingCfg = s.pendingCfg := rfl
@[simp] theorem State.supersede_ports (run : Nat) (s : State) : (s.supersede run).ports = s.ports := rfl
@[simp] theorem State.supersede_time (run : Nat) (s : State) : (s.supersede run).time = s.time := rfl
@[simp] theorem State.supersede_table (run : Nat) (s : State) : (s.supersede run).table = s.table := rfl
@[simp] theorem State.supersede_cues (run : Nat) (s : State) : (s.supersede run).cues = s.cues := rfl
@[simp] theorem State.supersede_wall (run : Nat) (s : State) : (s.supersede run).wall = s.wall := rfl
@[simp] theorem State.supersede_bus (run : Nat) (s : State) : (s.supersede run).bus = s.bus := rfl
@[simp] theorem State.supersede_sense (run : Nat) (s : State) : (s.supersede run).sense = s.sense := rfl
@[simp] theorem State.supersede_lines (run : Nat) (s : State) : (s.supersede run).lines = s.lines := rfl
@[simp] theorem State.supersede_store (run : Nat) (s : State) : (s.supersede run).store = s.store := rfl

@[simp] theorem State.changeTaken_pending (run : Nat) (s : State) : (s.changeTaken run).pending = s.pending := rfl
@[simp] theorem State.changeTaken_powered (run : Nat) (s : State) : (s.changeTaken run).powered = s.powered := rfl
@[simp] theorem State.changeTaken_inForce (run : Nat) (s : State) : (s.changeTaken run).inForce = s.inForce := rfl
@[simp] theorem State.changeTaken_pendingCfg (run : Nat) (s : State) : (s.changeTaken run).pendingCfg = s.pendingCfg := rfl
@[simp] theorem State.changeTaken_ports (run : Nat) (s : State) : (s.changeTaken run).ports = s.ports := rfl
@[simp] theorem State.changeTaken_time (run : Nat) (s : State) : (s.changeTaken run).time = s.time := rfl
@[simp] theorem State.changeTaken_table (run : Nat) (s : State) : (s.changeTaken run).table = s.table := rfl
@[simp] theorem State.changeTaken_cues (run : Nat) (s : State) : (s.changeTaken run).cues = s.cues := rfl
@[simp] theorem State.changeTaken_wall (run : Nat) (s : State) : (s.changeTaken run).wall = s.wall := rfl
@[simp] theorem State.changeTaken_bus (run : Nat) (s : State) : (s.changeTaken run).bus = s.bus := rfl
@[simp] theorem State.changeTaken_sense (run : Nat) (s : State) : (s.changeTaken run).sense = s.sense := rfl
@[simp] theorem State.changeTaken_lines (run : Nat) (s : State) : (s.changeTaken run).lines = s.lines := rfl
@[simp] theorem State.changeTaken_store (run : Nat) (s : State) : (s.changeTaken run).store = s.store := rfl

@[simp] theorem State.clearSpeech_pending (run : Nat) (s : State) : (s.clearSpeech run).pending = s.pending := rfl
@[simp] theorem State.clearSpeech_powered (run : Nat) (s : State) : (s.clearSpeech run).powered = s.powered := rfl
@[simp] theorem State.clearSpeech_inForce (run : Nat) (s : State) : (s.clearSpeech run).inForce = s.inForce := rfl
@[simp] theorem State.clearSpeech_pendingCfg (run : Nat) (s : State) : (s.clearSpeech run).pendingCfg = s.pendingCfg := rfl
@[simp] theorem State.clearSpeech_ports (run : Nat) (s : State) : (s.clearSpeech run).ports = s.ports := rfl
@[simp] theorem State.clearSpeech_time (run : Nat) (s : State) : (s.clearSpeech run).time = s.time := rfl
@[simp] theorem State.clearSpeech_table (run : Nat) (s : State) : (s.clearSpeech run).table = s.table := rfl
@[simp] theorem State.clearSpeech_cues (run : Nat) (s : State) : (s.clearSpeech run).cues = s.cues := rfl
@[simp] theorem State.clearSpeech_wall (run : Nat) (s : State) : (s.clearSpeech run).wall = s.wall := rfl
@[simp] theorem State.clearSpeech_bus (run : Nat) (s : State) : (s.clearSpeech run).bus = s.bus := rfl
@[simp] theorem State.clearSpeech_sense (run : Nat) (s : State) : (s.clearSpeech run).sense = s.sense := rfl
@[simp] theorem State.clearSpeech_lines (run : Nat) (s : State) : (s.clearSpeech run).lines = s.lines := rfl
@[simp] theorem State.clearSpeech_store (run : Nat) (s : State) : (s.clearSpeech run).store = s.store := rfl

@[simp] theorem State.changeDropped_pending (run : Nat) (s : State) : (s.changeDropped run).pending = s.pending := rfl
@[simp] theorem State.changeDropped_powered (run : Nat) (s : State) : (s.changeDropped run).powered = s.powered := rfl
@[simp] theorem State.changeDropped_inForce (run : Nat) (s : State) : (s.changeDropped run).inForce = s.inForce := rfl
@[simp] theorem State.changeDropped_pendingCfg (run : Nat) (s : State) : (s.changeDropped run).pendingCfg = s.pendingCfg := rfl
@[simp] theorem State.changeDropped_ports (run : Nat) (s : State) : (s.changeDropped run).ports = s.ports := rfl
@[simp] theorem State.changeDropped_time (run : Nat) (s : State) : (s.changeDropped run).time = s.time := rfl
@[simp] theorem State.changeDropped_table (run : Nat) (s : State) : (s.changeDropped run).table = s.table := rfl
@[simp] theorem State.changeDropped_cues (run : Nat) (s : State) : (s.changeDropped run).cues = s.cues := rfl
@[simp] theorem State.changeDropped_wall (run : Nat) (s : State) : (s.changeDropped run).wall = s.wall := rfl
@[simp] theorem State.changeDropped_bus (run : Nat) (s : State) : (s.changeDropped run).bus = s.bus := rfl
@[simp] theorem State.changeDropped_sense (run : Nat) (s : State) : (s.changeDropped run).sense = s.sense := rfl
@[simp] theorem State.changeDropped_lines (run : Nat) (s : State) : (s.changeDropped run).lines = s.lines := rfl
@[simp] theorem State.changeDropped_store (run : Nat) (s : State) : (s.changeDropped run).store = s.store := rfl

@[simp] theorem State.testHolds_pending (s : State) : (s.testHolds).pending = s.pending := rfl
@[simp] theorem State.testHolds_powered (s : State) : (s.testHolds).powered = s.powered := rfl
@[simp] theorem State.testHolds_inForce (s : State) : (s.testHolds).inForce = s.inForce := rfl
@[simp] theorem State.testHolds_pendingCfg (s : State) : (s.testHolds).pendingCfg = s.pendingCfg := rfl
@[simp] theorem State.testHolds_ports (s : State) : (s.testHolds).ports = s.ports := rfl
@[simp] theorem State.testHolds_time (s : State) : (s.testHolds).time = s.time := rfl
@[simp] theorem State.testHolds_table (s : State) : (s.testHolds).table = s.table := rfl
@[simp] theorem State.testHolds_cues (s : State) : (s.testHolds).cues = s.cues := rfl
@[simp] theorem State.testHolds_wall (s : State) : (s.testHolds).wall = s.wall := rfl
@[simp] theorem State.testHolds_bus (s : State) : (s.testHolds).bus = s.bus := rfl
@[simp] theorem State.testHolds_sense (s : State) : (s.testHolds).sense = s.sense := rfl
@[simp] theorem State.testHolds_lines (s : State) : (s.testHolds).lines = s.lines := rfl
@[simp] theorem State.testHolds_store (s : State) : (s.testHolds).store = s.store := rfl

@[simp] theorem State.rollTracker_pending (s : State) : (s.rollTracker).pending = s.pending := rfl
@[simp] theorem State.rollTracker_powered (s : State) : (s.rollTracker).powered = s.powered := rfl
@[simp] theorem State.rollTracker_inForce (s : State) : (s.rollTracker).inForce = s.inForce := rfl
@[simp] theorem State.rollTracker_pendingCfg (s : State) : (s.rollTracker).pendingCfg = s.pendingCfg := rfl
@[simp] theorem State.rollTracker_ports (s : State) : (s.rollTracker).ports = s.ports := rfl
@[simp] theorem State.rollTracker_time (s : State) : (s.rollTracker).time = s.time := rfl
@[simp] theorem State.rollTracker_table (s : State) : (s.rollTracker).table = s.table := rfl
@[simp] theorem State.rollTracker_cues (s : State) : (s.rollTracker).cues = s.cues := rfl
@[simp] theorem State.rollTracker_wall (s : State) : (s.rollTracker).wall = s.wall := rfl
@[simp] theorem State.rollTracker_bus (s : State) : (s.rollTracker).bus = s.bus := rfl
@[simp] theorem State.rollTracker_sense (s : State) : (s.rollTracker).sense = s.sense := rfl
@[simp] theorem State.rollTracker_lines (s : State) : (s.rollTracker).lines = s.lines := rfl
@[simp] theorem State.rollTracker_store (s : State) : (s.rollTracker).store = s.store := rfl

@[simp] theorem State.withWall_pending (w : Wall) (s : State) : (s.withWall w).pending = s.pending := rfl
@[simp] theorem State.withWall_powered (w : Wall) (s : State) : (s.withWall w).powered = s.powered := rfl
@[simp] theorem State.withWall_inForce (w : Wall) (s : State) : (s.withWall w).inForce = s.inForce := rfl
@[simp] theorem State.withWall_pendingCfg (w : Wall) (s : State) : (s.withWall w).pendingCfg = s.pendingCfg := rfl
@[simp] theorem State.withWall_ports (w : Wall) (s : State) : (s.withWall w).ports = s.ports := rfl
@[simp] theorem State.withWall_time (w : Wall) (s : State) : (s.withWall w).time = s.time := rfl
@[simp] theorem State.withWall_table (w : Wall) (s : State) : (s.withWall w).table = s.table := rfl
@[simp] theorem State.withWall_tracker (w : Wall) (s : State) : (s.withWall w).tracker = s.tracker := rfl
@[simp] theorem State.withWall_cues (w : Wall) (s : State) : (s.withWall w).cues = s.cues := rfl
@[simp] theorem State.withWall_bus (w : Wall) (s : State) : (s.withWall w).bus = s.bus := rfl
@[simp] theorem State.withWall_sense (w : Wall) (s : State) : (s.withWall w).sense = s.sense := rfl
@[simp] theorem State.withWall_lines (w : Wall) (s : State) : (s.withWall w).lines = s.lines := rfl
@[simp] theorem State.withWall_store (w : Wall) (s : State) : (s.withWall w).store = s.store := rfl

@[simp] theorem State.showItem_pending (i : Item) (s : State) : (s.showItem i).pending = s.pending := rfl
@[simp] theorem State.showItem_powered (i : Item) (s : State) : (s.showItem i).powered = s.powered := rfl
@[simp] theorem State.showItem_inForce (i : Item) (s : State) : (s.showItem i).inForce = s.inForce := rfl
@[simp] theorem State.showItem_pendingCfg (i : Item) (s : State) : (s.showItem i).pendingCfg = s.pendingCfg := rfl
@[simp] theorem State.showItem_ports (i : Item) (s : State) : (s.showItem i).ports = s.ports := rfl
@[simp] theorem State.showItem_time (i : Item) (s : State) : (s.showItem i).time = s.time := rfl
@[simp] theorem State.showItem_table (i : Item) (s : State) : (s.showItem i).table = s.table := rfl
@[simp] theorem State.showItem_tracker (i : Item) (s : State) : (s.showItem i).tracker = s.tracker := rfl
@[simp] theorem State.showItem_cues (i : Item) (s : State) : (s.showItem i).cues = s.cues := rfl
@[simp] theorem State.showItem_bus (i : Item) (s : State) : (s.showItem i).bus = s.bus := rfl
@[simp] theorem State.showItem_sense (i : Item) (s : State) : (s.showItem i).sense = s.sense := rfl
@[simp] theorem State.showItem_lines (i : Item) (s : State) : (s.showItem i).lines = s.lines := rfl
@[simp] theorem State.showItem_store (i : Item) (s : State) : (s.showItem i).store = s.store := rfl

@[simp] theorem State.remap_pending (s : State) : (s.remap).pending = s.pending := rfl
@[simp] theorem State.remap_powered (s : State) : (s.remap).powered = s.powered := rfl
@[simp] theorem State.remap_inForce (s : State) : (s.remap).inForce = s.inForce := rfl
@[simp] theorem State.remap_pendingCfg (s : State) : (s.remap).pendingCfg = s.pendingCfg := rfl
@[simp] theorem State.remap_ports (s : State) : (s.remap).ports = s.ports := rfl
@[simp] theorem State.remap_time (s : State) : (s.remap).time = s.time := rfl
@[simp] theorem State.remap_table (s : State) : (s.remap).table = s.table := rfl
@[simp] theorem State.remap_tracker (s : State) : (s.remap).tracker = s.tracker := rfl
@[simp] theorem State.remap_cues (s : State) : (s.remap).cues = s.cues := rfl
@[simp] theorem State.remap_bus (s : State) : (s.remap).bus = s.bus := rfl
@[simp] theorem State.remap_sense (s : State) : (s.remap).sense = s.sense := rfl
@[simp] theorem State.remap_lines (s : State) : (s.remap).lines = s.lines := rfl
@[simp] theorem State.remap_store (s : State) : (s.remap).store = s.store := rfl

@[simp] theorem State.setDesired_pending (s : State) : (s.setDesired).pending = s.pending := rfl
@[simp] theorem State.setDesired_powered (s : State) : (s.setDesired).powered = s.powered := rfl
@[simp] theorem State.setDesired_inForce (s : State) : (s.setDesired).inForce = s.inForce := rfl
@[simp] theorem State.setDesired_pendingCfg (s : State) : (s.setDesired).pendingCfg = s.pendingCfg := rfl
@[simp] theorem State.setDesired_ports (s : State) : (s.setDesired).ports = s.ports := rfl
@[simp] theorem State.setDesired_time (s : State) : (s.setDesired).time = s.time := rfl
@[simp] theorem State.setDesired_table (s : State) : (s.setDesired).table = s.table := rfl
@[simp] theorem State.setDesired_tracker (s : State) : (s.setDesired).tracker = s.tracker := rfl
@[simp] theorem State.setDesired_cues (s : State) : (s.setDesired).cues = s.cues := rfl
@[simp] theorem State.setDesired_wall (s : State) : (s.setDesired).wall = s.wall := rfl
@[simp] theorem State.setDesired_sense (s : State) : (s.setDesired).sense = s.sense := rfl
@[simp] theorem State.setDesired_lines (s : State) : (s.setDesired).lines = s.lines := rfl
@[simp] theorem State.setDesired_store (s : State) : (s.setDesired).store = s.store := rfl

@[simp] theorem State.writeLevels_pending (q : Panel → Bool) (s : State) : (s.writeLevels q).pending = s.pending := rfl
@[simp] theorem State.writeLevels_powered (q : Panel → Bool) (s : State) : (s.writeLevels q).powered = s.powered := rfl
@[simp] theorem State.writeLevels_inForce (q : Panel → Bool) (s : State) : (s.writeLevels q).inForce = s.inForce := rfl
@[simp] theorem State.writeLevels_pendingCfg (q : Panel → Bool) (s : State) : (s.writeLevels q).pendingCfg = s.pendingCfg := rfl
@[simp] theorem State.writeLevels_ports (q : Panel → Bool) (s : State) : (s.writeLevels q).ports = s.ports := rfl
@[simp] theorem State.writeLevels_time (q : Panel → Bool) (s : State) : (s.writeLevels q).time = s.time := rfl
@[simp] theorem State.writeLevels_table (q : Panel → Bool) (s : State) : (s.writeLevels q).table = s.table := rfl
@[simp] theorem State.writeLevels_tracker (q : Panel → Bool) (s : State) : (s.writeLevels q).tracker = s.tracker := rfl
@[simp] theorem State.writeLevels_cues (q : Panel → Bool) (s : State) : (s.writeLevels q).cues = s.cues := rfl
@[simp] theorem State.writeLevels_wall (q : Panel → Bool) (s : State) : (s.writeLevels q).wall = s.wall := rfl
@[simp] theorem State.writeLevels_sense (q : Panel → Bool) (s : State) : (s.writeLevels q).sense = s.sense := rfl
@[simp] theorem State.writeLevels_lines (q : Panel → Bool) (s : State) : (s.writeLevels q).lines = s.lines := rfl
@[simp] theorem State.writeLevels_store (q : Panel → Bool) (s : State) : (s.writeLevels q).store = s.store := rfl

@[simp] theorem State.startExchange_pending (p : Panel) (urgent : Option Nat) (s : State) : (s.startExchange p urgent).pending = s.pending := rfl
@[simp] theorem State.startExchange_powered (p : Panel) (urgent : Option Nat) (s : State) : (s.startExchange p urgent).powered = s.powered := rfl
@[simp] theorem State.startExchange_inForce (p : Panel) (urgent : Option Nat) (s : State) : (s.startExchange p urgent).inForce = s.inForce := rfl
@[simp] theorem State.startExchange_pendingCfg (p : Panel) (urgent : Option Nat) (s : State) : (s.startExchange p urgent).pendingCfg = s.pendingCfg := rfl
@[simp] theorem State.startExchange_ports (p : Panel) (urgent : Option Nat) (s : State) : (s.startExchange p urgent).ports = s.ports := rfl
@[simp] theorem State.startExchange_time (p : Panel) (urgent : Option Nat) (s : State) : (s.startExchange p urgent).time = s.time := rfl
@[simp] theorem State.startExchange_table (p : Panel) (urgent : Option Nat) (s : State) : (s.startExchange p urgent).table = s.table := rfl
@[simp] theorem State.startExchange_tracker (p : Panel) (urgent : Option Nat) (s : State) : (s.startExchange p urgent).tracker = s.tracker := rfl
@[simp] theorem State.startExchange_cues (p : Panel) (urgent : Option Nat) (s : State) : (s.startExchange p urgent).cues = s.cues := rfl
@[simp] theorem State.startExchange_wall (p : Panel) (urgent : Option Nat) (s : State) : (s.startExchange p urgent).wall = s.wall := rfl
@[simp] theorem State.startExchange_sense (p : Panel) (urgent : Option Nat) (s : State) : (s.startExchange p urgent).sense = s.sense := rfl
@[simp] theorem State.startExchange_lines (p : Panel) (urgent : Option Nat) (s : State) : (s.startExchange p urgent).lines = s.lines := rfl
@[simp] theorem State.startExchange_store (p : Panel) (urgent : Option Nat) (s : State) : (s.startExchange p urgent).store = s.store := rfl

@[simp] theorem State.dropEntry_pending (run : Nat) (s : State) : (s.dropEntry run).pending = s.pending := rfl
@[simp] theorem State.dropEntry_powered (run : Nat) (s : State) : (s.dropEntry run).powered = s.powered := rfl
@[simp] theorem State.dropEntry_inForce (run : Nat) (s : State) : (s.dropEntry run).inForce = s.inForce := rfl
@[simp] theorem State.dropEntry_pendingCfg (run : Nat) (s : State) : (s.dropEntry run).pendingCfg = s.pendingCfg := rfl
@[simp] theorem State.dropEntry_ports (run : Nat) (s : State) : (s.dropEntry run).ports = s.ports := rfl
@[simp] theorem State.dropEntry_time (run : Nat) (s : State) : (s.dropEntry run).time = s.time := rfl
@[simp] theorem State.dropEntry_tracker (run : Nat) (s : State) : (s.dropEntry run).tracker = s.tracker := rfl
@[simp] theorem State.dropEntry_cues (run : Nat) (s : State) : (s.dropEntry run).cues = s.cues := rfl
@[simp] theorem State.dropEntry_wall (run : Nat) (s : State) : (s.dropEntry run).wall = s.wall := rfl
@[simp] theorem State.dropEntry_bus (run : Nat) (s : State) : (s.dropEntry run).bus = s.bus := rfl
@[simp] theorem State.dropEntry_sense (run : Nat) (s : State) : (s.dropEntry run).sense = s.sense := rfl
@[simp] theorem State.dropEntry_lines (run : Nat) (s : State) : (s.dropEntry run).lines = s.lines := rfl
@[simp] theorem State.dropEntry_store (run : Nat) (s : State) : (s.dropEntry run).store = s.store := rfl

@[simp] theorem State.rollCues_pending (s : State) : (s.rollCues).pending = s.pending := rfl
@[simp] theorem State.rollCues_powered (s : State) : (s.rollCues).powered = s.powered := rfl
@[simp] theorem State.rollCues_inForce (s : State) : (s.rollCues).inForce = s.inForce := rfl
@[simp] theorem State.rollCues_pendingCfg (s : State) : (s.rollCues).pendingCfg = s.pendingCfg := rfl
@[simp] theorem State.rollCues_ports (s : State) : (s.rollCues).ports = s.ports := rfl
@[simp] theorem State.rollCues_time (s : State) : (s.rollCues).time = s.time := rfl
@[simp] theorem State.rollCues_table (s : State) : (s.rollCues).table = s.table := rfl
@[simp] theorem State.rollCues_tracker (s : State) : (s.rollCues).tracker = s.tracker := rfl
@[simp] theorem State.rollCues_wall (s : State) : (s.rollCues).wall = s.wall := rfl
@[simp] theorem State.rollCues_bus (s : State) : (s.rollCues).bus = s.bus := rfl
@[simp] theorem State.rollCues_sense (s : State) : (s.rollCues).sense = s.sense := rfl
@[simp] theorem State.rollCues_lines (s : State) : (s.rollCues).lines = s.lines := rfl
@[simp] theorem State.rollCues_store (s : State) : (s.rollCues).store = s.store := rfl

@[simp] theorem State.announceLines_pending (minute : Bool) (s : State) : (s.announceLines minute).pending = s.pending := rfl
@[simp] theorem State.announceLines_powered (minute : Bool) (s : State) : (s.announceLines minute).powered = s.powered := rfl
@[simp] theorem State.announceLines_inForce (minute : Bool) (s : State) : (s.announceLines minute).inForce = s.inForce := rfl
@[simp] theorem State.announceLines_pendingCfg (minute : Bool) (s : State) : (s.announceLines minute).pendingCfg = s.pendingCfg := rfl
@[simp] theorem State.announceLines_ports (minute : Bool) (s : State) : (s.announceLines minute).ports = s.ports := rfl
@[simp] theorem State.announceLines_time (minute : Bool) (s : State) : (s.announceLines minute).time = s.time := rfl
@[simp] theorem State.announceLines_table (minute : Bool) (s : State) : (s.announceLines minute).table = s.table := rfl
@[simp] theorem State.announceLines_tracker (minute : Bool) (s : State) : (s.announceLines minute).tracker = s.tracker := rfl
@[simp] theorem State.announceLines_cues (minute : Bool) (s : State) : (s.announceLines minute).cues = s.cues := rfl
@[simp] theorem State.announceLines_wall (minute : Bool) (s : State) : (s.announceLines minute).wall = s.wall := rfl
@[simp] theorem State.announceLines_bus (minute : Bool) (s : State) : (s.announceLines minute).bus = s.bus := rfl
@[simp] theorem State.announceLines_sense (minute : Bool) (s : State) : (s.announceLines minute).sense = s.sense := rfl
@[simp] theorem State.announceLines_store (minute : Bool) (s : State) : (s.announceLines minute).store = s.store := rfl

@[simp] theorem State.writeDials_pending (s : State) : (s.writeDials).pending = s.pending := rfl
@[simp] theorem State.writeDials_powered (s : State) : (s.writeDials).powered = s.powered := rfl
@[simp] theorem State.writeDials_inForce (s : State) : (s.writeDials).inForce = s.inForce := rfl
@[simp] theorem State.writeDials_pendingCfg (s : State) : (s.writeDials).pendingCfg = s.pendingCfg := rfl
@[simp] theorem State.writeDials_ports (s : State) : (s.writeDials).ports = s.ports := rfl
@[simp] theorem State.writeDials_time (s : State) : (s.writeDials).time = s.time := rfl
@[simp] theorem State.writeDials_table (s : State) : (s.writeDials).table = s.table := rfl
@[simp] theorem State.writeDials_tracker (s : State) : (s.writeDials).tracker = s.tracker := rfl
@[simp] theorem State.writeDials_cues (s : State) : (s.writeDials).cues = s.cues := rfl
@[simp] theorem State.writeDials_wall (s : State) : (s.writeDials).wall = s.wall := rfl
@[simp] theorem State.writeDials_bus (s : State) : (s.writeDials).bus = s.bus := rfl
@[simp] theorem State.writeDials_sense (s : State) : (s.writeDials).sense = s.sense := rfl
@[simp] theorem State.writeDials_lines (s : State) : (s.writeDials).lines = s.lines := rfl

@[simp] theorem State.applyDial_pending (n : Fin 4) (w : DecisionTime) (d : PendingDial) (s : State) : (s.applyDial n w d).pending = s.pending := rfl
@[simp] theorem State.applyDial_powered (n : Fin 4) (w : DecisionTime) (d : PendingDial) (s : State) : (s.applyDial n w d).powered = s.powered := rfl
@[simp] theorem State.applyDial_inForce (n : Fin 4) (w : DecisionTime) (d : PendingDial) (s : State) : (s.applyDial n w d).inForce = s.inForce := rfl
@[simp] theorem State.applyDial_pendingCfg (n : Fin 4) (w : DecisionTime) (d : PendingDial) (s : State) : (s.applyDial n w d).pendingCfg = s.pendingCfg := rfl
@[simp] theorem State.applyDial_ports (n : Fin 4) (w : DecisionTime) (d : PendingDial) (s : State) : (s.applyDial n w d).ports = s.ports := rfl
@[simp] theorem State.applyDial_time (n : Fin 4) (w : DecisionTime) (d : PendingDial) (s : State) : (s.applyDial n w d).time = s.time := rfl
@[simp] theorem State.applyDial_table (n : Fin 4) (w : DecisionTime) (d : PendingDial) (s : State) : (s.applyDial n w d).table = s.table := rfl
@[simp] theorem State.applyDial_tracker (n : Fin 4) (w : DecisionTime) (d : PendingDial) (s : State) : (s.applyDial n w d).tracker = s.tracker := rfl
@[simp] theorem State.applyDial_cues (n : Fin 4) (w : DecisionTime) (d : PendingDial) (s : State) : (s.applyDial n w d).cues = s.cues := rfl
@[simp] theorem State.applyDial_wall (n : Fin 4) (w : DecisionTime) (d : PendingDial) (s : State) : (s.applyDial n w d).wall = s.wall := rfl
@[simp] theorem State.applyDial_bus (n : Fin 4) (w : DecisionTime) (d : PendingDial) (s : State) : (s.applyDial n w d).bus = s.bus := rfl
@[simp] theorem State.applyDial_sense (n : Fin 4) (w : DecisionTime) (d : PendingDial) (s : State) : (s.applyDial n w d).sense = s.sense := rfl

@[simp] theorem State.withSense_pending (u : Sense) (s : State) : (s.withSense u).pending = s.pending := rfl
@[simp] theorem State.withSense_powered (u : Sense) (s : State) : (s.withSense u).powered = s.powered := rfl
@[simp] theorem State.withSense_inForce (u : Sense) (s : State) : (s.withSense u).inForce = s.inForce := rfl
@[simp] theorem State.withSense_pendingCfg (u : Sense) (s : State) : (s.withSense u).pendingCfg = s.pendingCfg := rfl
@[simp] theorem State.withSense_ports (u : Sense) (s : State) : (s.withSense u).ports = s.ports := rfl
@[simp] theorem State.withSense_time (u : Sense) (s : State) : (s.withSense u).time = s.time := rfl
@[simp] theorem State.withSense_table (u : Sense) (s : State) : (s.withSense u).table = s.table := rfl
@[simp] theorem State.withSense_tracker (u : Sense) (s : State) : (s.withSense u).tracker = s.tracker := rfl
@[simp] theorem State.withSense_cues (u : Sense) (s : State) : (s.withSense u).cues = s.cues := rfl
@[simp] theorem State.withSense_wall (u : Sense) (s : State) : (s.withSense u).wall = s.wall := rfl
@[simp] theorem State.withSense_bus (u : Sense) (s : State) : (s.withSense u).bus = s.bus := rfl
@[simp] theorem State.withSense_lines (u : Sense) (s : State) : (s.withSense u).lines = s.lines := rfl
@[simp] theorem State.withSense_store (u : Sense) (s : State) : (s.withSense u).store = s.store := rfl

@[simp] theorem State.chooseConversion_pending (s : State) : (s.chooseConversion).pending = s.pending := rfl
@[simp] theorem State.chooseConversion_powered (s : State) : (s.chooseConversion).powered = s.powered := rfl
@[simp] theorem State.chooseConversion_inForce (s : State) : (s.chooseConversion).inForce = s.inForce := rfl
@[simp] theorem State.chooseConversion_pendingCfg (s : State) : (s.chooseConversion).pendingCfg = s.pendingCfg := rfl
@[simp] theorem State.chooseConversion_ports (s : State) : (s.chooseConversion).ports = s.ports := rfl
@[simp] theorem State.chooseConversion_time (s : State) : (s.chooseConversion).time = s.time := rfl
@[simp] theorem State.chooseConversion_table (s : State) : (s.chooseConversion).table = s.table := rfl
@[simp] theorem State.chooseConversion_tracker (s : State) : (s.chooseConversion).tracker = s.tracker := rfl
@[simp] theorem State.chooseConversion_cues (s : State) : (s.chooseConversion).cues = s.cues := rfl
@[simp] theorem State.chooseConversion_wall (s : State) : (s.chooseConversion).wall = s.wall := rfl
@[simp] theorem State.chooseConversion_bus (s : State) : (s.chooseConversion).bus = s.bus := rfl
@[simp] theorem State.chooseConversion_lines (s : State) : (s.chooseConversion).lines = s.lines := rfl
@[simp] theorem State.chooseConversion_store (s : State) : (s.chooseConversion).store = s.store := rfl

@[simp] theorem State.countSecond_pending (s : State) : (s.countSecond).pending = s.pending := rfl
@[simp] theorem State.countSecond_powered (s : State) : (s.countSecond).powered = s.powered := rfl
@[simp] theorem State.countSecond_inForce (s : State) : (s.countSecond).inForce = s.inForce := rfl
@[simp] theorem State.countSecond_pendingCfg (s : State) : (s.countSecond).pendingCfg = s.pendingCfg := rfl
@[simp] theorem State.countSecond_tracker (s : State) : (s.countSecond).tracker = s.tracker := rfl
@[simp] theorem State.countSecond_bus (s : State) : (s.countSecond).bus = s.bus := rfl
@[simp] theorem State.countSecond_sense (s : State) : (s.countSecond).sense = s.sense := rfl
@[simp] theorem State.countSecond_lines (s : State) : (s.countSecond).lines = s.lines := rfl
@[simp] theorem State.countSecond_store (s : State) : (s.countSecond).store = s.store := rfl

@[simp] theorem State.slewClock_pending (d : Int) (s : State) : (s.slewClock d).pending = s.pending := rfl
@[simp] theorem State.slewClock_powered (d : Int) (s : State) : (s.slewClock d).powered = s.powered := rfl
@[simp] theorem State.slewClock_inForce (d : Int) (s : State) : (s.slewClock d).inForce = s.inForce := rfl
@[simp] theorem State.slewClock_pendingCfg (d : Int) (s : State) : (s.slewClock d).pendingCfg = s.pendingCfg := rfl
@[simp] theorem State.slewClock_ports (d : Int) (s : State) : (s.slewClock d).ports = s.ports := rfl
@[simp] theorem State.slewClock_table (d : Int) (s : State) : (s.slewClock d).table = s.table := rfl
@[simp] theorem State.slewClock_tracker (d : Int) (s : State) : (s.slewClock d).tracker = s.tracker := rfl
@[simp] theorem State.slewClock_cues (d : Int) (s : State) : (s.slewClock d).cues = s.cues := rfl
@[simp] theorem State.slewClock_wall (d : Int) (s : State) : (s.slewClock d).wall = s.wall := rfl
@[simp] theorem State.slewClock_bus (d : Int) (s : State) : (s.slewClock d).bus = s.bus := rfl
@[simp] theorem State.slewClock_sense (d : Int) (s : State) : (s.slewClock d).sense = s.sense := rfl
@[simp] theorem State.slewClock_lines (d : Int) (s : State) : (s.slewClock d).lines = s.lines := rfl
@[simp] theorem State.slewClock_store (d : Int) (s : State) : (s.slewClock d).store = s.store := rfl

@[simp] theorem State.answerTel_pending (p : PortId) (t : Tel) (a : Answer) (s : State) : (s.answerTel p t a).pending = s.pending := rfl
@[simp] theorem State.answerTel_powered (p : PortId) (t : Tel) (a : Answer) (s : State) : (s.answerTel p t a).powered = s.powered := rfl
@[simp] theorem State.answerTel_inForce (p : PortId) (t : Tel) (a : Answer) (s : State) : (s.answerTel p t a).inForce = s.inForce := rfl
@[simp] theorem State.answerTel_pendingCfg (p : PortId) (t : Tel) (a : Answer) (s : State) : (s.answerTel p t a).pendingCfg = s.pendingCfg := rfl
@[simp] theorem State.answerTel_time (p : PortId) (t : Tel) (a : Answer) (s : State) : (s.answerTel p t a).time = s.time := rfl
@[simp] theorem State.answerTel_table (p : PortId) (t : Tel) (a : Answer) (s : State) : (s.answerTel p t a).table = s.table := rfl
@[simp] theorem State.answerTel_tracker (p : PortId) (t : Tel) (a : Answer) (s : State) : (s.answerTel p t a).tracker = s.tracker := rfl
@[simp] theorem State.answerTel_cues (p : PortId) (t : Tel) (a : Answer) (s : State) : (s.answerTel p t a).cues = s.cues := rfl
@[simp] theorem State.answerTel_wall (p : PortId) (t : Tel) (a : Answer) (s : State) : (s.answerTel p t a).wall = s.wall := rfl
@[simp] theorem State.answerTel_bus (p : PortId) (t : Tel) (a : Answer) (s : State) : (s.answerTel p t a).bus = s.bus := rfl
@[simp] theorem State.answerTel_sense (p : PortId) (t : Tel) (a : Answer) (s : State) : (s.answerTel p t a).sense = s.sense := rfl
@[simp] theorem State.answerTel_lines (p : PortId) (t : Tel) (a : Answer) (s : State) : (s.answerTel p t a).lines = s.lines := rfl
@[simp] theorem State.answerTel_store (p : PortId) (t : Tel) (a : Answer) (s : State) : (s.answerTel p t a).store = s.store := rfl

@[simp] theorem State.endCue_pending (number : Nat) (s : State) : (s.endCue number).pending = s.pending := rfl
@[simp] theorem State.endCue_powered (number : Nat) (s : State) : (s.endCue number).powered = s.powered := rfl
@[simp] theorem State.endCue_inForce (number : Nat) (s : State) : (s.endCue number).inForce = s.inForce := rfl
@[simp] theorem State.endCue_pendingCfg (number : Nat) (s : State) : (s.endCue number).pendingCfg = s.pendingCfg := rfl
@[simp] theorem State.endCue_ports (number : Nat) (s : State) : (s.endCue number).ports = s.ports := rfl
@[simp] theorem State.endCue_time (number : Nat) (s : State) : (s.endCue number).time = s.time := rfl
@[simp] theorem State.endCue_table (number : Nat) (s : State) : (s.endCue number).table = s.table := rfl
@[simp] theorem State.endCue_tracker (number : Nat) (s : State) : (s.endCue number).tracker = s.tracker := rfl
@[simp] theorem State.endCue_wall (number : Nat) (s : State) : (s.endCue number).wall = s.wall := rfl
@[simp] theorem State.endCue_bus (number : Nat) (s : State) : (s.endCue number).bus = s.bus := rfl
@[simp] theorem State.endCue_sense (number : Nat) (s : State) : (s.endCue number).sense = s.sense := rfl
@[simp] theorem State.endCue_lines (number : Nat) (s : State) : (s.endCue number).lines = s.lines := rfl
@[simp] theorem State.endCue_store (number : Nat) (s : State) : (s.endCue number).store = s.store := rfl

@[simp] theorem State.updCue_pending (number : Nat) (f : Cue → Cue) (s : State) : (s.updCue number f).pending = s.pending := rfl
@[simp] theorem State.updCue_powered (number : Nat) (f : Cue → Cue) (s : State) : (s.updCue number f).powered = s.powered := rfl
@[simp] theorem State.updCue_inForce (number : Nat) (f : Cue → Cue) (s : State) : (s.updCue number f).inForce = s.inForce := rfl
@[simp] theorem State.updCue_pendingCfg (number : Nat) (f : Cue → Cue) (s : State) : (s.updCue number f).pendingCfg = s.pendingCfg := rfl
@[simp] theorem State.updCue_ports (number : Nat) (f : Cue → Cue) (s : State) : (s.updCue number f).ports = s.ports := rfl
@[simp] theorem State.updCue_time (number : Nat) (f : Cue → Cue) (s : State) : (s.updCue number f).time = s.time := rfl
@[simp] theorem State.updCue_table (number : Nat) (f : Cue → Cue) (s : State) : (s.updCue number f).table = s.table := rfl
@[simp] theorem State.updCue_tracker (number : Nat) (f : Cue → Cue) (s : State) : (s.updCue number f).tracker = s.tracker := rfl
@[simp] theorem State.updCue_wall (number : Nat) (f : Cue → Cue) (s : State) : (s.updCue number f).wall = s.wall := rfl
@[simp] theorem State.updCue_bus (number : Nat) (f : Cue → Cue) (s : State) : (s.updCue number f).bus = s.bus := rfl
@[simp] theorem State.updCue_sense (number : Nat) (f : Cue → Cue) (s : State) : (s.updCue number f).sense = s.sense := rfl
@[simp] theorem State.updCue_lines (number : Nat) (f : Cue → Cue) (s : State) : (s.updCue number f).lines = s.lines := rfl
@[simp] theorem State.updCue_store (number : Nat) (f : Cue → Cue) (s : State) : (s.updCue number f).store = s.store := rfl

@[simp] theorem State.returnDue_pending (c : Cue) (attempts : Nat) (s : State) : (s.returnDue c attempts).pending = s.pending := rfl
@[simp] theorem State.returnDue_powered (c : Cue) (attempts : Nat) (s : State) : (s.returnDue c attempts).powered = s.powered := rfl
@[simp] theorem State.returnDue_inForce (c : Cue) (attempts : Nat) (s : State) : (s.returnDue c attempts).inForce = s.inForce := rfl
@[simp] theorem State.returnDue_pendingCfg (c : Cue) (attempts : Nat) (s : State) : (s.returnDue c attempts).pendingCfg = s.pendingCfg := rfl
@[simp] theorem State.returnDue_ports (c : Cue) (attempts : Nat) (s : State) : (s.returnDue c attempts).ports = s.ports := rfl
@[simp] theorem State.returnDue_time (c : Cue) (attempts : Nat) (s : State) : (s.returnDue c attempts).time = s.time := rfl
@[simp] theorem State.returnDue_table (c : Cue) (attempts : Nat) (s : State) : (s.returnDue c attempts).table = s.table := rfl
@[simp] theorem State.returnDue_tracker (c : Cue) (attempts : Nat) (s : State) : (s.returnDue c attempts).tracker = s.tracker := rfl
@[simp] theorem State.returnDue_wall (c : Cue) (attempts : Nat) (s : State) : (s.returnDue c attempts).wall = s.wall := rfl
@[simp] theorem State.returnDue_bus (c : Cue) (attempts : Nat) (s : State) : (s.returnDue c attempts).bus = s.bus := rfl
@[simp] theorem State.returnDue_sense (c : Cue) (attempts : Nat) (s : State) : (s.returnDue c attempts).sense = s.sense := rfl
@[simp] theorem State.returnDue_lines (c : Cue) (attempts : Nat) (s : State) : (s.returnDue c attempts).lines = s.lines := rfl
@[simp] theorem State.returnDue_store (c : Cue) (attempts : Nat) (s : State) : (s.returnDue c attempts).store = s.store := rfl

@[simp] theorem State.capConfirm_pending (s : State) : (s.capConfirm).pending = s.pending := rfl
@[simp] theorem State.capConfirm_powered (s : State) : (s.capConfirm).powered = s.powered := rfl
@[simp] theorem State.capConfirm_inForce (s : State) : (s.capConfirm).inForce = s.inForce := rfl
@[simp] theorem State.capConfirm_pendingCfg (s : State) : (s.capConfirm).pendingCfg = s.pendingCfg := rfl
@[simp] theorem State.capConfirm_ports (s : State) : (s.capConfirm).ports = s.ports := rfl
@[simp] theorem State.capConfirm_time (s : State) : (s.capConfirm).time = s.time := rfl
@[simp] theorem State.capConfirm_tracker (s : State) : (s.capConfirm).tracker = s.tracker := rfl
@[simp] theorem State.capConfirm_cues (s : State) : (s.capConfirm).cues = s.cues := rfl
@[simp] theorem State.capConfirm_wall (s : State) : (s.capConfirm).wall = s.wall := rfl
@[simp] theorem State.capConfirm_bus (s : State) : (s.capConfirm).bus = s.bus := rfl
@[simp] theorem State.capConfirm_sense (s : State) : (s.capConfirm).sense = s.sense := rfl
@[simp] theorem State.capConfirm_lines (s : State) : (s.capConfirm).lines = s.lines := rfl
@[simp] theorem State.capConfirm_store (s : State) : (s.capConfirm).store = s.store := rfl

@[simp] theorem State.reclass_pending (before : Nat) (s : State) : (s.reclass before).pending = s.pending := rfl
@[simp] theorem State.reclass_powered (before : Nat) (s : State) : (s.reclass before).powered = s.powered := rfl
@[simp] theorem State.reclass_inForce (before : Nat) (s : State) : (s.reclass before).inForce = s.inForce := rfl
@[simp] theorem State.reclass_pendingCfg (before : Nat) (s : State) : (s.reclass before).pendingCfg = s.pendingCfg := rfl
@[simp] theorem State.reclass_ports (before : Nat) (s : State) : (s.reclass before).ports = s.ports := rfl
@[simp] theorem State.reclass_time (before : Nat) (s : State) : (s.reclass before).time = s.time := rfl
@[simp] theorem State.reclass_tracker (before : Nat) (s : State) : (s.reclass before).tracker = s.tracker := rfl
@[simp] theorem State.reclass_cues (before : Nat) (s : State) : (s.reclass before).cues = s.cues := rfl
@[simp] theorem State.reclass_wall (before : Nat) (s : State) : (s.reclass before).wall = s.wall := rfl
@[simp] theorem State.reclass_bus (before : Nat) (s : State) : (s.reclass before).bus = s.bus := rfl
@[simp] theorem State.reclass_sense (before : Nat) (s : State) : (s.reclass before).sense = s.sense := rfl
@[simp] theorem State.reclass_lines (before : Nat) (s : State) : (s.reclass before).lines = s.lines := rfl
@[simp] theorem State.reclass_store (before : Nat) (s : State) : (s.reclass before).store = s.store := rfl

@[simp] theorem State.saveConfiguration_pending (s : State) : (s.saveConfiguration).pending = s.pending := rfl
@[simp] theorem State.saveConfiguration_powered (s : State) : (s.saveConfiguration).powered = s.powered := rfl
@[simp] theorem State.saveConfiguration_inForce (s : State) : (s.saveConfiguration).inForce = s.inForce := rfl
@[simp] theorem State.saveConfiguration_pendingCfg (s : State) : (s.saveConfiguration).pendingCfg = s.pendingCfg := rfl
@[simp] theorem State.saveConfiguration_ports (s : State) : (s.saveConfiguration).ports = s.ports := rfl
@[simp] theorem State.saveConfiguration_time (s : State) : (s.saveConfiguration).time = s.time := rfl
@[simp] theorem State.saveConfiguration_table (s : State) : (s.saveConfiguration).table = s.table := rfl
@[simp] theorem State.saveConfiguration_tracker (s : State) : (s.saveConfiguration).tracker = s.tracker := rfl
@[simp] theorem State.saveConfiguration_cues (s : State) : (s.saveConfiguration).cues = s.cues := rfl
@[simp] theorem State.saveConfiguration_wall (s : State) : (s.saveConfiguration).wall = s.wall := rfl
@[simp] theorem State.saveConfiguration_bus (s : State) : (s.saveConfiguration).bus = s.bus := rfl
@[simp] theorem State.saveConfiguration_sense (s : State) : (s.saveConfiguration).sense = s.sense := rfl
@[simp] theorem State.saveConfiguration_lines (s : State) : (s.saveConfiguration).lines = s.lines := rfl

@[simp] theorem State.holdZones_pending (held : Bool) (zones : List Nat) (s : State) : (s.holdZones held zones).pending = s.pending := rfl
@[simp] theorem State.holdZones_powered (held : Bool) (zones : List Nat) (s : State) : (s.holdZones held zones).powered = s.powered := rfl
@[simp] theorem State.holdZones_inForce (held : Bool) (zones : List Nat) (s : State) : (s.holdZones held zones).inForce = s.inForce := rfl
@[simp] theorem State.holdZones_pendingCfg (held : Bool) (zones : List Nat) (s : State) : (s.holdZones held zones).pendingCfg = s.pendingCfg := rfl
@[simp] theorem State.holdZones_ports (held : Bool) (zones : List Nat) (s : State) : (s.holdZones held zones).ports = s.ports := rfl
@[simp] theorem State.holdZones_time (held : Bool) (zones : List Nat) (s : State) : (s.holdZones held zones).time = s.time := rfl
@[simp] theorem State.holdZones_table (held : Bool) (zones : List Nat) (s : State) : (s.holdZones held zones).table = s.table := rfl
@[simp] theorem State.holdZones_tracker (held : Bool) (zones : List Nat) (s : State) : (s.holdZones held zones).tracker = s.tracker := rfl
@[simp] theorem State.holdZones_wall (held : Bool) (zones : List Nat) (s : State) : (s.holdZones held zones).wall = s.wall := rfl
@[simp] theorem State.holdZones_bus (held : Bool) (zones : List Nat) (s : State) : (s.holdZones held zones).bus = s.bus := rfl
@[simp] theorem State.holdZones_sense (held : Bool) (zones : List Nat) (s : State) : (s.holdZones held zones).sense = s.sense := rfl
@[simp] theorem State.holdZones_lines (held : Bool) (zones : List Nat) (s : State) : (s.holdZones held zones).lines = s.lines := rfl
@[simp] theorem State.holdZones_store (held : Bool) (zones : List Nat) (s : State) : (s.holdZones held zones).store = s.store := rfl

@[simp] theorem State.withExchange_pending (x : Option Exchange) (s : State) : (s.withExchange x).pending = s.pending := rfl
@[simp] theorem State.withExchange_powered (x : Option Exchange) (s : State) : (s.withExchange x).powered = s.powered := rfl
@[simp] theorem State.withExchange_inForce (x : Option Exchange) (s : State) : (s.withExchange x).inForce = s.inForce := rfl
@[simp] theorem State.withExchange_pendingCfg (x : Option Exchange) (s : State) : (s.withExchange x).pendingCfg = s.pendingCfg := rfl
@[simp] theorem State.withExchange_ports (x : Option Exchange) (s : State) : (s.withExchange x).ports = s.ports := rfl
@[simp] theorem State.withExchange_time (x : Option Exchange) (s : State) : (s.withExchange x).time = s.time := rfl
@[simp] theorem State.withExchange_table (x : Option Exchange) (s : State) : (s.withExchange x).table = s.table := rfl
@[simp] theorem State.withExchange_tracker (x : Option Exchange) (s : State) : (s.withExchange x).tracker = s.tracker := rfl
@[simp] theorem State.withExchange_cues (x : Option Exchange) (s : State) : (s.withExchange x).cues = s.cues := rfl
@[simp] theorem State.withExchange_wall (x : Option Exchange) (s : State) : (s.withExchange x).wall = s.wall := rfl
@[simp] theorem State.withExchange_sense (x : Option Exchange) (s : State) : (s.withExchange x).sense = s.sense := rfl
@[simp] theorem State.withExchange_lines (x : Option Exchange) (s : State) : (s.withExchange x).lines = s.lines := rfl
@[simp] theorem State.withExchange_store (x : Option Exchange) (s : State) : (s.withExchange x).store = s.store := rfl

@[simp] theorem State.clearIntervalFlags_pending (s : State) : (s.clearIntervalFlags).pending = s.pending := rfl
@[simp] theorem State.clearIntervalFlags_powered (s : State) : (s.clearIntervalFlags).powered = s.powered := rfl
@[simp] theorem State.clearIntervalFlags_inForce (s : State) : (s.clearIntervalFlags).inForce = s.inForce := rfl
@[simp] theorem State.clearIntervalFlags_pendingCfg (s : State) : (s.clearIntervalFlags).pendingCfg = s.pendingCfg := rfl
@[simp] theorem State.clearIntervalFlags_ports (s : State) : (s.clearIntervalFlags).ports = s.ports := rfl
@[simp] theorem State.clearIntervalFlags_time (s : State) : (s.clearIntervalFlags).time = s.time := rfl
@[simp] theorem State.clearIntervalFlags_table (s : State) : (s.clearIntervalFlags).table = s.table := rfl
@[simp] theorem State.clearIntervalFlags_tracker (s : State) : (s.clearIntervalFlags).tracker = s.tracker := rfl
@[simp] theorem State.clearIntervalFlags_cues (s : State) : (s.clearIntervalFlags).cues = s.cues := rfl
@[simp] theorem State.clearIntervalFlags_wall (s : State) : (s.clearIntervalFlags).wall = s.wall := rfl
@[simp] theorem State.clearIntervalFlags_sense (s : State) : (s.clearIntervalFlags).sense = s.sense := rfl
@[simp] theorem State.clearIntervalFlags_lines (s : State) : (s.clearIntervalFlags).lines = s.lines := rfl
@[simp] theorem State.clearIntervalFlags_store (s : State) : (s.clearIntervalFlags).store = s.store := rfl

@[simp] theorem State.nextInterval_pending (s : State) : (s.nextInterval).pending = s.pending := rfl
@[simp] theorem State.nextInterval_powered (s : State) : (s.nextInterval).powered = s.powered := rfl
@[simp] theorem State.nextInterval_inForce (s : State) : (s.nextInterval).inForce = s.inForce := rfl
@[simp] theorem State.nextInterval_pendingCfg (s : State) : (s.nextInterval).pendingCfg = s.pendingCfg := rfl
@[simp] theorem State.nextInterval_ports (s : State) : (s.nextInterval).ports = s.ports := rfl
@[simp] theorem State.nextInterval_time (s : State) : (s.nextInterval).time = s.time := rfl
@[simp] theorem State.nextInterval_table (s : State) : (s.nextInterval).table = s.table := rfl
@[simp] theorem State.nextInterval_tracker (s : State) : (s.nextInterval).tracker = s.tracker := rfl
@[simp] theorem State.nextInterval_cues (s : State) : (s.nextInterval).cues = s.cues := rfl
@[simp] theorem State.nextInterval_wall (s : State) : (s.nextInterval).wall = s.wall := rfl
@[simp] theorem State.nextInterval_sense (s : State) : (s.nextInterval).sense = s.sense := rfl
@[simp] theorem State.nextInterval_lines (s : State) : (s.nextInterval).lines = s.lines := rfl
@[simp] theorem State.nextInterval_store (s : State) : (s.nextInterval).store = s.store := rfl

@[simp] theorem State.restartScan_pending (s : State) : (s.restartScan).pending = s.pending := rfl
@[simp] theorem State.restartScan_powered (s : State) : (s.restartScan).powered = s.powered := rfl
@[simp] theorem State.restartScan_inForce (s : State) : (s.restartScan).inForce = s.inForce := rfl
@[simp] theorem State.restartScan_pendingCfg (s : State) : (s.restartScan).pendingCfg = s.pendingCfg := rfl
@[simp] theorem State.restartScan_ports (s : State) : (s.restartScan).ports = s.ports := rfl
@[simp] theorem State.restartScan_time (s : State) : (s.restartScan).time = s.time := rfl
@[simp] theorem State.restartScan_table (s : State) : (s.restartScan).table = s.table := rfl
@[simp] theorem State.restartScan_tracker (s : State) : (s.restartScan).tracker = s.tracker := rfl
@[simp] theorem State.restartScan_cues (s : State) : (s.restartScan).cues = s.cues := rfl
@[simp] theorem State.restartScan_wall (s : State) : (s.restartScan).wall = s.wall := rfl
@[simp] theorem State.restartScan_bus (s : State) : (s.restartScan).bus = s.bus := rfl
@[simp] theorem State.restartScan_lines (s : State) : (s.restartScan).lines = s.lines := rfl
@[simp] theorem State.restartScan_store (s : State) : (s.restartScan).store = s.store := rfl

end Sys2Proof.Machine
end

