-- ==== Sys2Proof/Laws/Frames.lean ====
section
/-! SUPPORT. What each shared operation leaves as it was: the sources of the picture, the facts of the entries, the
cue list, the links of the ports. -/
namespace Sys2Proof.Machine

open Sys2Proof

/-! ## Tools -/

/-- A fold keeps what each of its steps keeps. -/
theorem foldl_keeps {α β γ : Type} (g : α → γ) (f : α → β → α) (h : ∀ a b, g (f a b) = g a) (l : List β) (a : α) :
    g (l.foldl f a) = g a := by
  induction l generalizing a with
  | nil => rfl
  | cons b l ih => rw [List.foldl_cons, ih, h]

theorem length_updWhere {α : Type} (p : α → Bool) (f : α → α) (l : List α) : (updWhere p f l).length = l.length := by
  simp [updWhere]

/-- A change that keeps `g` of every member keeps the list of them. -/
theorem map_updWhere {α β : Type} (g : α → β) (p : α → Bool) (f : α → α) (h : ∀ a, g (f a) = g a) (l : List α) :
    (updWhere p f l).map g = l.map g := by
  simp only [updWhere, List.map_map]
  congr 1
  funext a
  simp only [Function.comp]
  split <;> simp [h]

/-! ## Sources -/

@[simp] theorem State.updPort_sources (p : PortId) (f : Port → Port) (s : State) : (s.updPort p f).sources = s.sources := rfl
@[simp] theorem State.withEntries_sources (l : List Entry) (s : State) : (s.withEntries l).sources = s.sources := rfl
@[simp] theorem State.updEntry_sources (run : Nat) (f : Entry → Entry) (s : State) : (s.updEntry run f).sources = s.sources := rfl
@[simp] theorem State.rederive_sources (s : State) : (s.rederive).sources = s.sources := rfl
@[simp] theorem State.updPanel_sources (addr : Nat) (f : Panel → Panel) (s : State) : (s.updPanel addr f).sources = s.sources := rfl
@[simp] theorem State.appendUrgent_sources (run : Nat) (platform : Option Nat) (s : State) : (s.appendUrgent run platform).sources = s.sources := rfl
@[simp] theorem State.settleAttention_sources (s : State) : (s.settleAttention).sources = s.sources := rfl
@[simp] theorem State.withCues_sources (l : List Cue) (s : State) : (s.withCues l).sources = s.sources := rfl
@[simp] theorem State.appendCue_sources (kind : CueKind) (run : Nat) (zones : List Nat) (due : Int) (s : State) : (s.appendCue kind run zones due).sources = s.sources := rfl
@[simp] theorem State.withdrawWhere_sources (c : Cue → Bool) (s : State) : (s.withdrawWhere c).sources = s.sources := rfl
@[simp] theorem State.withdraw_sources (kind : CueKind) (run : Nat) (s : State) : (s.withdraw kind run).sources = s.sources := rfl
@[simp] theorem State.handoverWithdrawals_sources (old : Option Entry) (e : Entry) (s : State) : (s.handoverWithdrawals old e).sources = s.sources := rfl
@[simp] theorem State.testCues_sources (s : State) : (s.testCues).sources = s.sources := rfl
@[simp] theorem State.refollow_sources (kind : CueKind) (s : State) : (s.refollow kind).sources = s.sources := rfl
@[simp] theorem State.withTracker_sources (t : Tracker) (s : State) : (s.withTracker t).sources = s.sources := rfl
@[simp] theorem State.updRecords_sources (c : ChangeRec → Bool) (f : ChangeRec → ChangeRec) (s : State) : (s.updRecords c f).sources = s.sources := rfl
@[simp] theorem State.supersede_sources (run : Nat) (s : State) : (s.supersede run).sources = s.sources := rfl
@[simp] theorem State.changeTaken_sources (run : Nat) (s : State) : (s.changeTaken run).sources = s.sources := rfl
@[simp] theorem State.clearSpeech_sources (run : Nat) (s : State) : (s.clearSpeech run).sources = s.sources := rfl
@[simp] theorem State.changeDropped_sources (run : Nat) (s : State) : (s.changeDropped run).sources = s.sources := rfl
@[simp] theorem State.testHolds_sources (s : State) : (s.testHolds).sources = s.sources := rfl
@[simp] theorem State.rollTracker_sources (s : State) : (s.rollTracker).sources = s.sources := rfl
@[simp] theorem State.withWall_sources (w : Wall) (s : State) : (s.withWall w).sources = s.sources := rfl
@[simp] theorem State.showItem_sources (i : Item) (s : State) : (s.showItem i).sources = s.sources := rfl
@[simp] theorem State.remap_sources (s : State) : (s.remap).sources = s.sources := rfl
@[simp] theorem State.setDesired_sources (s : State) : (s.setDesired).sources = s.sources := rfl
@[simp] theorem State.writeLevels_sources (q : Panel → Bool) (s : State) : (s.writeLevels q).sources = s.sources := rfl
@[simp] theorem State.startExchange_sources (p : Panel) (urgent : Option Nat) (s : State) : (s.startExchange p urgent).sources = s.sources := rfl
@[simp] theorem State.dropEntry_sources (run : Nat) (s : State) : (s.dropEntry run).sources = s.sources := rfl
@[simp] theorem State.rollCues_sources (s : State) : (s.rollCues).sources = s.sources := rfl
@[simp] theorem State.answerTel_sources (p : PortId) (t : Tel) (a : Answer) (s : State) : (s.answerTel p t a).sources = s.sources := rfl
@[simp] theorem State.endCue_sources (number : Nat) (s : State) : (s.endCue number).sources = s.sources := rfl
@[simp] theorem State.updCue_sources (number : Nat) (f : Cue → Cue) (s : State) : (s.updCue number f).sources = s.sources := rfl
@[simp] theorem State.returnDue_sources (c : Cue) (attempts : Nat) (s : State) : (s.returnDue c attempts).sources = s.sources := rfl
@[simp] theorem State.capConfirm_sources (s : State) : (s.capConfirm).sources = s.sources := rfl
@[simp] theorem State.reclass_sources (before : Nat) (s : State) : (s.reclass before).sources = s.sources := rfl
@[simp] theorem State.holdZones_sources (held : Bool) (zones : List Nat) (s : State) : (s.holdZones held zones).sources = s.sources := rfl
@[simp] theorem State.withExchange_sources (x : Option Exchange) (s : State) : (s.withExchange x).sources = s.sources := rfl
@[simp] theorem State.clearIntervalFlags_sources (s : State) : (s.clearIntervalFlags).sources = s.sources := rfl
@[simp] theorem State.nextInterval_sources (s : State) : (s.nextInterval).sources = s.sources := rfl

@[simp] theorem State.post_sources (names : List PortId) (k : NoticeKind) (u : Subject) (s : State) :
    (s.post names k u).sources = s.sources :=
  foldl_keeps State.sources (fun t p => t.updPort p (Port.post ⟨k, u, s.time.clock⟩)) (fun _ _ => rfl) names s

@[simp] theorem State.postDropped_sources (run : Nat) (s : State) : (s.postDropped run).sources = s.sources := by
  simp [State.postDropped]

@[simp] theorem State.trigger_sources (k : CueKind) (run : Nat) (z : List Nat) (due : Int) (s : State) :
    (s.trigger k run z due).sources = s.sources := by
  unfold State.trigger
  repeat' split
  all_goals simp

@[simp] theorem State.handoverFinal_sources (old : Option Entry) (e : Entry) (s : State) :
    (s.handoverFinal old e).sources = s.sources := by
  simp only [State.handoverFinal]
  repeat' split
  all_goals simp

@[simp] theorem State.cueHandover_sources (old : Option Entry) (e : Entry) (s : State) :
    (s.cueHandover old e).sources = s.sources := by
  simp only [State.cueHandover, State.handoverFinal_sources]
  repeat' split
  all_goals simp

@[simp] theorem State.handStanding_sources (e : Entry) (st : EntryState) (s : State) :
    (s.handStanding e st).sources = s.sources := by
  simp only [State.handStanding, State.cueHandover_sources]

@[simp] theorem State.startGap_sources (z : List Nat) (s : State) : (s.startGap z).sources = s.sources := by
  unfold State.startGap
  split <;> rfl

@[simp] theorem State.voidRecord_sources (run : Nat) (s : State) : (s.voidRecord run).sources = s.sources := by
  unfold State.voidRecord
  split
  · simp
    rfl
  · rfl

@[simp] theorem State.openRecord_sources (run src dst : Nat) (r : Count16) (s : State) :
    (s.openRecord run src dst r).1.sources = s.sources := by
  unfold State.openRecord
  dsimp only
  split <;> simp

@[simp] theorem State.platformChanged_sources (e : Entry) (st : EntryState) (old : Option Nat) (s : State) :
    (s.platformChanged e st old).1.sources = s.sources := by
  unfold State.platformChanged
  repeat' split
  all_goals simp

@[simp] theorem State.inform_sources (r : ChangeRec) (s : State) : (s.inform r).sources = s.sources := by
  simp [State.inform]
  rfl

@[simp] theorem State.informAll_sources (s : State) : s.informAll.sources = s.sources :=
  foldl_keeps State.sources _ (fun t r => State.inform_sources r t) _ s

@[simp] theorem State.evaluate_sources (s : State) : s.evaluate.sources = s.sources := by
  unfold State.evaluate
  split <;> simp

@[simp] theorem State.waiveRows_sources (addr : Nat) (s : State) : (s.waiveRows addr).sources = s.sources := by
  unfold State.waiveRows
  split <;> simp

@[simp] theorem State.changeDone_sources (run : Nat) (s : State) : (s.changeDone run).sources = s.sources := by
  simp [State.changeDone]

@[simp] theorem State.rotate_sources (s : State) : s.rotate.sources = s.sources := by
  simp only [State.rotate]
  repeat' split
  all_goals simp

@[simp] theorem State.compose_sources (s : State) : s.compose.sources = s.sources := by
  simp [State.compose]

@[simp] theorem State.recompose_sources (s : State) : s.recompose.sources = s.sources := by
  simp [State.recompose]

@[simp] theorem State.endNoticeMode_sources (s : State) : s.endNoticeMode.sources = s.sources := by
  unfold State.endNoticeMode
  split <;> simp

@[simp] theorem State.dispatch_sources (s : State) : s.dispatch.sources = s.sources := by
  unfold State.dispatch
  split
  · rfl
  · split
    · rfl
    · dsimp only
      split <;> rfl

@[simp] theorem State.serve_sources (s old : State) : (s.serve old).sources = s.sources := by
  unfold State.serve
  split <;> simp

@[simp] theorem State.finish_sources (s old : State) : (s.finish old).sources = s.sources := by simp [State.finish]

@[simp] theorem State.settle_sources (s old : State) : (s.settle old).sources = s.sources := by simp [State.settle]

@[simp] theorem State.failPanel_sources (addr : Nat) (s : State) : (s.failPanel addr).sources = s.sources := by
  simp [State.failPanel]

@[simp] theorem State.takeStatus_sources (addr : Nat) (o : Bool) (s : State) :
    (s.takeStatus addr o).sources = s.sources := by
  unfold State.takeStatus
  repeat' split
  all_goals simp

@[simp] theorem State.acknowledge_sources (x : Exchange) (o : Bool) (s : State) :
    (s.acknowledge x o).sources = s.sources := by simp [State.acknowledge]

@[simp] theorem State.probingOutcome_sources (x : Exchange) (o : Outcome) (s : State) :
    (s.probingOutcome x o).sources = s.sources := by
  unfold State.probingOutcome
  split <;> simp

@[simp] theorem State.probeOutcome_sources (x : Exchange) (o : Outcome) (s : State) :
    (s.probeOutcome x o).sources = s.sources := by
  unfold State.probeOutcome
  split
  · dsimp only
    split <;> simp
  · simp

@[simp] theorem State.actOn_sources (x : Exchange) (o : Outcome) (s : State) : (s.actOn x o).sources = s.sources := by
  unfold State.actOn
  repeat' split
  all_goals simp

@[simp] theorem State.reappendUrgent_sources (x : Exchange) (o : Outcome) (s : State) :
    (s.reappendUrgent x o).sources = s.sources := by
  unfold State.reappendUrgent
  repeat' split
  all_goals rfl

@[simp] theorem State.endExchange_sources (x : Exchange) (o : Outcome) (s : State) :
    (s.endExchange x o).sources = s.sources := by
  simp only [State.endExchange, State.settleAttention_sources, State.dispatch_sources, State.recompose_sources]
  split
  · simp
    rfl
  · simp
    rfl

@[simp] theorem State.putEntry_sources (old e : Entry) (s : State) : (s.putEntry old e).sources = s.sources := by
  simp only [State.putEntry]
  split <;> simp

@[simp] theorem State.handPlatform_sources (old e : Entry) (s : State) :
    (s.handPlatform old e).1.sources = s.sources := by
  simp only [State.handPlatform, State.cueHandover_sources, State.platformChanged_sources]

@[simp] theorem State.changeEntry_sources (old new : Entry) (s : State) :
    (s.changeEntry old new).1.sources = s.sources := by
  simp only [State.changeEntry]
  repeat' split
  all_goals simp

@[simp] theorem State.amendEntry_sources (old new : Entry) (s : State) :
    (s.amendEntry old new).1.sources = s.sources := by
  simp only [State.amendEntry]
  repeat' split
  all_goals simp

@[simp] theorem State.decideRemoval_sources (x : Bool) (run : Nat) (s : State) :
    (s.decideRemoval x run).sources = s.sources := by
  simp only [State.decideRemoval]
  repeat' split
  all_goals simp

@[simp] theorem State.cueEnded_sources (run : Nat) (s : State) : (s.cueEnded run).sources = s.sources := by
  unfold State.cueEnded
  split <;> simp

@[simp] theorem State.evaluateEntry_sources (s : State) (run : Nat) : (s.evaluateEntry run).sources = s.sources := by
  simp only [State.evaluateEntry]
  repeat' split
  all_goals simp

@[simp] theorem State.evaluateTable_sources (s : State) : s.evaluateTable.sources = s.sources := by
  rw [State.evaluateTable, State.rederive_sources]
  exact foldl_keeps State.sources _ (fun t run => State.evaluateEntry_sources t run) _ s

@[simp] theorem State.rollTable_sources (s : State) : s.rollTable.sources = s.sources := by
  rw [State.rollTable, State.recompose_sources, State.rederive_sources]
  exact foldl_keeps State.sources _ (fun t run => State.decideRemoval_sources true run t) _ _

@[simp] theorem State.clearFilter_sources (run : Nat) (s : State) : (s.clearFilter run).sources = s.sources := by
  simp only [State.clearFilter]
  repeat' split
  all_goals simp

@[simp] theorem State.clearFilters_sources (s : State) : s.clearFilters.sources = s.sources :=
  foldl_keeps State.sources _ (fun t run => State.clearFilter_sources run t) _ s

@[simp] theorem State.fallSilent_sources (p : PortId) (s : State) : (s.fallSilent p).sources = s.sources := by
  simp only [State.fallSilent]
  split <;> simp

@[simp] theorem State.rollover_sources (s : State) : s.rollover.sources = s.sources := by simp [State.rollover]

@[simp] theorem State.createEntry_sources (e : Entry) (s : State) : (s.createEntry e).sources = s.sources := by
  simp [State.createEntry]

@[simp] theorem State.cancelEntry_sources (e : Entry) (r : Option Text) (s : State) :
    (s.cancelEntry e r).sources = s.sources := by simp [State.cancelEntry]

@[simp] theorem State.reinstate_sources (e : Entry) (s : State) : (s.reinstate e).sources = s.sources := by
  simp [State.reinstate]

@[simp] theorem State.departEntry_sources (e : Entry) (s : State) : (s.departEntry e).sources = s.sources := by
  simp [State.departEntry]

@[simp] theorem State.refilter_sources (e : Entry) (g : Filter) (b : Bool) (s : State) :
    (s.refilter e g b).sources = s.sources := by
  simp only [State.refilter]
  split <;> simp

@[simp] theorem State.speak_sources (done : Bool) (c : Cue) (t : Taken) (s : State) :
    (s.speak done c t).1.sources = s.sources := by
  have facts : ∀ u : State, (u.spokenFacts t.content).sources = u.sources := by
    intro u
    unfold State.spokenFacts
    split <;> simp
  have d : ∀ u : State, (u.fateOfDone c).1.sources = u.sources := by
    intro u
    simp only [State.fateOfDone]
    repeat' split
    all_goals simp
  have a : ∀ u : State, (u.fateOfAbort c).1.sources = u.sources := by
    intro u
    simp only [State.fateOfAbort]
    repeat' split
    all_goals simp
  simp only [State.speak, State.settle_sources, State.cueEnded_sources]
  repeat' split
  all_goals simp [facts, d, a]

end Sys2Proof.Machine
end

