-- ==== Sys2Proof/Laws/Links.lean ====
section
/-! SUPPORT. The port records: what an update of one reads as, and that every shared operation keeps the link part
of each (its LIVE state, silence timer, buffer, service and reply) and only adds notices. -/
namespace Sys2Proof.Machine

open Sys2Proof

/-! ## Reading a port record -/

@[simp] theorem Ports.get_upd (ps : Ports) (p q : PortId) (f : Port → Port) :
    (ps.upd p f).get q = if q = p then f (ps.get p) else ps.get q := by
  cases p <;> cases q <;> rfl

@[simp] theorem State.port_updPort (s : State) (p q : PortId) (f : Port → Port) :
    (s.updPort p f).port q = if q = p then f (s.port p) else s.port q := Ports.get_upd _ _ _ _

@[simp] theorem Port.link_post (n : Notice) (r : Port) : (r.post n).link = r.link := by
  unfold Port.post
  split <;> rfl

theorem State.link_updPort (s : State) (p q : PortId) (f : Port → Port) (h : ∀ r, (f r).link = r.link) :
    (s.updPort p f).link q = s.link q := by
  simp only [State.link, State.port_updPort]
  split
  · next e => rw [e, h]
  · rfl

theorem State.link_of_ports {s t : State} (h : t.ports = s.ports) (q : PortId) : t.link q = s.link q := by
  simp only [State.link, State.port, h]

@[simp] theorem State.settleAttention_link (s : State) (q : PortId) : s.settleAttention.link q = s.link q := by
  cases q <;> rfl

@[simp] theorem State.atMs_link (port : PortId) (ms : Nat) (s : State) : (s.atMs ms).link port = s.link port := rfl
@[simp] theorem State.withEntries_link (port : PortId) (l : List Entry) (s : State) : (s.withEntries l).link port = s.link port := rfl
@[simp] theorem State.updEntry_link (port : PortId) (run : Nat) (f : Entry → Entry) (s : State) : (s.updEntry run f).link port = s.link port := rfl
@[simp] theorem State.rederive_link (port : PortId) (s : State) : (s.rederive).link port = s.link port := rfl
@[simp] theorem State.updPanel_link (port : PortId) (addr : Nat) (f : Panel → Panel) (s : State) : (s.updPanel addr f).link port = s.link port := rfl
@[simp] theorem State.appendUrgent_link (port : PortId) (run : Nat) (platform : Option Nat) (s : State) : (s.appendUrgent run platform).link port = s.link port := rfl
@[simp] theorem State.updLine_link (port : PortId) (n : Fin 4) (f : Line → Line) (s : State) : (s.updLine n f).link port = s.link port := rfl
@[simp] theorem State.withCues_link (port : PortId) (l : List Cue) (s : State) : (s.withCues l).link port = s.link port := rfl
@[simp] theorem State.appendCue_link (port : PortId) (kind : CueKind) (run : Nat) (zones : List Nat) (due : Int) (s : State) : (s.appendCue kind run zones due).link port = s.link port := rfl
@[simp] theorem State.withdrawWhere_link (port : PortId) (c : Cue → Bool) (s : State) : (s.withdrawWhere c).link port = s.link port := rfl
@[simp] theorem State.withdraw_link (port : PortId) (kind : CueKind) (run : Nat) (s : State) : (s.withdraw kind run).link port = s.link port := rfl
@[simp] theorem State.handoverWithdrawals_link (port : PortId) (old : Option Entry) (e : Entry) (s : State) : (s.handoverWithdrawals old e).link port = s.link port := rfl
@[simp] theorem State.testCues_link (port : PortId) (s : State) : (s.testCues).link port = s.link port := rfl
@[simp] theorem State.refollow_link (port : PortId) (kind : CueKind) (s : State) : (s.refollow kind).link port = s.link port := rfl
@[simp] theorem State.withTracker_link (port : PortId) (t : Tracker) (s : State) : (s.withTracker t).link port = s.link port := rfl
@[simp] theorem State.updRecords_link (port : PortId) (c : ChangeRec → Bool) (f : ChangeRec → ChangeRec) (s : State) : (s.updRecords c f).link port = s.link port := rfl
@[simp] theorem State.supersede_link (port : PortId) (run : Nat) (s : State) : (s.supersede run).link port = s.link port := rfl
@[simp] theorem State.changeTaken_link (port : PortId) (run : Nat) (s : State) : (s.changeTaken run).link port = s.link port := rfl
@[simp] theorem State.clearSpeech_link (port : PortId) (run : Nat) (s : State) : (s.clearSpeech run).link port = s.link port := rfl
@[simp] theorem State.changeDropped_link (port : PortId) (run : Nat) (s : State) : (s.changeDropped run).link port = s.link port := rfl
@[simp] theorem State.testHolds_link (port : PortId) (s : State) : (s.testHolds).link port = s.link port := rfl
@[simp] theorem State.rollTracker_link (port : PortId) (s : State) : (s.rollTracker).link port = s.link port := rfl
@[simp] theorem State.withWall_link (port : PortId) (w : Wall) (s : State) : (s.withWall w).link port = s.link port := rfl
@[simp] theorem State.showItem_link (port : PortId) (i : Item) (s : State) : (s.showItem i).link port = s.link port := rfl
@[simp] theorem State.remap_link (port : PortId) (s : State) : (s.remap).link port = s.link port := rfl
@[simp] theorem State.setDesired_link (port : PortId) (s : State) : (s.setDesired).link port = s.link port := rfl
@[simp] theorem State.writeLevels_link (port : PortId) (q : Panel → Bool) (s : State) : (s.writeLevels q).link port = s.link port := rfl
@[simp] theorem State.startExchange_link (port : PortId) (p : Panel) (urgent : Option Nat) (s : State) : (s.startExchange p urgent).link port = s.link port := rfl
@[simp] theorem State.dropEntry_link (port : PortId) (run : Nat) (s : State) : (s.dropEntry run).link port = s.link port := rfl
@[simp] theorem State.rollCues_link (port : PortId) (s : State) : (s.rollCues).link port = s.link port := rfl
@[simp] theorem State.announceLines_link (port : PortId) (minute : Bool) (s : State) : (s.announceLines minute).link port = s.link port := rfl
@[simp] theorem State.writeDials_link (port : PortId) (s : State) : (s.writeDials).link port = s.link port := rfl
@[simp] theorem State.applyDial_link (port : PortId) (n : Fin 4) (w : DecisionTime) (d : PendingDial) (s : State) : (s.applyDial n w d).link port = s.link port := rfl
@[simp] theorem State.withSense_link (port : PortId) (u : Sense) (s : State) : (s.withSense u).link port = s.link port := rfl
@[simp] theorem State.chooseConversion_link (port : PortId) (s : State) : (s.chooseConversion).link port = s.link port := rfl
@[simp] theorem State.slewClock_link (port : PortId) (d : Int) (s : State) : (s.slewClock d).link port = s.link port := rfl
@[simp] theorem State.endCue_link (port : PortId) (number : Nat) (s : State) : (s.endCue number).link port = s.link port := rfl
@[simp] theorem State.updCue_link (port : PortId) (number : Nat) (f : Cue → Cue) (s : State) : (s.updCue number f).link port = s.link port := rfl
@[simp] theorem State.returnDue_link (port : PortId) (c : Cue) (attempts : Nat) (s : State) : (s.returnDue c attempts).link port = s.link port := rfl
@[simp] theorem State.capConfirm_link (port : PortId) (s : State) : (s.capConfirm).link port = s.link port := rfl
@[simp] theorem State.reclass_link (port : PortId) (before : Nat) (s : State) : (s.reclass before).link port = s.link port := rfl
@[simp] theorem State.saveConfiguration_link (port : PortId) (s : State) : (s.saveConfiguration).link port = s.link port := rfl
@[simp] theorem State.holdZones_link (port : PortId) (held : Bool) (zones : List Nat) (s : State) : (s.holdZones held zones).link port = s.link port := rfl
@[simp] theorem State.withExchange_link (port : PortId) (x : Option Exchange) (s : State) : (s.withExchange x).link port = s.link port := rfl
@[simp] theorem State.clearIntervalFlags_link (port : PortId) (s : State) : (s.clearIntervalFlags).link port = s.link port := rfl
@[simp] theorem State.nextInterval_link (port : PortId) (s : State) : (s.nextInterval).link port = s.link port := rfl
@[simp] theorem State.restartScan_link (port : PortId) (s : State) : (s.restartScan).link port = s.link port := rfl

@[simp] theorem State.post_link (port : PortId) (names : List PortId) (k : NoticeKind) (u : Subject) (s : State) :
    (s.post names k u).link port = s.link port :=
  foldl_keeps (State.link · port) (fun t p => t.updPort p (Port.post ⟨k, u, s.time.clock⟩)) (fun _ _ => State.link_updPort _ _ _ _ (Port.link_post _)) names s

@[simp] theorem State.postDropped_link (port : PortId) (run : Nat) (s : State) : (s.postDropped run).link port = s.link port := by
  simp [State.postDropped]

@[simp] theorem State.trigger_link (port : PortId) (k : CueKind) (run : Nat) (z : List Nat) (due : Int) (s : State) :
    (s.trigger k run z due).link port = s.link port := by
  unfold State.trigger
  repeat' split
  all_goals simp

@[simp] theorem State.handoverFinal_link (port : PortId) (old : Option Entry) (e : Entry) (s : State) :
    (s.handoverFinal old e).link port = s.link port := by
  simp only [State.handoverFinal]
  repeat' split
  all_goals simp

@[simp] theorem State.cueHandover_link (port : PortId) (old : Option Entry) (e : Entry) (s : State) :
    (s.cueHandover old e).link port = s.link port := by
  simp only [State.cueHandover, State.handoverFinal_link]
  repeat' split
  all_goals simp

@[simp] theorem State.handStanding_link (port : PortId) (e : Entry) (st : EntryState) (s : State) :
    (s.handStanding e st).link port = s.link port := by
  simp only [State.handStanding, State.cueHandover_link]

@[simp] theorem State.startGap_link (port : PortId) (z : List Nat) (s : State) : (s.startGap z).link port = s.link port := by
  unfold State.startGap
  split <;> rfl

@[simp] theorem State.voidRecord_link (port : PortId) (run : Nat) (s : State) : (s.voidRecord run).link port = s.link port := by
  unfold State.voidRecord
  split
  · simp
    rfl
  · rfl

@[simp] theorem State.openRecord_link (port : PortId) (run src dst : Nat) (r : Count16) (s : State) :
    (s.openRecord run src dst r).1.link port = s.link port := by
  unfold State.openRecord
  dsimp only
  split <;> simp

@[simp] theorem State.platformChanged_link (port : PortId) (e : Entry) (st : EntryState) (old : Option Nat) (s : State) :
    (s.platformChanged e st old).1.link port = s.link port := by
  unfold State.platformChanged
  repeat' split
  all_goals simp

@[simp] theorem State.inform_link (port : PortId) (r : ChangeRec) (s : State) : (s.inform r).link port = s.link port := by
  simp [State.inform]
  rfl

@[simp] theorem State.informAll_link (port : PortId) (s : State) : s.informAll.link port = s.link port :=
  foldl_keeps (State.link · port) _ (fun t r => State.inform_link port r t) _ s

@[simp] theorem State.evaluate_link (port : PortId) (s : State) : s.evaluate.link port = s.link port := by
  unfold State.evaluate
  split <;> simp

@[simp] theorem State.waiveRows_link (port : PortId) (addr : Nat) (s : State) : (s.waiveRows addr).link port = s.link port := by
  unfold State.waiveRows
  split <;> simp

@[simp] theorem State.changeDone_link (port : PortId) (run : Nat) (s : State) : (s.changeDone run).link port = s.link port := by
  simp [State.changeDone]

@[simp] theorem State.rotate_link (port : PortId) (s : State) : s.rotate.link port = s.link port := by
  simp only [State.rotate]
  repeat' split
  all_goals simp

@[simp] theorem State.compose_link (port : PortId) (s : State) : s.compose.link port = s.link port := by
  simp [State.compose]

@[simp] theorem State.recompose_link (port : PortId) (s : State) : s.recompose.link port = s.link port := by
  simp [State.recompose]

@[simp] theorem State.endNoticeMode_link (port : PortId) (s : State) : s.endNoticeMode.link port = s.link port := by
  unfold State.endNoticeMode
  split <;> simp

@[simp] theorem State.dispatch_link (port : PortId) (s : State) : s.dispatch.link port = s.link port := by
  unfold State.dispatch
  split
  · rfl
  · split
    · rfl
    · dsimp only
      split <;> rfl

@[simp] theorem State.serve_link (port : PortId) (s old : State) : (s.serve old).link port = s.link port := by
  unfold State.serve
  split <;> simp

@[simp] theorem State.finish_link (port : PortId) (s old : State) : (s.finish old).link port = s.link port := by simp [State.finish]

@[simp] theorem State.settle_link (port : PortId) (s old : State) : (s.settle old).link port = s.link port := by simp [State.settle]

@[simp] theorem State.failPanel_link (port : PortId) (addr : Nat) (s : State) : (s.failPanel addr).link port = s.link port := by
  simp [State.failPanel]

@[simp] theorem State.takeStatus_link (port : PortId) (addr : Nat) (o : Bool) (s : State) :
    (s.takeStatus addr o).link port = s.link port := by
  unfold State.takeStatus
  repeat' split
  all_goals simp

@[simp] theorem State.acknowledge_link (port : PortId) (x : Exchange) (o : Bool) (s : State) :
    (s.acknowledge x o).link port = s.link port := by simp [State.acknowledge]

@[simp] theorem State.probingOutcome_link (port : PortId) (x : Exchange) (o : Outcome) (s : State) :
    (s.probingOutcome x o).link port = s.link port := by
  unfold State.probingOutcome
  split <;> simp

@[simp] theorem State.probeOutcome_link (port : PortId) (x : Exchange) (o : Outcome) (s : State) :
    (s.probeOutcome x o).link port = s.link port := by
  unfold State.probeOutcome
  split
  · dsimp only
    split <;> simp
  · simp

@[simp] theorem State.actOn_link (port : PortId) (x : Exchange) (o : Outcome) (s : State) : (s.actOn x o).link port = s.link port := by
  unfold State.actOn
  repeat' split
  all_goals simp

@[simp] theorem State.reappendUrgent_link (port : PortId) (x : Exchange) (o : Outcome) (s : State) :
    (s.reappendUrgent x o).link port = s.link port := by
  unfold State.reappendUrgent
  repeat' split
  all_goals rfl

@[simp] theorem State.endExchange_link (port : PortId) (x : Exchange) (o : Outcome) (s : State) :
    (s.endExchange x o).link port = s.link port := by
  simp only [State.endExchange, State.settleAttention_link, State.dispatch_link, State.recompose_link]
  split
  · simp
    rfl
  · simp
    rfl

@[simp] theorem State.putEntry_link (port : PortId) (old e : Entry) (s : State) : (s.putEntry old e).link port = s.link port := by
  simp only [State.putEntry]
  split <;> simp

@[simp] theorem State.handPlatform_link (port : PortId) (old e : Entry) (s : State) :
    (s.handPlatform old e).1.link port = s.link port := by
  simp only [State.handPlatform, State.cueHandover_link, State.platformChanged_link]

@[simp] theorem State.changeEntry_link (port : PortId) (old new : Entry) (s : State) :
    (s.changeEntry old new).1.link port = s.link port := by
  simp only [State.changeEntry]
  repeat' split
  all_goals simp

@[simp] theorem State.amendEntry_link (port : PortId) (old new : Entry) (s : State) :
    (s.amendEntry old new).1.link port = s.link port := by
  simp only [State.amendEntry]
  repeat' split
  all_goals simp

@[simp] theorem State.decideRemoval_link (port : PortId) (x : Bool) (run : Nat) (s : State) :
    (s.decideRemoval x run).link port = s.link port := by
  simp only [State.decideRemoval]
  repeat' split
  all_goals simp

@[simp] theorem State.cueEnded_link (port : PortId) (run : Nat) (s : State) : (s.cueEnded run).link port = s.link port := by
  unfold State.cueEnded
  split <;> simp

@[simp] theorem State.evaluateEntry_link (port : PortId) (s : State) (run : Nat) : (s.evaluateEntry run).link port = s.link port := by
  simp only [State.evaluateEntry]
  repeat' split
  all_goals simp

@[simp] theorem State.evaluateTable_link (port : PortId) (s : State) : s.evaluateTable.link port = s.link port := by
  rw [State.evaluateTable, State.rederive_link]
  exact foldl_keeps (State.link · port) _ (fun t run => State.evaluateEntry_link port t run) _ s

@[simp] theorem State.rollTable_link (port : PortId) (s : State) : s.rollTable.link port = s.link port := by
  rw [State.rollTable, State.recompose_link, State.rederive_link]
  exact foldl_keeps (State.link · port) _ (fun t run => State.decideRemoval_link port true run t) _ _

@[simp] theorem State.clearFilter_link (port : PortId) (run : Nat) (s : State) : (s.clearFilter run).link port = s.link port := by
  simp only [State.clearFilter]
  repeat' split
  all_goals simp

@[simp] theorem State.clearFilters_link (port : PortId) (s : State) : s.clearFilters.link port = s.link port :=
  foldl_keeps (State.link · port) _ (fun t run => State.clearFilter_link port run t) _ s

@[simp] theorem State.rollover_link (port : PortId) (s : State) : s.rollover.link port = s.link port := by simp [State.rollover]

@[simp] theorem State.createEntry_link (port : PortId) (e : Entry) (s : State) : (s.createEntry e).link port = s.link port := by
  simp [State.createEntry]

@[simp] theorem State.cancelEntry_link (port : PortId) (e : Entry) (r : Option Text) (s : State) :
    (s.cancelEntry e r).link port = s.link port := by simp [State.cancelEntry]

@[simp] theorem State.reinstate_link (port : PortId) (e : Entry) (s : State) : (s.reinstate e).link port = s.link port := by
  simp [State.reinstate]

@[simp] theorem State.departEntry_link (port : PortId) (e : Entry) (s : State) : (s.departEntry e).link port = s.link port := by
  simp [State.departEntry]

@[simp] theorem State.refilter_link (port : PortId) (e : Entry) (g : Filter) (b : Bool) (s : State) :
    (s.refilter e g b).link port = s.link port := by
  simp only [State.refilter]
  split <;> simp

@[simp] theorem State.speak_link (port : PortId) (done : Bool) (c : Cue) (t : Taken) (s : State) :
    (s.speak done c t).1.link port = s.link port := by
  have facts : ∀ u : State, (u.spokenFacts t.content).link port = u.link port := by
    intro u
    unfold State.spokenFacts
    split <;> simp
  have d : ∀ u : State, (u.fateOfDone c).1.link port = u.link port := by
    intro u
    simp only [State.fateOfDone]
    repeat' split
    all_goals simp
  have a : ∀ u : State, (u.fateOfAbort c).1.link port = u.link port := by
    intro u
    simp only [State.fateOfAbort]
    repeat' split
    all_goals simp
  simp only [State.speak, State.settle_link, State.cueEnded_link]
  repeat' split
  all_goals simp [facts, d, a]

end Sys2Proof.Machine
end

