-- ==== Sys2Proof/Laws/Picture.lean ====
section
/-! SUPPORT. What the end of a command that changes the picture (composition, evaluation, dispatch, attention) leaves
as it was: the facts of the entries, the cue list, the posted notices and the mode, the panel records. -/
namespace Sys2Proof.Machine

open Sys2Proof

/-! ## Posting -/

@[simp] theorem State.post_table (names : List PortId) (k : NoticeKind) (u : Subject) (s : State) :
    (s.post names k u).table = s.table :=
  foldl_keeps State.table (fun t p => t.updPort p (Port.post ⟨k, u, s.time.clock⟩)) (fun _ _ => rfl) names s

@[simp] theorem State.post_tracker (names : List PortId) (k : NoticeKind) (u : Subject) (s : State) :
    (s.post names k u).tracker = s.tracker :=
  foldl_keeps State.tracker (fun t p => t.updPort p (Port.post ⟨k, u, s.time.clock⟩)) (fun _ _ => rfl) names s

@[simp] theorem State.post_cues (names : List PortId) (k : NoticeKind) (u : Subject) (s : State) :
    (s.post names k u).cues = s.cues :=
  foldl_keeps State.cues (fun t p => t.updPort p (Port.post ⟨k, u, s.time.clock⟩)) (fun _ _ => rfl) names s

@[simp] theorem State.post_wall (names : List PortId) (k : NoticeKind) (u : Subject) (s : State) :
    (s.post names k u).wall = s.wall :=
  foldl_keeps State.wall (fun t p => t.updPort p (Port.post ⟨k, u, s.time.clock⟩)) (fun _ _ => rfl) names s

@[simp] theorem State.post_bus (names : List PortId) (k : NoticeKind) (u : Subject) (s : State) :
    (s.post names k u).bus = s.bus :=
  foldl_keeps State.bus (fun t p => t.updPort p (Port.post ⟨k, u, s.time.clock⟩)) (fun _ _ => rfl) names s

/-! ## Composition -/

@[simp] theorem State.rotate_table (s : State) : s.rotate.table = s.table := by
  simp only [State.rotate]
  repeat' split
  all_goals rfl

@[simp] theorem State.rotate_tracker (s : State) : s.rotate.tracker = s.tracker := by
  simp only [State.rotate]
  repeat' split
  all_goals rfl

@[simp] theorem State.rotate_cues (s : State) : s.rotate.cues = s.cues := by
  simp only [State.rotate]
  repeat' split
  all_goals rfl

@[simp] theorem State.rotate_bus (s : State) : s.rotate.bus = s.bus := by
  simp only [State.rotate]
  repeat' split
  all_goals rfl

@[simp] theorem State.rotate_board (s : State) : s.rotate.wall.board = s.wall.board := by
  simp only [State.rotate]
  repeat' split
  all_goals rfl

/-- Every re-forming leaves the rotation list as formed afresh (R121). -/
@[simp] theorem State.rotate_items (s : State) : s.rotate.wall.items = s.freshItems := by
  simp only [State.rotate]
  repeat' split
  all_goals rfl

/-- The item that takes the place of one that left stands in the new list (R123). -/
theorem successor_mem (old items : List Item) (c first : Item) (h : first ∈ items) :
    successor old items c first ∈ items := by
  unfold successor
  cases hf : (old.drop (old.idxOf c + 1)).find? items.contains with
  | none => exact h
  | some i => simpa using List.find?_some hf

@[simp] theorem State.compose_table (s : State) : s.compose.table = s.table := by simp [State.compose]

@[simp] theorem State.compose_tracker (s : State) : s.compose.tracker = s.tracker := by
  simp [State.compose]

@[simp] theorem State.compose_cues (s : State) : s.compose.cues = s.cues := by simp [State.compose]

@[simp] theorem State.compose_board (s : State) : s.compose.wall.board = s.wall.board := by
  simp [State.compose]
  rfl

theorem State.setDesired_records (s : State) : s.setDesired.records = s.records := by
  simp only [State.records, State.setDesired, List.map_map]
  rfl

@[simp] theorem State.compose_records (s : State) : s.compose.records = s.records := by
  rw [State.compose, State.setDesired_records, State.records, State.rotate_bus]
  rfl

@[simp] theorem State.remap_board (s : State) : s.remap.wall.board = s.wall.board := rfl

/-! ## Evaluation -/

theorem State.updEntry_facts (run : Nat) (f : Entry → Entry) (h : ∀ e, (f e).facts = e.facts) (s : State) :
    (s.updEntry run f).facts = s.facts := map_updWhere Entry.facts _ f h _

@[simp] theorem State.inform_facts (r : ChangeRec) (s : State) : (s.inform r).facts = s.facts := by
  simp only [State.inform, State.facts, State.post_table]
  exact State.updEntry_facts r.run (fun e => { e with openRec := none, rev := e.rev + 1 }) (fun _ => rfl) _

@[simp] theorem State.inform_cues (r : ChangeRec) (s : State) : (s.inform r).cues = s.cues := by simp [State.inform]

@[simp] theorem State.inform_wall (r : ChangeRec) (s : State) : (s.inform r).wall = s.wall := by simp [State.inform]

@[simp] theorem State.inform_bus (r : ChangeRec) (s : State) : (s.inform r).bus = s.bus := by simp [State.inform]

@[simp] theorem State.informAll_facts (s : State) : s.informAll.facts = s.facts :=
  foldl_keeps State.facts (fun t r => t.inform r) (fun t r => State.inform_facts r t) _ s

@[simp] theorem State.informAll_cues (s : State) : s.informAll.cues = s.cues :=
  foldl_keeps State.cues (fun t r => t.inform r) (fun t r => State.inform_cues r t) _ s

@[simp] theorem State.informAll_wall (s : State) : s.informAll.wall = s.wall :=
  foldl_keeps State.wall (fun t r => t.inform r) (fun t r => State.inform_wall r t) _ s

@[simp] theorem State.informAll_bus (s : State) : s.informAll.bus = s.bus :=
  foldl_keeps State.bus (fun t r => t.inform r) (fun t r => State.inform_bus r t) _ s

@[simp] theorem State.evaluate_facts (s : State) : s.evaluate.facts = s.facts := by
  unfold State.evaluate
  split
  · rw [State.informAll_facts]
    rfl
  · rfl

@[simp] theorem State.evaluate_cues (s : State) : s.evaluate.cues = s.cues := by
  unfold State.evaluate
  split <;> simp

@[simp] theorem State.evaluate_wall (s : State) : s.evaluate.wall = s.wall := by
  unfold State.evaluate
  split <;> simp

@[simp] theorem State.evaluate_bus (s : State) : s.evaluate.bus = s.bus := by
  unfold State.evaluate
  split <;> simp

/-! ## Recomputation -/

theorem State.facts_of_table {s t : State} (h : t.table = s.table) : t.facts = s.facts := by
  simp only [State.facts, h]

theorem State.records_of_bus {s t : State} (h : t.bus = s.bus) : t.records = s.records := by
  simp only [State.records, h]

@[simp] theorem State.recompose_facts (s : State) : s.recompose.facts = s.facts := by
  simp only [State.recompose]
  rw [State.facts_of_table (State.compose_table _), State.evaluate_facts,
    State.facts_of_table (State.compose_table _)]

@[simp] theorem State.recompose_cues (s : State) : s.recompose.cues = s.cues := by
  simp [State.recompose]

@[simp] theorem State.recompose_board (s : State) : s.recompose.wall.board = s.wall.board := by
  simp [State.recompose]

@[simp] theorem State.recompose_records (s : State) : s.recompose.records = s.records := by
  simp only [State.recompose, State.compose_records]
  rw [State.records_of_bus (State.evaluate_bus _), State.compose_records]

/-! ## Dispatch -/

@[simp] theorem State.startExchange_records (p : Panel) (u : Option Nat) (s : State) :
    (s.startExchange p u).records = s.records := by
  simp only [State.records, State.startExchange, State.updPanel]
  refine map_updWhere Panel.record _ _ ?_ _
  intro q
  rfl

@[simp] theorem State.dispatch_table (s : State) : s.dispatch.table = s.table := by
  unfold State.dispatch
  split
  · rfl
  · split
    · rfl
    · dsimp only
      split <;> rfl

@[simp] theorem State.dispatch_tracker (s : State) : s.dispatch.tracker = s.tracker := by
  unfold State.dispatch
  split
  · rfl
  · split
    · rfl
    · dsimp only
      split <;> rfl

@[simp] theorem State.dispatch_cues (s : State) : s.dispatch.cues = s.cues := by
  unfold State.dispatch
  split
  · rfl
  · split
    · rfl
    · dsimp only
      split <;> rfl

@[simp] theorem State.dispatch_wall (s : State) : s.dispatch.wall = s.wall := by
  unfold State.dispatch
  split
  · rfl
  · split
    · rfl
    · dsimp only
      split <;> rfl

@[simp] theorem State.dispatch_ports (s : State) : s.dispatch.ports = s.ports := by
  unfold State.dispatch
  split
  · rfl
  · split
    · rfl
    · dsimp only
      split <;> rfl

@[simp] theorem State.dispatch_records (s : State) : s.dispatch.records = s.records := by
  unfold State.dispatch
  split
  · rfl
  · split
    · rw [State.startExchange_records]
      rfl
    · dsimp only
      split
      · rw [State.startExchange_records]
        rfl
      · rfl

@[simp] theorem State.serve_table (s old : State) : (s.serve old).table = s.table := by
  unfold State.serve
  split <;> simp

@[simp] theorem State.serve_tracker (s old : State) : (s.serve old).tracker = s.tracker := by
  unfold State.serve
  split <;> simp

@[simp] theorem State.serve_cues (s old : State) : (s.serve old).cues = s.cues := by
  unfold State.serve
  split <;> simp

@[simp] theorem State.serve_wall (s old : State) : (s.serve old).wall = s.wall := by
  unfold State.serve
  split <;> simp

@[simp] theorem State.serve_records (s old : State) : (s.serve old).records = s.records := by
  unfold State.serve
  split <;> simp

/-! ## The end of a command -/

@[simp] theorem State.finish_table (s old : State) : (s.finish old).table = s.table := by simp [State.finish]

@[simp] theorem State.finish_tracker (s old : State) : (s.finish old).tracker = s.tracker := by simp [State.finish]

@[simp] theorem State.finish_cues (s old : State) : (s.finish old).cues = s.cues := by simp [State.finish]

@[simp] theorem State.finish_wall (s old : State) : (s.finish old).wall = s.wall := by simp [State.finish]

@[simp] theorem State.finish_records (s old : State) : (s.finish old).records = s.records := by
  rw [State.finish, State.records_of_bus (State.settleAttention_bus _), State.serve_records]

@[simp] theorem State.settle_facts (s old : State) : (s.settle old).facts = s.facts := by
  rw [State.settle, State.facts_of_table (State.finish_table _ _), State.recompose_facts]

@[simp] theorem State.settle_cues (s old : State) : (s.settle old).cues = s.cues := by simp [State.settle]

@[simp] theorem State.settle_board (s old : State) : (s.settle old).wall.board = s.wall.board := by
  simp [State.settle]

@[simp] theorem State.settle_records (s old : State) : (s.settle old).records = s.records := by
  simp [State.settle]

/-- The end of a command leaves every source of the picture as it was. -/
theorem State.settle_time (s old : State) : (s.settle old).time = s.time :=
  congrArg Sources.time (State.settle_sources s old)

theorem State.settle_inForce (s old : State) : (s.settle old).inForce = s.inForce :=
  congrArg Sources.inForce (State.settle_sources s old)

theorem State.settle_lines (s old : State) : (s.settle old).lines = s.lines :=
  congrArg Sources.lines (State.settle_sources s old)

theorem State.settle_store (s old : State) : (s.settle old).store = s.store :=
  congrArg Sources.store (State.settle_sources s old)

theorem State.settle_sense (s old : State) : (s.settle old).sense = s.sense :=
  congrArg Sources.sense (State.settle_sources s old)

end Sys2Proof.Machine
end

