-- ==== Sys2Proof/Laws/Table.lean ====
section
/-! SUPPORT. The departure table: the order of its key, the entry of a run through each operation, and what a
change of one entry leaves of the others. -/
namespace Sys2Proof.Machine

open Sys2Proof

/-! ## The key -/

theorem keyLt_iff (a b : Entry) :
    keyLt a b = true ↔
      a.exp < b.exp ∨ a.exp = b.exp ∧ (a.sched < b.sched ∨ a.sched = b.sched ∧ a.run < b.run) := by
  simp [keyLt]

theorem keyLt_trans {a b c : Entry} (h : keyLt a b = true) (k : keyLt b c = true) : keyLt a c = true := by
  rw [keyLt_iff] at *
  omega

theorem keyLt_total {a b : Entry} (h : a.run ≠ b.run) (k : keyLt a b ≠ true) : keyLt b a = true := by
  rw [Ne, keyLt_iff] at k
  rw [keyLt_iff]
  omega

theorem keyLt_irrefl (a : Entry) : keyLt a a = false := by
  rw [Bool.eq_false_iff, Ne, keyLt_iff]
  omega

theorem insertEntry_perm (e : Entry) (l : List Entry) : (insertEntry e l).Perm (e :: l) := by
  induction l with
  | nil => exact List.Perm.refl _
  | cons x xs ih =>
    rw [insertEntry]
    split
    · exact List.Perm.refl _
    · exact (ih.cons x).trans (List.Perm.swap e x xs)

theorem sortEntries_perm (l : List Entry) : (sortEntries l).Perm l := by
  induction l with
  | nil => exact List.Perm.refl _
  | cons x xs ih => exact (insertEntry_perm x _).trans (ih.cons x)

theorem insertEntry_sorted (e : Entry) (l : List Entry) (h : l.Pairwise fun a b => keyLt a b = true)
    (k : ∀ x ∈ l, x.run ≠ e.run) : (insertEntry e l).Pairwise fun a b => keyLt a b = true := by
  induction l with
  | nil => exact List.pairwise_singleton _ _
  | cons x xs ih =>
    rw [List.pairwise_cons] at h
    rw [insertEntry]
    split
    · next hex =>
      refine List.pairwise_cons.2 ⟨fun y hy => ?_, List.pairwise_cons.2 h⟩
      rcases List.mem_cons.1 hy with rfl | hy
      · exact hex
      · exact keyLt_trans hex (h.1 y hy)
    · next hex =>
      have hxe : keyLt x e = true := keyLt_total (Ne.symm (k x List.mem_cons_self)) hex
      refine List.pairwise_cons.2 ⟨fun y hy => ?_, ih h.2 fun y hy => k y (List.mem_cons_of_mem x hy)⟩
      rcases List.mem_cons.1 ((insertEntry_perm e xs).subset hy) with rfl | hy
      · exact hxe
      · exact h.1 y hy

/-- Entries of different runs are put into strictly ascending order (R2). -/
theorem sortEntries_sorted (l : List Entry) (h : (l.map (·.run)).Nodup) :
    (sortEntries l).Pairwise fun a b => keyLt a b = true := by
  induction l with
  | nil => exact List.Pairwise.nil
  | cons x xs ih =>
    rw [List.map_cons, List.nodup_cons] at h
    refine insertEntry_sorted x _ (ih h.2) fun y hy hrun => h.1 ?_
    exact List.mem_map.2 ⟨y, (sortEntries_perm xs).subset hy, hrun⟩

theorem length_sortEntries (l : List Entry) : (sortEntries l).length = l.length := (sortEntries_perm l).length_eq

/-! ## The entry of a run -/

/-- The entry of a run in a list of entries. -/
def entryIn (run : Nat) (l : List Entry) : Option Entry := l.find? (·.run = run)

theorem State.entry?_eq (s : State) (run : Nat) : s.entry? run = entryIn run s.table.entries := rfl

theorem entryIn_run {run : Nat} {l : List Entry} {e : Entry} (h : entryIn run l = some e) : e.run = run := by
  have := List.find?_some h
  simpa using this

theorem entryIn_mem {run : Nat} {l : List Entry} {e : Entry} (h : entryIn run l = some e) : e ∈ l :=
  List.mem_of_find?_eq_some h

theorem entryIn_of_mem {l : List Entry} {e : Entry} (h : (l.map (·.run)).Nodup) (he : e ∈ l) :
    entryIn e.run l = some e := by
  induction l with
  | nil => cases he
  | cons x xs ih =>
    rw [List.map_cons, List.nodup_cons] at h
    rcases List.mem_cons.1 he with rfl | he
    · simp [entryIn]
    · have hne : x.run ≠ e.run := fun hx => h.1 (List.mem_map.2 ⟨e, he, hx.symm⟩)
      have := ih h.2 he
      simpa [entryIn, List.find?_cons, hne] using this

theorem entryIn_eq_iff {l : List Entry} (h : (l.map (·.run)).Nodup) (run : Nat) (e : Entry) :
    entryIn run l = some e ↔ e ∈ l ∧ e.run = run := by
  constructor
  · exact fun k => ⟨entryIn_mem k, entryIn_run k⟩
  · rintro ⟨he, rfl⟩
    exact entryIn_of_mem h he

/-- The entry of a run does not depend on the order of the list. -/
theorem entryIn_perm {l m : List Entry} (h : (l.map (·.run)).Nodup) (p : m.Perm l) (run : Nat) :
    entryIn run m = entryIn run l := by
  have hm : (m.map (·.run)).Nodup := (p.map (·.run)).nodup_iff.2 h
  apply Option.ext
  intro e
  rw [entryIn_eq_iff h, entryIn_eq_iff hm, p.mem_iff]

theorem entryIn_map_facts (run : Nat) (l : List Entry) :
    (entryIn run l).map Entry.facts = entryIn run (l.map Entry.facts) := by
  rw [entryIn, entryIn, List.find?_map]
  rfl

/-- What keeps the facts of every entry keeps those of the entry of each run. -/
theorem State.entry_facts_of_facts {s t : State} (h : t.facts = s.facts) (run : Nat) :
    (t.entry? run).map Entry.facts = (s.entry? run).map Entry.facts := by
  rw [State.entry?_eq, State.entry?_eq, entryIn_map_facts, entryIn_map_facts]
  exact congrArg (entryIn run) h

theorem entryIn_updWhere (r run : Nat) (f : Entry → Entry) (hf : ∀ e, (f e).run = e.run) (l : List Entry) :
    entryIn run (updWhere (·.run = r) f l) = if run = r then (entryIn run l).map f else entryIn run l := by
  induction l with
  | nil => simp [entryIn, updWhere]
  | cons x xs ih =>
    have ih' : (updWhere (·.run = r) f xs).find? (·.run = run) =
        if run = r then (xs.find? (·.run = run)).map f else xs.find? (·.run = run) := ih
    have hc : updWhere (·.run = r) f (x :: xs) = (if x.run = r then f x else x) :: updWhere (·.run = r) f xs := by
      simp [updWhere]
    rw [entryIn, entryIn, hc, List.find?_cons, List.find?_cons, ih']
    by_cases hx : x.run = run <;> by_cases hr : run = r <;> by_cases hxr : x.run = r <;> simp_all

theorem map_run_updWhere (r : Nat) (f : Entry → Entry) (hf : ∀ e, (f e).run = e.run) (l : List Entry) :
    (updWhere (·.run = r) f l).map (·.run) = l.map (·.run) := map_updWhere (·.run) _ f hf l

/-! ## Operations that leave the table alone -/

@[simp] theorem State.trigger_table (k : CueKind) (run : Nat) (z : List Nat) (due : Int) (s : State) :
    (s.trigger k run z due).table = s.table := by
  unfold State.trigger
  repeat' split
  all_goals simp [State.postDropped]

@[simp] theorem State.handoverFinal_table (old : Option Entry) (e : Entry) (s : State) :
    (s.handoverFinal old e).table = s.table := by
  simp only [State.handoverFinal]
  repeat' split
  all_goals simp

@[simp] theorem State.cueHandover_table (old : Option Entry) (e : Entry) (s : State) :
    (s.cueHandover old e).table = s.table := by
  simp only [State.cueHandover, State.handoverFinal_table]
  repeat' split
  all_goals simp

/-! ## Operations that touch an entry's revision and open record alone -/

@[simp] theorem State.rederive_entries (s : State) : s.rederive.table.entries = s.table.entries := rfl

@[simp] theorem State.voidRecord_facts (run : Nat) (s : State) : (s.voidRecord run).facts = s.facts := by
  unfold State.voidRecord
  split
  · simp only [State.facts, State.withdraw_table, State.post_table]
    exact State.updEntry_facts run (fun e => { e with openRec := none }) (fun _ => rfl) _
  · rfl

@[simp] theorem State.openRecord_facts (run src dst : Nat) (r : Count16) (s : State) :
    (s.openRecord run src dst r).1.facts = s.facts := by
  unfold State.openRecord
  dsimp only
  split
  · simp [State.facts]
  · simp only [State.facts, State.appendUrgent_table, State.withdraw_table, State.updRecords_table,
      State.trigger_table]
    next n t _ => exact State.updEntry_facts run (fun e => { e with openRec := some n }) (fun _ => rfl) _

@[simp] theorem State.handStanding_table (e : Entry) (st : EntryState) (s : State) :
    (s.handStanding e st).table = s.table := State.cueHandover_table _ _ _

@[simp] theorem State.handStanding_facts (e : Entry) (st : EntryState) (s : State) :
    (s.handStanding e st).facts = s.facts := State.facts_of_table (State.handStanding_table e st s)

@[simp] theorem State.platformChanged_facts (e : Entry) (st : EntryState) (old : Option Nat) (s : State) :
    (s.platformChanged e st old).1.facts = s.facts := by
  unfold State.platformChanged
  repeat' split
  all_goals simp

/-! ## A change of one entry -/

theorem State.withEntries_entry (l : List Entry) (h : (l.map (·.run)).Nodup) (s : State) (run : Nat) :
    (s.withEntries l).entry? run = entryIn run l := entryIn_perm h (sortEntries_perm l) run

theorem State.putEntry_entry (old e : Entry) (s : State) (hr : e.run = old.run)
    (h : (s.table.entries.map (·.run)).Nodup) (run : Nat) :
    (s.putEntry old e).entry? run =
      if run = old.run then (s.entry? run).map fun _ => e else s.entry? run := by
  have hput : (s.putEntry old e).entry? run =
      (s.withEntries (updWhere (·.run = old.run) (fun _ => e) s.table.entries)).entry? run := by
    simp only [State.putEntry]
    split <;> rfl
  have hrun : (updWhere (·.run = old.run) (fun _ => e) s.table.entries).map (·.run) = s.table.entries.map (·.run) := by
    simp only [updWhere, List.map_map]
    apply List.map_congr_left
    intro a _
    simp only [Function.comp]
    by_cases ha : a.run = old.run <;> simp [ha, hr]
  rw [hput, State.withEntries_entry _ (by rw [hrun]; exact h)]
  have hsame : updWhere (·.run = old.run) (fun _ => e) s.table.entries =
      updWhere (·.run = old.run) (fun a => { e with run := a.run }) s.table.entries := by
    simp only [updWhere]
    apply List.map_congr_left
    intro a _
    by_cases ha : a.run = old.run
    · simp [ha, ← hr]
    · simp [ha]
  rw [hsame, entryIn_updWhere old.run run (fun a => { e with run := a.run }) (fun _ => rfl)]
  split
  · next hrun' =>
    rw [← State.entry?_eq]
    cases hs : s.entry? run with
    | none => rfl
    | some a =>
      have : a.run = run := entryIn_run hs
      simp [this, hrun', ← hr]
  · rfl

@[simp] theorem State.cueHandover_facts (old : Option Entry) (e : Entry) (s : State) :
    (s.cueHandover old e).facts = s.facts := State.facts_of_table (State.cueHandover_table old e s)

@[simp] theorem State.handPlatform_facts (old e : Entry) (s : State) :
    (s.handPlatform old e).1.facts = s.facts := by simp only [State.handPlatform, State.cueHandover_facts,
  State.platformChanged_facts]

theorem State.changeEntry_facts (old new : Entry) (s : State) :
    (s.changeEntry old new).1.facts = (s.putEntry old (old.counted new)).facts := by
  simp only [State.changeEntry]
  repeat' split
  all_goals simp

/-- What a change of one entry leaves: the facts of that entry are the new ones, those of every other entry are as
they were. -/
theorem State.changeEntry_entry (old new : Entry) (s : State) (hr : new.run = old.run)
    (h : (s.table.entries.map (·.run)).Nodup) (run : Nat) :
    ((s.changeEntry old new).1.entry? run).map Entry.facts =
      if run = old.run then (s.entry? run).map fun _ => new.facts else (s.entry? run).map Entry.facts := by
  have hc : (old.counted new).run = old.run := by
    unfold Entry.counted
    split <;> exact hr
  have hf : (old.counted new).facts = new.facts := by
    unfold Entry.counted
    split <;> rfl
  rw [State.entry_facts_of_facts (State.changeEntry_facts old new s), State.putEntry_entry _ _ _ hc h]
  split
  · simp [hf, Option.map_map, Function.comp_def]
  · rfl

theorem State.retest_run (s : State) (old new : Entry) : (s.retest old new).run = new.run := by
  unfold State.retest Entry.transition
  repeat' split
  all_goals rfl

/-- The same of an entry amended by one telegram or event, its transitions tested and the wall settled. -/
theorem State.amendEntry_entry (old new : Entry) (s : State) (hr : new.run = old.run)
    (h : (s.table.entries.map (·.run)).Nodup) (he : s.entry? old.run = some old) (run : Nat) :
    ((s.amendEntry old new).1.entry? run).map Entry.facts =
      if run = old.run then some (s.retest old new).facts else (s.entry? run).map Entry.facts := by
  unfold State.amendEntry
  split
  · next heq =>
    subst heq
    have : s.retest old old = old := by simp [State.retest]
    rw [this]
    split
    · next hrun => rw [hrun, he, Option.map_some]
    · rfl
  · dsimp only
    have key := State.changeEntry_entry old (s.retest old new) s ((State.retest_run s old new).trans hr) h run
    have hset : ∀ (b : Bool) (u : State),
        ((if b then u else u.settle s).entry? run).map Entry.facts = (u.entry? run).map Entry.facts := by
      intro b u
      cases b
      · exact State.entry_facts_of_facts (State.settle_facts u s) run
      · rfl
    rw [hset, key]
    split
    · next hrun => rw [hrun, he, Option.map_some]
    · rfl

end Sys2Proof.Machine
end

