-- ==== Sys2Proof/Laws/Link.lean ====
section
/-! SUPPORT. How a telegram is taken: what a command of each outcome answers, the reply in the port's record, and the
number and text codings read back. -/
namespace Sys2Proof.Machine

open Sys2Proof

/-! ## Taking a telegram -/

theorem State.servingKind_of_serves {s : State} {p : PortId} {t : Tel} (h : s.Serves p t) {k : Kind}
    (hk : t.kind = k.code) : s.servingKind p k = some t := by
  obtain ⟨-, hs, hb⟩ := h
  have : s.serving p = some t := by
    cases hl : (s.port p).buffer with
    | nil => rw [hl] at hb; cases hb
    | cons x xs =>
      rw [hl] at hb
      simp only [State.serving, hs, hl]
      exact hb
  simp [State.servingKind, this, hk]

/-- A telegram that passes the general checks is answered as its owner says (R182). -/
theorem State.takeWith_owner {α : Type} (finish : State → Answer → Answer) (p : PortId) (k : Kind)
    (read : List Octet → Option α) (owner : α → State → State × Answer) (s : State) (t : Tel) (h : s.Serves p t)
    (hk : t.kind = k.code) (ha : PortId.accepts p k = true) (f : α) (hr : read t.body = some f) :
    s.takeWith finish p k read owner =
      .next ((owner f s).1.answerTel p t (finish (owner f s).1 (owner f s).2)) := by
  simp [State.takeWith, State.servingKind_of_serves h hk, State.answer, h.1, judgeTel, ha, hr]

theorem State.takeTel_owner {α : Type} (p : PortId) (k : Kind) (read : List Octet → Option α)
    (owner : α → State → State × Answer) (s : State) (t : Tel) (h : s.Serves p t) (hk : t.kind = k.code)
    (ha : PortId.accepts p k = true) (f : α) (hr : read t.body = some f) :
    s.takeTel p k read owner = .next ((owner f s).1.answerTel p t (owner f s).2) :=
  State.takeWith_owner _ p k read owner s t h hk ha f hr

/-- A telegram of a kind the port does not accept is refused WRONG_PORT with no effect (R183). -/
theorem State.takeWith_wrongPort {α : Type} (finish : State → Answer → Answer) (p : PortId) (k : Kind)
    (read : List Octet → Option α) (owner : α → State → State × Answer) (s : State) (t : Tel) (h : s.Serves p t)
    (hk : t.kind = k.code) (ha : PortId.accepts p k = false) :
    s.takeWith finish p k read owner = .next (s.answerTel p t (finish s (Answer.refuse .wrongPort))) := by
  simp [State.takeWith, State.servingKind_of_serves h hk, State.answer, h.1, judgeTel, ha]

/-- A body that does not fit its layout is refused BAD_FIELD with index 0, with no effect (R183). -/
theorem State.takeWith_badBody {α : Type} (finish : State → Answer → Answer) (p : PortId) (k : Kind)
    (read : List Octet → Option α) (owner : α → State → State × Answer) (s : State) (t : Tel) (h : s.Serves p t)
    (hk : t.kind = k.code) (ha : PortId.accepts p k = true) (hr : read t.body = none) :
    s.takeWith finish p k read owner = .next (s.answerTel p t (finish s (Answer.badField 0))) := by
  simp [State.takeWith, State.servingKind_of_serves h hk, State.answer, h.1, judgeTel, ha, hr]

/-! ## The reply in the port's record -/

@[simp] theorem State.answerTel_port (p q : PortId) (t : Tel) (a : Answer) (s : State) :
    (s.answerTel p t a).port q =
      if q = p then { s.port p with service := .replying, reply := some (a.reply t) } else s.port q :=
  State.port_updPort s p q _

theorem State.answerTel_link (p q : PortId) (t : Tel) (a : Answer) (s : State) :
    (s.answerTel p t a).link q =
      if q = p then { s.link p with service := .replying, reply := some (a.reply t) } else s.link q := by
  simp only [State.link, State.answerTel_port]
  split <;> rfl

/-- What an owner that keeps the links answers. -/
theorem State.answered_of_link (s u : State) (p : PortId) (seq : Octet) (tg : Telegram) (a : Answer)
    (h : ∀ q, u.link q = s.link q) : s.Answered (u.answerTel p (tg.tel seq) a) p seq tg a := by
  refine ⟨?_, fun q hq => ?_⟩
  · rw [State.answerTel_link, if_pos rfl, h]
  · rw [State.answerTel_link, if_neg hq, h]

@[simp] theorem State.answerTel_entry (p : PortId) (t : Tel) (a : Answer) (s : State) (run : Nat) :
    (s.answerTel p t a).entry? run = s.entry? run := rfl

@[simp] theorem State.answerTel_records (p : PortId) (t : Tel) (a : Answer) (s : State) :
    (s.answerTel p t a).records = s.records := rfl

/-! ## Numbers and texts read back -/

theorem get8_put8 (n : Nat) (h : n < 256) (r : List Octet) : get8 (put8 n ++ r) = some (n, r) := by
  simp [put8, get8, Nat.mod_eq_of_lt h]

theorem get16_put16 (n : Nat) (h : n < 65536) (r : List Octet) : get16 (put16 n ++ r) = some (n, r) := by
  simp only [put16, get16, List.cons_append, List.nil_append, BitVec.toNat_ofNat]
  congr 2
  omega

theorem get32_put32 (n : Nat) (h : n < 4294967296) (r : List Octet) : get32 (put32 n ++ r) = some (n, r) := by
  simp only [put32, get32, List.cons_append, List.nil_append, BitVec.toNat_ofNat]
  congr 2
  omega

theorem getSigned32_putSigned32 (n : Int) (lo : -2147483648 ≤ n) (hi : n < 2147483648) (r : List Octet) :
    getSigned32 (putSigned32 n ++ r) = some (n, r) := by
  have hlt : (BitVec.ofInt 32 n).toNat < 4294967296 := (BitVec.ofInt 32 n).isLt
  have hint : (BitVec.ofInt 32 n).toInt = n := by
    rw [BitVec.toInt_ofInt]
    exact Int.bmod_eq_of_le (by omega) (by omega)
  rw [getSigned32, putSigned32, get32_put32 _ hlt, Option.map_some]
  dsimp only
  rw [BitVec.ofNat_toNat, BitVec.setWidth_eq, hint]

theorem getOctets_append (t r : List Octet) : getOctets t.length (t ++ r) = some (t, r) := by
  simp [getOctets]

theorem getText_putText (t : Text) (h : t.length < 256) (r : List Octet) : getText (putText t ++ r) = some (t, r) := by
  rw [getText, putText, List.append_assoc, get8_put8 _ h]
  exact getOctets_append t r

end Sys2Proof.Machine
end

