-- ==== Sys2Proof/WellFormed.lean ====
section
/-! DEFINITION. Which commands are well formed: their operands lie in the ranges the manual gives the things they
name. A telegram's row names only the port that takes it, and every port can be sent every kind (R183), so it is well
formed on each; what its fields must be is checked by its owner when it is taken. -/
namespace Sys2Proof

/-- The octets between two flags hold no flag (R194, R197). -/
def framed (octets : List Octet) : Bool := octets.all (· ≠ Machine.flagOctet)

/-- The milliseconds since the running second last counted. -/
def msOk (ms : Nat) : Bool := ms ≤ 999

/-- A command is well formed. -/
def Instr.wf : Instr → Bool
  | .powerOn => true
  | .resetPin => true
  | .telegramFrameEnd _ ms octets => msOk ms && framed octets
  | .abortSequence _ => true
  | .replySent _ ms => msOk ms
  | .unknown _ => true
  | .plan _ => true
  | .amnd _ => true
  | .dlay _ => true
  | .canc _ => true
  | .rins _ => true
  | .plat _ => true
  | .pred _ => true
  | .rdys _ => true
  | .dept _ => true
  | .read _ => true
  | .csta _ => true
  | .time _ => true
  | .take _ => true
  | .spkn _ => true
  | .zone _ => true
  | .note _ => true
  | .nclr _ => true
  | .wall _ => true
  | .dial _ => true
  | .conf _ => true
  | .csav _ => true
  | .rset _ => true
  | .poll _ => true
  | .silenceExpiry _ => true
  | .runningSecond => true
  | .minuteAdvance => true
  | .holdoverExpiry => true
  | .predictionStale run => 1 ≤ run && run ≤ 65535
  | .speakTimeout cue => 1 ≤ cue && cue ≤ 255
  | .gapEnd z => z ≤ 24
  | .noticeExpiry number => 1 ≤ number && number ≤ 200
  | .dwellExpiry => true
  | .panelFrameEnd ms => msOk ms
  | .panelReplyReceived ms octets => msOk ms && framed octets
  | .replyWindowClose ms => msOk ms
  | .strayPanelOctets _ => true
  | .keepaliveDue ms addr => msOk ms && 1 ≤ addr && addr ≤ 60
  | .probeDue ms addr => msOk ms && 1 ≤ addr && addr ≤ 60
  | .intervalEnd ms => msOk ms
  | .passTrigger ms => msOk ms
  | .lightConversionComplete ms _ => msOk ms
  | .lineCheckRequest ms _ => msOk ms
  | .lineCheckComplete ms _ => msOk ms
  | .nextImpulseTime ms _ => msOk ms
  | .impulseEnd ms _ => msOk ms
  | .powerLoss _ => true

end Sys2Proof
end

