-- ==== Sys2Proof/Tests/Slice0.lean ====
section
/-! SUPPORT. Tests: the ill-formed commands are refused, the manual's worked examples hold, one step of each family of
commands, and for each statement with premises a state and operands that meet them all. The expected results are the
manual's own figures, or worked by hand from its rules. -/
namespace Sys2Proof.Tests

open Sys2Proof Sys2Proof.Machine

set_option maxRecDepth 20000
set_option synthInstance.maxSize 1000

/-! ## Commands that are not well formed -/

theorem test_frame_with_a_flag_refused : (Instr.telegramFrameEnd .planning 0 [0x51, 0x9A, 0x01]).wf = false := by decide

theorem test_ms_beyond_the_second_refused :
    (Instr.replySent .planning 1000).wf = false ∧ (Instr.impulseEnd 1000 0).wf = false ∧
      (Instr.replySent .planning 999).wf = true := by decide

theorem test_run_0_refused :
    (Instr.predictionStale 0).wf = false ∧ (Instr.predictionStale 65536).wf = false ∧
      (Instr.predictionStale 65535).wf = true := by decide

theorem test_cue_numbers :
    (Instr.speakTimeout 0).wf = false ∧ (Instr.speakTimeout 256).wf = false ∧ (Instr.speakTimeout 255).wf = true := by
  decide

theorem test_zone_25_refused : (Instr.gapEnd 25).wf = false ∧ (Instr.gapEnd 24).wf = true := by decide

theorem test_notice_numbers :
    (Instr.noticeExpiry 0).wf = false ∧ (Instr.noticeExpiry 201).wf = false ∧ (Instr.noticeExpiry 200).wf = true := by
  decide

theorem test_panel_addresses :
    (Instr.keepaliveDue 0 0).wf = false ∧ (Instr.probeDue 0 61).wf = false ∧ (Instr.probeDue 999 60).wf = true := by
  decide

theorem test_panel_reply_with_a_flag_refused : (Instr.panelReplyReceived 0 [0x9A]).wf = false := by decide

/-- No row of the table has bits, so no word spells a command. -/
theorem test_no_word_spells_a_command : decodeTableWord 16 0x1234 = none := by decide

/-! ## The manual's worked figures -/

/-- R194: the CRC of the nine characters 123456789. -/
theorem test_crc_of_the_manual : crc16 [0x31, 0x32, 0x33, 0x34, 0x35, 0x36, 0x37, 0x38, 0x39] = 0x29B1#16 := by
  decide +kernel

/-- R49: the offsets of the manual's table. -/
theorem test_offsets_of_the_manual :
    timeOffset 63732 63710 = 22 ∧ timeOffset 29705 29720 = -15 ∧ timeOffset 5 86390 = 15 ∧
      timeOffset 10800 7170 = 3630 ∧ timeOffset 7210 10810 = -3600 ∧ timeOffset 0 43200 = -43200 := by decide

/-! ## States the tests start from -/

/-- The sequence number of every telegram of the tests. -/
def seq : Octet := 7

/-- Port `p` takes the telegram `tg`. -/
def taking (p : PortId) (tg : Telegram) (s : State) : State :=
  s.updPort p fun r => { r with service := .serving, buffer := [tg.tel seq] }

/-- A clock in SET. -/
def at' (clock : Nat) (s : State) : State := { s with time := { s.time with clock := clock, state := .set } }

/-- An entry of a run at a scheduled minute. -/
def entryOf (run : Nat) (sched : Int) (platform : Option Nat) (state : EntryState) : Entry :=
  { run := run, headcode := none, destination := [0x59], calls := [], sched := sched, planned := platform,
    assigned := none, opDelay := none, filter := Filter.empty, dd := 0, exp := sched, state := state,
    stateTime := none, reason := none, rev := 0, announced := none, lastDelay := 0, openRec := none }

/-- A cue of a run. -/
def cueOf (number run : Nat) (kind : CueKind) (zones : List Nat) (state : CueState) : Cue :=
  { number := number, kind := kind, run := run, zones := zones, due := 0, state := state, attempts := 0,
    pendRev := false, pendDrop := false }

/-- 12:00:00 with the default start of 04:00, so now is 480. -/
def noon : State := at' 43200 State.reset

/-- Noon, with one entry in the table. -/
def withEntry (e : Entry) : State := { noon with table := { entries := [e], displayable := [e.run] } }

/-- A listed departure at minute 500 from platform 2. -/
def listed : State := withEntry (entryOf 1 500 (some 2) .listed)

/-- The entry of run 1 after a step. -/
def after (o : Host.Outcome State Fault Refusal) (f : State → Bool) : Bool :=
  match o with
  | .next t => f t
  | _ => false

/-- R48: 17:45:20 is minute 825 of a service day from 04:00, and 02:50:00 is minute 1370. -/
theorem test_minutes_of_the_manual : (at' 63920 State.reset).now = 825 ∧ (at' 10200 State.reset).now = 1370 := by decide

/-- R28: the rounding of the manual's table. -/
theorem test_rounding_of_the_manual :
    [-3600, 0, 29, 30, 89, 90, 43139, 43170, 43200].map roundPrediction = [0, 0, 0, 1, 1, 2, 719, 720, 720] := by decide

/-- R40: the clock forms of the manual's table, the service day starting at 04:00. -/
theorem test_clock_forms_of_the_manual :
    [822, 1370, 1395, 1465, 25, -60, -780, 3599].map (clockForm 240) =
      [(17, 42), (2, 50), (3, 15), (4, 25), (4, 25), (3, 0), (15, 0), (15, 59)] := by decide

/-- R198: the role codes between 32 and 101 and beyond 124 go to the nearest listed code, the lower of two equally near. -/
theorem test_role_codes : [33, 66, 67, 124, 162, 163, 65535].map nearestRoleCode = [32, 32, 101, 124, 124, 200, 200] := by
  decide

/-! ## One step of each family -/

/-- R16: an operator delay of 5 minutes moves A by 5 and counts a revision. -/
theorem test_dlay_moves_the_entry :
    after (exec (.dlay .planning) (taking .planning (.dlay { run := 1, mode := 0, minutes := 5, reason := [] }) listed))
      (fun t => t.table.entries.map (fun e => (e.dd, e.exp, e.rev)) = [(5, 505, 1)]) = true := by decide +kernel

/-- R189: a CONF of a timing parameter is in force at once, and in the pending copy. -/
theorem test_conf_sets_a_timing_value :
    after (exec (.conf .planning) (taking .planning (.conf { number := 311, value := 7 }) State.reset))
      (fun t => t.inForce.boarding = 7 && t.pendingCfg.boarding = 7) = true := by decide +kernel

/-- R189: a structural parameter waits in the pending copy. -/
theorem test_conf_holds_a_structural_value :
    after (exec (.conf .planning) (taking .planning (.conf { number := 1, value := 3 }) State.reset))
      (fun t => t.inForce.platforms = 12 && t.pendingCfg.platforms = 3) = true := by decide +kernel

/-- R47, R52: 12:00:58 goes to 12:01:00 while a second is to be made up, and a held 12:00:59 stays for one more. -/
theorem test_slewed_minute_ends :
    ({ noon.time with clock := 43258, slew := 3 }.advance.clock, { noon.time with clock := 43259, slew := -3 }.advance.clock) =
      (43260, 43259) := by decide

/-- R9: the minute advance into minute 500 closes the departure of that minute. -/
theorem test_minute_advance_closes :
    after (exec .minuteAdvance { listed with time := { listed.time with clock := 14400 + 500 * 60 - 1 } })
      (fun t => t.table.entries.map (·.state) = [.closed] && t.now = 500) = true := by decide +kernel

/-- R99, R100: TAKE gives the due CANCEL cue before the due PLATFORM cue. -/
theorem test_take_prefers_the_lower_priority_number :
    after
        (exec (.take .announcement)
          (taking .announcement .take
            { listed with
              cues :=
                { listed.cues with list := [cueOf 1 1 .platform [0, 2] .due, cueOf 2 1 .cancel [0, 2] .due] } }))
      (fun t => t.cues.list.map (·.isTaken) = [false, true]) = true := by decide +kernel

/-- R173: a delivered impulse moves dial 719 round to 0 and reverses the polarity. -/
def pulsing : State :=
  { noon with
    lines :=
      { Line.faulted 0 with
        state := .run, dial := 719, missed := 0
        impulse := some { start := 0, polarity := .pos, width := 400, asked := true }, result := some true } ::
        noon.lines.tail }

theorem test_impulse_end_moves_the_dial :
    after (exec (.impulseEnd 400 0) pulsing)
      (fun t => t.lines.head?.map (fun l => (l.dial, l.polarity)) = some (0, .neg) && t.store.dials.good) = true := by
  decide +kernel

/-- R158, R159: an average 8 above the base of its band takes the target up, and the level follows by one. -/
theorem test_band_hysteresis : newTarget 4 327 = 4 ∧ newTarget 4 328 = 5 ∧ newTarget 5 312 = 5 ∧ newTarget 5 311 = 4 := by
  decide

/-! ## Premises of the statements that have any -/

theorem test_premises_TelegramBodiesReadBack :
    (Telegram.plan
        { run := 65535, headcode := [1, 2, 3, 4], destination := [0x59], calls := [[0x58]], hh := 23, mm := 59, day := 1,
          platform := 24 }).fits = true ∧ (Telegram.pred { run := 1, mode := 0, seconds := -3600 }).fits = true := by
  decide

theorem test_premises_FramesPassFraming :
    (Telegram.zone { action := 0, zones := List.replicate 250 0 }).body.length = 252 ∧ Telegram.poll.body.length ≤ 252 := by
  decide +kernel

theorem test_premises_DiscardedOctetsChangeNothing :
    flagOctet ∈ ([0x10, 0x9A] : List Octet) ∧ unescape [1, 2, 3] = some [1, 2, 3] ∧
      unescape (List.replicate 257 0) = some (List.replicate 257 0) ∧
      (unescape [0x51, 7, 0, 0] = some [0x51, 7, 0, 0] ∧ crcOctets [0x51, 7] ≠ [0, 0]) := by decide +kernel

theorem test_premises_DiscardedOctetsChangeNothing_abort :
    ([1, 2, escapeOctet] : List Octet) = [1, 2] ++ [escapeOctet] ∧ unescape [1, 2] ≠ none := by decide

/-- A POLL of the planning port as it comes over the link. -/
def pollFrame : List Octet := Telegram.poll.frame seq

theorem test_premises_ReceiveBufferHoldsTwo :
    judgeFrame pollFrame = some (Telegram.poll.tel seq) ∧ (noon.port .planning).buffer.length < 2 ∧
      (taking .planning .poll noon).powered = true ∧
      (after (exec (.poll .planning) (taking .planning .poll noon)) fun t => (t.port .planning).service = .replying) = true := by
  decide +kernel

/-- A telegram of undefined kind waits on the planning port. -/
def undefinedKind : State :=
  noon.updPort .planning fun r => { r with service := .serving, buffer := [{ kind := 0xFF, seq := seq, body := [] }] }

theorem test_premises_UnknownKindIsAnswered :
    undefinedKind.Serves .planning { kind := 0xFF, seq := seq, body := [] } ∧ Kind.ofCode 0xFF = none := by decide

/-- A PLAN whose body ends within its run. -/
def shortPlan : State :=
  noon.updPort .planning fun r =>
    { r with service := .serving, buffer := [{ kind := Kind.plan.code, seq := seq, body := [0] }] }

theorem test_premises_GeneralChecksRefuse :
    ((taking .planning .take noon).Serves .planning (Telegram.take.tel seq) ∧
        (Telegram.take.tel seq).kind = Kind.take.code ∧ PortId.accepts .planning .take = false) ∧
      (shortPlan.Serves .planning { kind := Kind.plan.code, seq := seq, body := [0] } ∧ readTelegram .plan [0] = none) := by
  decide

/-- The part without power. -/
def dark : State := noon.losePower (some .dial)

theorem test_premises_EveryCommandGoesOn : dark.powered = false ∧ Instr.resetPin ≠ .powerOn := by decide

theorem test_premises_StepTakesTheFront : noon.pending = [] := by decide

/-- A store whose parts are good, line 1 out of use. -/
def stored : Store :=
  { configuration := { contents := { Params.default with platforms := 3 }, good := true }
    dials :=
      { contents :=
          [⟨0, .pos, true⟩, ⟨719, .neg, false⟩, ⟨5, .pos, true⟩, ⟨6, .pos, true⟩]
        good := true } }

theorem test_premises_PowerOnLoadsTheStore :
    { dark with store := stored }.powered = false ∧ noon.powered = true ∧ stored.dials.good = true ∧
      stored.dials.contents[(1 : Fin 4).val]? = some ⟨719, .neg, false⟩ ∧ noon.store.dials.good = false := by decide

/-- A store that gives address 60 alone a role. -/
def bannerStored : Store :=
  { stored with
    configuration := { contents := Params.default.setNumber 160 200, good := true } }

theorem test_premises_PowerOnLoadsTheStore_bus :
    { dark with store := bannerStored }.powered = false ∧ bannerStored.configuration.good = true ∧
      bannerStored.configuration.contents.settledRole 60 ≠ .none ∧
      (∀ i < 59, bannerStored.configuration.contents.settledRole (i + 1) = .none) ∧
      ∀ i < 60, Params.default.settledRole (i + 1) = .none := by decide +kernel

/-- R131, R160: panel 60 after such a power-on, its first frame under way. -/
theorem test_power_on_sets_the_panel :
    after (exec .powerOn { dark with store := bannerStored })
      (fun t => (t.panel? 60).map (fun q => (q.zone, q.desiredLevel, q.addressed, q.errored)) =
        some (1, 15, false, false)) = true := by decide +kernel

theorem test_premises_PowerLossKeepsTheStore : noon.powered = true := by decide

theorem test_premises_CsavWritesTheConfiguration :
    (taking .planning .csav noon).Taking .planning seq .csav ∧ paramRow 1 ≠ none ∧ paramRow 393 ≠ none := by decide

theorem test_premises_RsetClearsThePicture : (taking .planning .rset pulsing).Taking .planning seq .rset := by decide

/-- Noon with a light channel to be moved to zone 4 and the same channel converting. -/
def rezoned : State :=
  { noon with
    pendingCfg := noon.pendingCfg.setNumber 10 4
    sense := { noon.sense with converter := .light 0, position := some 0 } }

theorem test_premises_RsetClearsThePicture_sensing :
    (taking .planning .rset rezoned).Taking .planning seq .rset ∧ rezoned.SenseOk ∧
      rezoned.pendingCfg.lightZones.getD 0 0 ≠ rezoned.inForce.lightZones.getD 0 0 := by decide

theorem defaults_in_range : Params.default.Ok := by decide +kernel

theorem config_ok (s : State) (h : s.inForce = Params.default) (h' : s.pendingCfg = Params.default)
    (h'' : s.store.configuration.contents = Params.default) : s.ConfigOk :=
  ⟨h ▸ defaults_in_range, h' ▸ defaults_in_range, h'' ▸ defaults_in_range⟩

theorem test_premises_ConfSetsOneParameter :
    (taking .planning (.conf { number := 361, value := 0 }) listed).Taking .planning seq
        (.conf { number := 361, value := 0 }) ∧
      (taking .planning (.conf { number := 361, value := 0 }) listed).ConfigOk ∧ paramRow 361 ≠ none ∧ paramRow 1 ≠ none ∧
      paramRow 0 = none ∧ paramRow 394 = none ∧ listed.TableOk ∧ listed.PanelsOk :=
  ⟨by decide, config_ok _ rfl rfl rfl, by decide, by decide, by decide, by decide, by decide, by decide +kernel⟩

theorem test_premises_ConfSetsOneParameter_owners :
    (∀ n ∈ [1, 301, 303, 332, 341, 342, 343],
      (taking .planning (.conf { number := n, value := 0 }) listed).Taking .planning seq (.conf { number := n, value := 0 }) ∧
        (paramRow n).isSome = true) ∧
      listed.openRecord? 1 = none ∧ (listed.entry? 1).isSome = true :=
  ⟨by decide, by decide, by decide⟩

theorem test_premises_PollFetchesTheOldest : (taking .signalling .poll noon).Taking .signalling seq .poll := by decide

/-- The signalling port has been quiet for its limit of 10 seconds. -/
def quiet : State := noon.updPort .signalling fun r => { r with silence := 10 }

theorem test_premises_SilenceAndHoldoverAreReported :
    (quiet.port .signalling).live = true ∧ quiet.inForce.silenceLimit .signalling ≤ (quiet.port .signalling).silence ∧
      quiet.time.limitsMoved.contains (silenceParam .signalling) = false ∧
      ({ quiet with time := { quiet.time with limitsMoved := [392] } }).time.limitsMoved.contains
        (silenceParam .signalling) = true ∧
      (noon.port .signalling).silence < noon.inForce.silenceLimit .signalling ∧
      60 * noon.inForce.holdover ≤ { noon.time with holdover := 7200 }.holdover := by decide

/-- A PLAN that lies in every range: 13:05 of the current day at platform 12. -/
def planFields : PlanFields :=
  { run := 65535, headcode := [0x31, 0x41, 0x32, 0x32], destination := [0x59], calls := [[0x58]], hh := 13, mm := 5, day := 0,
    platform := 12 }

def planned : State := taking .planning (.plan planFields) listed

theorem test_premises_PlanCreatesTheEntry :
    planned.Taking .planning seq (.plan planFields) ∧ planned.TableOk ∧ planFields.run ≠ 0 ∧
      planFields.destination ≠ [] ∧ (∀ c ∈ planFields.calls.take 12, c ≠ []) ∧ planFields.hh ≤ 23 ∧ planFields.mm ≤ 59 ∧
      planFields.day ≤ 1 ∧ planFields.platform ≤ planned.inForce.platforms ∧ planned.time.state ≠ .unset ∧
      planned.entry? planFields.run = none ∧ planned.table.entries.length < 96 ∧
      planned.now - planned.inForce.overdue ≤ ((13 * 60 + 5 : Int) - 240) % 1440 + 1440 * 0 := by decide

/-- A table of 96 entries. -/
def full : List Entry := (List.range 96).map fun i => entryOf (i + 1) 500 none .listed

theorem test_premises_PlanIsRefusedInOrder :
    ((taking .planning (.plan planFields) State.reset).Taking .planning seq (.plan planFields) ∧
        State.reset.time.state = .unset) ∧
      ((taking .planning (.plan { planFields with run := 1 }) listed).Taking .planning seq
          (.plan { planFields with run := 1 }) ∧ (listed.entry? 1).isSome = true) ∧
      ((taking .planning (.plan planFields) { noon with table := { entries := full, displayable := [] } }).Taking
          .planning seq (.plan planFields) ∧ 96 ≤ full.length ∧ full.find? (·.run = planFields.run) = none) ∧
      ((taking .planning (.plan { planFields with hh := 11, mm := 29 }) listed).Taking .planning seq
          (.plan { planFields with hh := 11, mm := 29 }) ∧
        ((11 * 60 + 29 : Int) - 240) % 1440 + 1440 * 0 < listed.now - listed.inForce.overdue) := by decide +kernel

theorem test_premises_PlanIsRefusedInOrder_ranges :
    (∀ f ∈ [{ planFields with run := 0, hh := 24 }, { planFields with destination := [] },
        { planFields with calls := [[]] }, { planFields with hh := 24 }, { planFields with mm := 60 },
        { planFields with day := 2 }, { planFields with platform := 13 }],
      (taking .planning (.plan f) listed).Taking .planning seq (.plan f)) ∧
      { planFields with run := 0, hh := 24 }.faults listed.inForce = [1, 5] ∧
      { planFields with platform := 13 }.faults listed.inForce = [8] ∧
      { planFields with calls := List.replicate 12 [0x58] ++ [[]] }.faults listed.inForce = [] := by decide

theorem test_premises_RunTelegramsAreRefused :
    (taking .planning (.rins 2) listed).Taking .planning seq (.rins 2) ∧
      (Telegram.rins 2).named? = some (2, [.listed, .boarding, .closed, .cancelled]) ∧
      (Telegram.rins 2).inRange listed.inForce = true ∧ listed.entry? 2 = none ∧
      (taking .planning (.rins 2) (withEntry (entryOf 2 500 none .departed))).Taking .planning seq (.rins 2) ∧
      (withEntry (entryOf 2 500 none .departed)).entry? 2 = some (entryOf 2 500 none .departed) ∧
      EntryState.departed ∉ [EntryState.listed, .boarding, .closed, .cancelled] := by decide

theorem test_premises_RunTelegramsAreRefused_ranges :
    ((taking .planning (.dlay { run := 0, mode := 3, minutes := 0, reason := [] }) listed).Taking .planning seq
        (.dlay { run := 0, mode := 3, minutes := 0, reason := [] }) ∧
      (Telegram.dlay { run := 0, mode := 3, minutes := 0, reason := [] }).faults listed.inForce = [1, 2]) ∧
      ((taking .signalling (.plat { run := 1, platform := 13 }) listed).Taking .signalling seq
          (.plat { run := 1, platform := 13 }) ∧
        (Telegram.plat { run := 1, platform := 13 }).faults listed.inForce = [2]) ∧
      (Telegram.pred { run := 1, mode := 2, seconds := 0 }).faults listed.inForce = [2] ∧
      (Telegram.amnd
          { run := 1, presence := 64, headcode := none, destination := some [], calls := some [[]], clock := some (24, 60),
            day := some 2, platform := some 13 }).faults listed.inForce =
        [2, 4, 5, 6, 7, 8, 9] := by decide

theorem test_premises_TransitionsFollowTheClock :
    (entryOf 1 480 (some 2) .listed).exp ≤ listed.now ∧ listed.now < (entryOf 1 495 (some 2) .listed).exp ∧
      (entryOf 1 495 (some 2) .listed).exp - listed.inForce.boarding ≤ listed.now ∧
      (entryOf 1 495 none .boarding).displayed = none ∧ (entryOf 1 495 (some 2) .boarding).displayed ≠ none := by decide

theorem test_premises_DelayStagesFollowTheRules :
    let e := { entryOf 1 500 none .listed with dd := 5, exp := 505, filter := { Filter.empty with dp := some 3 } }
    (∀ o, e.opDelay = some o → o.fix = false) ∧ e.filter.dp = some 3 ∧ (3 ≤ e.dd ∧ 2 ≤ e.dd - 3) ∧
      ¬(3 ≤ e.dd - 3 ∧ e.dd < 3) := by
  refine ⟨fun o h => ?_, rfl, by decide, by decide⟩
  simp [entryOf] at h

/-- An AMND that moves the departure to 13:05 and its platform to 12. -/
def amndFields : AmndFields :=
  { run := 1, presence := 56, headcode := none, destination := none, calls := none, clock := some (13, 5), day := some 0,
    platform := some 12 }

theorem test_premises_AmndReplacesTheFieldsGiven :
    (taking .planning (.amnd amndFields) listed).Taking .planning seq (.amnd amndFields) ∧ listed.TableOk ∧
      amndFields.inRange listed.inForce = true ∧ listed.entry? 1 = some (entryOf 1 500 (some 2) .listed) ∧
      (entryOf 1 500 (some 2) .listed).inService = true ∧ amndFields.clock ≠ none ∧
      listed.now - listed.inForce.overdue ≤ ((13 * 60 + 5 : Int) - 240) % 1440 + 1440 * 0 ∧
      ((taking .planning (.amnd { amndFields with clock := some (11, 29) }) listed).Taking .planning seq
          (.amnd { amndFields with clock := some (11, 29) }) ∧
        ({ amndFields with clock := some (11, 29) } : AmndFields).inRange listed.inForce = true ∧
        ((11 * 60 + 29 : Int) - 240) % 1440 + 1440 * 0 < listed.now - listed.inForce.overdue) := by decide

theorem test_premises_DlaySetsTheOperatorDelay :
    (taking .planning (.dlay { run := 1, mode := 2, minutes := 720, reason := [] }) listed).Taking .planning seq
        (.dlay { run := 1, mode := 2, minutes := 720, reason := [] }) ∧
      listed.TableOk ∧ listed.entry? 1 = some (entryOf 1 500 (some 2) .listed) := by decide

/-- Noon with run 1 cancelled. -/
def cancelled : State := withEntry { entryOf 1 500 (some 2) .cancelled with stateTime := some 470 }

theorem test_premises_CancCancelsTheEntry :
    (taking .planning (.canc { run := 1, reason := [] }) listed).Taking .planning seq (.canc { run := 1, reason := [] }) ∧
      listed.TableOk ∧ (listed.entry? 1).map (·.state) = some .listed ∧ cancelled.TableOk ∧
      (cancelled.entry? 1).map (·.state) = some .cancelled ∧ listed.cues.list.length < 32 := by decide

/-- Thirty-two cues of other runs, the last of kind `kind` and state `state`. -/
def thirtyTwo (kind : CueKind) (state : CueState) : List Cue :=
  ((List.range 31).map fun i => cueOf (i + 1) (201 + i) .change [0, 1, 2] .due) ++ [cueOf 32 232 kind [0] state]

/-- An OPEN record of run `run`. -/
def recordOf (run : Nat) : ChangeRec :=
  { no := 1, run := run, src := 1, dst := 2, openedMinute := 0, openedSecond := 0, r := 0, state := .opened,
    announced := false, displayed := false, degraded := false, rowPart := .pending, gatePart := .pending, gateReq := none,
    cue := none, inSpeech := false, diverted := [] }

/-- Run 1 holds an OPEN record. -/
def held : State :=
  { withEntry { entryOf 1 500 (some 2) .listed with openRec := some 1 } with
    tracker := { records := [recordOf 1], closed := [] } }

theorem test_premises_CancCancelsTheEntry_fullList :
    (∀ l ∈ [thirtyTwo .delay .waiting, thirtyTwo .cancel .waiting],
      { listed with cues := { listed.cues with list := l } }.CuesOk ∧ l.length = 32 ∧ ∀ c ∈ l, c.run ≠ 1) ∧
      2 < CueKind.delay.priority ∧ (∀ c ∈ thirtyTwo .cancel .waiting, c.state = .waiting → c.kind.priority ≤ 2) := by
  decide +kernel

theorem test_premises_CancCancelsTheEntry_record :
    (taking .planning (.canc { run := 1, reason := [] }) held).Taking .planning seq (.canc { run := 1, reason := [] }) ∧
      held.TableOk ∧ held.TrackerOk ∧ (∃ r ∈ held.tracker.records, r.run = 1 ∧ r.isOpen = true) := by decide

theorem test_premises_RinsReinstatesTheEntry :
    (taking .planning (.rins 1) cancelled).Taking .planning seq (.rins 1) ∧ cancelled.TableOk ∧
      (cancelled.entry? 1).map (·.state) = some .cancelled ∧ (listed.entry? 1).map (·.inService) = some true := by decide

theorem test_premises_PlatAssignsThePlatform :
    (taking .signalling (.plat { run := 1, platform := 12 }) listed).Taking .signalling seq
        (.plat { run := 1, platform := 12 }) ∧
      listed.TableOk ∧ 12 ≤ listed.inForce.platforms ∧ (listed.entry? 1).map (·.inService) = some true := by decide

/-- Sixteen OPEN records of runs 101 to 116. -/
def sixteenOpen : List ChangeRec := (List.range 16).map fun i => { recordOf (101 + i) with no := i + 1 }

theorem test_premises_PublishedChangeOpensARecord :
    (taking .signalling (.plat { run := 1, platform := 3 }) listed).Taking .signalling seq
        (.plat { run := 1, platform := 3 }) ∧
      listed.TableOk ∧ listed.TrackerOk ∧ (listed.entry? 1).bind (·.displayed) = some 2 ∧
      (500 : Int) - listed.inForce.published ≤ listed.now ∧ listed.tracker.records.length < 16 ∧
      { listed with tracker := { records := sixteenOpen, closed := [] } }.TrackerOk ∧
      (sixteenOpen.length = 16 ∧ ∀ r ∈ sixteenOpen, r.isOpen = true ∧ r.run ≠ 1) := by decide +kernel

/-- What a TAKEN DELAY cue of run 1 holds, its speak timer at the speak time. -/
def spoken : Taken :=
  { content :=
      { kind := .delay, number := 255, run := 1, zones := [0, 2], destination := [0x59], headcode := none, sched := (12, 20),
        expected := none, platform := some 2, src := none, dst := none, delay := some 7, reason := none, calls := [] }
    timer := 90
    limit := 90 }

/-- Sixteen INFORMED records, the one of slot 16 closed first. -/
def sixteenClosed : Tracker :=
  { records := sixteenOpen.map fun r => { r with state := .informed }
    closed := (List.range 16).map fun i => 16 - i }

/-- The last clause of R62's conditions but one: the gate panel of platform 2 shows run 1, which is far off; the bus is
BUSY. A PLAT 0 uncovers the planned platform 1. -/
def atGate : State :=
  let s := withEntry { entryOf 1 1000 (some 1) .listed with assigned := some 2 }
  { s with
    bus :=
      { s.bus with
        panels :=
          s.bus.panels.take 59 ++
            [{ Panel.absentAt 60 4 with role := .gate 2, state := .active, acked := some (.gate 1 0) }]
        exchange :=
          some
            { addr := 60, seq := 0, level := 15, content := .polf, urgent := none, startState := .active, rset := false,
              phase := .sending } } }

theorem test_premises_PublishedChangeOpensARecord_forms :
    ((taking .signalling (.plat { run := 1, platform := 0 }) atGate).Taking .signalling seq
        (.plat { run := 1, platform := 0 }) ∧
      atGate.TableOk ∧ atGate.TrackerOk ∧ atGate.CuesOk ∧ (atGate.entry? 1).bind (·.displayed) = some 2 ∧
      (atGate.gatePanel 2).bind (·.acked) = some (.gate 1 0) ∧ atGate.bus.exchange ≠ none) ∧
      (amndFields.inRange listed.inForce = true ∧
        ((entryOf 1 500 (some 2) .listed).amend listed.inForce.dayStart amndFields).displayed = some 12) ∧
      ({ listed with tracker := sixteenClosed }.TrackerOk ∧ sixteenClosed.records.length = 16 ∧
        sixteenClosed.closed.head? = some 16) ∧
      (held.liveRecord? 1).isSome = true ∧
      (cueOf 1 1 .platform [0, 2] (.taken spoken)).isTaken = true := by decide +kernel

/-- A prediction of 720 minutes for run 1, whose filter is `g`. -/
def predicted (g : Filter) : State :=
  taking .signalling (.pred { run := 1, mode := 0, seconds := 43201 })
    (withEntry { entryOf 1 500 (some 2) .listed with filter := g })

theorem test_premises_PredMovesTheFilter :
    (∀ g ∈ [Filter.empty, ⟨none, some 720, 1, 0⟩, ⟨some 720, some 720, 2, 5⟩],
      (predicted g).Taking .signalling seq (.pred { run := 1, mode := 0, seconds := 43201 }) ∧ (predicted g).TableOk) ∧
      1 < listed.inForce.confirm ∧ min listed.inForce.confirm (1 + 1) = listed.inForce.confirm ∧
      (taking .signalling (.pred { run := 1, mode := 1, seconds := 0 }) listed).Taking .signalling seq
        (.pred { run := 1, mode := 1, seconds := 0 }) ∧ listed.TableOk := by decide

theorem test_premises_RdysAndDeptMoveTheEntry :
    (taking .signalling (.rdys 1) listed).Taking .signalling seq (.rdys 1) ∧
      (taking .signalling (.dept 1) listed).Taking .signalling seq (.dept 1) ∧ listed.TableOk ∧
      ((withEntry (entryOf 1 500 none .departed)).entry? 1).map (·.state) = some .departed ∧
      ((withEntry (entryOf 1 500 none .closed)).entry? 1).map (·.state) = some .closed := by decide

theorem test_premises_RdysAndDeptMoveTheEntry_record :
    (taking .signalling (.dept 1) held).Taking .signalling seq (.dept 1) ∧ held.TableOk ∧ held.TrackerOk ∧
      (held.entry? 1).map (·.inService) = some true := by decide

theorem test_premises_ReadSummarisesTheTable :
    ∀ f ∈
      ([⟨2, 1, 0, 1⟩, ⟨0, 0, 0, 1⟩, ⟨0, 97, 0, 1⟩, ⟨1, 0, 0, 1⟩, ⟨0, 96, 2, 1⟩, ⟨1, 65535, 3, 1⟩, ⟨1, 1, 2, 0⟩,
          ⟨0, 1, 0, 5⟩, ⟨0, 96, 1, 4⟩, ⟨1, 1, 2, 1⟩] :
        List ReadFields),
      (taking .planning (.read f) listed).Taking .planning seq (.read f) := by decide

theorem test_premises_CstaReportsTheNewestRecord :
    (taking .signalling (.csta 101) noon).Taking .signalling seq (.csta 101) ∧
      { noon with tracker := { records := sixteenOpen, closed := [] } }.TrackerOk ∧
      { noon with
          tracker := { records := [{ recordOf 101 with state := .informed }], closed := [1] } }.TrackerOk := by
  decide +kernel

/-- Run 1 holds a prediction of 3 minutes, 301 seconds old. -/
def stale : State :=
  withEntry { entryOf 1 500 (some 2) .listed with dd := 3, exp := 503, filter := ⟨some 3, some 3, 2, 301⟩ }

theorem test_premises_StalePredictionsAreCleared :
    stale.TableOk ∧ (stale.entry? 1).map (fun e => decide (e.filter.dp ≠ none ∧ stale.inForce.stale < e.filter.age)) =
        some true ∧
      (listed.entry? 1).map (·.filter.dp) = some none ∧ stale.time.limitsMoved.contains 304 = false := by decide

/-- The signalling port falls silent while run 1 holds a prediction. -/
def staleQuiet : State := stale.updPort .signalling fun r => { r with silence := 10 }

theorem test_premises_SilenceAndHoldoverAreReported_filters :
    staleQuiet.powered = true ∧ (staleQuiet.port .signalling).live = true ∧
      staleQuiet.inForce.silenceLimit .signalling ≤ (staleQuiet.port .signalling).silence ∧
      staleQuiet.time.limitsMoved.contains (silenceParam .signalling) = false ∧ staleQuiet.TableOk ∧
      (staleQuiet.entry? 1).any (fun e => e.inService && decide (e.filter.dp ≠ none)) = true ∧
      staleQuiet.openRecord? 1 = none := by decide +kernel

/-- The same with the silence limit moved by a CONF, within a minute and at its end. -/
theorem test_premises_RunningSecondMovesTheClock_silence :
    ∀ clock ∈ [43200, 43259],
      let s := { staleQuiet with time := { staleQuiet.time with limitsMoved := [392], clock := clock } }
      s.powered = true ∧ s.SilenceJudged .signalling ∧ s.TableOk ∧ s.openRecord? 1 = none ∧
        s.time.entersMinute = decide (clock = 43259) := by decide +kernel

/-- R38: the port falls silent and the delay of run 1, which was predicted, is 0 again, with one revision. -/
theorem test_silence_recomputes_the_entry :
    after (exec (.silenceExpiry .signalling) staleQuiet)
      (fun t =>
        (t.entry? 1).map (fun e => (e.dd, e.exp, e.filter, e.rev)) =
          (staleQuiet.entry? 1).map fun e => (0, e.sched, Filter.empty, e.rev + 1)) = true := by decide +kernel

/-- A TIME of `v` seconds on the planning port. -/
def timed (v : Nat) (s : State) : State := taking .planning (.time v) s

theorem test_premises_TimeIsCheckedInOrder :
    (timed 86400 noon).Taking .planning seq (.time 86400) ∧
      ((taking .signalling (.time 5) noon).Taking .signalling seq (.time 5) ∧ PortId.signalling ≠ noon.inForce.timePort ∧
        (noon.port noon.inForce.timePort).live = true) ∧
      ((timed 64801 noon).Taking .planning seq (.time 64801) ∧ 21600 < timeOffset 64801 43200) ∧
      ((timed 14399 (at' 14430 noon)).Taking .planning seq (.time 14399) ∧ timeOffset 14399 14430 = -31 ∧
        (at' 14430 noon).elapsed < 31) := by decide

theorem test_premises_TimeSetsSlewsOrSteps :
    ((timed 86399 State.reset).Taking .planning seq (.time 86399) ∧ State.reset.time.state = .unset) ∧
      ((timed 43230 noon).Taking .planning seq (.time 43230) ∧ timeOffset 43230 43200 = 30) ∧
      ((timed 14400 (at' 14431 listed)).Taking .planning seq (.time 14400) ∧ timeOffset 14400 14431 = -31 ∧
        31 ≤ (at' 14431 listed).elapsed ∧ listed.TableOk) ∧
      ((timed 64800 listed).Taking .planning seq (.time 64800) ∧ timeOffset 64800 43200 = 21600) := by decide

theorem test_premises_RunningSecondMovesTheClock :
    noon.powered = true ∧ noon.time.entersMinute = false ∧ noon.time.limitsMoved = [] ∧
      (0 < { noon.time with clock := 43258, slew := 1 }.slew ∧ 43258 % 60 = 58) ∧
      ({ noon.time with clock := 43259, slew := -1 }.slew < 0 ∧ 43259 % 60 = 59) := by decide

theorem test_premises_RunningSecondMovesTheClock_limits :
    { quiet with time := { quiet.time with limitsMoved := [392] } }.SilenceJudged .signalling ∧
      { noon with time := { noon.time with limitsMoved := [321], holdover := 7200 } }.HoldoverJudged ∧
      { noon.time with clock := 43259 }.entersMinute = true := by decide

/-- A posted notice without an end. -/
def postedNote : Posted := { number := 9, priority := 1, text := [0x41], edition := 1, expiry := none }

/-- The last second before the service-day start. -/
def lastSecond : State := { listed with time := { listed.time with clock := 14399 } }

theorem test_premises_MinuteAdvanceBringsEverythingUpToDate :
    lastSecond.powered = true ∧ lastSecond.time.entersMinute = true ∧ lastSecond.TableOk ∧
      lastSecond.time.limitsMoved = [] ∧ noon.time.entersMinute = false := by decide

/-- A second before minute 481: run 1 is overdue, run 2 too, but a TAKEN cue names it, run 3 has lingered, run 4 is to
close, run 5 to board, and nothing is due of run 6; a change record of run 6 has a diversion hold at its end. -/
def busyMinute : State :=
  { at' 43259 noon with
    table :=
      { entries :=
          [entryOf 1 (-1000) none .closed, entryOf 2 (-999) none .closed,
            { entryOf 3 400 none .departed with stateTime := some 400 }, entryOf 4 481 none .listed,
            entryOf 5 482 (some 2) .listed, entryOf 6 900 (some 2) .listed]
        displayable := [1, 2, 3, 4, 5] }
    tracker :=
      { records := [{ recordOf 6 with state := .informed, diverted := [⟨1, 0, false⟩] }], closed := [1] }
    cues :=
      { noon.cues with
        list :=
          [cueOf 1 2 .delay [0] (.taken { spoken with content := { spoken.content with run := 2 } }),
            { cueOf 2 6 .platform [0, 2] .waiting with due := 481 }] } }

/-- R7 to R11: what the evaluation of that minute makes of each entry. -/
theorem test_minute_evaluates_every_entry :
    after (exec .runningSecond busyMinute)
      (fun t =>
        t.table.entries.map (fun e => (e.run, e.state, e.rev)) =
            [(2, .retiring, 1), (4, .closed, 1), (5, .boarding, 1), (6, .listed, 0)] &&
          (t.port .signalling).notices.map (fun n => (n.kind, n.subject)) =
            (busyMinute.port .signalling).notices.map (fun n => (n.kind, n.subject)) ++
              [(.expired, .run 1), (.expired, .run 2)]) = true := by
  decide +kernel

theorem test_premises_MinuteAdvanceBringsEverythingUpToDate_entries :
    busyMinute.powered = true ∧ busyMinute.time.entersMinute = true ∧ busyMinute.TableOk ∧ busyMinute.CuesOk ∧
      busyMinute.time.limitsMoved = [] ∧ busyMinute.namedByTaken 2 = true ∧ busyMinute.namedByTaken 1 = false ∧
      (∀ run < 7, busyMinute.openRecord? run = none) ∧
      ((timed 43260 (at' 43200 busyMinute)).Taking .planning seq (.time 43260) ∧ timeOffset 43260 43200 = 60 ∧
        (at' 43200 busyMinute).TableOk ∧ (at' 43200 busyMinute).CuesOk) := by decide +kernel

theorem test_premises_RunningSecondMovesTheClock_dwell :
    busyMinute.TableOk ∧ busyMinute.WallOk ∧ ¬busyMinute.SilenceJudged .signalling := by decide +kernel

/-- The delay item of run 1, which closes at minute 500, stands last and is shown; that of run 2 joins at that minute. -/
def lastItem : State :=
  let s : State :=
    { at' 44399 noon with
      table :=
        { entries :=
            [{ entryOf 1 495 none .listed with dd := 5, exp := 500 }, { entryOf 2 615 none .listed with dd := 5, exp := 620 }]
          displayable := [1] } }
  s.withWall
    { s.wall with
      posted := [postedNote]
      items := [.note 9, .delay 1], current := some (.delay 1), mark := some 0, dwell := some 3 }

/-- R121, R123: the item that stood last leaves in its own re-forming, so the first is shown, and the one that joins with
the displayable set afterwards is not. -/
theorem test_last_item_gives_way_to_the_first :
    lastItem.PictureCurrent ∧ lastItem.now = 499 ∧
      after (exec .runningSecond lastItem)
        (fun t => t.wall.current = some (.note 9) && t.wall.items = [.note 9, .delay 2] && t.wall.count = 1) = true := by
  decide +kernel

/-- R123: the item after the one that leaves takes its place, or the first where it stood last; where others leave with it,
log entry 44. -/
theorem test_successors :
    successor [.note 1, .note 2, .note 3] [.note 1, .note 3] (.note 2) (.note 1) = .note 3 ∧
      successor [.note 1, .note 2] [.note 1] (.note 2) (.note 1) = .note 1 ∧
      successor [.note 1, .note 2, .note 3] [.note 3] (.note 2) (.note 3) = .note 3 := by decide

/-- Noon with two DUE cues of run 1. -/
def cued : State :=
  { listed with
    cues := { listed.cues with list := [cueOf 1 1 .platform [0, 2] .due, cueOf 255 1 .cancel [0, 2] .due] } }

theorem test_premises_TakeGivesTheBestCue :
    (taking .announcement .take cued).Taking .announcement seq .take ∧ cued.takenCount < cued.inForce.channels ∧
      cued.CuesOk ∧ cued.eligible (cueOf 255 1 .cancel [0, 2] .due) = true ∧ (cued.entry? 1).isSome = true ∧
      CueKind.cancel.priority < CueKind.platform.priority ∧
      (taking .announcement .take noon).Taking .announcement seq .take ∧
      (∀ c ∈ noon.cues.list, noon.eligible c = false) ∧ { cued.inForce with channels := 0 }.channels ≤ cued.takenCount := by
  decide

/-- The DELAY cue 255 of run 1, TAKEN for the third time. -/
def speakingCue : Cue := { cueOf 255 1 .delay [0, 2] (.taken spoken) with attempts := 2 }

def speaking : State := { listed with cues := { listed.cues with list := [speakingCue] } }

theorem test_premises_DoneHandsTheSpokenFacts :
    (taking .announcement (.spkn ⟨255, 0⟩) speaking).Taking .announcement seq (.spkn ⟨255, 0⟩) ∧ speaking.CuesOk ∧
      speaking.cues.list = [] ++ speakingCue :: [] ∧ speakingCue.number = 255 ∧ speakingCue.state = .taken spoken ∧
      spoken.content.kind = speakingCue.kind ∧ spoken.content.run = speakingCue.run ∧
      (taking .announcement (.spkn ⟨0, 0⟩) speaking).Taking .announcement seq (.spkn ⟨0, 0⟩) ∧
      (taking .announcement (.spkn ⟨255, 2⟩) speaking).Taking .announcement seq (.spkn ⟨255, 2⟩) ∧
      (taking .announcement (.spkn ⟨255, 0⟩) cued).Taking .announcement seq (.spkn ⟨255, 0⟩) ∧
      (∀ c ∈ cued.cues.list, c.isTaken = false) := by decide

theorem test_premises_AbortedCuesAreOfferedAgain :
    speaking.powered = true ∧ speaking.CuesOk ∧ speaking.cues.list = [] ++ speakingCue :: [] ∧
      speakingCue.state = .taken spoken ∧ spoken.limit ≤ spoken.timer ∧
      (taking .announcement (.spkn ⟨255, 1⟩) speaking).Taking .announcement seq (.spkn ⟨255, 1⟩) ∧
      (∀ c ∈ cued.cues.list, c.isTaken = false) := by decide

/-- The CHANGE cue 3 of run 1 in speech, its record displayed. -/
def changeSpoken : State :=
  { held with
    tracker := { held.tracker with records := [{ recordOf 1 with displayed := true, inSpeech := true, cue := some 3 }] }
    cues :=
      { held.cues with
        list :=
          [cueOf 3 1 .change [0, 1, 2]
              (.taken { spoken with content := { spoken.content with kind := .change, number := 3, dst := some 2 } })] } }

theorem test_premises_DoneHandsTheSpokenFacts_informed :
    (taking .announcement (.spkn ⟨3, 0⟩) changeSpoken).Taking .announcement seq (.spkn ⟨3, 0⟩) ∧ changeSpoken.CuesOk ∧
      changeSpoken.TrackerOk ∧ (∃ r ∈ changeSpoken.tracker.records, r.run = 1 ∧ r.isOpen = true ∧ r.inSpeech = true ∧
        r.displayed = true) ∧
      (changeSpoken.entry? 1).any (·.state = .retiring) = false := by decide

/-- The CHANGE cue 3 has been revised while TAKEN, and the record it spoke for has given way to another. -/
def changeRevised : State :=
  { changeSpoken with
    tracker := { held.tracker with records := [{ recordOf 1 with cue := some 3 }] }
    cues := { changeSpoken.cues with list := changeSpoken.cues.list.map fun c => { c with pendRev := true } } }

theorem test_premises_DoneHandsTheSpokenFacts_revised :
    (taking .announcement (.spkn ⟨3, 0⟩) changeRevised).Taking .announcement seq (.spkn ⟨3, 0⟩) ∧ changeRevised.CuesOk ∧
      changeRevised.TrackerOk ∧
      (∃ c x, changeRevised.cues.list = [] ++ c :: [] ∧ c.number = 3 ∧ c.state = .taken x ∧ x.content.kind = c.kind ∧
        x.content.run = c.run ∧ c.kind = .change ∧ c.pendDrop = false ∧ c.pendRev = true) ∧
      (changeRevised.entry? 1).isSome = true ∧
      (changeRevised.openRecord? 1).any (fun r => !r.inSpeech && !r.announced) = true :=
  ⟨by decide, by decide, by decide, ⟨_, _, rfl, rfl, rfl, rfl, rfl, rfl, rfl, rfl⟩, by decide, by decide⟩

/-- R103: the revised CHANGE cue is DUE again for zone 0 and both platforms of the OPEN record. -/
theorem test_revised_change_is_offered_again :
    after (exec (.spkn .announcement) (taking .announcement (.spkn ⟨3, 0⟩) changeRevised))
      (fun t => t.cues.list.map (fun c => (c.state, c.zones, c.attempts)) = [(.due, [0, 1, 2], 0)]) = true := by
  decide +kernel

theorem test_premises_AbortedCuesAreOfferedAgain_change :
    changeSpoken.powered = true ∧ changeSpoken.CuesOk ∧
      (∃ c ∈ changeSpoken.cues.list, c.number = 3 ∧ c.kind = .change ∧ c.isTaken = true) ∧
      (∃ r ∈ changeSpoken.tracker.records, r.run = 1 ∧ r.isOpen = true ∧ r.inSpeech = true ∧ r.cue = some 3) ∧
      (taking .announcement (.spkn ⟨3, 1⟩) changeSpoken).Taking .announcement seq (.spkn ⟨3, 1⟩) := by decide

/-- Zone 24 in a gap that ends now. -/
def inGap : State :=
  { noon with cues := { noon.cues with zones := [{ no := 24, gapEnd := some 0, held := false }] } }

theorem test_premises_ZonesAreHeldAndFreed :
    (taking .announcement (.zone ⟨0, [0, 12]⟩) noon).Taking .announcement seq (.zone ⟨0, [0, 12]⟩) ∧
      12 ≤ noon.inForce.platforms ∧
      (taking .announcement (.zone ⟨2, []⟩) noon).Taking .announcement seq (.zone ⟨2, []⟩) ∧
      (taking .announcement (.zone ⟨1, [13]⟩) noon).Taking .announcement seq (.zone ⟨1, [13]⟩) ∧
      (∃ z ∈ inGap.cues.zones, z.no = 24 ∧ ∃ g, z.gapEnd = some g ∧ g ≤ inGap.time.runSec) ∧
      (∀ z ∈ noon.cues.zones, z.gapEnd = none) :=
  ⟨by decide, by decide, by decide, by decide, ⟨_, List.mem_singleton_self _, rfl, 0, rfl, by decide⟩, by decide⟩

/-- A posted notice of priority 0 whose time has run out. -/
def postedOne : Posted := { number := 200, priority := 0, text := [0x41], edition := 1, expiry := some 0 }

/-- NOTICE mode, the one notice shown. -/
def posted : State := noon.withWall { noon.wall with posted := [postedOne], mode := .notice }

/-- A NOTE in every range. -/
def noteFields : NoteFields := { number := 1, priority := 3, text := [0x41], expiry := 1441 }

theorem test_premises_NoticesArePostedAndRemoved :
    (∀ f ∈ [noteFields, { noteFields with number := 0 }, { noteFields with number := 201 }, { noteFields with priority := 4 },
        { noteFields with text := [] }, { noteFields with number := 200 }],
      (taking .planning (.note f) posted).Taking .planning seq (.note f)) ∧
      posted.wall.posted.length < 12 ∧ (List.replicate 12 postedOne).length = 12 ∧
      (∀ n ∈ List.replicate 12 postedOne, n.number ≠ noteFields.number) ∧
      (taking .planning (.nclr 200) posted).Taking .planning seq (.nclr 200) ∧
      (taking .planning (.nclr 0) posted).Taking .planning seq (.nclr 0) ∧ postedOne ∈ posted.wall.posted ∧
      postedOne.expiry = some 0 ∧ (∀ n ∈ noon.wall.posted, n.number ≠ 1) := by decide

/-- The rotation stands at the last of two items and its dwell has run out. -/
def rotating : State :=
  let s := noon.withWall
    { noon.wall with
      posted := [postedOne, { postedOne with number := 1 }]
      current := some (.note 1), mark := some 1, dwell := some 0, items := [.note 200, .note 1] }
  s.withWall { s.wall with rowMap := s.freshRowMap, gateChoice := s.freshGates, items := s.freshItems }

theorem test_premises_WallModesAndTheRotationMove :
    (∀ n ∈ [0, 1, 2, 3], (taking .planning (.wall n) posted).Taking .planning seq (.wall n)) ∧
      postedOne ∈ posted.wall.posted ∧ postedOne.priority = 0 ∧ noon.wall.posted = [] ∧
      (rotating.PictureCurrent ∧ rotating.wall.dwell = some 0 ∧ rotating.wall.current = some (.note 1) ∧
        rotating.wall.items = [.note 200] ++ .note 1 :: []) ∧ noon.wall.dwell ≠ some 0 := by decide +kernel

/-- The current notice of the rotation, and the other one, can be taken off. -/
theorem test_premises_NoticesArePostedAndRemoved_rotation :
    rotating.PictureCurrent ∧ rotating.WallOk ∧ rotating.wall.current = some (.note 1) ∧
      rotating.wall.items = [.note 200] ++ .note 1 :: [] ∧
      (∀ n ∈ [1, 200], (taking .planning (.nclr n) rotating).Taking .planning seq (.nclr n) ∧
        (taking .planning (.nclr n) rotating).PictureCurrent ∧ (taking .planning (.nclr n) rotating).WallOk ∧
        ∃ x ∈ (taking .planning (.nclr n) rotating).wall.posted, x.number = n) := by decide +kernel

/-- A NOTE that replaces the current item, one that adds another, and one that begins the rotation; no delay item is current
after any of them, so that none has been revised. -/
theorem test_premises_NoticesArePostedAndRemoved_posting :
    (∀ n ∈ [1, 5], (taking .planning (.note { noteFields with number := n }) rotating).Taking .planning seq
        (.note { noteFields with number := n }) ∧
      (taking .planning (.note { noteFields with number := n }) rotating).PictureCurrent ∧
      (taking .planning (.note { noteFields with number := n }) rotating).WallOk ∧
      after (exec (.note .planning) (taking .planning (.note { noteFields with number := n }) rotating))
        (fun t => t.wall.current = some (.note 1) && t.wall.dwell = some 0 && t.wall.count = if n = 1 then 1 else 0) = true) ∧
      ((taking .planning (.note noteFields) noon).Taking .planning seq (.note noteFields) ∧ noon.PictureCurrent ∧
        noon.WallOk ∧ noon.wall.current = none ∧
        after (exec (.note .planning) (taking .planning (.note noteFields) noon))
          (fun t => t.wall.current = some (.note 1) && t.wall.dwell = some noon.inForce.dwell && t.wall.count = 1) =
            true) := by decide +kernel

/-- The wall is dark and an OPEN record waits for its return. -/
def darkWall : State := held.withWall { held.wall with mode := .blank }

theorem test_premises_WallModesAndTheRotationMove_records :
    (taking .planning (.wall 0) darkWall).Taking .planning seq (.wall 0) ∧ darkWall.wall.mode ≠ .normal ∧
      darkWall.TrackerOk ∧ (∃ r ∈ darkWall.tracker.records, r.isOpen = true ∧ r.displayed = false) ∧
      (taking .planning (.nclr 200) { posted with tracker := held.tracker }).Taking .planning seq (.nclr 200) ∧
      { posted with tracker := held.tracker }.TrackerOk := by decide

theorem test_premises_WallModesAndTheRotationMove_return :
    (taking .planning (.wall 0) (rotating.withWall { rotating.wall with mode := .blank })).Taking .planning seq (.wall 0) ∧
      (taking .planning (.wall 0) (rotating.withWall { rotating.wall with mode := .blank })).PictureCurrent := by
  decide +kernel

/-- A published change of run 2 while the wall is dark and the record of run 1 is OPEN. -/
def darkPair : State :=
  { darkWall with
    table :=
      { entries := darkWall.table.entries ++ [entryOf 2 501 (some 2) .listed], displayable := [1, 2] } }

theorem test_premises_PublishedChangeOpensARecord_dark :
    (taking .signalling (.plat { run := 2, platform := 3 }) darkPair).Taking .signalling seq
        (.plat { run := 2, platform := 3 }) ∧
      darkPair.TableOk ∧ darkPair.TrackerOk ∧ darkPair.CuesOk ∧ (darkPair.entry? 2).bind (·.displayed) = some 2 ∧
      (501 : Int) - darkPair.inForce.published ≤ darkPair.now ∧ darkPair.wall.mode ≠ .normal ∧
      (∃ r ∈ darkPair.tracker.records, r.isOpen = true ∧ r.run ≠ 2) := by decide +kernel

/-! ### A full cue list -/

/-- `s` with 32 cues of other runs, of which the last is of this kind and state. -/
def crowded (kind : CueKind) (state : CueState) (s : State) : State :=
  { s with cues := { s.cues with list := thirtyTwo kind state } }

/-- What the calls of one telegram leave of the runs, kinds and zones at the list's tail, and whose loss is noticed. -/
def tail (n : Nat) (t : State) : List (Nat × CueKind × List Nat) × List Subject :=
  ((t.cues.list.drop (32 - n)).map (fun c => (c.run, c.kind, c.zones)),
    ((t.port .announcement).notices.filter (·.kind = .cueDropped)).map (·.subject))

/-- A PLAN that is LISTED, BOARDING or CLOSED at once, with and without a platform, in a full list. -/
theorem test_premises_PlanCreatesTheEntry_fullList :
    (∀ k f, (taking .planning (.plan f) (crowded k .waiting listed)).ConfigOk) ∧
      (∀ k ∈ [CueKind.delay, .cancel], (crowded k .waiting listed).CuesOk ∧ (crowded k .waiting listed).TableOk ∧
      (∀ c ∈ (crowded k .waiting listed).cues.list, c.run ≠ planFields.run) ∧
      ∀ f ∈ [planFields, { planFields with platform := 0 }, { planFields with hh := 12 }, { planFields with hh := 12, mm := 0 }],
        (taking .planning (.plan f) (crowded k .waiting listed)).Taking .planning seq (.plan f)) ∧
      after (exec (.plan .planning) (taking .planning (.plan { planFields with hh := 12 }) (crowded .delay .waiting listed)))
        (fun t => (t.entry? 65535).map (·.state) = some .boarding) = true :=
  ⟨fun _ _ => config_ok _ rfl rfl rfl, by decide +kernel, by decide +kernel⟩

/-- R94: LISTED in a full list, the PLATFORM cue takes the place of a WAITING DELAY cue; BOARDING, it does, and then the
FINAL cue the place of that PLATFORM cue, which is WAITING, or finds none. -/
theorem test_plan_in_a_full_list :
    after (exec (.plan .planning) (taking .planning (.plan planFields) (crowded .delay .waiting listed)))
        (fun t => tail 1 t = ([(65535, .platform, [0, 12])], [.run 232])) = true ∧
      after (exec (.plan .planning) (taking .planning (.plan { planFields with hh := 12, mm := 12 })
          (crowded .delay .waiting listed)))
        (fun t => tail 1 t = ([(65535, .final, [12])], [.run 232, .run 65535])) = true ∧
      after (exec (.plan .planning) (taking .planning (.plan { planFields with hh := 12 }) (crowded .delay .waiting listed)))
        (fun t => tail 1 t = ([(65535, .platform, [0, 12])], [.run 232, .run 65535])) = true := by
  decide +kernel

/-- Run 1 has been announced at its platform. -/
def announcedOne : State := withEntry { entryOf 1 500 (some 2) .listed with announced := some 2 }

/-- A DLAY of seven minutes. -/
def seven : DlayFields := { run := 1, mode := 0, minutes := 7, reason := [] }

theorem test_premises_DlaySetsTheOperatorDelay_fullList :
    (taking .planning (.dlay seven) (crowded .delay .waiting announcedOne)).Taking .planning seq (.dlay seven) ∧
      (crowded .delay .waiting announcedOne).TableOk ∧ (crowded .delay .waiting announcedOne).CuesOk ∧
      (∀ c ∈ (crowded .delay .waiting announcedOne).cues.list, c.run ≠ 1) ∧
      after (exec (.dlay .planning) (taking .planning (.dlay seven) (crowded .delay .waiting announcedOne)))
        (fun t => (t.entry? 1).any (fun x => x.state = .listed && decide (x.CallsDelay t.inForce ∧ ¬x.CallsPlatform)) &&
          t.cues.list = thirtyTwo .delay .waiting && (tail 1 t).2 = [.run 1]) = true := by
  decide +kernel

/-- R89, R94: the CHANGE cue takes the place of the WAITING cue, or with none it is not made and the record holds none. -/
theorem test_premises_PublishedChangeOpensARecord_fullList :
    (∀ k ∈ [CueKind.delay, .change],
      (taking .signalling (.plat { run := 1, platform := 3 }) (crowded k .waiting listed)).Taking .signalling seq
          (.plat { run := 1, platform := 3 }) ∧
        (crowded k .waiting listed).TableOk ∧ (crowded k .waiting listed).TrackerOk ∧ (crowded k .waiting listed).CuesOk ∧
        ∀ c ∈ (crowded k .waiting listed).cues.list, c.run ≠ 1) ∧
      after (exec (.plat .signalling) (taking .signalling (.plat { run := 1, platform := 3 }) (crowded .delay .waiting listed)))
        (fun t => (t.entry? 1).any (fun x => x.state = .listed && decide (¬x.CallsDelay t.inForce)) &&
          tail 1 t = ([(1, .change, [0, 2, 3])], [.run 232])) = true ∧
      after (exec (.plat .signalling) (taking .signalling (.plat { run := 1, platform := 3 }) (crowded .change .waiting listed)))
        (fun t => (tail 1 t).2 = [.run 1] && (t.openRecord? 1).any (·.cue = none)) = true := by
  decide +kernel

/-- Panel 60 is a banner panel, ACTIVE and never served; the rest are unconfigured. -/
def panel60 : Panel :=
  { Panel.absentAt 60 4 with
    role := .banner, state := .active, desired := some .blank, sent := some .blank, acked := some .blank
    desiredLevel := 15, sentLevel := some 15, ackedLevel := some 15, ec := 48, addressed := true, errored := true }

/-- The panel records with panel 60 as given. -/
def withPanel (p : Panel) (x : Option Exchange) : State :=
  { noon with bus := { noon.bus with panels := noon.bus.panels.take 59 ++ [p], exchange := x } }

/-- An exchange with panel 60. -/
def exchange60 (state : PanelState) (phase : Phase) : Exchange :=
  { addr := 60, seq := 0, level := 15, content := .polf, urgent := none, startState := state, rset := false, phase := phase }

theorem test_premises_FramesWindowsAndDueTimes :
    (withPanel panel60 (some (exchange60 .active .sending))).powered = true ∧
      (withPanel panel60 (some (exchange60 .active (.window 996)))).time.runMs + max 0 (min 1000 999) < 996 + 5 ∧
      ((withPanel panel60 none).PanelsOk ∧ (withPanel panel60 none).BusOk ∧
        (withPanel panel60 none).panel? 60 = some panel60 ∧ panel60.lastServed = none) ∧
      ((withPanel { panel60 with state := .failed, ec := 0 } none).PanelsOk ∧
        (withPanel { panel60 with state := .failed, ec := 0 } none).BusOk) := by decide +kernel

theorem test_premises_RepliesAreClassed :
    (classifyReply (exchange60 .active (.window 0)) (escape ([60, 0, 2] ++ crcOctets [60, 0, 2])) = .good true) ∧
      classifyReply (exchange60 .active (.window 0)) (escape ([60, 0, 3] ++ crcOctets [60, 0, 3])) = .failed := by
  decide +kernel

theorem test_premises_OutcomesMoveThePanel :
    (∀ q ∈ [panel60, { panel60 with state := .probing, ec := 0 }, { panel60 with state := .failed, ec := 0, goodRun := 2 }],
      (withPanel q (some (exchange60 q.state (.window 0)))).PanelsOk ∧
        (withPanel q (some (exchange60 q.state (.window 0)))).panel? 60 = some q) ∧
      0 + 5 ≤ noon.time.runMs + max noon.time.subMs (min 5 999) := by decide +kernel

/-- Panel 60 shows row 1, which run 1 has; its record waits for it. -/
def rowPanel : State :=
  let s := withPanel { panel60 with role := .row 1 } none
  let s := { s with table := held.table, tracker := { held.tracker with records := [{ recordOf 1 with gateReq := some 60 }] } }
  s.withWall { s.wall with rowMap := s.freshRowMap, gateChoice := s.freshGates, items := s.freshItems }

/-- R128, R141: with the bus IDLE the row panel of a cancelled entry is served at once, under its two retries. -/
theorem test_canc_serves_the_row_panel :
    after (exec (.canc .planning) (taking .planning (.canc { run := 1, reason := [] }) rowPanel))
      (fun t => t.bus.exchange.map (fun x => (x.addr, x.urgent)) = some (60, some 2) && t.bus.urgent = []) = true := by
  decide +kernel

theorem test_premises_CancCancelsTheEntry_idle :
    (taking .planning (.canc { run := 1, reason := [] }) rowPanel).Taking .planning seq (.canc { run := 1, reason := [] }) ∧
      rowPanel.TableOk ∧ rowPanel.bus.exchange = none ∧ rowPanel.bus.urgent = [] ∧ rowPanel.rowPanelOf 1 = some 60 := by
  decide +kernel

theorem test_premises_PublishedChangeOpensARecord_idle :
    (taking .signalling (.plat { run := 1, platform := 3 }) rowPanel).Taking .signalling seq
        (.plat { run := 1, platform := 3 }) ∧
      rowPanel.TableOk ∧ rowPanel.TrackerOk ∧ rowPanel.CuesOk ∧ (rowPanel.liveRecord? 1).isSome = true ∧
      rowPanel.bus.exchange = none ∧ rowPanel.bus.urgent = [] ∧ rowPanel.rowPanelOf 1 = some 60 ∧
      rowPanel.wall.mode = .normal ∧
      after (exec (.plat .signalling) (taking .signalling (.plat { run := 1, platform := 3 }) rowPanel))
        (fun t => decide (t.bus.exchange.map (·.addr) = some 60)) = true := by decide +kernel

theorem test_premises_ConfSetsOneParameter_failure :
    (taking .planning (.conf { number := 361, value := 20 }) rowPanel).Taking .planning seq
        (.conf { number := 361, value := 20 }) ∧
      (rowPanel.ConfigOk ∧ rowPanel.PanelsOk ∧ rowPanel.TrackerOk ∧ rowPanel.wall.mode = .normal) ∧
      ((rowPanel.panel? 60).any fun q => q.state = .active && 20 ≤ q.ec) = true ∧ rowPanel.rowPanelOf 1 = some 60 ∧
      (∃ r ∈ rowPanel.tracker.records, r.isOpen = true ∧ r.displayed = false ∧ r.rowPart = .pending ∧ r.run = 1) :=
  ⟨by decide +kernel, ⟨config_ok _ rfl rfl rfl, by decide +kernel, by decide +kernel, by decide +kernel⟩,
    by decide +kernel, by decide +kernel, by decide +kernel⟩

theorem test_premises_OutcomesMoveThePanel_records :
    rowPanel.PanelsOk ∧ rowPanel.TrackerOk ∧ rowPanel.PictureCurrent ∧ rowPanel.wall.mode = .normal ∧
      rowPanel.rowPanelOf 1 = some 60 ∧ (rowPanel.panel? 60).isSome = true ∧
      { exchange60 .active (.window 0) with urgent := some 2 }.urgent = some (1 + 1) := by decide +kernel

theorem test_premises_FramesKeepTheLevelCaps_dispatch :
    (withPanel { panel60 with acked := none } none).PanelsOk ∧
      ((withPanel { panel60 with acked := none } none).panel? 60).map Panel.wantsFrame = some true ∧
      panel60.wantsFrame = false ∧ (withPanel panel60 none).keepaliveIsDue panel60 = true ∧
      (withPanel panel60 (some (exchange60 .active .sending))).bus.exchange ≠ none ∧ noon.PanelsOk ∧
      (∀ q ∈ noon.bus.panels, q.wantsFrame = false) := by decide +kernel

theorem test_premises_FramesKeepTheLevelCaps :
    (withPanel panel60 none).PanelsOk ∧
      after (exec (.keepaliveDue 0 60) (withPanel panel60 none)) (fun t => decide (t.bus.seq ≠ 0)) = true := by
  decide +kernel

theorem test_premises_IntervalEndsJudgeThePanels :
    (withPanel panel60 none).powered = true ∧ (withPanel panel60 none).PanelsOk ∧
      panel60.ec + noon.inForce.increment = noon.inForce.failThreshold ∧
      (withPanel panel60 none).bus.intervalEnd ≤ (State.atMs 0 { withPanel panel60 none with
        time := { noon.time with runMs := 1000 } }).runTime ∧
      noon.time.runMs + max noon.time.subMs (min 999 999) < noon.bus.intervalEnd := by decide +kernel

theorem test_premises_IntervalEndsJudgeThePanels_waivers :
    rowPanel.PanelsOk ∧ rowPanel.TrackerOk ∧ rowPanel.wall.mode = .normal ∧ rowPanel.rowPanelOf 1 = some 60 ∧
      ((rowPanel.panel? 60).any fun q =>
        q.state = .active && q.addressed && q.errored &&
          rowPanel.inForce.failThreshold ≤ q.ec + rowPanel.inForce.increment) = true ∧
      (∃ r ∈ rowPanel.tracker.records, r.isOpen = true ∧ r.displayed = false ∧ r.rowPart = .pending ∧
        r.gatePart = .pending ∧ r.gateReq = some 60) := by decide +kernel

/-- A pass at its last channel, LS7 converting. -/
def lastChannel : State :=
  noon.withSense { noon.sense with converter := .light 7, position := some 7 }

theorem test_premises_PassesReadTheUsedChannels :
    noon.powered = true ∧ noon.SenseOk ∧ noon.sense.scanDue ≤ noon.time.runMs + max noon.time.subMs (min 500 999) ∧
      noon.time.runMs + max noon.time.subMs (min 499 999) < noon.sense.scanDue ∧ noon.sense.position = none ∧
      (noon.sense.channels.map (·.zone)).head? = some 1 ∧ lastChannel.SenseOk ∧ lastChannel.sense.position ≠ none ∧
      (noon.withSense { noon.sense with converter := .light 0, position := some 0 }).SenseOk := by decide

theorem test_premises_PassesReadTheUsedChannels_none :
    ∀ s, s = noon.withSense { noon.sense with channels := noon.sense.channels.map fun c => { c with zone := 0 } } →
      s.SenseOk ∧ s.sense.position = none ∧ (∀ c ∈ s.sense.channels, c.zone = 0) ∧
        s.sense.scanDue ≤ s.time.runMs + max s.time.subMs (min 500 999) := by
  rintro s rfl
  decide

theorem test_premises_PassEndsSetTheLevels :
    lastChannel.powered = true ∧ lastChannel.SenseOk ∧ lastChannel.PanelsOk ∧
      lastChannel.sense.converter = .light 7 ∧ (∀ k ∈ lastChannel.sense.channels, k.no = 7 → k.zone ≠ 0) ∧
      (∀ k ∈ lastChannel.sense.channels, 7 < k.no → k.zone = 0) := by decide +kernel

/-- Line 0 in mid-impulse, its check not asked for. -/
def midImpulse : State :=
  { noon with
    lines :=
      { Line.faulted 0 with
        state := .run, missed := 2, impulse := some { start := 0, polarity := .pos, width := 400, asked := false } } ::
        noon.lines.tail }

/-- A check of line 0 converting. -/
def checking : State :=
  noon.withSense { noon.sense with converter := .check 0 200, queue := [0] }

theorem test_premises_LineChecksGoFirst :
    midImpulse.powered = true ∧ midImpulse.SenseOk ∧ midImpulse.LinesOk ∧
      (midImpulse.line? 0).bind (·.impulse) = some ⟨0, .pos, 400, false⟩ ∧
      2 * 0 + 400 ≤ 2 * (midImpulse.time.runMs + max midImpulse.time.subMs (min 200 999)) ∧
      2 * (midImpulse.time.runMs + max midImpulse.time.subMs (min 199 999)) < 2 * 0 + 400 ∧
      checking.SenseOk ∧ checking.LinesOk := by decide

theorem test_premises_DialSetsTheLine :
    (∀ f ∈ ([⟨4, 1, none⟩, ⟨3, 2, none⟩, ⟨0, 0, some (720, 0)⟩, ⟨0, 0, some (719, 2)⟩, ⟨0, 0, some (719, 1)⟩, ⟨3, 1, none⟩] :
        List DialFields),
      (taking .planning (.dial f) midImpulse).Taking .planning seq (.dial f)) ∧
      midImpulse.LinesOk ∧ noon.LinesOk ∧ (noon.line? 0).isSome = true := by decide

/-- The row panel 60 is to pass from run 1, overdue, to run 2, whose change has been announced. -/
def overdueFirst : State :=
  { rowPanel with
    table :=
      { entries :=
          [entryOf 1 (-1000) none .closed, { entryOf 2 500 (some 2) .listed with openRec := some 1 }]
        displayable := [1, 2] }
    tracker := { records := [{ recordOf 2 with announced := true }], closed := [] }
    bus :=
      { rowPanel.bus with
        panels := updWhere (·.addr = 60) (fun q => { q with acked := some (.row 2 0) }) rowPanel.bus.panels }
    time := { rowPanel.time with clock := 43259 } }

/-- R10: the row map of a removal is formed, and the change it displays INFORMED, before EXPIRED is posted. -/
theorem test_removal_forms_the_map_before_its_notice :
    after (exec .minuteAdvance overdueFirst)
      (fun t => (t.port .signalling).notices.map (·.kind) =
        (overdueFirst.port .signalling).notices.map (·.kind) ++ [.changeInformed, .expired]) = true := by
  decide +kernel

/-- A full cue list of other runs, and run 1 without a platform nine minutes before it leaves at 490. -/
def fullCues : State :=
  { withEntry (entryOf 1 490 none .listed) with
    cues := { noon.cues with list := thirtyTwo .change .due } }

/-- R86, R94: each handover of one PLAT tests R88 again, so the PLATFORM cue that finds no room is dropped at that of the
platform and, with the FINAL cue, at that of the state. -/
theorem test_each_handover_tries_again :
    after (exec (.plat .signalling) (taking .signalling (.plat { run := 1, platform := 2 }) fullCues))
      (fun t =>
        (t.entry? 1).map (·.state) = some .boarding &&
          (t.port .planning).notices.map (fun n => (n.kind, n.subject)) =
            ((fullCues.port .planning).notices.map fun n => (n.kind, n.subject)) ++
              List.replicate 3 (.cueDropped, .run 1)) = true := by decide +kernel

/-- Run 1, five minutes late, leaves at minute 1500, beyond the horizon until the clock is stepped over the day's start. -/
def joinsAndCloses : State :=
  let s : State := at' 3600 noon
  let e : Entry := { entryOf 1 1495 none .listed with opDelay := some ⟨5, false⟩, dd := 5, exp := 1500 }
  { s with table := { entries := [e], displayable := [] } }

/-- R57, R122: the rollover hands the displayable set to the compositor before the evaluation closes the entry, so its delay
item has been current. -/
theorem test_rollover_shows_what_the_evaluation_takes_off :
    joinsAndCloses.PictureCurrent ∧ joinsAndCloses.wall.count = 0 ∧
      after (exec (.time .planning) (timed 18000 joinsAndCloses))
        (fun t => t.wall.items = [] && t.wall.current = none && t.wall.count = 1) = true := by decide +kernel

/-- Line 0 in ADVANCE between impulses. -/
def advancing : State :=
  { noon with
    lines := { Line.faulted 0 with state := .advance, missed := 0, nextAt := some 999 } :: noon.lines.tail }

theorem test_premises_ImpulsesMoveTheDial :
    advancing.LinesOk ∧ ((advancing.line? 0).bind (·.nextAt) = some 999) ∧
      999 ≤ advancing.time.runMs + max advancing.time.subMs (min 999 999) ∧ pulsing.LinesOk ∧
      (pulsing.line? 0).bind (·.impulse) = some ⟨0, .pos, 400, true⟩ ∧
      0 + 400 ≤ pulsing.time.runMs + max pulsing.time.subMs (min 400 999) ∧
      pulsing.time.runMs + max pulsing.time.subMs (min 399 999) < 0 + 400 ∧ midImpulse.LinesOk ∧
      (midImpulse.line? 0).map (·.missed) = some 2 := by decide

/-- Line 0 one minute behind when a minute advance came in mid-impulse. -/
def deferred : State :=
  { noon with
    lines :=
      { Line.faulted 0 with
        state := .run, dial := 718, missed := 0, deferred := true, deferredMinute := true
        impulse := some { start := 0, polarity := .pos, width := 400, asked := true }, result := some true } ::
        noon.lines.tail }

theorem test_premises_ImpulsesMoveTheDial_deferred :
    deferred.LinesOk ∧ (718 + 1 + 1) % 720 = deferred.time.clock / 60 % 720 ∧
      0 + 400 ≤ deferred.time.runMs + max deferred.time.subMs (min 400 999) := by decide

theorem test_premises_OnlyTheseCommandsMove :
    after (exec (.zone .announcement) (taking .announcement (.zone ⟨0, [0]⟩) noon)) (fun t => t.heldZones = [0]) = true := by
  decide +kernel

/-! ## The invariants, at reset -/

theorem reset_config : State.reset.ConfigOk := config_ok _ rfl rfl rfl

theorem reset_attention : State.reset.AttentionOk := by
  intro _ p
  cases p <;> decide

theorem test_invariants_hold_at_reset :
    State.reset.TableOk ∧ State.reset.TimeOk ∧ State.reset.TrackerOk ∧ (State.reset.CuesOk ∧ State.reset.SpeechOk) ∧
      (State.reset.DesiredCurrent ∧ State.reset.PictureCurrent) ∧ State.reset.PanelsOk ∧ State.reset.BusOk ∧
      State.reset.SenseOk ∧ State.reset.LinesOk ∧ State.reset.PortsOk ∧ State.reset.RecordsNamed ∧
      State.reset.CuesNamed ∧ State.reset.WallOk ∧ State.reset.LevelsOk := by decide +kernel

/-- Reset with a running second waiting. -/
def ticking : State := { State.reset with pending := [.runningSecond] }

theorem test_premises_ConfigurationStaysInRange :
    ticking.ConfigOk ∧ after (step ticking) (fun t => t.time.clock = 1) = true :=
  ⟨config_ok _ rfl rfl rfl, by decide +kernel⟩

theorem test_premises_TableTimeAndRecordsStayInOrder :
    ticking.TableOk ∧ ticking.TimeOk ∧ ticking.TrackerOk ∧ after (step ticking) (fun t => t.time.runSec = 1) = true := by
  decide +kernel

theorem ticking_config : ticking.ConfigOk := config_ok _ rfl rfl rfl

theorem test_premises_TheNamingAndRangeInvariants :
    ticking.RecordsNamed ∧ ticking.CuesNamed ∧ ticking.WallOk ∧ ticking.LevelsOk := by decide +kernel

theorem test_premises_ThePictureStaysCurrent_attention : ticking.AttentionOk := by
  intro _ p
  cases p <;> decide

theorem test_premises_CuesStayWithinTheirChannels :
    ticking.CuesOk ∧ ticking.SpeechOk ∧ after (step ticking) (fun t => t.cues.list = []) = true := by decide +kernel

theorem test_premises_ThePictureStaysCurrent :
    ticking.TableOk ∧ ticking.TimeOk ∧ ticking.DesiredCurrent ∧ ticking.PictureCurrent ∧ ticking.PanelsOk ∧
      ticking.WallOk ∧
      after (step ticking) (fun t => t.pending = []) = true := by decide +kernel

/-- The row panel of run 1 with its desired tag as the picture gives it, and a running second waiting. -/
def shown : State :=
  { rowPanel with
    bus :=
      { rowPanel.bus with
        panels := updWhere (·.addr = 60) (fun q => { q with desired := some (.row 1 0) }) rowPanel.bus.panels }
    pending := [.runningSecond] }

theorem test_premises_ThePictureStaysCurrent_shown :
    shown.TableOk ∧ shown.TimeOk ∧ shown.DesiredCurrent ∧ shown.PictureCurrent ∧ shown.PanelsOk ∧ shown.WallOk ∧
      after (step shown) (fun t => t.wall.rowMap = [(60, 1)]) = true := by
  decide +kernel

theorem test_premises_FramesKeepTheLevelCaps_composed :
    shown.WallOk ∧ ∃ q ∈ shown.bus.panels, q.desired = some (.row 1 0) ∧ (shown.entry? 1).isSome = true := by
  decide +kernel

theorem test_premises_PanelsSensorsLinesAndPortsStayWhole :
    ticking.PanelsOk ∧ ticking.BusOk ∧ ticking.SenseOk ∧ ticking.LinesOk ∧ ticking.PortsOk ∧
      after (step ticking) (fun t => t.time.runMs = 1000) = true := by decide +kernel

end Sys2Proof.Tests
end

section
/-! The rounding of predictions to minutes (R28), and how stage 2 reads it. -/
namespace Sys2Proof.Machine

open Sys2Proof

/-- R28, below half a minute: early and negative predictions give the bound 0. -/
theorem roundPrediction_of_lt {n : Int} (hn : n < 30) : roundPrediction n = 0 :=
  if_pos hn

/-- R28, from half a minute on: the quotient is not negative here, so that its `toNat` loses nothing. -/
theorem roundPrediction_of_le {n : Int} (hn : 30 ≤ n) :
    (roundPrediction n : Int) = min 720 ((n + 30) / 60) := by
  have hq : 0 ≤ (n + 30) / 60 := Int.ediv_nonneg (by omega) (by decide)
  have hr : roundPrediction n = min 720 ((n + 30) / 60).toNat := if_neg (by omega)
  rw [hr, Nat.cast_min, Int.toNat_of_nonneg hq]
  rfl

/-- R29, R30: the seconds of a prediction reach the filter through their rounded minutes alone. -/
theorem State.predict_eq (s : State) (e : Entry) (n : Int) :
    s.predict e n =
      s.refilter e (e.filter.take s.inForce.confirm (roundPrediction n)).1
        ((e.filter.take s.inForce.confirm (roundPrediction n)).2 = .adopted) :=
  rfl

/-- Settles O21: the two sides of half a minute, and stage 2 through the rounded minutes. -/
theorem predictionsRoundToMinutes : Obligations.PredictionsRoundToMinutes := by
  refine ⟨fun n => roundPrediction_of_lt, fun n => roundPrediction_of_le, fun s e a b hab => ?_⟩
  rw [State.predict_eq, State.predict_eq, hab]

end Sys2Proof.Machine
end

section
/-! The configuration part of the retention store, as CSAV writes it (R188, R190, R198). -/
namespace Sys2Proof.Machine

open Sys2Proof

/-- R188, R198: the numbers below 300 are those of the structural parameters, so a merged configuration gives them from
`pending` and every other number from `inForce`. -/
theorem Params.value_withStructural (inForce pending : Params) (n : Nat) :
    (inForce.withStructural pending).value n = if n < 300 then pending.value n else inForce.value n := by
  unfold Params.value
  split
  case h_41 =>
    by_cases h : n < 300
    · simp only [if_pos h]
      rfl
    · have hlight : ¬n ≤ 17 := by omega
      have hrole : ¬n ≤ 160 := by omega
      have hzone : ¬n ≤ 260 := by omega
      simp [h, hlight, hrole, hzone]
  all_goals rfl

/-- R198: every number of the timing table is from 300 on. -/
theorem timingTable_numbers : ∀ x ∈ timingTable, 300 ≤ x.1 := by decide

/-- R198: the class of a parameter is told by its number. -/
theorem paramRow_structural {n : Nat} {row : ParamRow} (h : paramRow n = some row) :
    row.structural = decide (n < 300) := by
  unfold paramRow at h
  split_ifs at h
  case neg =>
    obtain ⟨x, hx, rfl⟩ := Option.map_eq_some_iff.1 h
    have hn : x.1 = n := by simpa using List.find?_some hx
    have hlow : 300 ≤ x.1 := timingTable_numbers x (List.mem_of_find?_eq_some hx)
    have : ¬n < 300 := by omega
    simp [this]
  all_goals
    cases h
    exact (decide_eq_true (by omega)).symm

/-- R190: what CSAV writes of one parameter. -/
theorem State.saveConfiguration_value (s : State) {n : Nat} {row : ParamRow} (h : paramRow n = some row) :
    s.saveConfiguration.store.configuration.contents.value n =
      (if row.structural then s.pendingCfg else s.inForce).value n := by
  have hwritten : s.saveConfiguration.store.configuration.contents = s.inForce.withStructural s.pendingCfg := rfl
  rw [hwritten, Params.value_withStructural, paramRow_structural h]
  by_cases hn : n < 300 <;> simp [hn]

/-- A CSAV being taken writes the configuration part and is accepted (R182, R190). -/
theorem exec_csav_of_taking {s : State} {p : PortId} {seq : Octet} (h : s.Taking p seq .csav) :
    exec (.csav p) s = .next (s.saveConfiguration.answerTel p (Telegram.csav.tel seq) (Answer.accept .none)) := by
  obtain ⟨hserves, haccepts, -⟩ := h
  exact State.takeTel_owner p .csav readNothing (fun _ u => (u.saveConfiguration, Answer.accept .none)) s _ hserves rfl
    haccepts () rfl

/-- Settles O12: the state after CSAV is the saved one with the reply begun, whose configuration part depends on the two
copies of the configuration alone. -/
theorem csavWritesTheConfiguration : Obligations.CsavWritesTheConfiguration := by
  intro s p seq h
  refine ⟨_, exec_csav_of_taking h, ?_, rfl, rfl, fun n row hrow => s.saveConfiguration_value hrow, ?_⟩
  · exact State.answered_of_link s _ p seq .csav _ fun q => State.saveConfiguration_link q s
  · intro u v q seq' hforce hpending hu hv
    rw [exec_csav_of_taking hu] at hv
    cases hv
    simp only [State.answerTel_store, State.saveConfiguration, hforce, hpending]

end Sys2Proof.Machine
end

section
/-! The links of the ports through the operations of the single blocks and through the owners of the telegrams: only the
silence of a port, the count of a second and what a port itself receives or sends move them (R182, R185, R192). -/
namespace Sys2Proof.Machine

open Sys2Proof

/-! ## Shared operations keep the links -/

@[simp] theorem State.withTime_link (port : PortId) (x : TimeBase) (s : State) :
    ({ s with time := x } : State).link port = s.link port := rfl

@[simp] theorem State.monitor_link (port : PortId) (q : Panel) (s : State) : (s.monitor q).link port = s.link port := by
  simp only [State.monitor]
  repeat' split
  all_goals simp

@[simp] theorem State.endInterval_link (port : PortId) (s : State) : s.endInterval.link port = s.link port := by
  simp only [State.endInterval, State.finish_link, State.nextInterval_link, State.clearIntervalFlags_link]
  exact foldl_keeps (State.link · port) State.monitor (fun t q => State.monitor_link port q t) _ s

@[simp] theorem State.classifyChannels_link (port : PortId) (s : State) :
    s.classifyChannels.link port = s.link port :=
  foldl_keeps (State.link · port) (fun t n => t.post [.planning] .sensorFault (.light n))
    (fun t _ => State.post_link port _ _ _ t) _ _

@[simp] theorem State.computeZones_link (port : PortId) (s : State) : s.computeZones.link port = s.link port := by
  simp [State.computeZones]

@[simp] theorem State.endPass_link (port : PortId) (s : State) : s.endPass.link port = s.link port := by
  simp [State.endPass]

@[simp] theorem State.beginPass_link (port : PortId) (s : State) : s.beginPass.link port = s.link port := by
  simp only [State.beginPass]
  repeat' split
  all_goals simp

@[simp] theorem State.takeReading_link (port : PortId) (channel value : Nat) (s : State) :
    (s.takeReading channel value).link port = s.link port := by
  simp only [State.takeReading]
  split <;> simp

@[simp] theorem State.endImpulse_link (port : PortId) (l : Line) (i : Impulse) (s : State) :
    (s.endImpulse l i).link port = s.link port := by
  simp only [State.endImpulse]
  repeat' split
  all_goals simp

@[simp] theorem State.takeDial_link (port : PortId) (n : Fin 4) (d : PendingDial) (s : State) :
    (s.takeDial n d).link port = s.link port := by
  simp only [State.takeDial]
  split <;> simp

@[simp] theorem State.announceTime_link (port : PortId) (minute : Bool) (s : State) :
    (s.announceTime minute).link port = s.link port := by
  simp [State.announceTime]

@[simp] theorem State.minuteAdvanced_link (port : PortId) (s : State) : s.minuteAdvanced.link port = s.link port := by
  simp only [State.minuteAdvanced, State.announceTime_link]
  split <;> simp

@[simp] theorem State.enterHoldover_link (port : PortId) (s : State) : s.enterHoldover.link port = s.link port := by
  simp [State.enterHoldover]

@[simp] theorem State.setClock_link (port : PortId) (received : Nat) (s : State) :
    (s.setClock received).link port = s.link port := by
  simp [State.setClock]

@[simp] theorem State.stepClock_link (port : PortId) (received : Nat) (d : Int) (p : PortId) (s : State) :
    (s.stepClock received d p).link port = s.link port := by
  simp only [State.stepClock, State.finish_link, State.post_link, State.recompose_link, State.announceTime_link]
  split <;> simp

@[simp] theorem State.giveCue_link (port : PortId) (c : Cue) (content : Captured) (s : State) :
    (s.giveCue c content).link port = s.link port := by
  simp only [State.giveCue, State.settleAttention_link]
  split <;> simp

@[simp] theorem State.removeNotice_link (port : PortId) (number : Nat) (s : State) :
    (s.removeNotice number).link port = s.link port := by
  simp [State.removeNotice]

@[simp] theorem State.predict_link (port : PortId) (e : Entry) (n : Int) (s : State) :
    (s.predict e n).link port = s.link port := by
  simp [State.predict_eq]

@[simp] theorem State.failAbove_link (port : PortId) (s : State) : s.failAbove.link port = s.link port := by
  unfold State.failAbove
  exact foldl_keeps (State.link · port) (fun (t : State) (p : Panel) => t.failPanel p.addr)
    (fun t p => State.failPanel_link port p.addr t) _ s

@[simp] theorem State.afterConf_link (port : PortId) (n : Nat) (s old : State) :
    (s.afterConf n old).link port = s.link port := by
  simp only [State.afterConf]
  repeat' split
  all_goals simp

@[simp] theorem State.setParameter_link (port : PortId) (n v : Nat) (structural : Bool) (s : State) :
    (s.setParameter n v structural).link port = s.link port := by
  simp only [State.setParameter]
  split <;> rfl

@[simp] theorem State.resetPicture_link (port : PortId) (s : State) : s.resetPicture.link port = s.link port := by
  simp only [State.resetPicture, State.settle_link, State.post_link, State.writeLevels_link]
  cases port <;> rfl

/-! ## Owners keep the links -/

theorem State.onEntry_link (port : PortId) (checks : List (Nat × Bool)) (run : Nat) (allowed : Entry → Bool)
    (act : Entry → State × Answer) (s : State) (h : ∀ e, (act e).1.link port = s.link port) :
    (s.onEntry checks run allowed act).1.link port = s.link port := by
  unfold State.onEntry
  split
  · rfl
  · split
    · rfl
    · split
      · exact h _
      · rfl

theorem planOwner_link (port : PortId) (f : PlanFields) (s : State) : (planOwner f s).1.link port = s.link port := by
  unfold planOwner
  repeat' split
  · rfl
  · rfl
  · exact State.createEntry_link port _ s

theorem amndOwner_link (port : PortId) (f : AmndFields) (s : State) : (amndOwner f s).1.link port = s.link port := by
  refine State.onEntry_link port _ _ _ _ s fun e => ?_
  dsimp only
  split
  · rfl
  · exact State.amendEntry_link port e _ s

theorem dlayOwner_link (port : PortId) (f : DlayFields) (s : State) : (dlayOwner f s).1.link port = s.link port :=
  State.onEntry_link port _ _ _ _ s fun e => State.amendEntry_link port e _ s

theorem cancOwner_link (port : PortId) (f : CancFields) (s : State) : (cancOwner f s).1.link port = s.link port := by
  refine State.onEntry_link port _ _ _ _ s fun e => ?_
  simp only [State.acceptRevision]
  split
  · exact State.amendEntry_link port e _ s
  · exact State.cancelEntry_link port e _ s

theorem rinsOwner_link (port : PortId) (run : Nat) (s : State) : (rinsOwner run s).1.link port = s.link port := by
  refine State.onEntry_link port _ _ _ _ s fun e => ?_
  simp only [State.acceptRevision]
  split
  · exact State.reinstate_link port e s
  · rfl

theorem platOwner_link (port : PortId) (f : PlatFields) (s : State) : (platOwner f s).1.link port = s.link port :=
  State.onEntry_link port _ _ _ _ s fun e => State.amendEntry_link port e _ s

theorem predOwner_link (port : PortId) (f : PredFields) (s : State) : (predOwner f s).1.link port = s.link port := by
  refine State.onEntry_link port _ _ _ _ s fun e => ?_
  split
  · exact State.refilter_link port e _ _ s
  · exact State.predict_link port e _ s

theorem rdysOwner_link (port : PortId) (run : Nat) (s : State) : (rdysOwner run s).1.link port = s.link port :=
  State.onEntry_link port _ _ _ _ s fun e => State.amendEntry_link port e _ s

theorem deptOwner_link (port : PortId) (run : Nat) (s : State) : (deptOwner run s).1.link port = s.link port := by
  refine State.onEntry_link port _ _ _ _ s fun e => ?_
  simp only [State.acceptRevision]
  split
  · rfl
  · exact State.departEntry_link port e s

theorem readOwner_link (port : PortId) (f : ReadFields) (s : State) : (readOwner f s).1.link port = s.link port := by
  unfold readOwner
  split <;> rfl

theorem cstaOwner_link (port : PortId) (run : Nat) (s : State) : (cstaOwner run s).1.link port = s.link port := by
  unfold cstaOwner
  repeat' split
  all_goals rfl

theorem timeOwner_link (port p : PortId) (seconds : Nat) (s : State) :
    (timeOwner p seconds s).1.link port = s.link port := by
  unfold timeOwner
  split
  · rfl
  · split
    · rfl
    · split
      · exact State.setClock_link port seconds s
      · dsimp only
        split
        · rfl
        · split
          · exact State.slewClock_link port _ s
          · exact State.stepClock_link port seconds _ p s

theorem takeOwner_link (port : PortId) (s : State) : (takeOwner s).1.link port = s.link port := by
  unfold takeOwner
  repeat' split
  · rfl
  · rfl
  · rfl
  · exact State.giveCue_link port _ _ s

theorem spknOwner_link (port : PortId) (f : SpknFields) (s : State) : (spknOwner f s).1.link port = s.link port := by
  unfold spknOwner
  split
  · rfl
  · split
    · rfl
    · exact State.speak_link port (f.outcome = 0) _ _ s

theorem zoneOwner_link (port : PortId) (f : ZoneFields) (s : State) : (zoneOwner f s).1.link port = s.link port := by
  unfold zoneOwner
  split
  · rfl
  · simp

theorem noteOwner_link (port : PortId) (f : NoteFields) (s : State) : (noteOwner f s).1.link port = s.link port := by
  unfold noteOwner
  repeat' split
  · rfl
  · rfl
  · simp

theorem nclrOwner_link (port : PortId) (number : Nat) (s : State) :
    (nclrOwner number s).1.link port = s.link port := by
  unfold nclrOwner
  split
  · dsimp only
    split
    · exact State.removeNotice_link port number s
    · rfl
  · rfl

theorem wallOwner_link (port : PortId) (n : Nat) (s : State) : (wallOwner n s).1.link port = s.link port := by
  unfold wallOwner
  split
  · rfl
  · split
    · rfl
    · dsimp only
      split
      · rfl
      · simp

theorem dialOwner_link (port : PortId) (f : DialFields) (s : State) : (dialOwner f s).1.link port = s.link port := by
  unfold dialOwner
  split
  · rfl
  · exact State.takeDial_link port _ _ s

theorem confOwner_link (port : PortId) (f : ConfFields) (s : State) : (confOwner f s).1.link port = s.link port := by
  unfold confOwner
  split
  · rfl
  · dsimp only
    split
    · exact State.setParameter_link port _ _ _ s
    · rw [State.afterConf_link, State.setParameter_link]

/-- R186: a POLL moves only what a link leaves out, the notices and the overflow flag. -/
theorem pollOwner_link (port p : PortId) (s : State) : (pollOwner p s).1.link port = s.link port := by
  simp only [pollOwner, State.settleAttention_link]
  exact State.link_updPort s p port Port.polled fun _ => rfl

end Sys2Proof.Machine
end

section
/-! The receive buffers: what each command does to them (R181), and the port records after a frame and after a reply
(R180, R182). -/
namespace Sys2Proof.Machine

open Sys2Proof

/-! ## The receive buffer of a port -/

/-- The receive buffer of a port (R181). -/
def State.buffer (s : State) (p : PortId) : List Tel := (s.port p).buffer

theorem State.buffer_of_link {s t : State} {p : PortId} (h : t.link p = s.link p) : t.buffer p = s.buffer p := by
  have hb : (t.link p).buffer = (s.link p).buffer := by rw [h]
  exact hb

theorem State.updPort_buffer (s : State) (p q : PortId) (f : Port → Port) :
    (s.updPort p f).buffer q = if q = p then (f (s.port p)).buffer else s.buffer q := by
  simp only [State.buffer, State.port_updPort]
  split <;> rfl

theorem State.fallSilent_buffer (p q : PortId) (s : State) : (s.fallSilent p).buffer q = s.buffer q := by
  have hlive : (s.updPort p fun r => { r with live := false }).buffer q = s.buffer q := by
    rw [State.updPort_buffer]
    split
    · next e => rw [e]; rfl
    · rfl
  rw [← hlive]
  apply State.buffer_of_link
  simp only [State.fallSilent]
  split <;> simp

theorem State.judgePort_buffer (p q : PortId) (s : State) : (s.judgePort p).buffer q = s.buffer q := by
  unfold State.judgePort
  split
  · exact State.fallSilent_buffer p q s
  · rfl

theorem State.judgeLimits_buffer (q : PortId) (s : State) : s.judgeLimits.buffer q = s.buffer q := by
  simp only [State.judgeLimits, State.judgePort_buffer]
  split
  · exact State.buffer_of_link (State.enterHoldover_link q s)
  · rfl

theorem State.countSecond_buffer (q : PortId) (s : State) : s.countSecond.buffer q = s.buffer q := by
  cases q <;> rfl

theorem State.second_buffer (q : PortId) (s : State) : s.second.buffer q = s.buffer q := by
  calc
    s.second.buffer q = s.judgeLimits.countSecond.buffer q := by
      apply State.buffer_of_link
      have hadvance : ∀ u : State, ({ u with time := u.time.advance } : State).link q = u.link q := fun _ => rfl
      simp only [State.second]
      repeat' split
      all_goals simp only [State.settle_link, State.minuteAdvanced_link, hadvance]
    _ = s.judgeLimits.buffer q := State.countSecond_buffer q _
    _ = s.buffer q := State.judgeLimits_buffer q s

theorem State.restart_buffer (store : Store) (pending : List Instr) (q : PortId) :
    (State.restart store pending).buffer q = [] := by
  have hempty : ((State.restart store pending).link q).buffer = [] := by
    simp only [State.restart, State.settleAttention_link, State.dispatch_link, State.resetValues,
      State.recompose_link, State.writeLevels_link]
    cases q <;> rfl
  exact hempty

theorem State.losePower_buffer (cut : Option StorePart) (q : PortId) (s : State) :
    (s.losePower cut).buffer q = [] := by
  cases q <;> rfl

/-! ## What a command does to a receive buffer -/

/-- R180 to R182, R191: a buffer stands, takes a telegram at its tail while it holds less than two, loses its head, or is
emptied. -/
inductive BufferMove (old : List Tel) : List Tel → Prop
  | stands : BufferMove old old
  | joins (tel : Tel) (h : old.length < 2) : BufferMove old (old ++ [tel])
  | leaves : BufferMove old old.tail
  | empties : BufferMove old []

theorem BufferMove.length_le_two {old new : List Tel} (h : BufferMove old new) (hold : old.length ≤ 2) :
    new.length ≤ 2 := by
  cases h with
  | stands => exact hold
  | joins tel h =>
    rw [List.length_append, List.length_singleton]
    omega
  | leaves =>
    rw [List.length_tail]
    omega
  | empties => exact Nat.zero_le 2

theorem BufferMove.of_eq {old new : List Tel} (h : new = old) : BufferMove old new := h ▸ .stands

theorem Port.frameIn_moves (tel : Tel) (r : Port) : BufferMove r.buffer (r.frameIn tel).buffer := by
  unfold Port.frameIn Port.offer
  split
  · next h => exact .joins tel h
  · exact .stands

theorem Port.replyDone_moves (r : Port) : BufferMove r.buffer r.replyDone.buffer := by
  unfold Port.replyDone
  split
  · exact .leaves
  · exact .stands

/-- From `s` to `t` every receive buffer has made one such move. -/
def State.BuffersMove (s t : State) : Prop := ∀ q, BufferMove (s.buffer q) (t.buffer q)

theorem State.BuffersMove.refl (s : State) : s.BuffersMove s := fun _ => .stands

theorem State.BuffersMove.of_link {s t : State} (h : ∀ q, t.link q = s.link q) : s.BuffersMove t :=
  fun q => .of_eq (State.buffer_of_link (h q))

theorem State.BuffersMove.of_empty {s t : State} (h : ∀ q, t.buffer q = []) : s.BuffersMove t := by
  intro q
  rw [h q]
  exact .empties

theorem State.BuffersMove.updPort (s : State) (p : PortId) (f : Port → Port)
    (h : ∀ r, BufferMove r.buffer (f r).buffer) : s.BuffersMove (s.updPort p f) := by
  intro q
  rw [State.updPort_buffer]
  split
  · next e => exact e ▸ h (s.port p)
  · exact .stands

/-- The reply begins with the telegram still at the head of its buffer (R182). -/
theorem State.BuffersMove.answerTel {s u : State} (h : ∀ q, u.link q = s.link q) (p : PortId) (tel : Tel)
    (a : Answer) : s.BuffersMove (u.answerTel p tel a) := by
  intro q
  have hu : u.buffer q = s.buffer q := State.buffer_of_link (h q)
  rw [← hu]
  exact State.BuffersMove.updPort u p (fun r => { r with service := .replying, reply := some (a.reply tel) })
    (fun _ => .stands) q

/-- The same of what a command answers. -/
def State.Moves (s : State) (o : Host.Outcome State Fault Refusal) : Prop := ∀ t, o = .next t → s.BuffersMove t

theorem State.moves_next {s t : State} (h : s.BuffersMove t) : s.Moves (.next t) := by
  intro u hu
  cases hu
  exact h

theorem State.moves_answer {s u : State} (h : s.BuffersMove u) : s.Moves (s.answer u) := by
  refine State.moves_next ?_
  split
  · exact h
  · exact .refl s

/-- An event that keeps the links, where it arises, lets every buffer stand. -/
theorem State.moves_answer_of_link {s u : State} (h : ∀ q, u.link q = s.link q) : s.Moves (s.answer u) :=
  State.moves_answer (.of_link h)

theorem State.moves_answer_ite {s u : State} {c : Prop} [Decidable c] (h : s.BuffersMove u) :
    s.Moves (s.answer (if c then u else s)) := by
  refine State.moves_answer ?_
  split
  · exact h
  · exact .refl s

/-- A telegram whose owner keeps the links: no buffer is touched by its taking (R182). -/
theorem State.moves_takeWith {α : Type} {finish : State → Answer → Answer} {p : PortId} {k : Kind}
    {read : List Octet → Option α} {owner : α → State → State × Answer} {s : State}
    (h : ∀ q f, (owner f s).1.link q = s.link q) : s.Moves (s.takeWith finish p k read owner) := by
  unfold State.takeWith
  refine State.moves_answer ?_
  split
  · exact .refl s
  · dsimp only
    split
    · exact .answerTel (fun _ => rfl) p _ _
    · exact .answerTel (fun q => h q _) p _ _

theorem State.moves_takeTel {α : Type} {p : PortId} {k : Kind} {read : List Octet → Option α}
    {owner : α → State → State × Answer} {s : State} (h : ∀ q f, (owner f s).1.link q = s.link q) :
    s.Moves (s.takeTel p k read owner) :=
  State.moves_takeWith h

/-- R182: what the taking of a telegram of each kind does to the receive buffers. -/
theorem exec_command_moves (p : PortId) (k : Kind) (s : State) : s.Moves (exec (k.command p) s) := by
  cases k with
  | plan => exact State.moves_takeTel fun q f => planOwner_link q f s
  | amnd => exact State.moves_takeTel fun q f => amndOwner_link q f s
  | dlay => exact State.moves_takeTel fun q f => dlayOwner_link q f s
  | canc => exact State.moves_takeTel fun q f => cancOwner_link q f s
  | rins => exact State.moves_takeTel fun q run => rinsOwner_link q run s
  | plat => exact State.moves_takeTel fun q f => platOwner_link q f s
  | pred => exact State.moves_takeTel fun q f => predOwner_link q f s
  | rdys => exact State.moves_takeTel fun q run => rdysOwner_link q run s
  | dept => exact State.moves_takeTel fun q run => deptOwner_link q run s
  | read => exact State.moves_takeTel fun q f => readOwner_link q f s
  | csta => exact State.moves_takeTel fun q run => cstaOwner_link q run s
  | time => exact State.moves_takeWith fun q seconds => timeOwner_link q p seconds s
  | take => exact State.moves_takeTel (owner := fun _ => takeOwner) fun q _ => takeOwner_link q s
  | spkn => exact State.moves_takeTel fun q f => spknOwner_link q f s
  | zone => exact State.moves_takeTel fun q f => zoneOwner_link q f s
  | note => exact State.moves_takeTel fun q f => noteOwner_link q f s
  | nclr => exact State.moves_takeTel fun q number => nclrOwner_link q number s
  | wall => exact State.moves_takeTel fun q n => wallOwner_link q n s
  | dial => exact State.moves_takeTel fun q f => dialOwner_link q f s
  | conf => exact State.moves_takeTel fun q f => confOwner_link q f s
  | csav =>
    exact State.moves_takeTel (owner := fun _ u => (u.saveConfiguration, Answer.accept .none)) fun q _ =>
      State.saveConfiguration_link q s
  | rset =>
    exact State.moves_takeTel (owner := fun _ u => (u.resetPicture, Answer.accept .none)) fun q _ =>
      State.resetPicture_link q s
  | poll => exact State.moves_takeTel (owner := fun _ => pollOwner p) fun q _ => pollOwner_link q p s

/-- R181: what every command does to the receive buffers. -/
theorem exec_moves (i : Instr) (s : State) : s.Moves (exec i s) := by
  cases i with
  | powerOn =>
    refine State.moves_next ?_
    split
    · exact .refl s
    · exact .of_empty (State.restart_buffer s.store s.pending)
  | resetPin => exact State.moves_answer (.of_empty (State.restart_buffer s.store s.pending))
  | powerLoss cut => exact State.moves_answer (.of_empty fun q => State.losePower_buffer cut q s)
  | telegramFrameEnd p ms octets =>
    refine State.moves_answer ?_
    split
    · exact State.BuffersMove.updPort (s.atMs ms) p _ (Port.frameIn_moves _)
    · exact .refl s
  | replySent p ms => exact State.moves_answer_ite (State.BuffersMove.updPort (s.atMs ms) p _ Port.replyDone_moves)
  | abortSequence p => exact State.moves_answer (.refl s)
  | strayPanelOctets octets => exact State.moves_answer (.refl s)
  | unknown p =>
    refine State.moves_answer ?_
    split
    · split
      · exact .answerTel (fun _ => rfl) p _ _
      · exact .refl s
    · exact .refl s
  | plan p => exact exec_command_moves p .plan s
  | amnd p => exact exec_command_moves p .amnd s
  | dlay p => exact exec_command_moves p .dlay s
  | canc p => exact exec_command_moves p .canc s
  | rins p => exact exec_command_moves p .rins s
  | plat p => exact exec_command_moves p .plat s
  | pred p => exact exec_command_moves p .pred s
  | rdys p => exact exec_command_moves p .rdys s
  | dept p => exact exec_command_moves p .dept s
  | read p => exact exec_command_moves p .read s
  | csta p => exact exec_command_moves p .csta s
  | time p => exact exec_command_moves p .time s
  | take p => exact exec_command_moves p .take s
  | spkn p => exact exec_command_moves p .spkn s
  | zone p => exact exec_command_moves p .zone s
  | note p => exact exec_command_moves p .note s
  | nclr p => exact exec_command_moves p .nclr s
  | wall p => exact exec_command_moves p .wall s
  | dial p => exact exec_command_moves p .dial s
  | conf p => exact exec_command_moves p .conf s
  | csav p => exact exec_command_moves p .csav s
  | rset p => exact exec_command_moves p .rset s
  | poll p => exact exec_command_moves p .poll s
  | silenceExpiry p =>
    refine State.moves_answer_ite fun q => .of_eq ?_
    rw [State.buffer_of_link (State.settle_link q _ s), State.fallSilent_buffer]
  | runningSecond => exact State.moves_answer fun q => .of_eq (State.second_buffer q s)
  | minuteAdvance => exact State.moves_answer_ite fun q => .of_eq (State.second_buffer q s)
  | holdoverExpiry =>
    refine State.moves_answer_ite (.of_link fun q => ?_)
    rw [State.settleAttention_link, State.enterHoldover_link]
  | predictionStale run =>
    refine State.moves_answer_of_link fun q => ?_
    repeat' split
    all_goals simp
  | speakTimeout cue =>
    refine State.moves_answer_of_link fun q => ?_
    repeat' split
    all_goals simp
  | gapEnd zone => exact State.moves_answer_ite (.of_link fun q => State.settleAttention_link _ q)
  | noticeExpiry number => exact State.moves_answer_ite (.of_link fun q => State.removeNotice_link q number s)
  | dwellExpiry =>
    refine State.moves_answer_of_link fun q => ?_
    split <;> simp
  | panelFrameEnd ms =>
    refine State.moves_answer_of_link fun q => ?_
    split <;> rfl
  | panelReplyReceived ms octets =>
    refine State.moves_answer_of_link fun q => ?_
    split <;> simp
  | replyWindowClose ms =>
    refine State.moves_answer_of_link fun q => ?_
    repeat' split
    all_goals simp
  | keepaliveDue ms addr => exact State.moves_answer_ite (.of_link fun q => State.dispatch_link q (s.atMs ms))
  | probeDue ms addr => exact State.moves_answer_ite (.of_link fun q => State.dispatch_link q (s.atMs ms))
  | intervalEnd ms => exact State.moves_answer_ite (.of_link fun q => State.endInterval_link q (s.atMs ms))
  | passTrigger ms =>
    refine State.moves_answer_ite (.of_link fun q => ?_)
    dsimp only
    split <;> simp
  | lightConversionComplete ms value =>
    refine State.moves_answer_of_link fun q => ?_
    split <;> simp
  | lineCheckRequest ms line =>
    refine State.moves_answer_of_link fun q => ?_
    dsimp only
    split <;> rfl
  | lineCheckComplete ms value =>
    refine State.moves_answer_of_link fun q => ?_
    split <;> rfl
  | nextImpulseTime ms line =>
    refine State.moves_answer_of_link fun q => ?_
    dsimp only
    split <;> rfl
  | impulseEnd ms line =>
    refine State.moves_answer_of_link fun q => ?_
    dsimp only
    split <;> simp

/-- R181, over the queue: a step runs at most one command. -/
theorem step_buffer_le_two {s t : State} (hs : ∀ p, (s.port p).buffer.length ≤ 2) (ht : step s = .next t)
    (p : PortId) : (t.port p).buffer.length ≤ 2 := by
  unfold step at ht
  split at ht
  · cases ht
    exact hs p
  · next c rest _ => exact (exec_moves c { s with pending := rest } t ht p).length_le_two (hs p)

/-! ## The two commands that move a receive buffer -/

/-- R180 to R182: a port record after a frame that passes framing, field by field. -/
theorem Port.frameIn_eq (tel : Tel) (r : Port) :
    r.frameIn tel =
      { r with
        live := true
        silence := 0
        buffer := if r.buffer.length < 2 then r.buffer ++ [tel] else r.buffer
        service := if r.buffer.length < 2 ∧ r.service = .idle then .serving else r.service } := by
  unfold Port.frameIn Port.offer
  by_cases hroom : r.buffer.length < 2 <;> simp [hroom]

/-- R182: a REPLYING port record after its reply, field by field. -/
theorem Port.replyDone_eq {r : Port} (h : r.service = .replying) :
    r.replyDone =
      { r with
        buffer := r.buffer.tail, reply := none, service := if r.buffer.length ≤ 1 then .idle else .serving } := by
  have hlast : r.buffer.tail = [] ↔ r.buffer.length ≤ 1 := by
    rw [← List.length_eq_zero_iff, List.length_tail]
    omega
  simp [Port.replyDone, h, hlast]

theorem exec_telegramFrameEnd_of_judged {s : State} {octets : List Octet} {tel : Tel} (hpower : s.powered = true)
    (hframe : judgeFrame octets = some tel) (p : PortId) (ms : Nat) :
    exec (.telegramFrameEnd p ms octets) s = .next ((s.atMs ms).updPort p (Port.frameIn tel)) := by
  simp [exec, execTelegramFrameEnd, State.answer, hpower, hframe]

theorem exec_replySent_of_replying {s : State} {p : PortId} (hpower : s.powered = true)
    (hreply : (s.port p).service = .replying) (ms : Nat) :
    exec (.replySent p ms) s = .next ((s.atMs ms).updPort p Port.replyDone) := by
  simp [exec, execReplySent, State.answer, hpower, hreply]

theorem State.port_updPort_same (s : State) (p : PortId) (f : Port → Port) :
    (s.updPort p f).port p = f (s.port p) := by
  rw [State.port_updPort, if_pos rfl]

theorem State.port_updPort_other (s : State) {p q : PortId} (h : q ≠ p) (f : Port → Port) :
    (s.updPort p f).port q = s.port q := by
  rw [State.port_updPort, if_neg h]

/-- Settles O5: the bound from the moves of every command, the rest from the port records after a frame and a reply. -/
theorem receiveBufferHoldsTwo : Obligations.ReceiveBufferHoldsTwo := by
  refine ⟨fun s t hs ht => step_buffer_le_two hs ht, ?_, ?_⟩
  · intro s p ms octets tel hpower hframe
    refine ⟨_, exec_telegramFrameEnd_of_judged hpower hframe p ms, rfl, ?_, ?_⟩
    · exact fun q hq => State.port_updPort_other (s.atMs ms) hq _
    · rw [State.port_updPort_same]
      exact Port.frameIn_eq tel (s.port p)
  · intro s p ms hpower hreply
    refine ⟨_, exec_replySent_of_replying hpower hreply ms, rfl, ?_, ?_⟩
    · exact fun q hq => State.port_updPort_other (s.atMs ms) hq _
    · rw [State.port_updPort_same]
      exact Port.replyDone_eq hreply

end Sys2Proof.Machine
end

section
/-! Framing (R180, R194), the body layouts read back (R195), and the general checks of R183. -/
namespace Sys2Proof.Machine

open Sys2Proof

/-! ## Escapes -/

theorem escape_cons (x : Octet) (l : List Octet) :
    escape (x :: l) =
      (if x = flagOctet ∨ x = escapeOctet then [escapeOctet, x ^^^ 0x40] else [x]) ++ escape l := rfl

theorem unescape_cons_plain {x : Octet} (hf : x ≠ flagOctet) (he : x ≠ escapeOctet) (l : List Octet) :
    unescape (x :: l) = (unescape l).map (x :: ·) := by
  cases l <;> simp [unescape, hf, he]

theorem unescape_cons_escape {y : Octet} (hy : y ≠ flagOctet) (l : List Octet) :
    unescape (escapeOctet :: y :: l) = (unescape l).map ((y ^^^ 0x40) :: ·) := by
  simp [unescape, hy]

/-- R194: neither octet that is escaped turns into the flag, and the receiver's XOR gives it back. -/
theorem xor_escaped {x : Octet} (h : x = flagOctet ∨ x = escapeOctet) :
    x ^^^ 0x40 ≠ flagOctet ∧ x ^^^ 0x40 ^^^ 0x40 = x := by
  rcases h with rfl | rfl <;> decide

theorem flag_not_mem_escape (l : List Octet) : flagOctet ∉ escape l := by
  induction l with
  | nil => simp [escape]
  | cons x l ih =>
    rw [escape_cons, List.mem_append, not_or]
    refine ⟨?_, ih⟩
    split
    · next h =>
      have hxor : flagOctet ≠ x ^^^ 0x40 := (xor_escaped h).1.symm
      have hescape : flagOctet ≠ escapeOctet := by decide
      exact fun hmem => (List.mem_cons.1 hmem).elim hescape fun hx => hxor (List.mem_singleton.1 hx)
    · next h =>
      have hx : flagOctet ≠ x := fun e => h (.inl e.symm)
      simp [hx]

theorem unescape_escape (l : List Octet) : unescape (escape l) = some l := by
  induction l with
  | nil => rfl
  | cons x l ih =>
    rw [escape_cons]
    split
    · next h =>
      obtain ⟨hflag, hback⟩ := xor_escaped h
      rw [List.cons_append, List.cons_append, List.nil_append, unescape_cons_escape hflag, ih, hback]
      rfl
    · next h =>
      obtain ⟨hflag, hescape⟩ := not_or.1 h
      rw [List.cons_append, List.nil_append, unescape_cons_plain hflag hescape, ih]
      rfl

/-- Settles O1. -/
theorem escapesAreUndone : Obligations.EscapesAreUndone := fun l =>
  ⟨flag_not_mem_escape l, unescape_escape l⟩

/-! ## Frames -/

theorem checkCrc_append_crcOctets (l : List Octet) : checkCrc (l ++ crcOctets l) = some l := by
  have hlen : (l ++ crcOctets l).length - 2 = l.length := by simp [crcOctets]
  have hroom : 2 ≤ (l ++ crcOctets l).length := by simp [crcOctets]
  simp only [checkCrc, hlen, List.drop_left, List.take_left]
  exact if_pos ⟨hroom, trivial⟩

/-- Settles O3: the receiver undoes the escapes, the CRC is the one appended, and the length lies in 4..256. -/
theorem framesPassFraming : Obligations.FramesPassFraming := by
  intro seq tg hbody
  have hlen : (tg.kind.code :: seq :: tg.body ++ crcOctets (tg.kind.code :: seq :: tg.body)).length =
      tg.body.length + 4 := by simp [crcOctets]
  unfold judgeFrame
  simp only [Telegram.frame, unescape_escape, hlen]
  rw [if_pos ⟨by omega, by omega⟩, checkCrc_append_crcOctets]
  rfl

/-- An escape that ends the octets of a frame makes its closing flag the abort sequence (R194). -/
theorem unescape_append_escape (l : List Octet) : unescape (l ++ [escapeOctet]) = none ∨ unescape l = none := by
  induction l using unescape.induct with
  | case1 => exact .inl (by decide)
  | case2 x hx => exact .inr (by simp [unescape, hx])
  | case3 x hx =>
    obtain ⟨hflag, hescape⟩ := not_or.1 hx
    exact .inl (by simp [unescape, hflag, hescape])
  | case4 r => exact .inr (by simp [unescape])
  | case5 y r hy ih =>
    simp only [List.cons_append, unescape_cons_escape hy]
    exact ih.imp (fun h => by simp [h]) (fun h => by simp [h])
  | case6 y r hescape => exact .inr (by simp [unescape, hescape])
  | case7 x y r hescape hflag ih =>
    rw [List.cons_append, unescape_cons_plain hflag hescape, unescape_cons_plain hflag hescape]
    exact ih.imp (fun h => by rw [h, Option.map_none]) (fun h => by rw [h, Option.map_none])

theorem unescape_of_flag_mem (l : List Octet) (h : flagOctet ∈ l) : unescape l = none := by
  induction l using unescape.induct with
  | case1 => cases h
  | case2 x hx => simp [unescape, hx]
  | case3 x hx => exact absurd (List.mem_singleton.1 h).symm (not_or.1 hx).1
  | case4 r => simp [unescape]
  | case5 y r hy ih =>
    have hescape : flagOctet ≠ escapeOctet := by decide
    have hr : flagOctet ∈ r := by simpa [hescape, Ne.symm hy] using h
    rw [unescape_cons_escape hy, ih hr, Option.map_none]
  | case6 y r hescape => simp [unescape, hescape]
  | case7 x y r hescape hflag ih =>
    have hr : flagOctet ∈ y :: r := (List.mem_cons.1 h).resolve_left (Ne.symm hflag)
    rw [unescape_cons_plain hflag hescape, ih hr, Option.map_none]

theorem judgeFrame_of_unescape_none {octets : List Octet} (h : unescape octets = none) : judgeFrame octets = none := by
  simp [judgeFrame, h]

theorem judgeFrame_of_bad_length_or_crc {octets u : List Octet} (h : unescape octets = some u)
    (hu : u.length < 4 ∨ 256 < u.length ∨ u.drop (u.length - 2) ≠ crcOctets (u.take (u.length - 2))) :
    judgeFrame octets = none := by
  unfold judgeFrame
  rw [h]
  dsimp only
  split
  · next hlen =>
    have hcrc := (hu.resolve_left (by omega)).resolve_left (by omega)
    simp [checkCrc, hcrc]
  · rfl

theorem State.answer_self (s : State) : s.answer s = .next s := by simp [State.answer]

theorem exec_telegramFrameEnd_of_discarded {octets : List Octet} (h : judgeFrame octets = none) (s : State) (p : PortId)
    (ms : Nat) : exec (.telegramFrameEnd p ms octets) s = .next s := by
  simp [exec, execTelegramFrameEnd, h, State.answer_self]

/-- Settles O4: each fault makes `judgeFrame` answer nothing; the other two commands answer the state itself. -/
theorem discardedOctetsChangeNothing : Obligations.DiscardedOctetsChangeNothing := by
  refine ⟨fun s p ms octets h => exec_telegramFrameEnd_of_discarded ?_ s p ms, fun s _ => State.answer_self s,
    fun s _ => State.answer_self s⟩
  rcases h with hflag | ⟨before, rfl, hbefore⟩ | ⟨u, hu, hbad⟩
  · exact judgeFrame_of_unescape_none (unescape_of_flag_mem octets hflag)
  · exact judgeFrame_of_unescape_none ((unescape_append_escape before).resolve_right hbefore)
  · exact judgeFrame_of_bad_length_or_crc hu hbad

/-! ## Bodies -/

theorem Kind.ofCode_code (k : Kind) : Kind.ofCode k.code = some k := by
  cases k <;> decide

theorem get8_put8_nil (n : Nat) (h : n < 256) : get8 (put8 n) = some (n, []) := get8_put8 n h []

theorem get16_put16_nil (n : Nat) (h : n < 65536) : get16 (put16 n) = some (n, []) := by
  simpa using get16_put16 n h []

theorem get32_put32_nil (n : Nat) (h : n < 4294967296) : get32 (put32 n) = some (n, []) := by
  simpa using get32_put32 n h []

theorem getSigned32_putSigned32_nil (n : Int) (lo : -2147483648 ≤ n) (hi : n < 2147483648) :
    getSigned32 (putSigned32 n) = some (n, []) := by
  simpa using getSigned32_putSigned32 n lo hi []

theorem getText_putText_nil (t : Text) (h : t.length < 256) : getText (putText t) = some (t, []) := by
  simpa using getText_putText t h []

theorem getTexts_flatMap (ts : List Text) (h : ∀ t ∈ ts, t.length < 256) (r : List Octet) :
    getTexts ts.length (ts.flatMap putText ++ r) = some (ts, r) := by
  induction ts with
  | nil => rfl
  | cons t ts ih =>
    obtain ⟨ht, hts⟩ := List.forall_mem_cons.1 h
    simp only [List.length_cons, List.flatMap_cons, List.append_assoc, getTexts, getText_putText t ht, ih hts,
      Option.map_some]

theorem getTextList_putTextList (ts : List Text) (hn : ts.length < 256) (h : ∀ t ∈ ts, t.length < 256)
    (r : List Octet) : getTextList (putTextList ts ++ r) = some (ts, r) := by
  rw [getTextList, putTextList, List.append_assoc, get8_put8 _ hn]
  exact getTexts_flatMap ts h r

theorem getOctets_of_length {t : List Octet} {n : Nat} (h : t.length = n) (r : List Octet) :
    getOctets n (t ++ r) = some (t, r) := h ▸ getOctets_append t r

/-- A field that its presence bit announces is read back, and one that it does not stands for nothing (R195). -/
theorem getIf_putIf {α : Type} {present : Bool} {get : List Octet → Option (α × List Octet)} {put : α → List Octet}
    {x : Option α} (hx : x.isSome = present) (r : List Octet) (h : ∀ a ∈ x, get (put a ++ r) = some (a, r)) :
    getIf present get (putIf put x ++ r) = some (x, r) := by
  subst hx
  cases x with
  | none => rfl
  | some a => simp [getIf, putIf, h a rfl]

theorem getIf_putIf_nil {α : Type} {present : Bool} {get : List Octet → Option (α × List Octet)} {put : α → List Octet}
    {x : Option α} (hx : x.isSome = present) (h : ∀ a ∈ x, get (put a) = some (a, [])) :
    getIf present get (putIf put x) = some (x, []) := by
  simpa using getIf_putIf (put := put) hx [] (by simpa using h)

theorem getClock_put (c : Nat × Nat) (h : c.1 < 256 ∧ c.2 < 256) (r : List Octet) :
    getClock ((put8 c.1 ++ put8 c.2) ++ r) = some (c, r) := by
  simp [getClock, List.append_assoc, get8_put8 _ h.1, get8_put8 _ h.2]

theorem getSetting_put (c : Nat × Nat) (h : c.1 < 65536 ∧ c.2 < 256) :
    getSetting (put16 c.1 ++ put8 c.2) = some (c, []) := by
  simp [getSetting, get16_put16 _ h.1, get8_put8_nil _ h.2]

theorem flatMap_put8 (l : List Nat) : l.flatMap put8 = l.map (BitVec.ofNat 8) := by
  induction l with
  | nil => rfl
  | cons n l ih => simp [put8, ih]

theorem map_toNat_ofNat (l : List Nat) (h : ∀ n ∈ l, n < 256) : (l.map (BitVec.ofNat 8)).map (·.toNat) = l := by
  rw [List.map_map]
  refine (List.map_congr_left fun n hn => ?_).trans (List.map_id l)
  simp [Nat.mod_eq_of_lt (h n hn)]

theorem readAmnd_body (f : AmndFields) (h : (Telegram.amnd f).fits = true) :
    readAmnd (Telegram.amnd f).body = some f := by
  simp only [Telegram.fits, Bool.and_eq_true, decide_eq_true_eq, Option.all_eq_true, List.all_eq_true, textFits] at h
  obtain ⟨⟨⟨⟨⟨⟨⟨⟨⟨⟨⟨⟨⟨hrun, hpresence⟩, hhead⟩, hdest⟩, hcalls⟩, hclock⟩, hday⟩, hplat⟩, lhead⟩, ldest⟩, lcalls⟩, lclock⟩,
    lday⟩, lplat⟩ := h
  simp only [readAmnd, Telegram.body, List.append_assoc, get16_put16 _ hrun, get8_put8 _ hpresence, bind, Option.bind,
    pure]
  rw [getIf_putIf hhead _ fun t ht => getOctets_of_length (t := id t) (lhead t ht) _]
  dsimp only
  rw [getIf_putIf hdest _ fun t ht => getText_putText t (ldest t ht) _]
  dsimp only
  rw [getIf_putIf hcalls _ fun l hl => getTextList_putTextList l (lcalls l hl).1 (lcalls l hl).2 _]
  dsimp only
  rw [getIf_putIf hclock _ fun c hc => getClock_put c (lclock c hc) _]
  dsimp only
  rw [getIf_putIf hday _ fun d hd => get8_put8 d (lday d hd) _]
  dsimp only
  rw [getIf_putIf_nil hplat fun n hn => get8_put8_nil n (lplat n hn)]
  rfl

theorem readPlan_body (f : PlanFields) (h : (Telegram.plan f).fits = true) :
    readPlan (Telegram.plan f).body = some f := by
  simp only [Telegram.fits, Bool.and_eq_true, decide_eq_true_eq, List.all_eq_true, textFits] at h
  obtain ⟨⟨⟨⟨⟨⟨⟨⟨hrun, hhead⟩, hdest⟩, hn⟩, hcalls⟩, hhh⟩, hmm⟩, hday⟩, hplat⟩ := h
  simp [readPlan, Telegram.body, get16_put16 _ hrun, getOctets_of_length hhead, getText_putText _ hdest,
    getTextList_putTextList _ hn hcalls, get8_put8 _ hhh, get8_put8 _ hmm, get8_put8 _ hday, get8_put8_nil _ hplat, whole]

theorem readDial_body (f : DialFields) (h : (Telegram.dial f).fits = true) :
    readDial (Telegram.dial f).body = some f := by
  simp only [Telegram.fits, Bool.and_eq_true, decide_eq_true_eq, Option.all_eq_true] at h
  obtain ⟨⟨⟨hline, haction⟩, hset⟩, lset⟩ := h
  have hset' : f.setting.isSome = decide (f.action = 0) := by rw [Bool.eq_iff_iff, hset, decide_eq_true_eq]
  simp only [readDial, Telegram.body, List.append_assoc, get8_put8 _ hline, get8_put8 _ haction, bind, Option.bind, pure]
  rw [getIf_putIf_nil hset' fun c hc => getSetting_put c (lset c hc)]
  rfl

theorem readZone_body (f : ZoneFields) (h : (Telegram.zone f).fits = true) :
    readZone (Telegram.zone f).body = some f := by
  simp only [Telegram.fits, Bool.and_eq_true, decide_eq_true_eq, List.all_eq_true] at h
  obtain ⟨⟨haction, hn⟩, hzones⟩ := h
  have hall : getOctets f.zones.length (f.zones.map (BitVec.ofNat 8)) = some (f.zones.map (BitVec.ofNat 8), []) := by
    simpa using getOctets_of_length (t := f.zones.map (BitVec.ofNat 8)) (List.length_map _) []
  simp [readZone, Telegram.body, flatMap_put8, get8_put8 _ haction, get8_put8 _ hn, hall, whole,
    -List.map_map, map_toNat_ofNat _ hzones]

/-- R195, kind by kind: the layouts with optional or repeated fields by the lemmas above. -/
theorem readTelegram_body (tg : Telegram) (h : tg.fits = true) : readTelegram tg.kind tg.body = some tg := by
  cases tg with
  | plan f => exact congrArg (Option.map Telegram.plan) (readPlan_body f h)
  | amnd f => exact congrArg (Option.map Telegram.amnd) (readAmnd_body f h)
  | dial f => exact congrArg (Option.map Telegram.dial) (readDial_body f h)
  | zone f => exact congrArg (Option.map Telegram.zone) (readZone_body f h)
  | dlay f =>
    simp only [Telegram.fits, Bool.and_eq_true, decide_eq_true_eq, textFits] at h
    obtain ⟨⟨⟨hrun, hmode⟩, hmin⟩, hreason⟩ := h
    simp [readTelegram, Telegram.kind, Telegram.body, readDlay, whole, get16_put16 _ hrun, get8_put8 _ hmode,
      get16_put16 _ hmin, getText_putText_nil _ hreason]
  | canc f =>
    simp only [Telegram.fits, Bool.and_eq_true, decide_eq_true_eq, textFits] at h
    simp [readTelegram, Telegram.kind, Telegram.body, readCanc, whole, get16_put16 _ h.1, getText_putText_nil _ h.2]
  | plat f =>
    simp only [Telegram.fits, Bool.and_eq_true, decide_eq_true_eq] at h
    simp [readTelegram, Telegram.kind, Telegram.body, readPlat, whole, get16_put16 _ h.1, get8_put8_nil _ h.2]
  | pred f =>
    simp only [Telegram.fits, Bool.and_eq_true, decide_eq_true_eq] at h
    obtain ⟨⟨⟨hrun, hmode⟩, hlo⟩, hhi⟩ := h
    simp [readTelegram, Telegram.kind, Telegram.body, readPred, whole, get16_put16 _ hrun, get8_put8 _ hmode,
      getSigned32_putSigned32_nil _ hlo hhi]
  | note f =>
    simp only [Telegram.fits, Bool.and_eq_true, decide_eq_true_eq, textFits] at h
    obtain ⟨⟨⟨hnumber, hpriority⟩, htext⟩, hexpiry⟩ := h
    simp [readTelegram, Telegram.kind, Telegram.body, readNote, whole, get8_put8 _ hnumber, get8_put8 _ hpriority,
      getText_putText _ htext, get16_put16_nil _ hexpiry]
  | conf f =>
    simp only [Telegram.fits, Bool.and_eq_true, decide_eq_true_eq] at h
    simp [readTelegram, Telegram.kind, Telegram.body, readConf, whole, get16_put16 _ h.1, get16_put16_nil _ h.2]
  | read f =>
    simp only [Telegram.fits, Bool.and_eq_true, decide_eq_true_eq] at h
    obtain ⟨⟨⟨hkind, hstart⟩, hdir⟩, hcount⟩ := h
    simp [readTelegram, Telegram.kind, Telegram.body, readRead, whole, get8_put8 _ hkind, get16_put16 _ hstart,
      get8_put8 _ hdir, get8_put8_nil _ hcount]
  | spkn f =>
    simp only [Telegram.fits, Bool.and_eq_true, decide_eq_true_eq] at h
    simp [readTelegram, Telegram.kind, Telegram.body, readSpkn, whole, get8_put8 _ h.1, get8_put8_nil _ h.2]
  | rins run | rdys run | dept run | csta run =>
    have hrun : run < 65536 := by simpa [Telegram.fits] using h
    simp [readTelegram, Telegram.kind, Telegram.body, readRun, whole, get16_put16_nil _ hrun]
  | nclr n | wall n =>
    have hn : n < 256 := by simpa [Telegram.fits] using h
    simp [readTelegram, Telegram.kind, Telegram.body, readOctet, whole, get8_put8_nil _ hn]
  | time n =>
    have hn : n < 4294967296 := by simpa [Telegram.fits] using h
    simp [readTelegram, Telegram.kind, Telegram.body, readTime, whole, get32_put32_nil _ hn]
  | csav | rset | poll | take => rfl

/-- Settles O2. -/
theorem telegramBodiesReadBack : Obligations.TelegramBodiesReadBack := fun tg h =>
  ⟨Kind.ofCode_code tg.kind, readTelegram_body tg h⟩

/-! ## General checks -/

/-- A reply begun moves nothing but the record of its port (R182). -/
theorem State.answerTel_effect (p : PortId) (t : Tel) (a : Answer) (s : State) :
    s.answerTel p t a = { s with ports := (s.answerTel p t a).ports } ∧
      (∀ q, q ≠ p → (s.answerTel p t a).port q = s.port q) ∧
      (s.answerTel p t a).port p = { s.port p with service := .replying, reply := some (a.reply t) } :=
  ⟨rfl, fun _ hq => State.port_updPort_other s hq _, State.port_updPort_same s p _⟩

theorem State.serving_of_serves {s : State} {p : PortId} {t : Tel} (h : s.Serves p t) : s.serving p = some t := by
  obtain ⟨-, hs, hb⟩ := h
  obtain ⟨rest, hrest⟩ := List.head?_eq_some_iff.1 hb
  simp [State.serving, hs, hrest]

/-- Settles O6. -/
theorem unknownKindIsAnswered : Obligations.UnknownKindIsAnswered := by
  intro s p tel h hkind
  refine ⟨s.answerTel p tel (Answer.refuse .unknown), ?_, State.answerTel_effect p tel _ s⟩
  simp [exec, execUnknown, State.serving_of_serves h, hkind, State.answer, h.1]

/-- What the general checks answer to a telegram that one of them refuses (R183). -/
def generalRefusal (p : PortId) (k : Kind) : Answer :=
  if PortId.accepts p k = false then Answer.refuse .wrongPort else Answer.badField 0

theorem State.takeWith_refused {α : Type} {finish : State → Answer → Answer} {p : PortId} {k : Kind}
    {read : List Octet → Option α} {owner : α → State → State × Answer} {s : State} {t : Tel} (h : s.Serves p t)
    (hk : t.kind = k.code) (hbad : PortId.accepts p k = false ∨ read t.body = none) :
    s.takeWith finish p k read owner = .next (s.answerTel p t (finish s (generalRefusal p k))) := by
  unfold generalRefusal
  split
  · next ha => exact State.takeWith_wrongPort finish p k read owner s t h hk ha
  · next ha =>
    exact State.takeWith_badBody finish p k read owner s t h hk (by simpa using ha) (hbad.resolve_left ha)

theorem exec_of_refused {s : State} {p : PortId} {k : Kind} {t : Tel} (h : s.Serves p t) (hk : t.kind = k.code)
    (hbad : PortId.accepts p k = false ∨ readTelegram k t.body = none) :
    exec (k.command p) s =
      .next (s.answerTel p t
        (if k = .time then completeTime s (generalRefusal p k) else generalRefusal p k)) := by
  cases k
  case time =>
    exact State.takeWith_refused (finish := completeTime) h hk
      (hbad.imp_right fun hr => by simpa [readTelegram] using hr)
  case csav =>
    exact State.takeWith_refused (finish := fun _ a => a)
      (owner := fun _ u => (u.saveConfiguration, Answer.accept .none)) h hk
      (hbad.imp_right fun hr => by simpa [readTelegram] using hr)
  case rset =>
    exact State.takeWith_refused (finish := fun _ a => a)
      (owner := fun _ u => (u.resetPicture, Answer.accept .none)) h hk
      (hbad.imp_right fun hr => by simpa [readTelegram] using hr)
  all_goals
    exact State.takeWith_refused (finish := fun _ a => a) h hk
      (hbad.imp_right fun hr => by simpa [readTelegram] using hr)

theorem generalRefusal_eq (p : PortId) (k : Kind) :
    generalRefusal p k =
      { code := if PortId.accepts p k = false then .wrongPort else .badField
        clamped := false, untracked := false, field := 0, result := .none } := by
  unfold generalRefusal
  split <;> rfl

/-- Settles O7. -/
theorem generalChecksRefuse : Obligations.GeneralChecksRefuse := by
  intro s p k tel h hk hbad
  refine ⟨_, exec_of_refused h hk hbad, rfl, (State.answerTel_effect p tel _ s).2.1, ?_⟩
  rw [(State.answerTel_effect p tel _ s).2.2, generalRefusal_eq]
  by_cases ht : k = .time <;> simp [ht, completeTime, State.clockResult, Answer.reply]

end Sys2Proof.Machine
end

section
/-! The sources of the picture through the commands: which command can move the configuration, the time base, the sensing
unit, the lines and the store, and that every other one moves the running time at most. -/
namespace Sys2Proof.Machine

open Sys2Proof

/-! ## Operations that keep the sources -/

@[simp] theorem State.monitor_sources (q : Panel) (s : State) : (s.monitor q).sources = s.sources := by
  simp only [State.monitor]
  repeat' split
  all_goals simp

@[simp] theorem State.endInterval_sources (s : State) : s.endInterval.sources = s.sources := by
  simp only [State.endInterval, State.finish_sources, State.nextInterval_sources, State.clearIntervalFlags_sources]
  exact foldl_keeps State.sources State.monitor (fun t q => State.monitor_sources q t) _ s

@[simp] theorem State.giveCue_sources (c : Cue) (content : Captured) (s : State) :
    (s.giveCue c content).sources = s.sources := by
  simp only [State.giveCue, State.settleAttention_sources]
  split <;> simp

@[simp] theorem State.removeNotice_sources (number : Nat) (s : State) :
    (s.removeNotice number).sources = s.sources := by
  simp [State.removeNotice]

@[simp] theorem State.predict_sources (e : Entry) (n : Int) (s : State) : (s.predict e n).sources = s.sources := by
  simp [State.predict_eq]

@[simp] theorem State.failAbove_sources (s : State) : s.failAbove.sources = s.sources :=
  foldl_keeps State.sources (fun (t : State) (p : Panel) => t.failPanel p.addr)
    (fun t p => State.failPanel_sources p.addr t) _ s

theorem State.onEntry_sources (checks : List (Nat × Bool)) (run : Nat) (allowed : Entry → Bool)
    (act : Entry → State × Answer) (s : State) (h : ∀ e, (act e).1.sources = s.sources) :
    (s.onEntry checks run allowed act).1.sources = s.sources := by
  unfold State.onEntry
  split
  · rfl
  · split
    · rfl
    · split
      · exact h _
      · rfl

theorem planOwner_sources (f : PlanFields) (s : State) : (planOwner f s).1.sources = s.sources := by
  unfold planOwner
  repeat' split
  · rfl
  · rfl
  · exact State.createEntry_sources _ s

theorem amndOwner_sources (f : AmndFields) (s : State) : (amndOwner f s).1.sources = s.sources := by
  refine State.onEntry_sources _ _ _ _ s fun e => ?_
  dsimp only
  split
  · rfl
  · exact State.amendEntry_sources e _ s

theorem dlayOwner_sources (f : DlayFields) (s : State) : (dlayOwner f s).1.sources = s.sources :=
  State.onEntry_sources _ _ _ _ s fun e => State.amendEntry_sources e _ s

theorem cancOwner_sources (f : CancFields) (s : State) : (cancOwner f s).1.sources = s.sources := by
  refine State.onEntry_sources _ _ _ _ s fun e => ?_
  simp only [State.acceptRevision]
  split
  · exact State.amendEntry_sources e _ s
  · exact State.cancelEntry_sources e _ s

theorem rinsOwner_sources (run : Nat) (s : State) : (rinsOwner run s).1.sources = s.sources := by
  refine State.onEntry_sources _ _ _ _ s fun e => ?_
  simp only [State.acceptRevision]
  split
  · exact State.reinstate_sources e s
  · rfl

theorem platOwner_sources (f : PlatFields) (s : State) : (platOwner f s).1.sources = s.sources :=
  State.onEntry_sources _ _ _ _ s fun e => State.amendEntry_sources e _ s

theorem predOwner_sources (f : PredFields) (s : State) : (predOwner f s).1.sources = s.sources := by
  refine State.onEntry_sources _ _ _ _ s fun e => ?_
  split
  · exact State.refilter_sources e _ _ s
  · exact State.predict_sources e _ s

theorem rdysOwner_sources (run : Nat) (s : State) : (rdysOwner run s).1.sources = s.sources :=
  State.onEntry_sources _ _ _ _ s fun e => State.amendEntry_sources e _ s

theorem deptOwner_sources (run : Nat) (s : State) : (deptOwner run s).1.sources = s.sources := by
  refine State.onEntry_sources _ _ _ _ s fun e => ?_
  simp only [State.acceptRevision]
  split
  · rfl
  · exact State.departEntry_sources e s

/-- R22: READ reports. -/
theorem readOwner_state (f : ReadFields) (s : State) : (readOwner f s).1 = s := by
  unfold readOwner
  split <;> rfl

/-- R81: CSTA reports. -/
theorem cstaOwner_state (run : Nat) (s : State) : (cstaOwner run s).1 = s := by
  unfold cstaOwner
  repeat' split
  all_goals rfl

theorem takeOwner_sources (s : State) : (takeOwner s).1.sources = s.sources := by
  unfold takeOwner
  repeat' split
  · rfl
  · rfl
  · rfl
  · exact State.giveCue_sources _ _ s

theorem spknOwner_sources (f : SpknFields) (s : State) : (spknOwner f s).1.sources = s.sources := by
  unfold spknOwner
  split
  · rfl
  · split
    · rfl
    · exact State.speak_sources (f.outcome = 0) _ _ s

theorem zoneOwner_sources (f : ZoneFields) (s : State) : (zoneOwner f s).1.sources = s.sources := by
  unfold zoneOwner
  split
  · rfl
  · simp

theorem noteOwner_sources (f : NoteFields) (s : State) : (noteOwner f s).1.sources = s.sources := by
  unfold noteOwner
  repeat' split
  · rfl
  · rfl
  · simp

theorem nclrOwner_sources (number : Nat) (s : State) : (nclrOwner number s).1.sources = s.sources := by
  unfold nclrOwner
  split
  · dsimp only
    split
    · exact State.removeNotice_sources number s
    · rfl
  · rfl

theorem wallOwner_sources (n : Nat) (s : State) : (wallOwner n s).1.sources = s.sources := by
  unfold wallOwner
  split
  · rfl
  · split
    · rfl
    · dsimp only
      split
      · rfl
      · simp

theorem pollOwner_sources (p : PortId) (s : State) : (pollOwner p s).1.sources = s.sources := by
  simp [pollOwner]

/-! ## What a command answers -/

/-- A relation to the state after a command, from the relation to what the command does and to what it leaves (R182). -/
theorem State.takeWith_rel {R : State → Prop} {α : Type} {finish : State → Answer → Answer} {p : PortId} {k : Kind}
    {read : List Octet → Option α} {owner : α → State → State × Answer} {s t : State}
    (h : s.takeWith finish p k read owner = .next t) (hself : R s)
    (hanswer : ∀ u tel a, R u → R (u.answerTel p tel a)) (howner : ∀ f, R (owner f s).1) : R t := by
  unfold State.takeWith State.answer at h
  injection h with h
  subst h
  split
  · split
    · exact hself
    · dsimp only
      split
      · exact hanswer _ _ _ hself
      · exact hanswer _ _ _ (howner _)
  · exact hself

theorem State.takeTel_rel {R : State → Prop} {α : Type} {p : PortId} {k : Kind} {read : List Octet → Option α}
    {owner : α → State → State × Answer} {s t : State} (h : s.takeTel p k read owner = .next t) (hself : R s)
    (hanswer : ∀ u tel a, R u → R (u.answerTel p tel a)) (howner : ∀ f, R (owner f s).1) : R t :=
  State.takeWith_rel h hself hanswer howner

theorem State.answer_rel {R : State → Prop} {s t u : State} (h : s.answer u = .next t) (hself : R s) (hu : R u) :
    R t := by
  unfold State.answer at h
  injection h with h
  subst h
  split
  · exact hu
  · exact hself

/-- An event that changes nothing where it does not arise (log entry 4). -/
theorem State.answer_ite_rel {R : State → Prop} {s t u : State} {c : Prop} [Decidable c]
    (h : s.answer (if c then u else s) = .next t) (hself : R s) (hu : c → R u) : R t := by
  refine State.answer_rel h hself ?_
  split
  · next hc => exact hu hc
  · exact hself

theorem execPowerOn_rel {R : State → Prop} {s t : State} (h : exec .powerOn s = .next t) (hself : R s)
    (hrestart : R (State.restart s.store s.pending)) : R t := by
  have ht : (if s.powered then s else State.restart s.store s.pending) = t := Host.Outcome.next.inj h
  rw [← ht]
  split
  · exact hself
  · exact hrestart

theorem exec_answers (i : Instr) (s : State) (h : i ≠ .powerOn) : ∃ u, exec i s = s.answer u := by
  cases i
  case powerOn => exact absurd rfl h
  all_goals exact ⟨_, rfl⟩

theorem exec_next (i : Instr) (s : State) : ∃ t, exec i s = .next t := by
  cases i <;> exact ⟨_, rfl⟩

theorem exec_of_unpowered {i : Instr} {s : State} (h : s.powered = false) (hi : i ≠ .powerOn) :
    exec i s = .next s := by
  obtain ⟨u, hu⟩ := exec_answers i s hi
  simp [hu, State.answer, h]

/-! ## One source at a time -/

theorem State.sources_ext {s t : State} (h : t.sources = s.sources) :
    t.pending = s.pending ∧ t.powered = s.powered ∧ t.inForce = s.inForce ∧ t.pendingCfg = s.pendingCfg ∧
      t.time = s.time ∧ t.sense = s.sense ∧ t.lines = s.lines ∧ t.store = s.store := by
  simpa [State.sources] using h

theorem State.sources_pending (s : State) : s.sources.pending = s.pending := rfl
theorem State.sources_powered (s : State) : s.sources.powered = s.powered := rfl
theorem State.sources_inForce (s : State) : s.sources.inForce = s.inForce := rfl
theorem State.sources_pendingCfg (s : State) : s.sources.pendingCfg = s.pendingCfg := rfl
theorem State.sources_time (s : State) : s.sources.time = s.time := rfl
theorem State.sources_sense (s : State) : s.sources.sense = s.sense := rfl
theorem State.sources_lines (s : State) : s.sources.lines = s.lines := rfl
theorem State.sources_store (s : State) : s.sources.store = s.store := rfl

theorem State.pending_of_sources {s t : State} (h : t.sources = s.sources) : t.pending = s.pending :=
  congrArg Sources.pending h

theorem State.inForce_of_sources {s t : State} (h : t.sources = s.sources) : t.inForce = s.inForce :=
  congrArg Sources.inForce h

theorem State.time_of_sources {s t : State} (h : t.sources = s.sources) : t.time = s.time :=
  congrArg Sources.time h

theorem State.sense_of_sources {s t : State} (h : t.sources = s.sources) : t.sense = s.sense :=
  congrArg Sources.sense h

theorem State.lines_of_sources {s t : State} (h : t.sources = s.sources) : t.lines = s.lines :=
  congrArg Sources.lines h

theorem State.store_of_sources {s t : State} (h : t.sources = s.sources) : t.store = s.store :=
  congrArg Sources.store h

theorem State.pendingCfg_of_sources {s t : State} (h : t.sources = s.sources) : t.pendingCfg = s.pendingCfg :=
  congrArg Sources.pendingCfg h

@[simp] theorem State.post_pending (names : List PortId) (k : NoticeKind) (u : Subject) (s : State) :
    (s.post names k u).pending = s.pending := State.pending_of_sources (by simp)

@[simp] theorem State.post_inForce (names : List PortId) (k : NoticeKind) (u : Subject) (s : State) :
    (s.post names k u).inForce = s.inForce := State.inForce_of_sources (by simp)

@[simp] theorem State.post_time (names : List PortId) (k : NoticeKind) (u : Subject) (s : State) :
    (s.post names k u).time = s.time := State.time_of_sources (by simp)

@[simp] theorem State.post_sense (names : List PortId) (k : NoticeKind) (u : Subject) (s : State) :
    (s.post names k u).sense = s.sense := State.sense_of_sources (by simp)

@[simp] theorem State.post_lines (names : List PortId) (k : NoticeKind) (u : Subject) (s : State) :
    (s.post names k u).lines = s.lines := State.lines_of_sources (by simp)

@[simp] theorem State.post_store (names : List PortId) (k : NoticeKind) (u : Subject) (s : State) :
    (s.post names k u).store = s.store := State.store_of_sources (by simp)

/-! ## The commands that move more than the running time -/

/-- The commands that can move the configuration, the clock, the sensing unit, the lines or the store. -/
def movesSources : Instr → Bool
  | .powerOn | .resetPin | .powerLoss _ | .time _ | .dial _ | .conf _ | .csav _ | .rset _ | .runningSecond
  | .minuteAdvance | .holdoverExpiry | .passTrigger _ | .lightConversionComplete _ _ | .lineCheckRequest _ _
  | .lineCheckComplete _ _ | .nextImpulseTime _ _ | .impulseEnd _ _ => true
  | _ => false

theorem State.atMs_zero (s : State) : s.atMs 0 = s := by simp [State.atMs]

/-- From `s` to `t` the sources stand but for the running time within the second (log entry 47). -/
def State.SourcesStand (s t : State) : Prop := ∃ ms, t.sources = (s.atMs ms).sources

theorem State.SourcesStand.of_eq {s t : State} (h : t.sources = s.sources) : s.SourcesStand t :=
  ⟨0, by rw [h, State.atMs_zero]⟩

theorem State.SourcesStand.takeTel {α : Type} {p : PortId} {k : Kind} {read : List Octet → Option α}
    {owner : α → State → State × Answer} {s t : State} (h : s.takeTel p k read owner = .next t)
    (howner : ∀ f, (owner f s).1.sources = s.sources) : s.SourcesStand t :=
  State.takeWith_rel (R := s.SourcesStand) h (.of_eq rfl) (fun _ _ _ hu => hu) fun f => .of_eq (howner f)

theorem State.SourcesStand.answer {s t u : State} (h : s.answer u = .next t) (hu : s.SourcesStand u) :
    s.SourcesStand t := State.answer_rel h (.of_eq rfl) hu

theorem State.SourcesStand.answer_ite {s t u : State} {c : Prop} [Decidable c]
    (h : s.answer (if c then u else s) = .next t) (hu : s.SourcesStand u) : s.SourcesStand t :=
  State.answer_ite_rel h (.of_eq rfl) fun _ => hu

/-- Every other command moves the running time at most. -/
theorem exec_sources {i : Instr} {s t : State} (h : exec i s = .next t) (hi : movesSources i = false) :
    s.SourcesStand t := by
  cases i with
  | powerOn | resetPin | powerLoss _ | time _ | dial _ | conf _ | csav _ | rset _ | runningSecond | minuteAdvance
  | holdoverExpiry | passTrigger _ | lightConversionComplete _ _ | lineCheckRequest _ _ | lineCheckComplete _ _
  | nextImpulseTime _ _ | impulseEnd _ _ => cases hi
  | telegramFrameEnd p ms octets =>
    refine .answer h ?_
    split
    · exact ⟨ms, rfl⟩
    · exact .of_eq rfl
  | abortSequence p => exact .answer h (.of_eq rfl)
  | replySent p ms => exact .answer_ite h ⟨ms, rfl⟩
  | unknown p =>
    refine .answer h (.of_eq ?_)
    repeat' split
    all_goals rfl
  | plan p => exact .takeTel h fun f => planOwner_sources f s
  | amnd p => exact .takeTel h fun f => amndOwner_sources f s
  | dlay p => exact .takeTel h fun f => dlayOwner_sources f s
  | canc p => exact .takeTel h fun f => cancOwner_sources f s
  | rins p => exact .takeTel h fun run => rinsOwner_sources run s
  | plat p => exact .takeTel h fun f => platOwner_sources f s
  | pred p => exact .takeTel h fun f => predOwner_sources f s
  | rdys p => exact .takeTel h fun run => rdysOwner_sources run s
  | dept p => exact .takeTel h fun run => deptOwner_sources run s
  | read p => exact .takeTel h fun f => congrArg State.sources (readOwner_state f s)
  | csta p => exact .takeTel h fun run => congrArg State.sources (cstaOwner_state run s)
  | take p => exact .takeTel (owner := fun _ => takeOwner) h fun _ => takeOwner_sources s
  | spkn p => exact .takeTel h fun f => spknOwner_sources f s
  | zone p => exact .takeTel h fun f => zoneOwner_sources f s
  | note p => exact .takeTel h fun f => noteOwner_sources f s
  | nclr p => exact .takeTel h fun n => nclrOwner_sources n s
  | wall p => exact .takeTel h fun n => wallOwner_sources n s
  | poll p => exact .takeTel (owner := fun _ => pollOwner p) h fun _ => pollOwner_sources p s
  | silenceExpiry p => exact .answer_ite h (.of_eq (by simp))
  | predictionStale run =>
    refine .answer h (.of_eq ?_)
    repeat' split
    all_goals simp
  | speakTimeout cue =>
    refine .answer h (.of_eq ?_)
    repeat' split
    all_goals simp
  | gapEnd zone => exact .answer_ite h (.of_eq rfl)
  | noticeExpiry number => exact .answer_ite h (.of_eq (State.removeNotice_sources number s))
  | dwellExpiry =>
    refine .answer h (.of_eq ?_)
    split <;> simp
  | panelFrameEnd ms =>
    refine .answer h ?_
    split
    · exact ⟨ms, rfl⟩
    · exact .of_eq rfl
  | panelReplyReceived ms octets =>
    refine .answer h ?_
    split
    · exact ⟨ms, State.endExchange_sources _ _ _⟩
    · exact .of_eq rfl
  | replyWindowClose ms =>
    refine .answer h ?_
    split
    · split
      · exact ⟨ms, State.endExchange_sources _ _ _⟩
      · exact .of_eq rfl
    · exact .of_eq rfl
  | strayPanelOctets octets => exact .answer h (.of_eq rfl)
  | keepaliveDue ms addr => exact .answer_ite h ⟨ms, State.dispatch_sources _⟩
  | probeDue ms addr => exact .answer_ite h ⟨ms, State.dispatch_sources _⟩
  | intervalEnd ms => exact .answer_ite h ⟨ms, State.endInterval_sources _⟩

/-! ## What each of them leaves -/

@[simp] theorem State.withLines_sources (l : List Line) (s : State) :
    ({ s with lines := l } : State).sources = { s.sources with lines := l } := rfl

@[simp] theorem State.withTime_sources (x : TimeBase) (s : State) :
    ({ s with time := x } : State).sources = { s.sources with time := x } := rfl

/-- The lines as an announcement leaves them (R167). -/
def announcedLines (p : Params) (x : TimeBase) (minute : Bool) (l : List Line) : List Line :=
  l.map (Line.announce p (x.state = .unset) x.clock (x.runMs + x.subMs) minute)

theorem State.announceLines_sources (minute : Bool) (s : State) :
    (s.announceLines minute).sources =
      { s.sources with lines := announcedLines s.inForce s.time minute s.lines } := rfl

theorem State.announceLines_sources_of {s u : State} (minute : Bool) (h : u.sources = s.sources) :
    (u.announceLines minute).sources =
      { s.sources with lines := announcedLines s.inForce s.time minute s.lines } := by
  obtain ⟨-, -, hf, -, ht, -, hl, -⟩ := State.sources_ext h
  rw [State.announceLines_sources, h, hf, ht, hl]

theorem State.announceTime_sources {s u : State} (minute : Bool) (h : u.sources = s.sources) :
    (u.announceTime minute).sources =
      { s.sources with lines := announcedLines s.inForce s.time minute s.lines } :=
  State.announceLines_sources_of minute (by simp [h])

theorem State.minuteAdvanced_sources (s : State) :
    s.minuteAdvanced.sources = { s.sources with lines := announcedLines s.inForce s.time true s.lines } := by
  simp only [State.minuteAdvanced]
  split
  · exact State.announceTime_sources true (State.rollover_sources s)
  · exact State.announceTime_sources true rfl

/-- The time base of a TIME that sets the clock from UNSET (R50). -/
def TimeBase.setTo (received : Nat) (x : TimeBase) : TimeBase :=
  { x.accept with clock := received, slew := 0, held := false, runMs := x.runMs + x.subMs, subMs := 0 }

/-- The time base of a TIME that steps the clock (R53). -/
def TimeBase.stepTo (received : Nat) (x : TimeBase) : TimeBase :=
  { x.accept with clock := received, slew := 0, held := false }

theorem State.setClock_sources (received : Nat) (s : State) :
    (s.setClock received).sources =
      { s.sources with
        time := s.time.setTo received
        lines := announcedLines s.inForce (s.time.setTo received) false s.lines } := rfl

theorem State.slewClock_sources (d : Int) (s : State) :
    (s.slewClock d).sources = { s.sources with time := { s.time.accept with slew := d } } := rfl

theorem State.stepClock_sources (received : Nat) (d : Int) (p : PortId) (s : State) :
    (s.stepClock received d p).sources =
      { s.sources with
        time := s.time.stepTo received
        lines := announcedLines s.inForce (s.time.stepTo received) false s.lines } := by
  simp only [State.stepClock, State.finish_sources, State.post_sources, State.recompose_sources]
  split
  · exact State.announceTime_sources (s := { s with time := s.time.stepTo received }) false (State.rollover_sources _)
  · exact State.announceTime_sources (s := { s with time := s.time.stepTo received }) false rfl

theorem State.judgePort_sources (p : PortId) (s : State) : (s.judgePort p).sources = s.sources := by
  unfold State.judgePort
  split <;> simp

/-- What the judgement of the moved limits leaves of the time base (R55). -/
def State.judgedTime (s : State) : TimeBase :=
  if s.time.limitsMoved.contains 321 ∧ s.holdoverReached then { s.time with state := .holdover } else s.time

theorem State.enterHoldover_sources (s : State) :
    s.enterHoldover.sources = { s.sources with time := { s.time with state := .holdover } } := by
  simp [State.enterHoldover]

theorem State.judgeLimits_sources (s : State) :
    s.judgeLimits.sources = { s.sources with time := s.judgedTime } := by
  simp only [State.judgeLimits, State.judgePort_sources, State.judgedTime]
  split
  · exact State.enterHoldover_sources s
  · rfl

/-- The time base after one running second (R47, R52). -/
def State.secondTime (s : State) : TimeBase := (s.judgedTime.count s.inForce.holdover).advance

theorem State.countSecond_sources (s : State) :
    s.countSecond.sources = { s.sources with time := s.time.count s.inForce.holdover } := rfl

theorem State.judged_counted_sources (s : State) :
    s.judgeLimits.countSecond.sources =
      { s.sources with time := s.judgedTime.count s.inForce.holdover } := by
  have h := State.judgeLimits_sources s
  have hf : s.judgeLimits.inForce = s.inForce := congrArg Sources.inForce h
  have ht : s.judgeLimits.time = s.judgedTime := congrArg Sources.time h
  rw [State.countSecond_sources, h, hf, ht]

/-- The lines move in a second that enters a minute, and stand in any other (R47, R167). -/
theorem State.second_sources (s : State) :
    s.second.sources =
      { s.sources with
        time := s.secondTime
        lines :=
          if (s.judgedTime.count s.inForce.holdover).entersMinute then
            announcedLines s.inForce s.secondTime true s.lines
          else s.lines } := by
  have hc := State.judged_counted_sources s
  have ht : s.judgeLimits.countSecond.time = s.judgedTime.count s.inForce.holdover := congrArg Sources.time hc
  have hf : s.judgeLimits.countSecond.inForce = s.inForce := congrArg Sources.inForce hc
  have hl : s.judgeLimits.countSecond.lines = s.lines := congrArg Sources.lines hc
  have hadvance : ({ s.judgeLimits.countSecond with time := s.judgeLimits.countSecond.time.advance } : State).sources =
      { s.sources with time := s.secondTime } := by
    rw [State.withTime_sources, hc, ht]
    rfl
  simp only [State.second, ht]
  split
  · rw [State.settle_sources, State.minuteAdvanced_sources, ← ht, hadvance]
    simp only [ht, hf, hl]
    rfl
  · split
    · rw [← ht, hadvance]
      rfl
    · rw [State.settle_sources, ← ht, hadvance]
      rfl

theorem State.afterConf_sources (n : Nat) (s old : State) :
    ∃ moved, (s.afterConf n old).sources = { s.sources with time := { s.time with limitsMoved := moved } } := by
  have keep : ∀ u : State, u.sources = s.sources →
      ∃ moved, u.sources = { s.sources with time := { s.time with limitsMoved := moved } } :=
    fun u hu => ⟨s.time.limitsMoved, hu⟩
  unfold State.afterConf
  split
  · exact keep _ (by simp)
  split
  · exact keep _ (by simp)
  split
  · exact ⟨_, rfl⟩
  repeat' split
  all_goals exact keep _ (by simp)

end Sys2Proof.Machine
end

section
/-! The queue and the store across the commands (R191), the sensing unit and the impulse lines: their invariants (R152,
R156, R165, R173). -/
namespace Sys2Proof.Machine

open Sys2Proof

/-! ## Resets -/

/-- The configuration, the sensing unit and the lines after power-on or the reset pin (R191). -/
theorem State.restart_sources (store : Store) (pending : List Instr) :
    (State.restart store pending).sources =
      { State.reset.sources with
        pending := pending
        inForce := loadParams store.configuration
        pendingCfg := loadParams store.configuration
        sense := freshSense (loadParams store.configuration)
        lines := loadLines store.dials
        store := store } := by
  simp only [State.restart, State.settleAttention_sources, State.dispatch_sources, State.resetValues,
    State.recompose_sources, State.writeLevels_sources]
  rfl

theorem State.restart_pending (store : Store) (pending : List Instr) :
    (State.restart store pending).pending = pending := by
  rw [← State.sources_pending, State.restart_sources]

theorem State.restart_sense (store : Store) (pending : List Instr) :
    (State.restart store pending).sense = freshSense (loadParams store.configuration) := by
  rw [← State.sources_sense, State.restart_sources]

theorem State.restart_lines (store : Store) (pending : List Instr) :
    (State.restart store pending).lines = loadLines store.dials := by
  rw [← State.sources_lines, State.restart_sources]

theorem State.restart_store (store : Store) (pending : List Instr) :
    (State.restart store pending).store = store := by
  rw [← State.sources_store, State.restart_sources]

theorem State.restart_inForce (store : Store) (pending : List Instr) :
    (State.restart store pending).inForce = loadParams store.configuration := by
  rw [← State.sources_inForce, State.restart_sources]

theorem State.restart_pendingCfg (store : Store) (pending : List Instr) :
    (State.restart store pending).pendingCfg = loadParams store.configuration := by
  rw [← State.sources_pendingCfg, State.restart_sources]

theorem State.restart_time (store : Store) (pending : List Instr) :
    (State.restart store pending).time = TimeBase.reset := by
  rw [← State.sources_time, State.restart_sources]
  rfl

theorem State.restart_powered (store : Store) (pending : List Instr) :
    (State.restart store pending).powered = true := by
  rw [← State.sources_powered, State.restart_sources]
  rfl

theorem State.resetPicture_sources (s : State) :
    s.resetPicture.sources =
      { s.sources with
        inForce := s.inForce.withStructural s.pendingCfg
        pendingCfg := s.inForce.withStructural s.pendingCfg
        sense := s.sense.rset (s.inForce.withStructural s.pendingCfg) } := by
  simp only [State.resetPicture, State.settle_sources, State.post_sources, State.writeLevels_sources]
  rfl

theorem State.resetPicture_pending (s : State) : s.resetPicture.pending = s.pending := by
  rw [← State.sources_pending, State.resetPicture_sources]
  rfl

theorem State.resetPicture_sense (s : State) :
    s.resetPicture.sense = s.sense.rset (s.inForce.withStructural s.pendingCfg) := by
  rw [← State.sources_sense, State.resetPicture_sources]

theorem State.resetPicture_inForce (s : State) :
    s.resetPicture.inForce = s.inForce.withStructural s.pendingCfg := by
  rw [← State.sources_inForce, State.resetPicture_sources]

theorem State.resetPicture_pendingCfg (s : State) :
    s.resetPicture.pendingCfg = s.inForce.withStructural s.pendingCfg := by
  rw [← State.sources_pendingCfg, State.resetPicture_sources]

theorem State.resetPicture_time (s : State) : s.resetPicture.time = s.time := by
  rw [← State.sources_time, State.resetPicture_sources]
  rfl

theorem State.resetPicture_lines (s : State) : s.resetPicture.lines = s.lines := by
  rw [← State.sources_lines, State.resetPicture_sources]
  rfl

theorem State.resetPicture_store (s : State) : s.resetPicture.store = s.store := by
  rw [← State.sources_store, State.resetPicture_sources]
  rfl

/-! ## The queue -/

theorem timeOwner_pending (p : PortId) (seconds : Nat) (s : State) : (timeOwner p seconds s).1.pending = s.pending := by
  unfold timeOwner
  dsimp only
  repeat' split
  · rfl
  · rfl
  · exact congrArg Sources.pending (State.setClock_sources seconds s)
  · rfl
  · rfl
  · exact congrArg Sources.pending (State.stepClock_sources seconds _ p s)

theorem State.takeDial_pending (n : Fin 4) (d : PendingDial) (s : State) : (s.takeDial n d).pending = s.pending := by
  unfold State.takeDial
  split <;> rfl

theorem dialOwner_pending (f : DialFields) (s : State) : (dialOwner f s).1.pending = s.pending := by
  unfold dialOwner
  split
  · rfl
  · exact State.takeDial_pending _ _ s

theorem State.setParameter_pending (n v : Nat) (b : Bool) (s : State) : (s.setParameter n v b).pending = s.pending := by
  unfold State.setParameter
  dsimp only
  split <;> rfl

theorem confOwner_pending (f : ConfFields) (s : State) : (confOwner f s).1.pending = s.pending := by
  unfold confOwner
  split
  · rfl
  · next row _ =>
    dsimp only
    split
    · exact State.setParameter_pending _ _ _ s
    · obtain ⟨moved, hm⟩ :=
        State.afterConf_sources f.number (s.setParameter f.number (row.range.nearest f.value) row.structural) s
      exact (congrArg Sources.pending hm).trans (State.setParameter_pending _ _ _ s)

@[simp] theorem State.classifyChannels_pending (s : State) : s.classifyChannels.pending = s.pending :=
  foldl_keeps State.pending (fun t n => t.post [.planning] .sensorFault (.light n))
    (fun t _ => State.post_pending _ _ _ t) _ _

theorem State.endPass_pending (s : State) : s.endPass.pending = s.pending := by
  simp [State.endPass, State.computeZones]

theorem State.beginPass_pending (s : State) : s.beginPass.pending = s.pending := by
  simp only [State.beginPass]
  split
  · exact State.endPass_pending s
  · split <;> rfl

theorem State.takeReading_pending (channel value : Nat) (s : State) :
    (s.takeReading channel value).pending = s.pending := by
  simp only [State.takeReading]
  split
  · rfl
  · exact State.endPass_pending _

theorem State.finish_pending (s old : State) : (s.finish old).pending = s.pending :=
  congrArg Sources.pending (State.finish_sources s old)

theorem State.endImpulse_pending (l : Line) (i : Impulse) (s : State) : (s.endImpulse l i).pending = s.pending := by
  simp only [State.endImpulse]
  repeat' split
  · rfl
  · rfl
  · exact State.post_pending _ _ _ _
  · rfl

/-- R191: no command touches the queue. -/
theorem exec_pending {i : Instr} {s t : State} (h : exec i s = .next t) : t.pending = s.pending := by
  by_cases hi : movesSources i = false
  · obtain ⟨ms, hs⟩ := exec_sources h hi
    exact State.pending_of_sources (s := s.atMs ms) hs
  cases i with
  | powerOn =>
    exact execPowerOn_rel (R := fun t => t.pending = s.pending) h rfl (State.restart_pending _ _)
  | resetPin =>
    exact State.answer_rel (R := fun t => t.pending = s.pending) h rfl (State.restart_pending _ _)
  | powerLoss cut => exact State.answer_rel (R := fun t => t.pending = s.pending) h rfl rfl
  | time p =>
    exact State.takeWith_rel (R := fun t => t.pending = s.pending) h rfl (fun _ _ _ hu => hu)
      fun n => timeOwner_pending p n s
  | dial p =>
    exact State.takeTel_rel (R := fun t => t.pending = s.pending) h rfl (fun _ _ _ hu => hu)
      fun f => dialOwner_pending f s
  | conf p =>
    exact State.takeTel_rel (R := fun t => t.pending = s.pending) h rfl (fun _ _ _ hu => hu)
      fun f => confOwner_pending f s
  | csav p =>
    exact State.takeTel_rel (R := fun t => t.pending = s.pending)
      (owner := fun _ u => (u.saveConfiguration, Answer.accept .none)) h rfl (fun _ _ _ hu => hu) fun _ => rfl
  | rset p =>
    exact State.takeTel_rel (R := fun t => t.pending = s.pending)
      (owner := fun _ u => (u.resetPicture, Answer.accept .none)) h rfl (fun _ _ _ hu => hu)
      fun _ => State.resetPicture_pending s
  | runningSecond =>
    exact State.answer_rel (R := fun t => t.pending = s.pending) h rfl
      (congrArg Sources.pending (State.second_sources s))
  | minuteAdvance =>
    exact State.answer_ite_rel (R := fun t => t.pending = s.pending) h rfl
      fun _ => congrArg Sources.pending (State.second_sources s)
  | holdoverExpiry =>
    exact State.answer_ite_rel (R := fun t => t.pending = s.pending) h rfl
      fun _ => congrArg Sources.pending (State.enterHoldover_sources s)
  | passTrigger ms =>
    refine State.answer_ite_rel (R := fun t => t.pending = s.pending) h rfl fun _ => ?_
    dsimp only
    split
    · rfl
    · exact (State.finish_pending _ _).trans (State.beginPass_pending _)
  | lightConversionComplete ms value =>
    refine State.answer_rel (R := fun t => t.pending = s.pending) h rfl ?_
    split
    · exact (State.finish_pending _ _).trans (State.takeReading_pending _ _ _)
    · rfl
  | lineCheckRequest ms line =>
    refine State.answer_rel (R := fun t => t.pending = s.pending) h rfl ?_
    dsimp only
    split <;> rfl
  | lineCheckComplete ms value =>
    refine State.answer_rel (R := fun t => t.pending = s.pending) h rfl ?_
    split <;> rfl
  | nextImpulseTime ms line =>
    refine State.answer_rel (R := fun t => t.pending = s.pending) h rfl ?_
    dsimp only
    split <;> rfl
  | impulseEnd ms line =>
    refine State.answer_rel (R := fun t => t.pending = s.pending) h rfl ?_
    dsimp only
    split
    · exact State.endImpulse_pending _ _ _
    · rfl
  | _ => exact absurd rfl hi

/-- Settles O8. -/
theorem everyCommandGoesOn : Obligations.EveryCommandGoesOn := by
  intro i s
  obtain ⟨t, ht⟩ := exec_next i s
  exact ⟨⟨t, ht, exec_pending ht⟩, fun hoff hi => exec_of_unpowered hoff hi⟩

/-- Settles O9. -/
theorem stepTakesTheFront : Obligations.StepTakesTheFront := by
  refine ⟨fun c rest s => rfl, fun s h => ?_⟩
  simp [step, h]

/-- What a step keeps is what every command keeps, where the queue does not matter. -/
theorem step_keeps {P : State → Prop} {s t : State} (h : step s = .next t)
    (hqueue : ∀ (u : State) (q : List Instr), P u → P { u with pending := q })
    (hexec : ∀ (i : Instr) (u v : State), exec i u = .next v → P u → P v) (hs : P s) : P t := by
  unfold step at h
  split at h
  · cases h
    exact hs
  · exact hexec _ _ _ h (hqueue s _ hs)

/-- Settles O11: what is cut short alone changes in the store. -/
theorem powerLossKeepsTheStore : Obligations.PowerLossKeepsTheStore := by
  intro s cut hpower
  refine ⟨s.losePower cut, by simp [exec, execPowerLoss, State.answer, hpower], rfl, rfl, ?_⟩
  cases cut with
  | none => exact ⟨fun _ => rfl, fun _ => rfl, nofun, nofun⟩
  | some part => cases part <;> refine ⟨?_, ?_, ?_, ?_⟩ <;> simp [State.losePower, Store.cut]

/-! ## The sensing unit -/

/-- The invariant of the sensing unit, of the unit alone (R152, R156). -/
def Sense.Ok (u : Sense) : Prop :=
  u.channels.map (·.no) = List.range 8 ∧ u.zones.map (·.no) = [1, 2, 3, 4] ∧ u.queue.Nodup ∧
    (∀ c ∈ u.channels, c.faultyRun ≤ 4 ∧ c.goodRun ≤ 4) ∧ u.converterInStep = true

theorem State.senseOk_iff (s : State) : s.SenseOk ↔ s.sense.Ok := Iff.rfl

/-- The channels and zones of the unit (R151, R158). -/
def Sense.Whole (u : Sense) : Prop :=
  u.channels.map (·.no) = List.range 8 ∧ u.zones.map (·.no) = [1, 2, 3, 4] ∧ u.queue.Nodup ∧
    ∀ c ∈ u.channels, c.faultyRun ≤ 4 ∧ c.goodRun ≤ 4

theorem Sense.ok_iff (u : Sense) : u.Ok ↔ u.Whole ∧ u.converterInStep = true := by
  simp only [Sense.Ok, Sense.Whole, and_assoc]

theorem Sense.choose_inStep (threshold : Nat) (u : Sense) : (u.choose threshold).converterInStep = true := by
  cases hq : u.queue with
  | nil => cases hp : u.position <;> simp [Sense.choose, Sense.converterInStep, hq, hp]
  | cons n l => simp [Sense.choose, Sense.converterInStep, hq]

theorem Sense.choose_whole (threshold : Nat) {u : Sense} (h : u.Whole) : (u.choose threshold).Whole := by
  unfold Sense.choose
  split <;> exact h

/-- R152: what waits is chosen, whatever the converter did before. -/
theorem Sense.Whole.choose {u : Sense} (h : u.Whole) (threshold : Nat) : (u.choose threshold).Ok :=
  (Sense.ok_iff _).2 ⟨Sense.choose_whole threshold h, Sense.choose_inStep threshold u⟩

theorem Sense.Whole.mapChannels {u : Sense} (h : u.Whole) {f : LightChannel → LightChannel}
    (hno : ∀ c, (f c).no = c.no)
    (hruns : ∀ c ∈ u.channels, c.faultyRun ≤ 4 ∧ c.goodRun ≤ 4 → (f c).faultyRun ≤ 4 ∧ (f c).goodRun ≤ 4) :
    ({ u with channels := u.channels.map f } : Sense).Whole := by
  obtain ⟨hc, hz, hq, hr⟩ := h
  refine ⟨?_, hz, hq, ?_⟩
  · rw [← hc, List.map_map]
    exact List.map_congr_left fun c _ => hno c
  · intro c hc
    obtain ⟨d, hd, rfl⟩ := List.mem_map.1 hc
    exact hruns d hd (hr d hd)

theorem Sense.Whole.mapZones {u : Sense} (h : u.Whole) {f : LightZone → LightZone} (hno : ∀ z, (f z).no = z.no) :
    ({ u with zones := u.zones.map f } : Sense).Whole := by
  obtain ⟨hc, hz, hq, hr⟩ := h
  refine ⟨hc, ?_, hq, hr⟩
  rw [← hz, List.map_map]
  exact List.map_congr_left fun z _ => hno z

theorem LightChannel.classify_no (c : LightChannel) : c.classify.no = c.no := by
  unfold LightChannel.classify
  repeat' split
  all_goals rfl

theorem LightChannel.classify_runs (c : LightChannel) (h : c.faultyRun ≤ 4 ∧ c.goodRun ≤ 4) :
    c.classify.faultyRun ≤ 4 ∧ c.classify.goodRun ≤ 4 := by
  unfold LightChannel.classify
  repeat' split
  · exact h
  · exact h
  · exact ⟨Nat.zero_le 4, Nat.min_le_left _ _⟩
  · exact ⟨Nat.min_le_left _ _, Nat.zero_le 4⟩

theorem LightZone.afterPass_no (p : Params) (l : List Nat) (z : LightZone) : (z.afterPass p l).no = z.no := by
  unfold LightZone.afterPass
  repeat' split
  all_goals rfl

theorem State.classifyChannels_sense (s : State) :
    s.classifyChannels.sense = { s.sense with channels := s.sense.channels.map LightChannel.classify } :=
  foldl_keeps State.sense (fun t n => t.post [.planning] .sensorFault (.light n))
    (fun t _ => State.post_sense _ _ _ t) _ _

theorem State.computeZones_sense (s : State) :
    s.computeZones.sense =
      { s.sense with zones := s.sense.zones.map fun z => z.afterPass s.inForce (s.sense.usable z.no) } := rfl

@[simp] theorem State.classifyChannels_inForce (s : State) : s.classifyChannels.inForce = s.inForce :=
  foldl_keeps State.inForce (fun t n => t.post [.planning] .sensorFault (.light n))
    (fun t _ => State.post_inForce _ _ _ t) _ _

/-- The unit after the end of a pass (R154, R155, R158). -/
theorem State.endPass_sense (s : State) :
    s.endPass.sense =
      { s.classifyChannels.computeZones.sense with
        position := none
        channels := s.classifyChannels.computeZones.sense.channels.map fun c => { c with reading := none } } := rfl

theorem State.endPass_whole {s : State} (h : s.sense.Whole) : s.endPass.sense.Whole := by
  have hc : s.classifyChannels.sense.Whole := by
    rw [State.classifyChannels_sense]
    exact h.mapChannels LightChannel.classify_no fun c _ => c.classify_runs
  have hz : s.classifyChannels.computeZones.sense.Whole := by
    rw [State.computeZones_sense]
    exact hc.mapZones fun z => LightZone.afterPass_no _ _ z
  exact hz.mapChannels (f := fun c => { c with reading := none }) (fun _ => rfl) fun _ _ hr => hr

theorem State.endPass_rest (s : State) :
    s.endPass.sense.queue = s.sense.queue ∧ s.endPass.sense.converter = s.sense.converter ∧
      s.endPass.sense.position = none := by
  simp [State.endPass_sense, State.computeZones_sense, State.classifyChannels_sense]

theorem State.beginPass_senseOk {s : State} (h : s.sense.Ok) (hp : s.sense.position = none) :
    s.beginPass.sense.Ok := by
  obtain ⟨hw, hin⟩ := (Sense.ok_iff _).1 h
  simp only [State.beginPass]
  split
  · obtain ⟨hq, hconv, hpos⟩ := State.endPass_rest s
    refine (Sense.ok_iff _).2 ⟨State.endPass_whole hw, ?_⟩
    simpa only [Sense.converterInStep, hq, hconv, hpos, hp] using hin
  · next c _ =>
    have hw' : ({ s.sense with channels := s.sense.channels.map fun c => { c with reading := none } } : Sense).Whole :=
      hw.mapChannels (fun _ => rfl) fun _ _ hr => hr
    split
    · exact Sense.Whole.choose (u := { s.sense with
          channels := s.sense.channels.map fun c => { c with reading := none }, position := some c }) hw' _
    · next hidle =>
      refine (Sense.ok_iff _).2 ⟨hw', ?_⟩
      cases hconv : s.sense.converter with
      | idle => exact absurd hconv hidle
      | light c => simp [Sense.converterInStep, hconv, hp] at hin
      | check n threshold =>
        have hhead : s.sense.queue.head? = some n := by simpa [Sense.converterInStep, hconv] using hin
        simp [Sense.converterInStep, State.withSense, hhead]

theorem State.takeReading_senseOk {s : State} (h : s.sense.Whole) (channel value : Nat) :
    (s.takeReading channel value).sense.Ok := by
  have hw : ({ s.sense with
        channels := updWhere (·.no = channel) (fun c => { c with reading := some value }) s.sense.channels } :
        Sense).Whole := by
    refine h.mapChannels (fun c => ?_) fun c _ hr => ?_
    · dsimp only
      split <;> rfl
    · dsimp only
      split <;> exact hr
  simp only [State.takeReading]
  split
  · next c _ =>
    exact Sense.Whole.choose (u := { s.sense with
        channels := updWhere (·.no = channel) (fun c => { c with reading := some value }) s.sense.channels
        position := some c }) hw _
  · exact Sense.Whole.choose (State.endPass_whole hw) _

theorem Sense.request_ok {u : Sense} (h : u.Ok) (threshold : Nat) (n : Fin 4) : (u.request threshold n).Ok := by
  obtain ⟨⟨hc, hz, hq, hr⟩, hin⟩ := (Sense.ok_iff _).1 h
  unfold Sense.request
  split
  · exact h
  · next hn =>
    have hw : ({ u with queue := u.queue ++ [n] } : Sense).Whole := by
      refine ⟨hc, hz, ?_, hr⟩
      have hmem : n ∉ u.queue := by simpa using hn
      exact List.nodup_append.2 ⟨hq, List.nodup_singleton n, fun a ha b hb hab =>
        hmem (List.mem_singleton.1 hb ▸ hab ▸ ha)⟩
    dsimp only
    split
    · next m k hconv =>
      refine (Sense.ok_iff _).2 ⟨hw, ?_⟩
      have hhead : u.queue.head? = some m := by simpa [Sense.converterInStep, hconv] using hin
      obtain ⟨rest, hrest⟩ := List.head?_eq_some_iff.1 hhead
      simp [Sense.converterInStep, hconv, hrest]
    · exact hw.choose _

theorem LightChannel.reassign_kept (p : Params) (c : LightChannel) :
    (c.reassign p).no = c.no ∧
      (c.faultyRun ≤ 4 ∧ c.goodRun ≤ 4 → (c.reassign p).faultyRun ≤ 4 ∧ (c.reassign p).goodRun ≤ 4) := by
  unfold LightChannel.reassign
  dsimp only
  split
  · exact ⟨rfl, id⟩
  · exact ⟨rfl, fun _ => ⟨Nat.zero_le 4, Nat.zero_le 4⟩⟩

theorem Sense.rset_ok {u : Sense} (h : u.Ok) (p : Params) : (u.rset p).Ok := by
  obtain ⟨hw, hin⟩ := (Sense.ok_iff _).1 h
  have hw' : ({ u with position := none, channels := u.channels.map (LightChannel.reassign p) } : Sense).Whole :=
    hw.mapChannels (fun c => (c.reassign_kept p).1) fun c _ => (c.reassign_kept p).2
  simp only [Sense.rset]
  split
  · exact hw'.choose _
  · next hlight =>
    refine (Sense.ok_iff _).2 ⟨hw', ?_⟩
    cases hconv : u.converter with
    | light c => exact absurd hconv (hlight c)
    | idle =>
      have hq : u.queue = [] ∧ u.position = none := by simpa [Sense.converterInStep, hconv] using hin
      simp [Sense.converterInStep, hq.1]
    | check n k => simpa [Sense.converterInStep, hconv] using hin

theorem freshSense_ok (p : Params) : (freshSense p).Ok := by
  refine ⟨rfl, rfl, List.nodup_nil, ?_, rfl⟩
  intro c hc
  obtain ⟨n, -, rfl⟩ := List.mem_map.1 hc
  exact ⟨Nat.zero_le 4, Nat.zero_le 4⟩

theorem State.restart_senseOk (store : Store) (pending : List Instr) : (State.restart store pending).SenseOk := by
  rw [State.senseOk_iff, State.restart_sense]
  exact freshSense_ok _

theorem State.takeDial_sense (n : Fin 4) (d : PendingDial) (s : State) : (s.takeDial n d).sense = s.sense := by
  unfold State.takeDial
  split <;> rfl

theorem State.finish_sense (s old : State) : (s.finish old).sense = s.sense :=
  congrArg Sources.sense (State.finish_sources s old)

theorem State.endImpulse_sense (l : Line) (i : Impulse) (s : State) : (s.endImpulse l i).sense = s.sense := by
  simp only [State.endImpulse]
  repeat' split
  · rfl
  · rfl
  · exact State.post_sense _ _ _ _
  · rfl

theorem timeOwner_sense (p : PortId) (n : Nat) (s : State) : (timeOwner p n s).1.sense = s.sense := by
  unfold timeOwner
  dsimp only
  repeat' split
  · rfl
  · rfl
  · exact congrArg Sources.sense (State.setClock_sources n s)
  · rfl
  · rfl
  · exact congrArg Sources.sense (State.stepClock_sources _ _ _ _)

theorem State.setParameter_sense (n v : Nat) (b : Bool) (s : State) : (s.setParameter n v b).sense = s.sense := by
  unfold State.setParameter
  dsimp only
  split <;> rfl

theorem State.afterConf_sense (n : Nat) (s old : State) : (s.afterConf n old).sense = s.sense := by
  obtain ⟨moved, hm⟩ := State.afterConf_sources n s old
  exact congrArg Sources.sense hm

theorem confOwner_sense (f : ConfFields) (s : State) : (confOwner f s).1.sense = s.sense := by
  unfold confOwner
  split
  · rfl
  · dsimp only
    split
    · exact State.setParameter_sense _ _ _ s
    · rw [State.afterConf_sense, State.setParameter_sense]

/-- R152, R156: every command keeps the sensing unit whole. -/
theorem exec_senseOk {i : Instr} {s t : State} (h : exec i s = .next t) (hs : s.SenseOk) : t.SenseOk := by
  by_cases hi : movesSources i = false
  · obtain ⟨ms, hsrc⟩ := exec_sources h hi
    have hsense : t.sense = s.sense := congrArg Sources.sense hsrc
    rw [State.senseOk_iff, hsense]
    exact hs
  have keep : ∀ u : State, u.sense = s.sense → u.SenseOk := fun u hu => by rwa [State.senseOk_iff, hu]
  cases i with
  | powerOn =>
    exact execPowerOn_rel (R := State.SenseOk) h hs (State.restart_senseOk _ _)
  | resetPin => exact State.answer_rel (R := State.SenseOk) h hs (State.restart_senseOk _ _)
  | powerLoss cut =>
    exact State.answer_rel (R := State.SenseOk) h hs (freshSense_ok Params.default)
  | time p =>
    exact State.takeWith_rel (R := State.SenseOk) h hs (fun _ _ _ hu => hu) fun n => keep _ (timeOwner_sense p n s)
  | dial p =>
    refine State.takeTel_rel (R := State.SenseOk) h hs (fun _ _ _ hu => hu) fun f => keep _ ?_
    unfold dialOwner
    split
    · rfl
    · exact State.takeDial_sense _ _ s
  | conf p =>
    exact State.takeTel_rel (R := State.SenseOk) h hs (fun _ _ _ hu => hu) fun f => keep _ (confOwner_sense f s)
  | csav p =>
    exact State.takeTel_rel (R := State.SenseOk) (owner := fun _ u => (u.saveConfiguration, Answer.accept .none))
      h hs (fun _ _ _ hu => hu) fun _ => hs
  | rset p =>
    refine State.takeTel_rel (R := State.SenseOk) (owner := fun _ u => (u.resetPicture, Answer.accept .none))
      h hs (fun _ _ _ hu => hu) fun _ => ?_
    rw [State.senseOk_iff, State.resetPicture_sense]
    exact Sense.rset_ok hs _
  | runningSecond =>
    exact State.answer_rel (R := State.SenseOk) h hs (keep _ (congrArg Sources.sense (State.second_sources s)))
  | minuteAdvance =>
    exact State.answer_ite_rel (R := State.SenseOk) h hs
      fun _ => keep _ (congrArg Sources.sense (State.second_sources s))
  | holdoverExpiry =>
    exact State.answer_ite_rel (R := State.SenseOk) h hs
      fun _ => keep _ (congrArg Sources.sense (State.enterHoldover_sources s))
  | passTrigger ms =>
    refine State.answer_ite_rel (R := State.SenseOk) h hs fun _ => ?_
    dsimp only
    split
    · exact hs
    · next hp =>
      rw [State.senseOk_iff, State.finish_sense]
      exact State.beginPass_senseOk (s := (s.atMs ms).restartScan) hs (by simpa using hp)
  | lightConversionComplete ms value =>
    refine State.answer_rel (R := State.SenseOk) h hs ?_
    split
    · rw [State.senseOk_iff, State.finish_sense]
      exact State.takeReading_senseOk (s := s.atMs ms) ((Sense.ok_iff _).1 hs).1 _ _
    · exact hs
  | lineCheckRequest ms line =>
    refine State.answer_rel (R := State.SenseOk) h hs ?_
    dsimp only
    split
    · exact Sense.request_ok hs _ _
    · exact hs
  | lineCheckComplete ms value =>
    refine State.answer_rel (R := State.SenseOk) h hs ?_
    split
    · obtain ⟨hc, hz, hq, hr⟩ := ((Sense.ok_iff _).1 hs).1
      have hw : ({ s.sense with queue := s.sense.queue.tail } : Sense).Whole :=
        ⟨hc, hz, hq.sublist (List.tail_sublist _), hr⟩
      exact hw.choose _
    · exact hs
  | nextImpulseTime ms line =>
    refine State.answer_rel (R := State.SenseOk) h hs ?_
    dsimp only
    split <;> exact hs
  | impulseEnd ms line =>
    refine State.answer_rel (R := State.SenseOk) h hs ?_
    dsimp only
    split
    · exact keep _ (State.endImpulse_sense _ _ _)
    · exact hs
  | _ => exact absurd rfl hi

end Sys2Proof.Machine
end

section
/-! The impulse lines: what every operation keeps of a line record (R165, R167 to R175), and the dial part of the store
(R176). -/
namespace Sys2Proof.Machine

open Sys2Proof

/-- The invariant of one line record (R165, R173). -/
def Line.Ok (l : Line) : Prop :=
  l.dial < 720 ∧ l.missed ≤ 3 ∧ (l.nextAt.isSome = true → l.state = .advance ∧ l.impulse = none) ∧
    (l.state = .off → l.inUse = false) ∧ (l.inUse = false → l.state = .off) ∧
    (l.impulse.isSome = true → l.state = .run ∨ l.state = .advance) ∧
    (l.impulse = none → l.result = none ∧ l.deferred = false ∧ l.pendingDial = none) ∧
    (l.state = .advance → l.impulse.isSome = true ∨ l.nextAt.isSome = true) ∧
    ∀ d ∈ l.pendingDial, d.inRange = true

theorem State.linesOk_iff (s : State) :
    s.LinesOk ↔
      (∀ d ∈ s.store.dials.contents, d.dial < 720) ∧ s.lines.map (·.no) = [0, 1, 2, 3] ∧ ∀ l ∈ s.lines, l.Ok := Iff.rfl

/-- A line with no impulse in progress, on which a decision or a DIAL may act (R168, R174). -/
def Line.Quiet (l : Line) : Prop :=
  l.dial < 720 ∧ l.missed ≤ 3 ∧ l.impulse = none ∧ l.result = none ∧ l.deferred = false ∧ l.pendingDial = none ∧
    (l.nextAt.isSome = true → l.state = .advance)

theorem Line.Ok.quiet {l : Line} (h : l.Ok) (hi : l.impulse = none) : l.Quiet := by
  obtain ⟨hd, hm, hn, -, -, -, hq, -, -⟩ := h
  exact ⟨hd, hm, hi, (hq hi).1, (hq hi).2.1, (hq hi).2.2, fun hs => (hn hs).1⟩

/-- R172: an impulse begins on a quiet line in use that is put into RUN or ADVANCE. -/
theorem Line.Quiet.begin_ok {l : Line} (h : l.Quiet) (huse : l.inUse = true) (hs : l.state = .run ∨ l.state = .advance)
    (p : Params) (now : Nat) : (l.begin p now).Ok := by
  obtain ⟨hd, hm, -, -, -, hp, -⟩ := h
  have hoff : l.state ≠ .off := by rcases hs with h | h <;> simp [h]
  refine ⟨hd, hm, nofun, fun h => absurd h hoff, fun h => ?_, fun _ => hs, nofun, fun _ => .inl rfl, ?_⟩
  · exact absurd (huse.symm.trans h) nofun
  · simp [Line.begin, hp]

/-- A quiet line in use that a decision leaves without an impulse and out of ADVANCE (R168). -/
theorem Line.Quiet.placed_ok {l : Line} (h : l.Quiet) (huse : l.inUse = true) {st : LineState} (hoff : st ≠ .off)
    (hadv : st ≠ .advance) : ({ l with state := st, nextAt := none } : Line).Ok := by
  obtain ⟨hd, hm, hi, hr, hdef, hp, -⟩ := h
  refine ⟨hd, hm, nofun, fun h => absurd h hoff, fun h => ?_, fun h => ?_, fun _ => ⟨hr, hdef, hp⟩,
    fun h => absurd h hadv, ?_⟩
  · exact absurd (huse.symm.trans h) nofun
  · simp [hi] at h
  · simp [hp]

theorem Line.Quiet.advance_ok {l : Line} (h : l.Quiet) (huse : l.inUse = true) (p : Params) (now : Nat)
    (w : DecisionTime) : (l.advance p now w).Ok := by
  have hq := h
  obtain ⟨hd, hm, hi, hr, hdef, hp, hn⟩ := h
  unfold Line.advance
  split
  · refine ⟨hd, hm, fun _ => ⟨rfl, hi⟩, nofun, fun h => ?_, fun h => ?_, fun _ => ⟨hr, hdef, hp⟩,
      fun _ => .inr rfl, ?_⟩
    · exact absurd (huse.symm.trans h) nofun
    · simp [hi] at h
    · simp [hp]
  · split
    · next hadv =>
      refine ⟨hd, hm, fun _ => ⟨hadv.1, hi⟩, fun h => ?_, fun h => ?_, fun h => ?_, fun _ => ⟨hr, hdef, hp⟩,
        fun _ => .inr hadv.2, ?_⟩
      · simp [hadv.1] at h
      · exact absurd (huse.symm.trans h) nofun
      · simp [hi] at h
      · simp [hp]
    · exact Line.Quiet.begin_ok (l := { l with state := .advance }) ⟨hd, hm, hi, hr, hdef, hp, fun _ => rfl⟩ huse
        (.inr rfl) p now

/-- R168: a decision keeps the record whole. -/
theorem Line.Quiet.decide_ok {l : Line} (h : l.Quiet) (huse : l.inUse = true) (p : Params) (unset : Bool)
    (clock now : Nat) (minute : Bool) (w : DecisionTime) : (l.decide p unset clock now minute w).Ok := by
  simp only [Line.decide]
  split
  · exact h.placed_ok huse nofun nofun
  split
  · exact h.placed_ok huse nofun nofun
  split
  · next hrun =>
    have hq : ({ l with state := .run } : Line).Quiet := by
      obtain ⟨hd, hm, hi, hr, hdef, hp, hn⟩ := h
      refine ⟨hd, hm, hi, hr, hdef, hp, fun hs => ?_⟩
      rw [hn hs] at hrun
      exact absurd hrun.2.1 nofun
    exact hq.begin_ok huse (.inl rfl) p now
  split
  · exact h.advance_ok huse p now w
  · exact h.placed_ok huse nofun nofun

theorem Line.Ok.announce_ok {l : Line} (h : l.Ok) (p : Params) (unset : Bool) (clock now : Nat) (minute : Bool) :
    (l.announce p unset clock now minute).Ok := by
  unfold Line.announce
  split
  · exact h
  · next hact =>
    have huse : l.inUse = true := by
      cases hu : l.inUse with
      | true => rfl
      | false => exact absurd (h.2.2.2.2.1 hu) fun hoff => hact (.inl hoff)
    split
    · next hi =>
      obtain ⟨hd, hm, hn, ho, hu, hs, -, hadv, hp⟩ := h
      refine ⟨hd, hm, hn, ho, hu, hs, fun hnone => ?_, hadv, hp⟩
      simp [show l.impulse = none from hnone] at hi
    · next hi =>
      have hnone : l.impulse = none := by simpa using hi
      exact (h.quiet hnone).decide_ok huse p unset clock now minute .between

/-- R174: a DIAL acting on a quiet line. -/
theorem Line.Quiet.applyDial_ok {l : Line} (h : l.Quiet) {d : PendingDial} (hd : d.inRange = true) (p : Params)
    (unset : Bool) (clock now : Nat) (w : DecisionTime) : (l.applyDial p unset clock now w d).Ok := by
  obtain ⟨hdial, hm, hi, hr, hdef, hp, hn⟩ := h
  cases d with
  | set position polarity =>
    have hq : ({ l with
        dial := position, polarity := polarity, missed := 0, inUse := true
        nextAt := if Config.dialKeepsNext then l.nextAt else none } : Line).Quiet := by
      refine ⟨by simpa [PendingDial.inRange] using hd, Nat.zero_le 3, hi, hr, hdef, hp, fun hs => ?_⟩
      cases hk : Config.dialKeepsNext with
      | true => exact hn (by simpa [hk] using hs)
      | false => simp [hk] at hs
    exact hq.decide_ok rfl p unset clock now false w
  | off =>
    refine ⟨hdial, hm, nofun, fun _ => rfl, fun _ => rfl, fun h => ?_, fun _ => ⟨hr, hdef, hp⟩, nofun, ?_⟩
    · simp [Line.applyDial, hi] at h
    · simp [Line.applyDial, hp]

theorem Line.Ok.clearImpulse_quiet {l : Line} (h : l.Ok) : l.clearImpulse.Quiet :=
  ⟨h.1, h.2.1, rfl, rfl, rfl, rfl, fun hs => (h.2.2.1 hs).1⟩

theorem Line.Ok.delivered_quiet {l : Line} (h : l.Ok) : l.delivered.clearImpulse.Quiet :=
  ⟨Nat.mod_lt _ (by decide), Nat.zero_le 3, rfl, rfl, rfl, rfl, fun hs => (h.2.2.1 hs).1⟩

theorem Line.Ok.missedOne_quiet {l : Line} (h : l.Ok) : l.missedOne.clearImpulse.Quiet := by
  unfold Line.missedOne
  split
  · exact ⟨h.1, Nat.le_refl 3, rfl, rfl, rfl, rfl, nofun⟩
  · exact ⟨h.1, by simp only [Line.clearImpulse]; omega, rfl, rfl, rfl, rfl, fun hs => (h.2.2.1 hs).1⟩

/-- A line with an impulse is in use and runs or advances (R172). -/
theorem Line.Ok.of_impulse {l : Line} (h : l.Ok) {i : Impulse} (hi : l.impulse = some i) :
    l.inUse = true ∧ (l.state = .run ∨ l.state = .advance) ∧ l.nextAt = none := by
  obtain ⟨-, -, hn, -, hu, hs, -, -, -⟩ := h
  have hrun : l.state = .run ∨ l.state = .advance := hs (by simp [hi])
  refine ⟨?_, hrun, ?_⟩
  · cases hl : l.inUse with
    | true => rfl
    | false => rcases hrun with h | h <;> simp [hu hl] at h
  · cases hl : l.nextAt with
    | none => rfl
    | some n => simp [hi] at hn; simp [hn] at hl

/-- R173: the decision of step 4, or none in FAULT or where none is called for. -/
theorem Line.Quiet.decideAtEnd_ok {x : Line} (h : x.Quiet) (huse : x.inUse = true) (hnext : x.nextAt = none)
    (hoff : x.state ≠ .off) (p : Params) (unset : Bool) (clock now : Nat) (i : Impulse) (before : Line) :
    (Line.decideAtEnd p unset clock now i before x).Ok := by
  unfold Line.decideAtEnd
  split
  · exact h.decide_ok huse p unset clock now _ _
  · next hno =>
    have hadv : x.state ≠ .advance := fun ha => hno ⟨by simp [ha], hoff, .inl ha⟩
    have hx : ({ x with state := x.state, nextAt := none } : Line) = x := by rw [← hnext]
    have := h.placed_ok huse hoff hadv
    rwa [hx] at this

/-! ## The lines of a state -/

theorem State.line?_mem {s : State} {n : Fin 4} {l : Line} (h : s.line? n = some l) : l ∈ s.lines ∧ l.no = n := by
  have hno := List.find?_some h
  exact ⟨List.mem_of_find?_eq_some h, by simpa using hno⟩

/-- The lines' numbers are distinct, so the record found is the only one of its number. -/
theorem State.line_unique {s : State} (h : s.lines.map (·.no) = [0, 1, 2, 3]) {n : Fin 4} {l x : Line}
    (hl : s.line? n = some l) (hx : x ∈ s.lines) (hn : x.no = n) : x = l := by
  obtain ⟨hmem, hno⟩ := State.line?_mem hl
  have hnodup : (s.lines.map (·.no)).Nodup := by rw [h]; decide
  exact List.inj_on_of_nodup_map hnodup hx hmem (hn.trans hno.symm)

/-- A change of one line that keeps its number and leaves a whole record keeps all of them. -/
theorem State.LinesOk.updLine {s : State} (h : s.LinesOk) {n : Fin 4} {f : Line → Line} (hno : ∀ l, (f l).no = l.no)
    (hf : ∀ l ∈ s.lines, l.no = n → (f l).Ok) : (s.updLine n f).LinesOk := by
  obtain ⟨hd, hn, hl⟩ := (State.linesOk_iff s).1 h
  refine (State.linesOk_iff _).2 ⟨hd, ?_, ?_⟩
  · rw [← hn]
    exact map_updWhere (·.no) _ f hno s.lines
  · intro l hmem
    obtain ⟨x, hx, rfl⟩ := List.mem_map.1 hmem
    split
    · next hxn => exact hf x hx (by simpa using hxn)
    · exact hl x hx

theorem State.LinesOk.writeDials {s : State} (h : s.LinesOk) : s.writeDials.LinesOk := by
  obtain ⟨-, hn, hl⟩ := (State.linesOk_iff s).1 h
  refine (State.linesOk_iff _).2 ⟨fun d hd => ?_, hn, hl⟩
  obtain ⟨l, hmem, rfl⟩ := List.mem_map.1 hd
  exact (hl l hmem).1

theorem State.LinesOk.of_eq {s t : State} (h : s.LinesOk) (hl : t.lines = s.lines)
    (hs : t.store.dials.contents = s.store.dials.contents) : t.LinesOk := by
  rw [State.linesOk_iff, hl, hs]
  exact h

theorem State.LinesOk.announced {s t : State} (h : s.LinesOk) (p : Params) (x : TimeBase) (minute : Bool)
    (hl : t.lines = announcedLines p x minute s.lines) (hs : t.store = s.store) : t.LinesOk := by
  obtain ⟨hd, hn, hok⟩ := (State.linesOk_iff s).1 h
  have hno : ∀ l : Line, (l.announce p (x.state = .unset) x.clock (x.runMs + x.subMs) minute).no = l.no := by
    intro l
    unfold Line.announce Line.decide Line.advance
    dsimp only
    repeat' split
    all_goals rfl
  rw [State.linesOk_iff, hl, hs]
  refine ⟨hd, ?_, ?_⟩
  · rw [← hn]
    simp only [announcedLines, List.map_map]
    exact List.map_congr_left fun l _ => hno l
  · intro l hmem
    obtain ⟨y, hy, rfl⟩ := List.mem_map.1 hmem
    exact (hok y hy).announce_ok p _ _ _ minute

theorem Line.decide_no (p : Params) (unset : Bool) (clock now : Nat) (minute : Bool) (w : DecisionTime) (l : Line) :
    (l.decide p unset clock now minute w).no = l.no := by
  unfold Line.decide Line.advance
  dsimp only
  repeat' split
  all_goals rfl

theorem Line.applyDial_no (p : Params) (unset : Bool) (clock now : Nat) (w : DecisionTime) (d : PendingDial)
    (l : Line) : (l.applyDial p unset clock now w d).no = l.no := by
  cases d
  · exact Line.decide_no _ _ _ _ _ _ _
  · rfl

theorem Line.decideAtEnd_no (p : Params) (unset : Bool) (clock now : Nat) (i : Impulse) (before x : Line) :
    (Line.decideAtEnd p unset clock now i before x).no = x.no := by
  unfold Line.decideAtEnd
  split
  · exact Line.decide_no _ _ _ _ _ _ _
  · rfl

theorem State.takeDial_linesOk {s : State} (h : s.LinesOk) (n : Fin 4) {d : PendingDial} (hd : d.inRange = true) :
    (s.takeDial n d).LinesOk := by
  obtain ⟨-, hn, hl⟩ := (State.linesOk_iff s).1 h
  unfold State.takeDial
  split
  · next hany =>
    refine h.updLine (fun _ => rfl) fun l hmem hno => ?_
    obtain ⟨x, hx, hxi⟩ : ∃ x, s.line? n = some x ∧ x.impulse.isSome = true := by
      cases hf : s.line? n with
      | none => simp [hf] at hany
      | some x => exact ⟨x, rfl, by simpa [hf] using hany⟩
    have hlx : l = x := State.line_unique hn hx hmem hno
    subst hlx
    obtain ⟨a, b, c, e, f, g, -, k, -⟩ := hl l hmem
    refine ⟨a, b, c, e, f, g, fun hnone => ?_, k, ?_⟩
    · simp [show l.impulse = none from hnone] at hxi
    · intro d' hd'
      cases hd'
      exact hd
  · next hany =>
    refine State.LinesOk.writeDials (h.updLine (fun l => Line.applyDial_no _ _ _ _ _ _ l) fun l hmem hno => ?_)
    have hnone : l.impulse = none := by
      cases hf : s.line? n with
      | none =>
        have := List.find?_eq_none.1 hf l hmem
        simp [hno] at this
      | some x =>
        rw [State.line_unique hn hf hmem hno]
        simpa [hf] using hany
    exact ((hl l hmem).quiet hnone).applyDial_ok hd _ _ _ _ _

theorem State.endImpulse_linesOk {s : State} (h : s.LinesOk) {n : Fin 4} {l : Line} (hl : s.line? n = some l)
    {i : Impulse} (hi : l.impulse = some i) : (s.endImpulse l i).LinesOk := by
  obtain ⟨hdials, hn, hok⟩ := (State.linesOk_iff s).1 h
  obtain ⟨hmem, hno⟩ := State.line?_mem hl
  have honly : ∀ x ∈ s.lines, x.no = l.no → x = l :=
    fun x hx hxn => State.line_unique hn hl hx (hxn.trans hno)
  have hlok := hok l hmem
  obtain ⟨huse, hrun, hnext⟩ := hlok.of_impulse hi
  have hoff : l.state ≠ .off := by rcases hrun with h | h <;> simp [h]
  simp only [State.endImpulse]
  split
  · next d hd =>
    refine State.LinesOk.writeDials ((State.linesOk_iff _).2 ⟨hdials, ?_, ?_⟩)
    · rw [← hn]
      refine (map_updWhere (·.no) _ _ (fun x => Line.applyDial_no _ _ _ _ _ _ x) _).trans ?_
      exact map_updWhere (·.no) _ Line.clearImpulse (fun _ => rfl) s.lines
    · intro y hy
      obtain ⟨z, hz, rfl⟩ := List.mem_map.1 hy
      obtain ⟨x, hx, rfl⟩ := List.mem_map.1 hz
      by_cases hxn : x.no = l.no
      · have hc : x.clearImpulse.no = l.no := hxn
        simp only [hxn, hc, decide_true, if_true]
        rw [honly x hx hxn]
        refine hlok.clearImpulse_quiet.applyDial_ok ?_ _ _ _ _ _
        exact hlok.2.2.2.2.2.2.2.2 d hd
      · simpa [hxn] using hok x hx
  · split
    · refine (State.linesOk_iff _).2 ⟨?_, ?_, ?_⟩
      · intro d hd
        obtain ⟨y, hy, rfl⟩ := List.mem_map.1 hd
        obtain ⟨x, hx, rfl⟩ := List.mem_map.1 hy
        split
        · exact Nat.mod_lt _ (by decide)
        · exact (hok x hx).1
      · rw [← hn]
        refine (map_updWhere (·.no) _ (fun x : Line => Line.decideAtEnd _ _ _ _ i l x.clearImpulse)
          (fun x => Line.decideAtEnd_no _ _ _ _ _ _ _) _).trans ?_
        exact map_updWhere (·.no) _ Line.delivered (fun _ => rfl) s.lines
      · intro y hy
        obtain ⟨z, hz, rfl⟩ := List.mem_map.1 hy
        obtain ⟨x, hx, rfl⟩ := List.mem_map.1 hz
        by_cases hxn : x.no = l.no
        · have hc : x.delivered.no = l.no := hxn
          simp only [hxn, hc, decide_true, if_true]
          rw [honly x hx hxn]
          exact hlok.delivered_quiet.decideAtEnd_ok huse hnext hoff _ _ _ _ _ _
        · simpa [hxn] using hok x hx
    · have hupd : (s.updLine l.no fun x =>
          Line.decideAtEnd s.inForce (s.time.state = .unset) s.time.clock s.runTime i l
            x.missedOne.clearImpulse).LinesOk := by
        refine h.updLine (fun x => ?_) fun x hx hxn => ?_
        · rw [Line.decideAtEnd_no]
          unfold Line.missedOne
          split <;> rfl
        · rw [honly x hx hxn]
          refine hlok.missedOne_quiet.decideAtEnd_ok ?_ ?_ ?_ _ _ _ _ _ _
          all_goals
            unfold Line.missedOne
            split
          · exact huse
          · exact huse
          · rfl
          · exact hnext
          · exact nofun
          · exact hoff
      split
      · exact hupd.of_eq (State.post_lines _ _ _ _) (by rw [State.post_store])
      · exact hupd

theorem loadLines_ok (part : StoredPart (List DialEntry)) (h : ∀ d ∈ part.contents, d.dial < 720) :
    (loadLines part).map (·.no) = [0, 1, 2, 3] ∧ ∀ l ∈ loadLines part, l.Ok := by
  have hfault : ∀ n, (Line.faulted n).Ok := fun n =>
    ⟨Nat.zero_lt_succ 719, Nat.le_refl 3, nofun, nofun, nofun, nofun, fun _ => ⟨rfl, rfl, rfl⟩, nofun, nofun⟩
  have hno : ∀ n : Fin 4, (match part.good, part.contents[n.val]? with
      | true, some d => loadedLine n d
      | _, _ => Line.faulted n).no = n := by
    intro n
    split <;> rfl
  refine ⟨?_, fun l hl => ?_⟩
  · simp only [loadLines, List.map_map]
    exact (List.map_congr_left fun n _ => hno n).trans (List.map_id _)
  · obtain ⟨n, -, rfl⟩ := List.mem_map.1 hl
    split
    · next d _ hd =>
      have hdial : d.dial < 720 := h d (List.mem_of_getElem? hd)
      refine ⟨hdial, Nat.zero_le 3, nofun, ?_, ?_, nofun, fun _ => ⟨rfl, rfl, rfl⟩, ?_, nofun⟩
      all_goals cases hu : d.inUse <;> simp [loadedLine, hu]
    · exact hfault n

theorem State.restart_linesOk {s : State} (h : s.LinesOk) : (State.restart s.store s.pending).LinesOk := by
  rw [State.linesOk_iff, State.restart_lines, State.restart_store]
  exact ⟨h.1, loadLines_ok s.store.dials h.1⟩

theorem State.losePower_linesOk {s : State} (h : s.LinesOk) (cut : Option StorePart) : (s.losePower cut).LinesOk := by
  have hcut : (s.losePower cut).store.dials.contents = s.store.dials.contents := by
    cases cut with
    | none => rfl
    | some part => cases part <;> rfl
  rw [State.linesOk_iff, hcut]
  exact ⟨h.1, loadLines_ok { contents := [], good := false } nofun⟩

theorem timeOwner_lines (p : PortId) (n : Nat) (s : State) :
    ((timeOwner p n s).1.lines = s.lines ∨
        ∃ x, (timeOwner p n s).1.lines = announcedLines s.inForce x false s.lines) ∧
      (timeOwner p n s).1.store = s.store := by
  unfold timeOwner
  dsimp only
  repeat' split
  · exact ⟨.inl rfl, rfl⟩
  · exact ⟨.inl rfl, rfl⟩
  · exact ⟨.inr ⟨_, congrArg Sources.lines (State.setClock_sources n s)⟩,
      congrArg Sources.store (State.setClock_sources n s)⟩
  · exact ⟨.inl rfl, rfl⟩
  · exact ⟨.inl rfl, rfl⟩
  · exact ⟨.inr ⟨_, congrArg Sources.lines (State.stepClock_sources n _ p s)⟩,
      congrArg Sources.store (State.stepClock_sources n _ p s)⟩

theorem State.second_linesOk {s : State} (h : s.LinesOk) : s.second.LinesOk := by
  have hl := congrArg Sources.lines (State.second_sources s)
  have hs : s.second.store = s.store := congrArg Sources.store (State.second_sources s)
  dsimp only at hl
  split at hl
  · exact h.announced _ _ _ hl hs
  · exact h.of_eq hl (by rw [hs])

theorem State.setParameter_lines (n v : Nat) (b : Bool) (s : State) :
    (s.setParameter n v b).lines = s.lines ∧ (s.setParameter n v b).store = s.store := by
  unfold State.setParameter
  dsimp only
  split <;> exact ⟨rfl, rfl⟩

theorem confOwner_lines (f : ConfFields) (s : State) :
    (confOwner f s).1.lines = s.lines ∧ (confOwner f s).1.store = s.store := by
  unfold confOwner
  split
  · exact ⟨rfl, rfl⟩
  · next row _ =>
    dsimp only
    split
    · exact State.setParameter_lines _ _ _ s
    · obtain ⟨moved, hm⟩ :=
        State.afterConf_sources f.number (s.setParameter f.number (row.range.nearest f.value) row.structural) s
      obtain ⟨hl, hs⟩ := State.setParameter_lines f.number (row.range.nearest f.value) row.structural s
      exact ⟨(congrArg Sources.lines hm).trans hl, (congrArg Sources.store hm).trans hs⟩

theorem State.endPass_lines (s : State) : s.endPass.lines = s.lines ∧ s.endPass.store = s.store := by
  have hl : s.classifyChannels.lines = s.lines :=
    foldl_keeps State.lines (fun t n => t.post [.planning] .sensorFault (.light n))
      (fun t _ => State.post_lines _ _ _ t) _ _
  have hs : s.classifyChannels.store = s.store :=
    foldl_keeps State.store (fun t n => t.post [.planning] .sensorFault (.light n))
      (fun t _ => State.post_store _ _ _ t) _ _
  exact ⟨hl, hs⟩

theorem State.beginPass_lines (s : State) : s.beginPass.lines = s.lines ∧ s.beginPass.store = s.store := by
  simp only [State.beginPass]
  split
  · exact State.endPass_lines s
  · split <;> exact ⟨rfl, rfl⟩

theorem State.takeReading_lines (channel value : Nat) (s : State) :
    (s.takeReading channel value).lines = s.lines ∧ (s.takeReading channel value).store = s.store := by
  simp only [State.takeReading]
  split
  · exact ⟨rfl, rfl⟩
  · exact State.endPass_lines _

theorem State.finish_lines (s old : State) : (s.finish old).lines = s.lines ∧ (s.finish old).store = s.store :=
  ⟨congrArg Sources.lines (State.finish_sources s old), congrArg Sources.store (State.finish_sources s old)⟩

theorem DialFields.dial_inRange {f : DialFields} (h : firstBad (dialChecks f) = none) : f.dial.inRange = true := by
  have hall : (dialChecks f).find? (fun c => !c.2) = none := by simpa [firstBad] using h
  have h3 := List.find?_eq_none.1 hall (3, f.setting.all (·.1 ≤ 719)) (by simp [dialChecks])
  cases hs : f.setting with
  | none => simp [DialFields.dial, hs, PendingDial.inRange]
  | some c =>
    have hc : c.1 ≤ 719 := by simpa [hs] using h3
    simp only [DialFields.dial, hs, PendingDial.inRange, decide_eq_true_eq]
    omega

/-- R165, R173 to R176: every command keeps the line records and the stored dials whole. -/
theorem exec_linesOk {i : Instr} {s t : State} (h : exec i s = .next t) (hs : s.LinesOk) : t.LinesOk := by
  by_cases hi : movesSources i = false
  · obtain ⟨ms, hsrc⟩ := exec_sources h hi
    exact hs.of_eq (State.lines_of_sources (s := s.atMs ms) hsrc)
      (by rw [State.store_of_sources (s := s.atMs ms) hsrc]; rfl)
  have keep : ∀ u : State, u.lines = s.lines ∧ u.store = s.store → u.LinesOk :=
    fun u hu => hs.of_eq hu.1 (by rw [hu.2])
  cases i with
  | powerOn => exact execPowerOn_rel (R := State.LinesOk) h hs (State.restart_linesOk hs)
  | resetPin => exact State.answer_rel (R := State.LinesOk) h hs (State.restart_linesOk hs)
  | powerLoss cut => exact State.answer_rel (R := State.LinesOk) h hs (State.losePower_linesOk hs cut)
  | time p =>
    refine State.takeWith_rel (R := State.LinesOk) h hs (fun _ _ _ hu => hu) fun n => ?_
    obtain ⟨hl | ⟨x, hl⟩, hst⟩ := timeOwner_lines p n s
    · exact keep _ ⟨hl, hst⟩
    · exact hs.announced _ _ _ hl hst
  | dial p =>
    refine State.takeTel_rel (R := State.LinesOk) h hs (fun _ _ _ hu => hu) fun f => ?_
    unfold dialOwner
    split
    · exact hs
    · next hck => exact State.takeDial_linesOk hs _ (DialFields.dial_inRange hck)
  | conf p =>
    exact State.takeTel_rel (R := State.LinesOk) h hs (fun _ _ _ hu => hu) fun f => keep _ (confOwner_lines f s)
  | csav p =>
    exact State.takeTel_rel (R := State.LinesOk) (owner := fun _ u => (u.saveConfiguration, Answer.accept .none))
      h hs (fun _ _ _ hu => hu) fun _ => hs
  | rset p =>
    exact State.takeTel_rel (R := State.LinesOk) (owner := fun _ u => (u.resetPicture, Answer.accept .none))
      h hs (fun _ _ _ hu => hu) fun _ => keep _ ⟨State.resetPicture_lines s, State.resetPicture_store s⟩
  | runningSecond => exact State.answer_rel (R := State.LinesOk) h hs (State.second_linesOk hs)
  | minuteAdvance => exact State.answer_ite_rel (R := State.LinesOk) h hs fun _ => State.second_linesOk hs
  | holdoverExpiry =>
    exact State.answer_ite_rel (R := State.LinesOk) h hs fun _ => keep _
      ⟨congrArg Sources.lines (State.enterHoldover_sources s), congrArg Sources.store (State.enterHoldover_sources s)⟩
  | passTrigger ms =>
    refine State.answer_ite_rel (R := State.LinesOk) h hs fun _ => ?_
    dsimp only
    split
    · exact hs
    · obtain ⟨hl, hst⟩ := State.finish_lines (s.atMs ms).restartScan.beginPass s
      obtain ⟨hl', hst'⟩ := State.beginPass_lines (s.atMs ms).restartScan
      exact keep _ ⟨hl.trans hl', hst.trans hst'⟩
  | lightConversionComplete ms value =>
    refine State.answer_rel (R := State.LinesOk) h hs ?_
    split
    · next c _ =>
      obtain ⟨hl, hst⟩ := State.finish_lines ((s.atMs ms).takeReading c value.toNat) s
      obtain ⟨hl', hst'⟩ := State.takeReading_lines c value.toNat (s.atMs ms)
      exact keep _ ⟨hl.trans hl', hst.trans hst'⟩
    · exact hs
  | lineCheckRequest ms line =>
    refine State.answer_rel (R := State.LinesOk) h hs ?_
    dsimp only
    split
    · refine State.LinesOk.updLine (s := s.atMs ms) hs (fun _ => rfl) fun l hmem _ => ?_
      have hl := hs.2.2 l hmem
      cases hli : l.impulse <;> simpa [Line.Ok, Line.asked, hli] using hl
    · exact hs
  | lineCheckComplete ms value =>
    refine State.answer_rel (R := State.LinesOk) h hs ?_
    split
    · refine State.LinesOk.updLine (s := s.atMs ms) hs (fun l => ?_) fun l hmem _ => ?_
      · unfold Line.takeResult
        split <;> rfl
      · have hl := hs.2.2 l hmem
        unfold Line.takeResult
        split
        · next hli =>
          have hne : l.impulse ≠ none := Option.isSome_iff_ne_none.1 hli
          obtain ⟨a, b, c, d, e, f, -, g, k⟩ := hl
          exact ⟨a, b, c, d, e, f, fun hnone => absurd hnone hne, g, k⟩
        · exact hl
    · exact hs
  | nextImpulseTime ms line =>
    refine State.answer_rel (R := State.LinesOk) h hs ?_
    dsimp only
    split
    · next hdue =>
      refine State.LinesOk.updLine (s := s.atMs ms) hs (fun _ => rfl) fun l hmem hno => ?_
      have hl : l.Ok := hs.2.2 l hmem
      obtain ⟨x, hx, hdue⟩ : ∃ x, s.line? line = some x ∧ x.nextIsDue (s.atMs ms).runTime = true := by
        cases hf : s.line? line with
        | none =>
          have hf' : (s.atMs ms).line? line = none := hf
          simp [hf'] at hdue
        | some x =>
          have hf' : (s.atMs ms).line? line = some x := hf
          exact ⟨x, rfl, by simpa [hf'] using hdue⟩
      rw [State.line_unique hs.2.1 hx hmem hno] at hl ⊢
      simp only [Line.nextIsDue, Bool.and_eq_true, decide_eq_true_eq, Option.isNone_iff_eq_none] at hdue
      have huse : x.inUse = true := by
        cases hu : x.inUse with
        | true => rfl
        | false => exact absurd (hdue.1.1.symm.trans (hl.2.2.2.2.1 hu)) nofun
      exact (hl.quiet hdue.1.2).begin_ok huse (.inr hdue.1.1) _ _
    · exact hs
  | impulseEnd ms line =>
    refine State.answer_rel (R := State.LinesOk) h hs ?_
    dsimp only
    split
    · next l i hend =>
      obtain ⟨x, hx, hxi⟩ := Option.bind_eq_some_iff.1 hend
      obtain ⟨j, hj, hpair⟩ := Option.map_eq_some_iff.1 hxi
      cases hpair
      exact State.endImpulse_linesOk (s := s.atMs ms) hs hx (Option.filter_eq_some_iff.1 hj).1
    · exact hs
  | _ => exact absurd rfl hi

end Sys2Proof.Machine
end

section
/-! The parameters: what setting one leaves of the others, the nearest value of a range, and that every command keeps the
three copies in range (R188, R189, R198). -/
namespace Sys2Proof.Machine

open Sys2Proof

/-! ## The numbers of the parameter table -/

/-- The numbers of the parameters that hold one value coded as CONF codes it (R198). -/
def plainNumbers : List Nat := [1, 2, 4] ++ timingTable.map (·.1)

/-- The numbers of the parameters held in a list (R198). -/
def listedNumber (n : Nat) : Bool := (10 ≤ n && n ≤ 17) || (101 ≤ n && n ≤ 160) || (201 ≤ n && n ≤ 260)

theorem listedNumber_iff (n : Nat) :
    listedNumber n = true ↔ (10 ≤ n ∧ n ≤ 17) ∨ (101 ≤ n ∧ n ≤ 160) ∨ (201 ≤ n ∧ n ≤ 260) := by
  simp [listedNumber, or_assoc]

/-- R198: the table gives the plain numbers, 3 (the time port), and the listed ones. -/
theorem number_of_paramRow {n : Nat} {row : ParamRow} (h : paramRow n = some row) :
    n ∈ plainNumbers ∨ n = 3 ∨ listedNumber n = true := by
  unfold paramRow at h
  rw [listedNumber_iff]
  split_ifs at h with h1 h2 h3 h4
  · exact .inl (by simp [plainNumbers, h1])
  · exact .inl (by simp [plainNumbers, h2])
  · exact .inr (.inl h3)
  · exact .inl (by simp [plainNumbers, h4])
  · omega
  · omega
  · omega
  · obtain ⟨x, hx, -⟩ := Option.map_eq_some_iff.1 h
    have hn : x.1 = n := by simpa using List.find?_some hx
    exact .inl (List.mem_append_right _ (List.mem_map.2 ⟨x, List.mem_of_find?_eq_some hx, hn⟩))

theorem plain_not_listed : ∀ n ∈ plainNumbers, listedNumber n = false ∧ n ≠ 3 := by decide

/-- The value of a listed parameter, which its list alone gives (R198). -/
def Params.listValue (p : Params) (n : Nat) : Nat :=
  if n ≤ 17 then p.lightZones.getD (n - 10) 0
  else if n ≤ 160 then roleCode (p.roles.getD (n - 101) .none)
  else p.panelZones.getD (n - 201) 0

/-- The tests that place a listed number in its range, each as the model writes it. -/
theorem listedNumber_cases {n : Nat} (h : listedNumber n = true) :
    ((10 ≤ n ∧ n ≤ 17) ∧ n ≤ 17) ∨ (¬(10 ≤ n ∧ n ≤ 17) ∧ ¬n ≤ 17 ∧ (101 ≤ n ∧ n ≤ 160) ∧ n ≤ 160) ∨
      (¬(10 ≤ n ∧ n ≤ 17) ∧ ¬n ≤ 17 ∧ ¬(101 ≤ n ∧ n ≤ 160) ∧ ¬n ≤ 160 ∧ 201 ≤ n ∧ n ≤ 260) := by
  rw [listedNumber_iff] at h
  omega

theorem Params.value_listed {n : Nat} (h : listedNumber n = true) (p : Params) : p.value n = p.listValue n := by
  have hn := listedNumber_cases h
  unfold Params.value
  split
  case h_41 =>
    unfold Params.listValue
    obtain ⟨h1, h2⟩ | ⟨h1, h2, h3, h4⟩ | ⟨h1, h2, h3, h4, h5⟩ := hn
    · rw [if_pos h1, if_pos h2]
    · rw [if_neg h1, if_neg h2, if_pos h3, if_pos h4]
    · rw [if_neg h1, if_neg h2, if_neg h3, if_neg h4, if_pos h5]
  all_goals cases h

theorem Params.setNumber_listed {n : Nat} (h : listedNumber n = true) (v : Nat) (p : Params) :
    p.setNumber n v =
      if n ≤ 17 then { p with lightZones := p.lightZones.set (n - 10) v }
      else if n ≤ 160 then { p with roles := p.roles.set (n - 101) (roleOfCode v) }
      else { p with panelZones := p.panelZones.set (n - 201) v } := by
  have hn := listedNumber_cases h
  unfold Params.setNumber
  split
  case h_41 =>
    obtain ⟨h1, h2⟩ | ⟨h1, h2, h3, h4⟩ | ⟨h1, h2, h3, h4, h5⟩ := hn
    · rw [if_pos h1, if_pos h2]
    · rw [if_neg h1, if_neg h2, if_pos h3, if_pos h4]
    · rw [if_neg h1, if_neg h2, if_neg h3, if_neg h4, if_pos h5]
  all_goals cases h

/-! ## Setting one parameter -/

/-- Pointwise, from one evaluation over the numbers of the table. -/
theorem forall_mem_of_map_eq {α β : Type} {f g : α → β} {l : List α} (h : l.map f = l.map g) : ∀ a ∈ l, f a = g a :=
  List.map_inj_left.1 h

theorem Params.value_setNumber_plain (p : Params) (v : Nat) :
    ∀ n ∈ plainNumbers, ∀ m ∈ 3 :: plainNumbers, (p.setNumber n v).value m = if m = n then v else p.value m := by
  have h : (plainNumbers.map fun n => (3 :: plainNumbers).map fun m => (p.setNumber n v).value m) =
      plainNumbers.map fun n => (3 :: plainNumbers).map fun m => if m = n then v else p.value m := rfl
  exact fun n hn => forall_mem_of_map_eq (forall_mem_of_map_eq h n hn)

theorem Params.lists_setNumber_plain (p : Params) (v : Nat) :
    ∀ n ∈ plainNumbers, (p.setNumber n v).lightZones = p.lightZones ∧ (p.setNumber n v).roles = p.roles ∧
      (p.setNumber n v).panelZones = p.panelZones ∧ (p.setNumber n v).timePort = p.timePort := by
  have h : (plainNumbers.map fun n => ((p.setNumber n v).lightZones, (p.setNumber n v).roles,
        (p.setNumber n v).panelZones, (p.setNumber n v).timePort)) =
      plainNumbers.map fun _ => (p.lightZones, p.roles, p.panelZones, p.timePort) := rfl
  simpa using forall_mem_of_map_eq h

theorem Params.value_withLists (p : Params) (a : List Nat) (b : List Role) (c : List Nat) :
    ∀ m ∈ 3 :: plainNumbers, ({ p with lightZones := a, roles := b, panelZones := c } : Params).value m = p.value m := by
  have h : ((3 :: plainNumbers).map fun m =>
        ({ p with lightZones := a, roles := b, panelZones := c } : Params).value m) =
      (3 :: plainNumbers).map fun m => p.value m := rfl
  exact forall_mem_of_map_eq h

theorem Params.value_withTimePort (p : Params) (q : PortId) :
    ∀ m ∈ plainNumbers, ({ p with timePort := q } : Params).value m = p.value m := by
  have h : (plainNumbers.map fun m => ({ p with timePort := q } : Params).value m) =
      plainNumbers.map fun m => p.value m := rfl
  exact forall_mem_of_map_eq h

/-- R198: the row of a listed number is that of its range. -/
theorem paramRow_listed {n : Nat} (h : listedNumber n = true) :
    paramRow n = some (if n ≤ 17 then ⟨.span 0 4, true⟩ else if n ≤ 160 then ⟨.role, true⟩ else ⟨.span 1 4, true⟩) := by
  have hlow : n ≠ 1 ∧ n ≠ 2 ∧ n ≠ 3 ∧ n ≠ 4 := by
    rw [listedNumber_iff] at h
    omega
  unfold paramRow
  rw [if_neg hlow.1, if_neg hlow.2.1, if_neg hlow.2.2.1, if_neg hlow.2.2.2]
  obtain ⟨h1, h2⟩ | ⟨h1, h2, h3, h4⟩ | ⟨h1, h2, h3, h4, h5⟩ := listedNumber_cases h
  · rw [if_pos h1, if_pos h2]
  · rw [if_neg h1, if_neg h2, if_pos h3, if_pos h4]
  · rw [if_neg h1, if_neg h2, if_neg h3, if_neg h4, if_pos h5]

theorem getD_set_ne {α : Type} {l : List α} {i j : Nat} {v d : α} (h : i ≠ j) : (l.set i v).getD j d = l.getD j d := by
  simp [h]

theorem getD_set_same {α : Type} {l : List α} {i : Nat} {v d : α} (h : i < l.length) : (l.set i v).getD i d = v := by
  simp [h]

/-- R189: CONF moves no parameter but the one that it names. -/
theorem Params.value_setNumber_other {n m : Nat} {rn rm : ParamRow} (hn : paramRow n = some rn)
    (hm : paramRow m = some rm) (hne : m ≠ n) (p : Params) (v : Nat) : (p.setNumber n v).value m = p.value m := by
  obtain hn | rfl | hn := number_of_paramRow hn <;> obtain hm | rfl | hm := number_of_paramRow hm
  · rw [Params.value_setNumber_plain p v n hn m (List.mem_cons_of_mem _ hm), if_neg hne]
  · rw [Params.value_setNumber_plain p v n hn 3 (List.mem_cons_self ..), if_neg hne]
  · obtain ⟨hlight, hroles, hzones, -⟩ := Params.lists_setNumber_plain p v n hn
    rw [Params.value_listed hm, Params.value_listed hm, Params.listValue, Params.listValue, hlight, hroles, hzones]
  · exact Params.value_withTimePort p _ m hm
  · exact absurd rfl hne
  · rw [Params.value_listed hm, Params.value_listed hm]
    rfl
  all_goals rw [Params.setNumber_listed hn]
  · split_ifs
    exacts [Params.value_withLists p _ p.roles p.panelZones m (List.mem_cons_of_mem _ hm),
      Params.value_withLists p p.lightZones _ p.panelZones m (List.mem_cons_of_mem _ hm),
      Params.value_withLists p p.lightZones p.roles _ m (List.mem_cons_of_mem _ hm)]
  · split_ifs <;> rfl
  · rw [Params.value_listed hm, Params.value_listed hm]
    have hn' := (listedNumber_iff n).1 hn
    have hm' := (listedNumber_iff m).1 hm
    unfold Params.listValue
    split_ifs <;> simp (disch := omega) only [getD_set_ne]

/-! ## The value set, and the nearest value of a range -/

theorem roleCode_roleOfCode {v : Nat} (h : ParamRange.role.holds v = true) : roleCode (roleOfCode v) = v := by
  have hv : v ≤ 32 ∨ (101 ≤ v ∧ v ≤ 124) ∨ v = 200 := by simpa [ParamRange.holds, or_assoc] using h
  unfold roleOfCode
  split_ifs <;> simp only [roleCode] <;> omega

/-- R189: a number of the table, set to a value of its range, holds it. -/
theorem Params.value_setNumber_same {n : Nat} {row : ParamRow} (hn : paramRow n = some row) {p : Params}
    (hp : p.lightZones.length = 8 ∧ p.roles.length = 60 ∧ p.panelZones.length = 60) {v : Nat}
    (hv : row.range.holds v = true) : (p.setNumber n v).value n = v := by
  obtain ⟨hlight, hroles, hzones⟩ := hp
  obtain hplain | rfl | hlisted := number_of_paramRow hn
  · rw [Params.value_setNumber_plain p v n hplain n (List.mem_cons_of_mem _ hplain), if_pos rfl]
  · cases hn
    have : v = 0 ∨ v = 1 := by
      have : v ≤ 1 := by simpa [ParamRange.holds] using hv
      omega
    obtain rfl | rfl := this <;> rfl
  · have hnum := (listedNumber_iff n).1 hlisted
    rw [paramRow_listed hlisted] at hn
    rw [Params.setNumber_listed hlisted, Params.value_listed hlisted]
    unfold Params.listValue
    split_ifs at hn ⊢
    · exact getD_set_same (by omega)
    · cases hn
      simp only []
      rw [getD_set_same (by omega)]
      exact roleCode_roleOfCode hv
    · exact getD_set_same (by omega)

/-- R198: where the range is a span, it is not empty. -/
theorem paramRow_span {n lo hi : Nat} {row : ParamRow} (h : paramRow n = some row) (hr : row.range = .span lo hi) :
    lo ≤ hi := by
  obtain hplain | rfl | hlisted := number_of_paramRow h
  · have hall : ∀ m ∈ plainNumbers, ∀ r ∈ paramRow m, ∀ l u, r.range = .span l u → l ≤ u := by
      have hspan : ∀ m ∈ plainNumbers,
          ((paramRow m).map fun r => match r.range with
            | .span l u => decide (l ≤ u)
            | .role => true) ≠ some false := by decide
      intro m hm r hrow l u hru
      have hrow := Option.mem_def.1 hrow
      simpa [hrow, hru] using hspan m hm
    exact hall n hplain row h lo hi hr
  · cases h
    cases hr
    omega
  · rw [paramRow_listed hlisted] at h
    split_ifs at h <;> cases h <;> cases hr <;> omega

/-- R189: the nearest value lies in the range, and of two equally near it is the lower. -/
theorem nearest_role (v : Nat) :
    ParamRange.role.holds (nearestRoleCode v) = true ∧
      ∀ w, ParamRange.role.holds w = true →
        (v - nearestRoleCode v) + (nearestRoleCode v - v) ≤ (v - w) + (w - v) ∧
          ((v - nearestRoleCode v) + (nearestRoleCode v - v) = (v - w) + (w - v) → nearestRoleCode v ≤ w) := by
  have hholds : ∀ w, ParamRange.role.holds w = true ↔ w ≤ 32 ∨ (101 ≤ w ∧ w ≤ 124) ∨ w = 200 := by
    simp [ParamRange.holds, or_assoc]
  simp only [hholds]
  unfold nearestRoleCode
  split_ifs <;> exact ⟨by omega, fun w hw => by omega⟩

theorem nearest_span {lo hi : Nat} (h : lo ≤ hi) (v : Nat) :
    (ParamRange.span lo hi).holds (max lo (min hi v)) = true ∧
      ∀ w, (ParamRange.span lo hi).holds w = true →
        (v - max lo (min hi v)) + (max lo (min hi v) - v) ≤ (v - w) + (w - v) ∧
          ((v - max lo (min hi v)) + (max lo (min hi v) - v) = (v - w) + (w - v) → max lo (min hi v) ≤ w) := by
  have hholds : ∀ w, (ParamRange.span lo hi).holds w = true ↔ lo ≤ w ∧ w ≤ hi := by simp [ParamRange.holds]
  simp only [hholds]
  exact ⟨by omega, fun w hw => by omega⟩

/-- R189, R198: the first part of the rule of CONF. -/
theorem nearest_of_paramRow {n : Nat} {row : ParamRow} (h : paramRow n = some row) (v : Nat) :
    row.range.holds (row.range.nearest v) = true ∧
      ∀ w, row.range.holds w = true →
        (v - row.range.nearest v) + (row.range.nearest v - v) ≤ (v - w) + (w - v) ∧
          ((v - row.range.nearest v) + (row.range.nearest v - v) = (v - w) + (w - v) → row.range.nearest v ≤ w) := by
  have hspan := @paramRow_span n
  obtain ⟨range, structural⟩ := row
  cases range with
  | span lo hi => exact nearest_span (hspan h rfl) v
  | role => exact nearest_role v

/-! ## The ranges are kept -/

theorem Params.setNumber_lengths {n : Nat} {row : ParamRow} (hn : paramRow n = some row) (p : Params) (v : Nat) :
    (p.setNumber n v).lightZones.length = p.lightZones.length ∧ (p.setNumber n v).roles.length = p.roles.length ∧
      (p.setNumber n v).panelZones.length = p.panelZones.length := by
  obtain hplain | rfl | hlisted := number_of_paramRow hn
  · obtain ⟨hlight, hroles, hzones, -⟩ := Params.lists_setNumber_plain p v n hplain
    rw [hlight, hroles, hzones]
    exact ⟨rfl, rfl, rfl⟩
  · exact ⟨rfl, rfl, rfl⟩
  · rw [Params.setNumber_listed hlisted]
    split_ifs <;> simp

theorem Params.setNumber_timePort {n : Nat} {row : ParamRow} (hn : paramRow n = some row) {p : Params} (v : Nat)
    (hp : p.timePort ≠ .announcement) : (p.setNumber n v).timePort ≠ .announcement := by
  obtain hplain | rfl | hlisted := number_of_paramRow hn
  · obtain ⟨-, -, -, hport⟩ := Params.lists_setNumber_plain p v n hplain
    rwa [hport]
  · have : (p.setNumber 3 v).timePort = if v = 0 then .planning else .signalling := rfl
    rw [this]
    split_ifs <;> decide
  · rw [Params.setNumber_listed hlisted]
    split_ifs <;> exact hp

/-- R189, R198: a parameter set to a value of its range leaves every parameter in range. -/
theorem Params.Ok.setNumber {n v : Nat} {row : ParamRow} {p : Params} (hp : p.Ok) (hn : paramRow n = some row)
    (hv : row.range.holds v = true) : (p.setNumber n v).Ok := by
  obtain ⟨hlight, hroles, hzones, hport, hrange⟩ := hp
  obtain ⟨hlight', hroles', hzones'⟩ := Params.setNumber_lengths hn p v
  refine ⟨hlight'.trans hlight, hroles'.trans hroles, hzones'.trans hzones, Params.setNumber_timePort hn v hport, ?_⟩
  intro m hm rm hrm
  by_cases hne : m = n
  · subst hne
    have hrow : rm = row := Option.some.inj (hrm.symm.trans hn)
    rw [hrow, Params.value_setNumber_same hn ⟨hlight, hroles, hzones⟩ hv]
    exact hv
  · rw [Params.value_setNumber_other hn hrm hne]
    exact hrange m hm rm hrm

/-- R188, R198: the structural values of one configuration in range over the timing values of another are in range. -/
theorem Params.Ok.withStructural {p q : Params} (hp : p.Ok) (hq : q.Ok) : (p.withStructural q).Ok := by
  obtain ⟨-, -, -, -, hpr⟩ := hp
  obtain ⟨hlight, hroles, hzones, hport, hqr⟩ := hq
  refine ⟨hlight, hroles, hzones, hport, fun n hn row hrow => ?_⟩
  rw [Params.value_withStructural]
  split_ifs
  · exact hqr n hn row hrow
  · exact hpr n hn row hrow

end Sys2Proof.Machine
end

section
/-! The configuration under every command: which commands move it (R188 to R192), and that it stays in range. -/
namespace Sys2Proof.Machine

open Sys2Proof

/-! ## What moves the configuration -/

/-- The two copies of the configuration and the stored one (R188, R191). -/
structure Configuration where
  inForce : Params
  pendingCfg : Params
  stored : StoredPart Params

/-- The configuration of a state. -/
def State.configuration (s : State) : Configuration := ⟨s.inForce, s.pendingCfg, s.store.configuration⟩

theorem State.configuration_of_sources {s t : State} (h : t.sources = s.sources) :
    t.configuration = s.configuration := by
  rw [State.configuration, State.configuration, State.inForce_of_sources h, State.pendingCfg_of_sources h,
    State.store_of_sources h]

/-- What the sources tell of the configuration. -/
def Sources.configuration (x : Sources) : Configuration := ⟨x.inForce, x.pendingCfg, x.store.configuration⟩

theorem State.sources_configuration (s : State) : s.sources.configuration = s.configuration := rfl

theorem State.configOk_of_configuration {s t : State} (hs : s.ConfigOk) (h : t.configuration = s.configuration) :
    t.ConfigOk := by
  obtain ⟨hf, hp, hc⟩ := Configuration.mk.inj h
  unfold State.ConfigOk
  rwa [hf, hp, hc]

@[simp] theorem State.post_configuration (names : List PortId) (k : NoticeKind) (u : Subject) (s : State) :
    (s.post names k u).configuration = s.configuration :=
  State.configuration_of_sources (State.post_sources ..)

@[simp] theorem State.classifyChannels_configuration (s : State) :
    s.classifyChannels.configuration = s.configuration :=
  foldl_keeps State.configuration (fun t n => t.post [.planning] .sensorFault (.light n))
    (fun t _ => State.post_configuration _ _ _ t) _ _

@[simp] theorem State.writeLevels_configuration (q : Panel → Bool) (s : State) :
    (s.writeLevels q).configuration = s.configuration := rfl

theorem State.endPass_configuration (s : State) : s.endPass.configuration = s.configuration :=
  State.classifyChannels_configuration s

theorem State.beginPass_configuration (s : State) : s.beginPass.configuration = s.configuration := by
  simp only [State.beginPass]
  split
  · exact State.endPass_configuration s
  · split <;> rfl

theorem State.takeReading_configuration (channel value : Nat) (s : State) :
    (s.takeReading channel value).configuration = s.configuration := by
  simp only [State.takeReading]
  split
  · rfl
  · exact State.endPass_configuration _

theorem State.finish_configuration (s old : State) : (s.finish old).configuration = s.configuration :=
  State.configuration_of_sources (State.finish_sources s old)

theorem State.endImpulse_configuration (l : Line) (i : Impulse) (s : State) :
    (s.endImpulse l i).configuration = s.configuration := by
  simp only [State.endImpulse]
  repeat' split
  · rfl
  · rfl
  · exact State.post_configuration _ _ _ _
  · rfl

theorem timeOwner_configuration (p : PortId) (seconds : Nat) (s : State) :
    (timeOwner p seconds s).1.configuration = s.configuration := by
  unfold timeOwner
  dsimp only
  repeat' split
  · rfl
  · rfl
  · exact congrArg Sources.configuration (State.setClock_sources seconds s)
  · rfl
  · rfl
  · exact congrArg Sources.configuration (State.stepClock_sources seconds _ p s)

theorem State.takeDial_configuration (n : Fin 4) (d : PendingDial) (s : State) :
    (s.takeDial n d).configuration = s.configuration := by
  unfold State.takeDial
  split <;> rfl

theorem dialOwner_configuration (f : DialFields) (s : State) : (dialOwner f s).1.configuration = s.configuration := by
  unfold dialOwner
  split
  · rfl
  · exact State.takeDial_configuration _ _ s

/-- The commands that move the configuration, in force, pending or stored (R188 to R192). -/
def movesConfiguration : Instr → Bool
  | .powerOn | .resetPin | .powerLoss _ | .conf _ | .csav _ | .rset _ => true
  | _ => false

/-- R188 to R192: every other command leaves the configuration as it was. -/
theorem exec_configuration {i : Instr} {s t : State} (h : exec i s = .next t) (hi : movesConfiguration i = false) :
    t.configuration = s.configuration := by
  by_cases hsrc : movesSources i = false
  · obtain ⟨ms, hs⟩ := exec_sources h hsrc
    exact State.configuration_of_sources (s := s.atMs ms) hs
  cases i with
  | time p =>
    exact State.takeWith_rel (R := fun t => t.configuration = s.configuration) h rfl (fun _ _ _ hu => hu)
      fun n => timeOwner_configuration p n s
  | dial p =>
    exact State.takeTel_rel (R := fun t => t.configuration = s.configuration) h rfl (fun _ _ _ hu => hu)
      fun f => dialOwner_configuration f s
  | runningSecond =>
    exact State.answer_rel (R := fun t => t.configuration = s.configuration) h rfl
      (congrArg Sources.configuration (State.second_sources s))
  | minuteAdvance =>
    exact State.answer_ite_rel (R := fun t => t.configuration = s.configuration) h rfl
      fun _ => congrArg Sources.configuration (State.second_sources s)
  | holdoverExpiry =>
    exact State.answer_ite_rel (R := fun t => t.configuration = s.configuration) h rfl
      fun _ => congrArg Sources.configuration (State.enterHoldover_sources s)
  | passTrigger ms =>
    refine State.answer_ite_rel (R := fun t => t.configuration = s.configuration) h rfl fun _ => ?_
    dsimp only
    split
    · rfl
    · exact (State.finish_configuration _ _).trans (State.beginPass_configuration _)
  | lightConversionComplete ms value =>
    refine State.answer_rel (R := fun t => t.configuration = s.configuration) h rfl ?_
    split
    · exact (State.finish_configuration _ _).trans (State.takeReading_configuration _ _ _)
    · rfl
  | lineCheckRequest ms line =>
    refine State.answer_rel (R := fun t => t.configuration = s.configuration) h rfl ?_
    dsimp only
    split <;> rfl
  | lineCheckComplete ms value =>
    refine State.answer_rel (R := fun t => t.configuration = s.configuration) h rfl ?_
    split <;> rfl
  | nextImpulseTime ms line =>
    refine State.answer_rel (R := fun t => t.configuration = s.configuration) h rfl ?_
    dsimp only
    split <;> rfl
  | impulseEnd ms line =>
    refine State.answer_rel (R := fun t => t.configuration = s.configuration) h rfl ?_
    dsimp only
    split
    · exact State.endImpulse_configuration _ _ _
    · rfl
  | powerOn | resetPin | powerLoss cut | conf p | csav p | rset p => cases hi
  | _ => exact absurd rfl hsrc

/-! ## The ranges under the commands that move it -/

/-- R198: every default lies in its range. -/
theorem Params.default_ok : Params.default.Ok := by decide +kernel

theorem loadParams_ok {c : StoredPart Params} (h : c.contents.Ok) : (loadParams c).Ok := by
  unfold loadParams
  split
  · exact h
  · exact Params.default_ok

theorem State.restart_configOk {s : State} (h : s.ConfigOk) : (State.restart s.store s.pending).ConfigOk := by
  obtain ⟨-, -, hstored⟩ := h
  unfold State.ConfigOk
  rw [State.restart_inForce, State.restart_pendingCfg, State.restart_store]
  exact ⟨loadParams_ok hstored, loadParams_ok hstored, hstored⟩

theorem State.losePower_configOk {s : State} (h : s.ConfigOk) (cut : Option StorePart) : (s.losePower cut).ConfigOk := by
  obtain ⟨-, -, hc⟩ := h
  have hstored : (s.losePower cut).store.configuration.contents = s.store.configuration.contents := by
    cases cut with
    | none => rfl
    | some part => cases part <;> rfl
  refine ⟨Params.default_ok, Params.default_ok, ?_⟩
  rw [hstored]
  exact hc

theorem State.saveConfiguration_configOk {s : State} (h : s.ConfigOk) : s.saveConfiguration.ConfigOk := by
  obtain ⟨hf, hp, -⟩ := h
  exact ⟨hf, hp, hf.withStructural hp⟩

theorem State.resetPicture_configOk {s : State} (h : s.ConfigOk) : s.resetPicture.ConfigOk := by
  obtain ⟨hf, hp, hc⟩ := h
  unfold State.ConfigOk
  rw [State.resetPicture_inForce, State.resetPicture_pendingCfg, State.resetPicture_store]
  exact ⟨hf.withStructural hp, hf.withStructural hp, hc⟩

/-- R189: the parameter set, in each copy that CONF puts it into. -/
theorem State.setParameter_configOk {s : State} (h : s.ConfigOk) {n v : Nat} {row : ParamRow}
    (hn : paramRow n = some row) (hv : row.range.holds v = true) (b : Bool) : (s.setParameter n v b).ConfigOk := by
  obtain ⟨hf, hp, hc⟩ := h
  unfold State.setParameter
  cases b
  · exact ⟨hf.setNumber hn hv, hp.setNumber hn hv, hc⟩
  · exact ⟨hf, hp.setNumber hn hv, hc⟩

theorem State.afterConf_configuration (n : Nat) (s old : State) :
    (s.afterConf n old).configuration = s.configuration := by
  obtain ⟨moved, hm⟩ := State.afterConf_sources n s old
  exact congrArg Sources.configuration hm

theorem confOwner_configOk {s : State} (h : s.ConfigOk) (f : ConfFields) : (confOwner f s).1.ConfigOk := by
  unfold confOwner
  split
  · exact h
  · next row hrow =>
    have hset := State.setParameter_configOk h hrow (nearest_of_paramRow hrow f.value).1 row.structural
    dsimp only
    split
    · exact hset
    · exact State.configOk_of_configuration hset (State.afterConf_configuration _ _ _)

/-- R188, R198, R191: every command keeps every parameter in its range. -/
theorem exec_configOk {i : Instr} {s t : State} (h : exec i s = .next t) (hs : s.ConfigOk) : t.ConfigOk := by
  by_cases hi : movesConfiguration i = false
  · exact State.configOk_of_configuration hs (exec_configuration h hi)
  cases i with
  | powerOn => exact execPowerOn_rel (R := State.ConfigOk) h hs (State.restart_configOk hs)
  | resetPin => exact State.answer_rel (R := State.ConfigOk) h hs (State.restart_configOk hs)
  | powerLoss cut => exact State.answer_rel (R := State.ConfigOk) h hs (State.losePower_configOk hs cut)
  | conf p =>
    exact State.takeTel_rel (R := State.ConfigOk) h hs (fun _ _ _ hu => hu) fun f => confOwner_configOk hs f
  | csav p =>
    exact State.takeTel_rel (R := State.ConfigOk) (owner := fun _ u => (u.saveConfiguration, Answer.accept .none))
      h hs (fun _ _ _ hu => hu) fun _ => State.saveConfiguration_configOk hs
  | rset p =>
    exact State.takeTel_rel (R := State.ConfigOk) (owner := fun _ u => (u.resetPicture, Answer.accept .none))
      h hs (fun _ _ _ hu => hu) fun _ => by
        dsimp only
        exact State.resetPicture_configOk hs
  | _ => exact absurd rfl hi

/-- Settles O55. -/
theorem configurationStaysInRange : Obligations.ConfigurationStaysInRange := fun _ _ hs h =>
  step_keeps h (fun _ _ hu => hu) (fun _ _ _ hexec hu => exec_configOk hexec hu) hs

end Sys2Proof.Machine
end

section
/-! What a command can do to the departure table, the change records, the cue list, the wall and the notice lists, as a
chain of primitive moves. Every invariant of these blocks is then proved once for each move. -/
namespace Sys2Proof.Machine

open Sys2Proof

/-! ## What a move keeps -/

/-- From `s` to `t` no notice list has grown beyond its 16 places (R185). -/
def State.NoticesFit (s t : State) : Prop := ∀ p, (s.port p).notices.length ≤ 16 → (t.port p).notices.length ≤ 16

/-- From `s` to `t` nothing of the table's entries, the change records, the cue list, the parameters in force and the wall
has moved. -/
structure State.Aside (s t : State) : Prop where
  entries : t.table.entries = s.table.entries
  tracker : t.tracker = s.tracker
  cues : t.cues.list = s.cues.list
  last : t.cues.last = s.cues.last
  inForce : t.inForce = s.inForce
  wall : t.wall = s.wall
  notices : s.NoticesFit t

/-- The entry `x` has the key, the state and the change record of `e`, and what the delay arithmetic keeps of it (R39). -/
structure Entry.Keeps (confirm : Nat) (e x : Entry) : Prop where
  run : x.run = e.run
  sched : x.sched = e.sched
  exp : x.exp = e.exp
  state : x.state = e.state
  openRec : x.openRec = e.openRec
  ok : 1 ≤ confirm → e.Ok confirm → x.Ok confirm

/-- The entry `x` may take the place of `old`: of the same run, not RETIRING, its change record held, and in service still
unless its run is the one that may leave it. -/
structure Entry.Replaces (out : Option Nat) (confirm : Nat) (old x : Entry) : Prop where
  run : x.run = old.run
  openRec : x.openRec = old.openRec
  stays : old.state ≠ .retiring ∧ x.state ≠ .retiring
  service : old.inService = true → x.inService = true ∨ out = some old.run
  ok : 1 ≤ confirm → old.Ok confirm → x.Ok confirm

/-- The cue `x` has the number, kind and run of `c`; a TAKEN one stays so with its zones and its mark. -/
structure Cue.Keeps (c x : Cue) : Prop where
  number : x.number = c.number
  kind : x.kind = c.kind
  run : x.run = c.run
  taken : x.isTaken = c.isTaken
  zones : c.isTaken = true → x.zones = c.zones
  attempts : c.attempts ≤ 2 → x.attempts ≤ 2
  drop : c.pendDrop = true → x.pendDrop = true

/-- The cue `x` is `c` given back: not TAKEN any more. -/
structure Cue.GivenBack (c x : Cue) : Prop where
  number : x.number = c.number
  kind : x.kind = c.kind
  run : x.run = c.run
  taken : x.isTaken = false
  attempts : c.attempts ≤ 2 → x.attempts ≤ 2

/-- The record `x` has the number and the run of `r`, and is OPEN where that is. -/
structure ChangeRec.Keeps (r x : ChangeRec) : Prop where
  no : x.no = r.no
  run : x.run = r.run
  isOpen : x.isOpen = r.isOpen

/-- The run has an entry in the table that is not RETIRING. -/
def State.RunCalls (run : Nat) (s : State) : Prop := ∃ e, s.entry? run = some e ∧ e.state ≠ .retiring

/-- The run has an entry in service in the table. -/
def State.RunServes (run : Nat) (s : State) : Prop := ∃ e, s.entry? run = some e ∧ e.inService = true

/-! ## The moves -/

/-- Removal decided for the entry of a run, up to the composition that follows (R10, R11). -/
def State.takeOff (run : Nat) (s : State) : State :=
  ((if s.namedByTaken run then
      (s.updEntry run fun e => { e with state := .retiring, rev := e.rev + 1 }).rederive
    else s.dropEntry run).voidRecord run).withdrawWhere (·.run = run)

/-- The record `r` of a new change has taken slot `n`, which leaves the tracker `k` of the others (R65 to R67). -/
def State.enterRecord (r : ChangeRec) (n : Nat) (k : Tracker) (s : State) : State :=
  ((s.supersede r.run).withTracker { k with records := k.records ++ [r] }).updEntry r.run
    fun e => { e with openRec := some n }

/-- The confirm counts capped under the parameters `p`, which come into force (R43). -/
def State.withConfirm (p : Params) (s : State) : State := ({ s with inForce := p } : State).capConfirm

/-- One primitive move. The run `out` may leave service by it, and the run `join` may come into the table. -/
inductive State.Move (out join : Option Nat) : State → State → Prop
  | aside {s t : State} (h : s.Aside t) : Move out join s t
  | compose (s : State) : Move out join s s.compose
  | wall (s : State) (w : Wall) (h : s.WallOk → (s.withWall w).WallOk) : Move out join s (s.withWall w)
  | params (s : State) (p : Params) (hconfirm : p.confirm = s.inForce.confirm)
      (hchannels : p.channels = s.inForce.channels) : Move out join s { s with inForce := p }
  | confirm (s : State) (p : Params) (hconfirm : 1 ≤ p.confirm) (hchannels : p.channels = s.inForce.channels) :
      Move out join s (s.withConfirm p)
  | entries (s : State) (f : Entry → Entry) (h : ∀ e : Entry, e.Keeps s.inForce.confirm (f e)) :
      Move out join s { s with table := { s.table with entries := s.table.entries.map f } }
  | touch (s : State) (old new : Entry) (hold : s.entry? old.run = some old) (h : old.Keeps s.inForce.confirm new) :
      Move out join s (s.updEntry old.run fun _ => new)
  | put (s : State) (old new : Entry) (hold : s.entry? old.run = some old)
      (h : old.Replaces out s.inForce.confirm new) :
      Move out join s (s.withEntries (updWhere (·.run = old.run) (fun _ => new) s.table.entries))
  | create (s : State) (e : Entry) (hjoin : join = some e.run) (hnew : s.entry? e.run = none)
      (hroom : s.table.entries.length < 96) (hok : e.Ok s.inForce.confirm) (hrec : e.openRec = none)
      (hstate : e.state ≠ .retiring) : Move out join s (s.withEntries (e :: s.table.entries))
  | shift (s : State) (d : Int) :
      Move out join s
        { s with
          table :=
            { s.table with
              entries := s.table.entries.map fun e =>
                { e with sched := e.sched - d, exp := e.exp - d, stateTime := e.stateTime.map (· - d) } } }
  | takeOff (s : State) (run : Nat) : Move out join s (s.takeOff run)
  | cueEnded (s : State) (run : Nat) : Move out join s (s.cueEnded run)
  | endCue (s : State) (c : Cue) (hc : s.cues.list.find? (·.number = c.number) = some c) :
      Move out join s ((s.endCue c.number).cueEnded c.run)
  | giveBack (s : State) (c : Cue) (f : Cue → Cue) (hc : s.cues.list.find? (·.number = c.number) = some c)
      (hdrop : c.pendDrop = false) (h : ∀ x : Cue, x.GivenBack (f x)) : Move out join s (s.updCue c.number f)
  | cueMap (s : State) (f : Cue → Cue) (h : ∀ c : Cue, c.Keeps (f c)) : Move out join s (s.withCues (s.cues.list.map f))
  | revise (s : State) (kind : CueKind) (run : Nat) (zones : List Nat) (due : Int) (hrun : s.RunCalls run) :
      Move out join s
        (s.withCues (updWhere (fun c => c.kind = kind && c.run = run) (Cue.revise s.now zones due) s.cues.list))
  | replace (s : State) (d : Cue) (kind : CueKind) (run : Nat) (zones : List Nat) (due : Int) (hrun : s.RunCalls run)
      (hnew : s.cue? kind run = none) (hd : d ∈ s.cues.list) (hstate : d.isTaken = false) :
      Move out join s ((s.withCues (s.cues.list.filter (·.number ≠ d.number))).appendCue kind run zones due)
  | withdraw (s : State) (p : Cue → Bool) : Move out join s (s.withdrawWhere p)
  | append (s : State) (kind : CueKind) (run : Nat) (zones : List Nat) (due : Int) (hrun : s.RunCalls run)
      (hnew : s.cue? kind run = none) (hroom : s.cues.list.length < 32) :
      Move out join s (s.appendCue kind run zones due)
  | give (s : State) (c : Cue) (k : Taken) (hc : s.bestCue = some c) (hroom : s.takenCount < s.inForce.channels) :
      Move out join s (s.updCue c.number fun x => { x with state := .taken k, pendRev := false })
  | records (s : State) (f : ChangeRec → ChangeRec) (h : ∀ r : ChangeRec, r.Keeps (f r)) :
      Move out join s (s.withTracker { s.tracker with records := s.tracker.records.map f })
  | voidRecord (s : State) (run : Nat) : Move out join s (s.voidRecord run)
  | enterRecord (s : State) (r : ChangeRec) (n : Nat) (k : Tracker) (hrun : s.RunServes r.run) (hno : r.no = n)
      (hopen : r.isOpen = true) (hslot : (s.supersede r.run).tracker.takeSlot = some (n, k)) :
      Move out join s (s.enterRecord r n k)
  | supersede (s : State) (run : Nat) (hslot : (s.supersede run).tracker.takeSlot = none) :
      Move out join s (s.supersede run)
  | informAll (s : State) : Move out join s s.informAll

/-- A chain of moves. -/
def State.Moved (out join : Option Nat) : State → State → Prop := Relation.ReflTransGen (State.Move out join)

end Sys2Proof.Machine
end

section
/-! The operations as chains of primitive moves, in the order of the model. -/
namespace Sys2Proof.Machine

open Sys2Proof

/-! ## Chains -/

section chains

variable {out join : Option Nat} {s t u : State}

theorem State.Moved.refl (s : State) : State.Moved out join s s := Relation.ReflTransGen.refl

theorem State.Moved.trans (h : State.Moved out join s t) (k : State.Moved out join t u) : State.Moved out join s u :=
  Relation.ReflTransGen.trans h k

theorem State.Move.moved (h : State.Move out join s t) : State.Moved out join s t := Relation.ReflTransGen.single h

theorem State.Aside.moved (h : s.Aside t) : State.Moved out join s t := (State.Move.aside h).moved

theorem State.Moved.of_eq (h : t = s) : State.Moved out join s t := by
  subst h
  exact State.Moved.refl _

/-- A chain to either of two states. -/
theorem State.Moved.ite {c : Prop} [Decidable c] {a b : State} (ha : c → State.Moved out join s a)
    (hb : ¬c → State.Moved out join s b) : State.Moved out join s (if c then a else b) := by
  split
  · next h => exact ha h
  · next h => exact hb h

/-- A fold is a chain where each of its steps is. -/
theorem State.Moved.foldl {α : Type} {f : State → α → State} (l : List α)
    (h : ∀ (s : State) (a : α), State.Moved out join s (f s a)) (s : State) : State.Moved out join s (l.foldl f s) := by
  induction l generalizing s with
  | nil => exact State.Moved.refl s
  | cons a l ih => exact (h s a).trans (ih (f s a))

theorem State.NoticesFit.of_ports (h : t.ports = s.ports) : s.NoticesFit t := by
  intro p hp
  rwa [State.port, h]

/-- What leaves these blocks and the ports as they were. -/
theorem State.Moved.quiet (s t : State) (hentries : t.table.entries = s.table.entries := by rfl)
    (htracker : t.tracker = s.tracker := by rfl) (hcues : t.cues.list = s.cues.list := by rfl)
    (hlast : t.cues.last = s.cues.last := by rfl) (hforce : t.inForce = s.inForce := by rfl)
    (hwall : t.wall = s.wall := by rfl) (hports : t.ports = s.ports := by rfl) : State.Moved out join s t :=
  State.Aside.moved ⟨hentries, htracker, hcues, hlast, hforce, hwall, State.NoticesFit.of_ports hports⟩

end chains

/-! ## Notices -/

theorem Port.post_fits (n : Notice) {r : Port} (h : r.notices.length ≤ 16) : (r.post n).notices.length ≤ 16 := by
  unfold Port.post
  split
  · simp only [List.length_append, List.length_singleton]
    omega
  · exact h

theorem State.NoticesFit.updPort {s : State} {p : PortId} {f : Port → Port}
    (h : (s.port p).notices.length ≤ 16 → (f (s.port p)).notices.length ≤ 16) : s.NoticesFit (s.updPort p f) := by
  intro q hq
  by_cases hqp : q = p
  · subst hqp
    rw [State.port_updPort_same]
    exact h hq
  · rwa [State.port_updPort_other s hqp]

theorem State.updPort_moved {out join : Option Nat} (s : State) (p : PortId) {f : Port → Port}
    (h : ∀ r, r.notices.length ≤ 16 → (f r).notices.length ≤ 16) : State.Moved out join s (s.updPort p f) :=
  State.Aside.moved ⟨rfl, rfl, rfl, rfl, rfl, rfl, State.NoticesFit.updPort (h _)⟩

theorem State.post_moved {out join : Option Nat} (names : List PortId) (k : NoticeKind) (x : Subject) (s : State) :
    State.Moved out join s (s.post names k x) :=
  State.Moved.foldl names (fun t p => t.updPort_moved p fun _ => Port.post_fits _) s

section operations

variable {out join : Option Nat}

theorem State.settleAttention_moved (s : State) : State.Moved out join s s.settleAttention := by
  refine State.Aside.moved ⟨rfl, rfl, rfl, rfl, rfl, rfl, fun p hp => ?_⟩
  cases p <;> exact hp

/-! ## The cue scheduler -/

theorem State.postDropped_moved (run : Nat) (s : State) : State.Moved out join s (s.postDropped run) :=
  State.post_moved ..

/-- A fold that keeps the best so far gives a member of the list or what it began with. -/
theorem foldl_best_mem {α : Type} {f : Option α → α → Option α} (hf : ∀ best c, f best c = some c ∨ f best c = best)
    (l : List α) (start : Option α) : l.foldl f start = start ∨ ∃ c ∈ l, l.foldl f start = some c := by
  induction l generalizing start with
  | nil => exact .inl rfl
  | cons x xs ih =>
    rw [List.foldl_cons]
    obtain h | ⟨c, hc, h⟩ := ih (f start x)
    · obtain hx | hx := hf start x
      · exact .inr ⟨x, List.mem_cons_self, h.trans hx⟩
      · exact .inl (h.trans hx)
    · exact .inr ⟨c, List.mem_cons_of_mem x hc, h⟩

theorem displaced_mem {prio : Nat} {l : List Cue} {d : Cue} (h : displaced prio l = some d) :
    d ∈ l ∧ d.state = .waiting ∧ prio < d.kind.priority := by
  unfold displaced at h
  obtain hnone | ⟨c, hc, hsome⟩ := foldl_best_mem (f := fun best c => match best with
      | none => some c
      | some b => if displacedBefore b c then some c else best)
    (fun best c => by
      cases best with
      | none => exact .inl rfl
      | some b => dsimp only; split <;> simp) (l.filter fun c => c.state = .waiting && prio < c.kind.priority) none
  · exact absurd (h.symm.trans hnone) nofun
  · obtain rfl := Option.some.inj (h.symm.trans hsome)
    simpa using hc

theorem Cue.isTaken_of_waiting {c : Cue} (h : c.state = .waiting) : c.isTaken = false := by simp [Cue.isTaken, h]

theorem Cue.isTaken_of_due {c : Cue} (h : c.state = .due) : c.isTaken = false := by simp [Cue.isTaken, h]

theorem State.cue?_none {kind : CueKind} {run : Nat} {s : State} (h : ¬(s.cue? kind run).isSome = true) :
    s.cue? kind run = none := Option.not_isSome_iff_eq_none.1 h

theorem State.postDropped_appendCue (kind : CueKind) (lost run : Nat) (zones : List Nat) (due : Int) (s : State) :
    (s.postDropped lost).appendCue kind run zones due = (s.appendCue kind run zones due).postDropped lost := rfl

theorem State.trigger_moved {run : Nat} {s : State} (hrun : s.RunCalls run) (kind : CueKind) (zones : List Nat)
    (due : Int) : State.Moved out join s (s.trigger kind run zones due) := by
  unfold State.trigger
  split
  · exact (State.Move.revise s kind run zones due hrun).moved
  next hnone =>
  have hnone := State.cue?_none hnone
  split
  · next hroom => exact (State.Move.append s kind run zones due hrun hnone hroom).moved
  split
  · next d hd =>
    obtain ⟨hmem, hstate, -⟩ := displaced_mem hd
    rw [State.postDropped_appendCue]
    exact (State.Move.replace s d kind run zones due hrun hnone hmem (Cue.isTaken_of_waiting hstate)).moved.trans
      (State.postDropped_moved _ _)
  · exact State.postDropped_moved run s

theorem State.withdrawWhere_moved (p : Cue → Bool) (s : State) : State.Moved out join s (s.withdrawWhere p) :=
  (State.Move.withdraw s p).moved

theorem State.withdraw_moved (kind : CueKind) (run : Nat) (s : State) :
    State.Moved out join s (s.withdraw kind run) := State.withdrawWhere_moved _ s

theorem State.withCues_map_moved (s : State) {f : Cue → Cue} (h : ∀ c : Cue, c.Keeps (f c)) :
    State.Moved out join s (s.withCues (s.cues.list.map f)) := (State.Move.cueMap s f h).moved

theorem Cue.Keeps.refl (c : Cue) : c.Keeps c := ⟨rfl, rfl, rfl, rfl, fun _ => rfl, id, id⟩

theorem Cue.Keeps.ite {c x : Cue} {b : Bool} (h : c.Keeps x) : c.Keeps (if b then x else c) := by
  cases b
  · exact Cue.Keeps.refl c
  · exact h

theorem Cue.Keeps.test (now : Int) (c : Cue) : c.Keeps (c.test now) := by
  unfold Cue.test
  split
  · next hs =>
    split
    · exact ⟨rfl, rfl, rfl, by simp [Cue.isTaken, hs], fun _ => rfl, id, id⟩
    · exact Cue.Keeps.refl c
  · exact Cue.Keeps.refl c

/-- A WAITING cue whose due moves. -/
theorem Cue.Keeps.due {c x : Cue} (due : Int) (h : ({ c with due := due } : Cue).Keeps x) : c.Keeps x := by
  obtain ⟨hn, hk, hr, ht, hz, ha, hd⟩ := h
  exact ⟨hn, hk, hr, ht, hz, ha, hd⟩

theorem Cue.Keeps.follow (p : Params) (now exp : Int) (c : Cue) : c.Keeps (c.follow p now exp) := by
  unfold Cue.follow
  split
  · exact Cue.Keeps.due _ (Cue.Keeps.test _ _)
  · exact Cue.Keeps.due _ (Cue.Keeps.test _ _)
  · exact Cue.Keeps.refl c

theorem Cue.Keeps.tick (c : Cue) : c.Keeps c.tick := by
  unfold Cue.tick
  split
  · next hs => exact ⟨rfl, rfl, rfl, by simp [Cue.isTaken, hs], fun _ => rfl, id, id⟩
  · exact Cue.Keeps.refl c

theorem State.RunCalls.of_table {run : Nat} {s t : State} (h : s.RunCalls run) (ht : t.table = s.table) :
    t.RunCalls run := by
  unfold State.RunCalls State.entry? at *
  rwa [ht]

/-- What keeps the facts of the entries keeps the state of the entry of each run. -/
theorem State.entry_of_facts {run : Nat} {s t : State} (ht : t.facts = s.facts) {e : Entry}
    (he : s.entry? run = some e) : ∃ x, t.entry? run = some x ∧ x.state = e.state := by
  have hfacts := State.entry_facts_of_facts ht run
  rw [he] at hfacts
  obtain ⟨x, hx, hxe⟩ := Option.map_eq_some_iff.1 hfacts
  have hstate : x.facts.state = e.facts.state := congrArg Entry.state hxe
  exact ⟨x, hx, hstate⟩

theorem State.RunCalls.of_facts {run : Nat} {s t : State} (h : s.RunCalls run) (ht : t.facts = s.facts) :
    t.RunCalls run := by
  obtain ⟨e, he, hstate⟩ := h
  obtain ⟨x, hx, hxe⟩ := State.entry_of_facts ht he
  exact ⟨x, hx, hxe ▸ hstate⟩

theorem State.handoverFinal_moved {e : Entry} {s : State} (hrun : s.RunCalls e.run) (old : Option Entry) :
    State.Moved out join s (s.handoverFinal old e) := by
  unfold State.handoverFinal
  dsimp only
  split
  · exact State.trigger_moved hrun ..
  · exact State.Moved.ite (fun _ => State.trigger_moved hrun ..) fun _ => State.Moved.refl s

theorem State.cueHandover_moved {e : Entry} {s : State} (hrun : s.RunCalls e.run) (old : Option Entry) :
    State.Moved out join s (s.cueHandover old e) := by
  unfold State.cueHandover
  dsimp only
  generalize hu : s.handoverWithdrawals old e = u
  have hsu : State.Moved out join s u := hu ▸ State.withdrawWhere_moved _ s
  have hut : u.table = s.table := hu ▸ rfl
  generalize hv : u.withCues (updWhere (·.run = e.run) (Cue.follow u.inForce u.now e.exp) u.cues.list) = v
  have huv : State.Moved out join u v := hv ▸ u.withCues_map_moved fun c => (Cue.Keeps.follow _ _ _ c).ite
  have hvt : v.table = s.table := by rw [← hv, State.withCues_table, hut]
  have hvrun := hrun.of_table hvt
  generalize hw : (if e.wantsPlatformCue then
      v.trigger .platform e.run (e.cueZones none .platform) (e.exp - v.inForce.platformLead) else v) = w
  have hvw : State.Moved out join v w :=
    hw ▸ State.Moved.ite (fun _ => State.trigger_moved hvrun ..) fun _ => State.Moved.refl v
  have hwt : w.table = v.table := by
    rw [← hw]
    split <;> simp
  have hwrun := hvrun.of_table hwt
  generalize hx : (if w.inForce.wantsDelayCue e then
      w.trigger .delay e.run (e.cueZones none .delay) w.now else w) = x
  have hwx : State.Moved out join w x :=
    hx ▸ State.Moved.ite (fun _ => State.trigger_moved hwrun ..) fun _ => State.Moved.refl w
  have hxt : x.table = w.table := by
    rw [← hx]
    split <;> simp
  exact hsu.trans <| huv.trans <| hvw.trans <| hwx.trans (State.handoverFinal_moved (hwrun.of_table hxt) old)

theorem State.standing_run (e : Entry) (st : EntryState) (s : State) : (s.standing e st).run = e.run := by
  unfold State.standing
  cases h : s.entry? e.run with
  | none => rfl
  | some x =>
    have hx : x.run = e.run := entryIn_run h
    exact hx

theorem State.handStanding_moved {e : Entry} {s : State} (hrun : s.RunCalls e.run) (st : EntryState) :
    State.Moved out join s (s.handStanding e st) :=
  State.cueHandover_moved (by rwa [State.standing_run]) _

theorem State.testCues_moved (s : State) : State.Moved out join s s.testCues :=
  s.withCues_map_moved fun c => Cue.Keeps.test _ c

theorem State.refollow_moved (kind : CueKind) (s : State) : State.Moved out join s (s.refollow kind) := by
  refine s.withCues_map_moved fun c => ?_
  split
  · split
    · exact Cue.Keeps.follow _ _ _ c
    · exact Cue.Keeps.refl c
  · exact Cue.Keeps.refl c

theorem State.startGap_moved (zones : List Nat) (s : State) : State.Moved out join s (s.startGap zones) := by
  unfold State.startGap
  exact State.Moved.ite (fun _ => State.Moved.refl s) fun _ => State.Moved.quiet s _

/-! ## The change tracker -/

theorem ChangeRec.Keeps.refl (r : ChangeRec) : r.Keeps r := ⟨rfl, rfl, rfl⟩

theorem State.updRecords_moved (s : State) {p : ChangeRec → Bool} {f : ChangeRec → ChangeRec}
    (h : ∀ r : ChangeRec, p r = true → r.Keeps (f r)) : State.Moved out join s (s.updRecords p f) := by
  refine (State.Move.records s (fun r => if p r then f r else r) fun r => ?_).moved
  split
  · next hp => exact h r hp
  · exact ChangeRec.Keeps.refl r

theorem State.voidRecord_moved (run : Nat) (s : State) : State.Moved out join s (s.voidRecord run) :=
  (State.Move.voidRecord s run).moved

theorem State.appendUrgent_moved (run : Nat) (platform : Option Nat) (s : State) :
    State.Moved out join s (s.appendUrgent run platform) := State.Moved.quiet s _

theorem State.RunServes.calls {run : Nat} {s : State} (h : s.RunServes run) : s.RunCalls run := by
  obtain ⟨e, he, hin⟩ := h
  exact ⟨e, he, fun hr => by simp [Entry.inService, hr] at hin⟩

theorem State.RunServes.of_facts {run : Nat} {s t : State} (h : s.RunServes run) (ht : t.facts = s.facts) :
    t.RunServes run := by
  obtain ⟨e, he, hin⟩ := h
  obtain ⟨x, hx, hxe⟩ := State.entry_of_facts ht he
  exact ⟨x, hx, by rwa [Entry.inService, hxe]⟩

/-- The record that a change from `src` to `dst` opens in slot `n` (R66, R69). -/
def State.newRecord (run src dst n : Nat) (r : Count16) (s : State) : ChangeRec :=
  { no := n, run := run, src := src, dst := dst, openedMinute := s.now, openedSecond := s.time.clock % 60,
    r := r, state := .opened, announced := false, displayed := false, degraded := false,
    rowPart := .pending, gatePart := .pending, gateReq := (s.gatePanel src).map (·.addr), cue := none,
    inSpeech := false
    diverted := newDiverted s.inForce.diversionHold s.now src dst (((s.liveRecord? run).map (·.diverted)).getD []) }

/-- What follows the entry of a new record: its CHANGE cue, the PLATFORM cue withdrawn, the panels concerned (R66, R128). -/
def State.callChange (run src dst n : Nat) (s : State) : State :=
  let t := s.trigger .change run [0, src, dst] s.now
  ((t.updRecords (·.no = n) fun x => { x with cue := (t.cue? .change run).map (·.number) }).withdraw
    .platform run).appendUrgent run (some src)

theorem State.openRecord_tracked {run : Nat} {s : State} {n : Nat} {k : Tracker}
    (h : (s.supersede run).tracker.takeSlot = some (n, k)) (src dst : Nat) (r : Count16) :
    s.openRecord run src dst r =
      ((s.enterRecord (s.newRecord run src dst n r) n k).callChange run src dst n, false) := by
  unfold State.openRecord
  simp only [h]
  rfl

theorem State.openRecord_untracked {run : Nat} {s : State} (h : (s.supersede run).tracker.takeSlot = none)
    (src dst : Nat) (r : Count16) :
    s.openRecord run src dst r = ((s.supersede run).post [.planning] .changeUntracked (.run run), true) := by
  unfold State.openRecord
  simp only [h]

theorem State.enterRecord_facts (r : ChangeRec) (n : Nat) (k : Tracker) (s : State) :
    (s.enterRecord r n k).facts = s.facts := by
  rw [State.enterRecord]
  exact State.updEntry_facts r.run (fun e => { e with openRec := some n }) (fun _ => rfl) _

theorem State.callChange_moved {run : Nat} {s : State} (hrun : s.RunCalls run) (src dst n : Nat) :
    State.Moved out join s (s.callChange run src dst n) := by
  refine State.Moved.trans ?_ (State.appendUrgent_moved ..)
  refine State.Moved.trans ?_ (State.withdraw_moved ..)
  exact (State.trigger_moved hrun ..).trans (State.updRecords_moved _ fun _ _ => ⟨rfl, rfl, rfl⟩)

theorem State.openRecord_moved {run : Nat} {s : State} (hrun : s.RunServes run) (src dst : Nat) (r : Count16) :
    State.Moved out join s (s.openRecord run src dst r).1 := by
  cases hslot : (s.supersede run).tracker.takeSlot with
  | none =>
    rw [State.openRecord_untracked hslot]
    exact (State.Move.supersede s run hslot).moved.trans (State.post_moved ..)
  | some slot =>
    obtain ⟨n, k⟩ := slot
    rw [State.openRecord_tracked hslot]
    refine (State.Move.enterRecord s (s.newRecord run src dst n r) n k hrun rfl rfl hslot).moved.trans ?_
    exact State.callChange_moved (hrun.calls.of_facts (State.enterRecord_facts ..)) src dst n

theorem State.platformChanged_moved {e : Entry} {s : State} (hrun : s.RunServes e.run) (st : EntryState)
    (old : Option Nat) : State.Moved out join s (s.platformChanged e st old).1 := by
  unfold State.platformChanged
  split
  · exact State.Moved.ite
      (fun _ => (State.voidRecord_moved e.run s).trans
        (State.handStanding_moved (hrun.calls.of_facts (State.voidRecord_facts ..)) st))
      fun _ => State.Moved.refl s
  · split
    · exact (State.openRecord_moved hrun ..).trans
        (State.handStanding_moved (hrun.calls.of_facts (State.openRecord_facts ..)) st)
    · exact State.Moved.refl s
  · exact State.Moved.refl s

theorem State.evaluated_keeps (s : State) (r : ChangeRec) : r.Keeps (s.evaluated r) := ⟨rfl, rfl, rfl⟩

theorem State.evaluate_moved (s : State) : State.Moved out join s s.evaluate := by
  unfold State.evaluate
  exact State.Moved.ite
    (fun _ => (State.updRecords_moved s fun r _ => s.evaluated_keeps r).trans (State.Move.informAll _).moved)
    fun _ => State.Moved.refl s

theorem State.waiveRows_moved (addr : Nat) (s : State) : State.Moved out join s (s.waiveRows addr) := by
  unfold State.waiveRows
  exact State.Moved.ite (fun _ => State.updRecords_moved s fun _ _ => ⟨rfl, rfl, rfl⟩) fun _ => State.Moved.refl s

theorem State.changeTaken_moved (run : Nat) (s : State) : State.Moved out join s (s.changeTaken run) :=
  State.updRecords_moved s fun _ _ => ⟨rfl, rfl, rfl⟩

theorem State.clearSpeech_moved (run : Nat) (s : State) : State.Moved out join s (s.clearSpeech run) :=
  State.updRecords_moved s fun _ _ => ⟨rfl, rfl, rfl⟩

theorem State.changeDone_moved (run : Nat) (s : State) : State.Moved out join s (s.changeDone run) := by
  refine State.Moved.trans ?_ (State.Move.informAll _).moved
  refine State.Moved.trans ?_ (State.clearSpeech_moved run _)
  exact State.updRecords_moved s fun _ _ => ⟨rfl, rfl, rfl⟩

theorem State.changeDropped_moved (run : Nat) (s : State) : State.Moved out join s (s.changeDropped run) :=
  (State.clearSpeech_moved run s).trans (State.updRecords_moved _ fun _ _ => ⟨rfl, rfl, rfl⟩)

theorem State.testHolds_moved (s : State) : State.Moved out join s s.testHolds :=
  State.updRecords_moved s fun _ _ => ⟨rfl, rfl, rfl⟩

theorem State.rollTracker_moved (s : State) : State.Moved out join s s.rollTracker :=
  State.updRecords_moved s fun _ _ => ⟨rfl, rfl, rfl⟩

/-! ## The wall and the panel bus -/

theorem State.compose_moved (s : State) : State.Moved out join s s.compose := (State.Move.compose s).moved

theorem State.recompose_moved (s : State) : State.Moved out join s s.recompose :=
  (State.compose_moved s).trans <| (State.evaluate_moved _).trans (State.compose_moved _)

theorem State.startExchange_moved (p : Panel) (urgent : Option Nat) (s : State) :
    State.Moved out join s (s.startExchange p urgent) := State.Moved.quiet s _

theorem State.dispatch_moved (s : State) : State.Moved out join s s.dispatch := by
  unfold State.dispatch
  split
  · exact State.Moved.refl s
  · split
    · exact State.Moved.quiet s _
    · dsimp only
      split <;> exact State.Moved.quiet s _

theorem State.finish_moved (s old : State) : State.Moved out join s (s.finish old) := by
  refine State.Moved.trans ?_ (State.settleAttention_moved _)
  unfold State.serve
  exact State.Moved.ite (fun _ => State.dispatch_moved s) fun _ => State.Moved.refl s

theorem State.settle_moved (s old : State) : State.Moved out join s (s.settle old) :=
  (State.recompose_moved s).trans (State.finish_moved _ old)

theorem State.updPanel_moved (addr : Nat) (f : Panel → Panel) (s : State) :
    State.Moved out join s (s.updPanel addr f) := State.Moved.quiet s _

theorem State.writeLevels_moved (q : Panel → Bool) (s : State) : State.Moved out join s (s.writeLevels q) :=
  State.Moved.quiet s _

theorem State.failPanel_moved (addr : Nat) (s : State) : State.Moved out join s (s.failPanel addr) :=
  (State.updPanel_moved ..).trans <| (State.waiveRows_moved ..).trans <| (State.recompose_moved _).trans
    (State.post_moved ..)

theorem State.takeStatus_moved (addr : Nat) (overtemp : Bool) (s : State) :
    State.Moved out join s (s.takeStatus addr overtemp) := by
  unfold State.takeStatus
  split
  · exact State.Moved.ite (fun _ => State.Moved.refl s)
      fun _ => (State.updPanel_moved ..).trans (State.writeLevels_moved ..)
  · exact State.Moved.refl s

theorem State.acknowledge_moved (x : Exchange) (overtemp : Bool) (s : State) :
    State.Moved out join s (s.acknowledge x overtemp) :=
  (State.updPanel_moved ..).trans (State.takeStatus_moved ..)

theorem State.probingOutcome_moved (x : Exchange) (o : Outcome) (s : State) :
    State.Moved out join s (s.probingOutcome x o) := by
  unfold State.probingOutcome
  split
  · exact (State.acknowledge_moved ..).trans (State.updPanel_moved ..)
  · exact (State.updPanel_moved ..).trans (State.failPanel_moved ..)

theorem State.probeOutcome_moved (x : Exchange) (o : Outcome) (s : State) :
    State.Moved out join s (s.probeOutcome x o) := by
  unfold State.probeOutcome
  split
  · dsimp only
    split
    · refine State.Moved.trans ?_ (State.post_moved ..)
      refine State.Moved.trans ?_ (State.recompose_moved _)
      refine State.Moved.trans ?_ (State.updPanel_moved ..)
      exact (State.takeStatus_moved ..).trans (State.updPanel_moved ..)
    · exact (State.takeStatus_moved ..).trans (State.updPanel_moved ..)
  · exact State.updPanel_moved ..

theorem State.reappendUrgent_moved (x : Exchange) (o : Outcome) (s : State) :
    State.Moved out join s (s.reappendUrgent x o) := by
  unfold State.reappendUrgent
  split
  · exact State.Moved.refl s
  · exact State.Moved.ite (fun _ => State.Moved.quiet s _) fun _ => State.Moved.refl s
  · exact State.Moved.refl s

theorem State.actOn_moved (x : Exchange) (o : Outcome) (s : State) : State.Moved out join s (s.actOn x o) := by
  unfold State.actOn
  split
  · split
    · exact State.acknowledge_moved ..
    · exact State.Moved.refl s
  · exact State.probingOutcome_moved ..
  · exact State.probeOutcome_moved ..
  · exact State.Moved.refl s

theorem State.endExchange_moved (x : Exchange) (o : Outcome) (s : State) :
    State.Moved out join s (s.endExchange x o) := by
  unfold State.endExchange
  dsimp only
  refine State.Moved.trans ?_
    ((State.recompose_moved _).trans ((State.dispatch_moved _).trans (State.settleAttention_moved _)))
  refine State.Moved.ite (fun _ => State.Moved.quiet s _) fun _ => ?_
  exact (State.Moved.quiet s _).trans ((State.actOn_moved ..).trans (State.reappendUrgent_moved ..))

end operations

end Sys2Proof.Machine
end

section
/-! The table controller's operations, and the commands that use them, as chains of primitive moves. -/
namespace Sys2Proof.Machine

open Sys2Proof

/-! ## The delay arithmetic of one entry -/

/-- What the prediction filter of an entry keeps (R26). -/
def Filter.Ok (confirm : Nat) (f : Filter) : Prop :=
  (∀ m ∈ f.dp, m ≤ 720) ∧ (∀ m ∈ f.cand, m ≤ 720) ∧ f.k ≤ confirm ∧ f.age ≤ 901 ∧ (f.dp = none → f.age = 0)

theorem Entry.ok_iff (confirm : Nat) (e : Entry) :
    e.Ok confirm ↔ e.exp = e.sched + e.dd ∧ e.dd ≤ 720 ∧ (∀ d ∈ e.opDelay, d.minutes ≤ 720) ∧ e.filter.Ok confirm :=
  Iff.rfl

theorem Filter.empty_ok (confirm : Nat) : Filter.empty.Ok confirm := by simp [Filter.Ok, Filter.empty]

theorem Filter.Ok.tick {confirm : Nat} {f : Filter} (h : f.Ok confirm) : f.tick.Ok confirm := by
  obtain ⟨hdp, hcand, hk, hage, hnone⟩ := h
  unfold Filter.tick
  split
  · next hsome =>
    exact ⟨hdp, hcand, hk, min_le_left .., fun hn => absurd hsome (by simp [show f.dp = none from hn])⟩
  · exact ⟨hdp, hcand, hk, hage, hnone⟩

theorem Filter.Ok.take {confirm m : Nat} {f : Filter} (h : f.Ok confirm) (hc : 1 ≤ confirm) (hm : m ≤ 720) :
    (f.take confirm m).1.Ok confirm := by
  obtain ⟨hdp, hcand, hk, hage, hnone⟩ := h
  obtain ⟨g, hg, hgdp, hgcand, hgk, hgage⟩ : ∃ g : Filter,
      (if f.cand = some m then { f with k := min confirm (f.k + 1) } else { f with cand := some m, k := 1 }) = g ∧
        g.dp = f.dp ∧ (∀ x ∈ g.cand, x ≤ 720) ∧ g.k ≤ confirm ∧ g.age = f.age := by
    refine ⟨_, rfl, ?_⟩
    split
    · exact ⟨rfl, hcand, by simp only []; omega, rfl⟩
    · exact ⟨rfl, fun x hx => (Option.mem_some.1 hx) ▸ hm, hc, rfl⟩
  have hplain : g.Ok confirm := ⟨hgdp ▸ hdp, hgcand, hgk, hgage ▸ hage, by rwa [hgdp, hgage]⟩
  unfold Filter.take
  simp only [hg]
  split
  · split
    · exact ⟨hgdp ▸ hdp, hgcand, hgk, Nat.zero_le _, fun _ => rfl⟩
    · exact ⟨fun x hx => (Option.mem_some.1 hx) ▸ hm, hgcand, hgk, Nat.zero_le _, nofun⟩
  · exact hplain

theorem roundPrediction_le (n : Int) : roundPrediction n ≤ 720 := by
  unfold roundPrediction
  split <;> omega

theorem Entry.rawDelay_le {confirm : Nat} {e : Entry} (h : e.Ok confirm) : e.rawDelay ≤ 720 := by
  obtain ⟨-, -, hop, hdp, -⟩ := h
  have hfilter : e.filter.dp.getD 0 ≤ 720 := by
    cases hd : e.filter.dp with
    | none => exact Nat.zero_le _
    | some m => exact hdp m hd
  unfold Entry.rawDelay
  cases hd : e.opDelay with
  | none => exact hfilter
  | some d =>
    have := hop d hd
    dsimp only
    split <;> omega

theorem Entry.Ok.recompute {confirm : Nat} {e : Entry} (h : e.Ok confirm) (hysteresis : Nat) :
    (e.recompute hysteresis).Ok confirm := by
  have hraw := Entry.rawDelay_le h
  have hnew : e.newDelay hysteresis ≤ 720 := by
    have := h.2.1
    unfold Entry.newDelay
    split_ifs <;> omega
  obtain ⟨-, -, hop, hf⟩ := (Entry.ok_iff confirm e).1 h
  unfold Entry.recompute
  dsimp only
  split
  · exact h
  · exact (Entry.ok_iff _ _).2 ⟨rfl, hnew, hop, hf⟩

/-! ## Replacements -/

theorem Entry.recompute_keeps (hysteresis : Nat) (e : Entry) :
    (e.recompute hysteresis).run = e.run ∧ (e.recompute hysteresis).openRec = e.openRec ∧
      (e.recompute hysteresis).state = e.state ∧ (e.recompute hysteresis).displayed = e.displayed := by
  unfold Entry.recompute
  dsimp only
  split <;> exact ⟨rfl, rfl, rfl, rfl⟩

/-- What a transition leaves of an entry: everything but its state (R6, R7). -/
theorem Entry.transition_eq (p : Params) (now : Int) (e : Entry) :
    e.transition p now = { e with state := (e.transition p now).state } := by
  unfold Entry.transition
  split_ifs <;> rfl

/-- Only an entry in service takes a transition, and it stays in service (R6, R7). -/
theorem Entry.transition_service (p : Params) (now : Int) (e : Entry) :
    e.transition p now = e ∨ (e.inService = true ∧ (e.transition p now).inService = true) := by
  unfold Entry.transition
  split_ifs with h1 h2 h3
  · right
    have : e.awaiting = true := (Bool.and_eq_true _ _ ▸ h1).1
    refine ⟨?_, rfl⟩
    simp only [Entry.awaiting, Bool.or_eq_true] at this
    simp only [Entry.inService, Bool.or_eq_true]
    exact .inl this
  · right
    have : e.state = .listed := by simp at h2; exact h2.1.1
    simp [Entry.inService, this]
  · right
    have : e.state = .boarding := by simp at h3; exact h3.1
    simp [Entry.inService, this]
  · exact .inl rfl

theorem Entry.transition_fields (p : Params) (now : Int) (e : Entry) :
    (e.transition p now).run = e.run ∧ (e.transition p now).openRec = e.openRec ∧
      (e.transition p now).displayed = e.displayed := by
  rw [Entry.transition_eq]
  exact ⟨rfl, rfl, rfl⟩

theorem Entry.Ok.transition {confirm : Nat} {e : Entry} (h : e.Ok confirm) (p : Params) (now : Int) :
    (e.transition p now).Ok confirm := by
  rw [Entry.transition_eq]
  exact h

section replacing

variable {out : Option Nat} {confirm : Nat} {old new : Entry}

theorem Entry.inService_not_retiring (h : new.inService = true) : new.state ≠ .retiring := fun hr => by
  simp [Entry.inService, hr] at h

theorem Entry.Replaces.transition (h : old.Replaces out confirm new) (p : Params) (now : Int) :
    old.Replaces out confirm (new.transition p now) := by
  obtain ⟨hrun, hrec, -⟩ := Entry.transition_fields p now new
  obtain heq | ⟨-, hin⟩ := Entry.transition_service p now new
  · rwa [heq]
  · exact ⟨hrun.trans h.run, hrec.trans h.openRec, ⟨h.stays.1, Entry.inService_not_retiring hin⟩, fun _ => .inl hin,
      fun hc hold => (h.ok hc hold).transition p now⟩

theorem Entry.Replaces.counted (h : old.Replaces out confirm new) : old.Replaces out confirm (old.counted new) := by
  unfold Entry.counted
  split
  · exact h
  · exact ⟨h.run, h.openRec, h.stays, h.service, h.ok⟩

theorem Entry.Replaces.retest (h : old.Replaces out confirm new) (s : State) :
    old.Replaces out confirm (s.retest old new) := by
  unfold State.retest
  split
  · exact h
  · exact h.transition ..

theorem Entry.Replaces.recompute (h : old.Replaces out confirm new) (hysteresis : Nat) :
    old.Replaces out confirm (new.recompute hysteresis) := by
  obtain ⟨hrun, hrec, hstate, -⟩ := Entry.recompute_keeps hysteresis new
  refine ⟨hrun.trans h.run, hrec.trans h.openRec, hstate ▸ h.stays, fun hold => ?_,
    fun hc hold => (h.ok hc hold).recompute hysteresis⟩
  rw [Entry.inService, hstate]
  exact h.service hold

end replacing

theorem State.retest_displayed (s : State) (old new : Entry) : (s.retest old new).displayed = new.displayed := by
  unfold State.retest
  split
  · rfl
  · exact (Entry.transition_fields ..).2.2

theorem State.retest_service (s : State) (old : Entry) {new : Entry} (h : new.inService = true) :
    (s.retest old new).inService = true := by
  unfold State.retest
  split
  · exact h
  · obtain heq | ⟨-, hin⟩ := Entry.transition_service s.inForce s.now new
    · rwa [heq]
    · exact hin

/-! ## A change of one entry -/

section operations

variable {out join : Option Nat}

/-- The entry of a run is the one put in its place. -/
theorem State.withEntries_put_entry {s : State} {old e : Entry} (hold : s.entry? old.run = some old)
    (hr : e.run = old.run) :
    (s.withEntries (updWhere (·.run = old.run) (fun _ => e) s.table.entries)).entry? old.run = some e := by
  have hall : ∀ x ∈ updWhere (·.run = old.run) (fun _ => e) s.table.entries, x.run = old.run → x = e := by
    intro x hx hxr
    obtain ⟨a, -, rfl⟩ := List.mem_map.1 hx
    by_cases ha : a.run = old.run
    · simp [ha]
    · simp [ha] at hxr
  have hmem : e ∈ updWhere (·.run = old.run) (fun _ => e) s.table.entries :=
    List.mem_map.2 ⟨old, entryIn_mem hold, by simp⟩
  have hsort := sortEntries_perm (updWhere (·.run = old.run) (fun _ => e) s.table.entries)
  rw [State.entry?_eq]
  cases hfind : entryIn old.run (sortEntries (updWhere (·.run = old.run) (fun _ => e) s.table.entries)) with
  | none =>
    have := List.find?_eq_none.1 hfind e (hsort.mem_iff.2 hmem)
    simp [hr] at this
  | some x =>
    have hx := hall x (hsort.mem_iff.1 (entryIn_mem hfind)) (entryIn_run hfind)
    exact hfind.trans (congrArg some hx)

theorem State.putEntry_entry_same {s : State} {old e : Entry} (hold : s.entry? old.run = some old)
    (hr : e.run = old.run) : (s.putEntry old e).entry? old.run = some e := by
  unfold State.putEntry
  dsimp only
  split <;> exact State.withEntries_put_entry hold hr

theorem State.putEntry_moved {s : State} {old e : Entry} (hold : s.entry? old.run = some old)
    (h : old.Replaces out s.inForce.confirm e) : State.Moved out join s (s.putEntry old e) := by
  refine (State.Move.put s old e hold h).moved.trans ?_
  unfold State.putEntry
  exact State.Moved.ite (fun _ => State.Moved.refl _) fun _ => State.Moved.quiet _ _

theorem State.handPlatform_moved {s : State} {e : Entry} (hrun : s.RunServes e.run) (old : Entry) :
    State.Moved out join s (s.handPlatform old e).1 := by
  unfold State.handPlatform
  refine (State.platformChanged_moved hrun _ _).trans (State.cueHandover_moved ?_ _)
  rw [State.standing_run]
  exact hrun.calls.of_facts (State.platformChanged_facts ..)

theorem State.changeEntry_moved {s : State} {old new : Entry} (hold : s.entry? old.run = some old)
    (h : old.Replaces out s.inForce.confirm new) (hserve : old.displayed ≠ new.displayed → new.inService = true) :
    State.Moved out join s (s.changeEntry old new).1 := by
  have hcount := h.counted
  have hdisp : (old.counted new).displayed = new.displayed := by
    unfold Entry.counted
    split <;> rfl
  have hserved : new.inService = true → (old.counted new).inService = true := by
    unfold Entry.counted
    split <;> exact id
  unfold State.changeEntry
  dsimp only
  generalize old.counted new = e at *
  have hput := State.putEntry_entry_same hold hcount.run
  have hcalls : (s.putEntry old e).RunCalls e.run := ⟨e, by rwa [hcount.run], hcount.stays.2⟩
  refine (State.putEntry_moved hold hcount).trans ?_
  generalize hu : s.putEntry old e = u at *
  obtain ⟨a, ha, haf, ham⟩ : ∃ a : State, (if old.displayed = e.displayed then (u, false) else u.handPlatform old e).1 = a ∧
      a.facts = u.facts ∧ State.Moved out join u a := by
    refine ⟨_, rfl, ?_⟩
    split
    · exact ⟨rfl, State.Moved.refl u⟩
    · next hne =>
      refine ⟨State.handPlatform_facts .., State.handPlatform_moved ⟨e, by rwa [hcount.run], ?_⟩ old⟩
      exact hserved (hserve (hdisp ▸ hne))
  rw [ha]
  have hacalls := hcalls.of_facts haf
  obtain ⟨b, hb, hbf, hbm⟩ : ∃ b : State, (if old.state = e.state then a
        else a.cueHandover (some (a.standing e old.state)) (a.standing e e.state)) = b ∧
      b.facts = a.facts ∧ State.Moved out join a b := by
    refine ⟨_, rfl, ?_⟩
    split
    · exact ⟨rfl, State.Moved.refl a⟩
    · exact ⟨State.cueHandover_facts .., State.cueHandover_moved (by rwa [State.standing_run]) _⟩
  rw [hb]
  refine ham.trans (hbm.trans (State.Moved.ite (fun _ => State.Moved.refl b) fun _ => ?_))
  exact State.handStanding_moved (hacalls.of_facts hbf) _

theorem State.amendEntry_moved {s : State} {old new : Entry} (hold : s.entry? old.run = some old)
    (h : old.Replaces out s.inForce.confirm new) (hserve : old.displayed ≠ new.displayed → new.inService = true) :
    State.Moved out join s (s.amendEntry old new).1 := by
  unfold State.amendEntry
  split
  · exact State.Moved.refl s
  dsimp only
  have hmoved : State.Moved out join s (s.changeEntry old (s.retest old new)).1 :=
    State.changeEntry_moved hold (h.retest s) fun hne =>
      State.retest_service s old (hserve (State.retest_displayed s old new ▸ hne))
  split
  · exact hmoved
  · exact hmoved.trans (State.settle_moved _ s)

/-! ## Removal, evaluation, rollover -/

theorem State.rederive_moved (s : State) : State.Moved out join s s.rederive := State.Moved.quiet s _

theorem State.decideRemoval_eq (expired : Bool) (run : Nat) (s : State) :
    s.decideRemoval expired run =
      if expired then (s.takeOff run).recompose.post [.planning, .signalling] .expired (.run run)
      else (s.takeOff run).recompose := rfl

theorem State.decideRemoval_moved (expired : Bool) (run : Nat) (s : State) :
    State.Moved out join s (s.decideRemoval expired run) := by
  have hmoved : State.Moved out join s (s.takeOff run).recompose :=
    (State.Move.takeOff s run).moved.trans (State.recompose_moved _)
  rw [State.decideRemoval_eq]
  exact State.Moved.ite (fun _ => hmoved.trans (State.post_moved ..)) fun _ => hmoved

theorem State.evaluateEntry_moved (s : State) (run : Nat) : State.Moved out join s (s.evaluateEntry run) := by
  unfold State.evaluateEntry
  split
  · next e he =>
    have hrun : e.run = run := entryIn_run he
    refine State.Moved.ite (fun _ => State.decideRemoval_moved ..) fun _ => ?_
    refine State.Moved.ite (fun _ => State.decideRemoval_moved ..) fun _ => ?_
    refine State.Moved.ite (fun _ => State.Moved.refl s) fun hne => ?_
    refine State.Moved.trans (State.changeEntry_moved (hrun ▸ he) ?_ fun hd => ?_) (State.recompose_moved _)
    · obtain heq | ⟨hin, hin'⟩ := Entry.transition_service s.inForce s.now e
      · exact absurd (congrArg Entry.state heq) hne
      · have hself : e.Replaces out s.inForce.confirm e :=
          ⟨rfl, rfl, ⟨Entry.inService_not_retiring hin, Entry.inService_not_retiring hin⟩, fun h => .inl h, fun _ h => h⟩
        exact hself.transition ..
    · exact absurd (Entry.transition_fields ..).2.2.symm hd
  · exact State.Moved.refl s

theorem State.evaluateTable_moved (s : State) : State.Moved out join s s.evaluateTable :=
  (State.Moved.foldl _ (fun t run => t.evaluateEntry_moved run) s).trans (State.rederive_moved _)

theorem State.rollTable_moved (s : State) : State.Moved out join s s.rollTable := by
  unfold State.rollTable
  dsimp only
  refine State.Moved.trans ?_ (State.recompose_moved _)
  refine State.Moved.trans ?_ (State.rederive_moved _)
  exact (State.Move.shift s 1440).moved.trans (State.Moved.foldl _ (fun t run => t.decideRemoval_moved true run) _)

theorem State.rollCues_moved (s : State) : State.Moved out join s s.rollCues :=
  s.withCues_map_moved fun _ => Cue.Keeps.due _ (Cue.Keeps.refl _)

theorem State.rollover_moved (s : State) : State.Moved out join s s.rollover :=
  (State.rollTracker_moved s).trans <| (State.rollCues_moved _).trans (State.rollTable_moved _)

theorem Entry.Keeps.clear (confirm : Nat) (e : Entry) : e.Keeps confirm { e with filter := Filter.empty } :=
  ⟨rfl, rfl, rfl, rfl, rfl, fun _ h => (Entry.ok_iff _ _).2
    ⟨h.1, h.2.1, h.2.2.1, Filter.empty_ok confirm⟩⟩

/-- An entry in service may be replaced by what it keeps of itself. -/
theorem Entry.Keeps.replaces {confirm : Nat} {e x : Entry} (h : e.Keeps confirm x) (hin : e.inService = true) :
    e.Replaces out confirm x :=
  ⟨h.run, h.openRec, ⟨Entry.inService_not_retiring hin, h.state ▸ Entry.inService_not_retiring hin⟩,
    fun hs => .inl (by rwa [Entry.inService, h.state]), h.ok⟩

theorem State.clearFilter_moved (run : Nat) (s : State) : State.Moved out join s (s.clearFilter run) := by
  unfold State.clearFilter
  split
  · next e he =>
    have hrun : e.run = run := entryIn_run he
    subst hrun
    have hkeep := Entry.Keeps.clear s.inForce.confirm e
    dsimp only
    split
    · next hcond =>
      refine State.Moved.trans (State.changeEntry_moved he (((hkeep.replaces hcond.2).recompute _).retest s) fun hd => ?_)
        (State.recompose_moved _)
      rw [State.retest_displayed, (Entry.recompute_keeps ..).2.2.2] at hd
      exact absurd rfl hd
    · exact (State.Move.touch s e _ he hkeep).moved
  · exact State.Moved.refl s

theorem State.clearFilters_moved (s : State) : State.Moved out join s s.clearFilters :=
  State.Moved.foldl _ (fun t run => t.clearFilter_moved run) s

theorem State.fallSilent_moved (p : PortId) (s : State) : State.Moved out join s (s.fallSilent p) := by
  unfold State.fallSilent
  dsimp only
  have hmoved : State.Moved out join s ((s.updPort p fun r => { r with live := false }).post
      ([PortId.planning, .signalling, .announcement].filter (· ≠ p)) .portSilent (.port p)) := by
    refine State.Moved.trans ?_ (State.post_moved ..)
    exact s.updPort_moved p fun _ h => h
  split
  · exact hmoved.trans (State.clearFilters_moved _)
  · exact hmoved

end operations

end Sys2Proof.Machine
end

section
/-! The owners of the table's telegrams as chains of primitive moves. -/
namespace Sys2Proof.Machine

open Sys2Proof

section operations

variable {out join : Option Nat}

/-! ## OPEN records -/

/-- Every OPEN record of `t` is one of `s`, of the same run. -/
def State.OpenFrom (s t : State) : Prop :=
  ∀ x ∈ t.tracker.records, x.isOpen = true → ∃ r ∈ s.tracker.records, r.isOpen = true ∧ r.run = x.run

theorem State.openRecord?_none {run : Nat} {s : State} :
    s.openRecord? run = none ↔ ∀ r ∈ s.tracker.records, r.isOpen = true → r.run ≠ run := by
  rw [State.openRecord?, List.find?_eq_none]
  refine forall₂_congr fun r _ => ?_
  cases r.isOpen <;> simp

theorem State.OpenFrom.openRecord?_none {run : Nat} {s t : State} (h : s.OpenFrom t) (hs : s.openRecord? run = none) :
    t.openRecord? run = none := by
  rw [State.openRecord?_none] at *
  intro x hx hopen
  obtain ⟨r, hr, hro, hrun⟩ := h x hx hopen
  exact hrun ▸ hs r hr hro

theorem State.OpenFrom.of_tracker {s t : State} (h : t.tracker = s.tracker) : s.OpenFrom t := fun x hx ho =>
  ⟨x, h ▸ hx, ho, rfl⟩

theorem State.OpenFrom.trans {s t u : State} (h : s.OpenFrom t) (k : t.OpenFrom u) : s.OpenFrom u := by
  intro x hx ho
  obtain ⟨y, hy, hyo, hyr⟩ := k x hx ho
  obtain ⟨r, hr, hro, hrr⟩ := h y hy hyo
  exact ⟨r, hr, hro, hrr.trans hyr⟩

theorem State.OpenFrom.updRecords (s : State) {p : ChangeRec → Bool} {f : ChangeRec → ChangeRec}
    (h : ∀ r : ChangeRec, p r = true → (f r).isOpen = true → r.isOpen = true ∧ r.run = (f r).run) :
    s.OpenFrom (s.updRecords p f) := by
  intro x hx ho
  obtain ⟨r, hr, rfl⟩ := List.mem_map.1 hx
  by_cases hp : p r = true
  · simp only [hp, if_true] at ho ⊢
    obtain ⟨hro, hrun⟩ := h r hp ho
    exact ⟨r, hr, hro, hrun⟩
  · simp only [hp, if_false, Bool.false_eq_true] at ho ⊢
    exact ⟨r, hr, ho, rfl⟩

theorem State.inform_openFrom (r : ChangeRec) (s : State) : s.OpenFrom (s.inform r) := by
  intro x hx ho
  have hrec : (s.inform r).tracker.records =
      updWhere (·.no = r.no) (fun y => { y with state := .informed }) s.tracker.records := by
    simp [State.inform]
    rfl
  rw [hrec] at hx
  exact State.OpenFrom.updRecords s (p := (·.no = r.no)) (f := fun y => { y with state := .informed })
    (fun y _ hy => by simp [ChangeRec.isOpen] at hy) x hx ho

theorem State.informAll_openFrom (s : State) : s.OpenFrom s.informAll := by
  unfold State.informAll
  generalize s.tracker.records.filter _ = l
  induction l generalizing s with
  | nil => exact State.OpenFrom.of_tracker rfl
  | cons r l ih => exact (s.inform_openFrom r).trans (ih _)

theorem State.evaluate_openFrom (s : State) : s.OpenFrom s.evaluate := by
  unfold State.evaluate
  split
  · exact State.OpenFrom.trans (State.OpenFrom.updRecords s (f := s.evaluated) fun r _ ho => ⟨ho, rfl⟩) (State.informAll_openFrom _)
  · exact State.OpenFrom.of_tracker rfl

theorem State.recompose_openFrom (s : State) : s.OpenFrom s.recompose :=
  (State.OpenFrom.of_tracker (State.compose_tracker s)).trans <| (State.evaluate_openFrom _).trans
    (State.OpenFrom.of_tracker (State.compose_tracker _))

theorem State.settle_openFrom (s old : State) : s.OpenFrom (s.settle old) :=
  (State.recompose_openFrom s).trans (State.OpenFrom.of_tracker (State.finish_tracker _ old))

/-- A record after the run's OPEN ones have become VOID (R76). -/
def ChangeRec.voided (run : Nat) (r : ChangeRec) : ChangeRec :=
  if r.run = run && r.isOpen then { r with state := .void } else r

/-- An entry after its run's record has become VOID (R76). -/
def Entry.unrecorded (run : Nat) (e : Entry) : Entry := if e.run = run then { e with openRec := none } else e

theorem ChangeRec.voided_fields (run : Nat) (r : ChangeRec) :
    (r.voided run).no = r.no ∧ (r.voided run).run = r.run ∧
      ((r.voided run).isOpen = true ↔ r.isOpen = true ∧ r.run ≠ run) := by
  unfold ChangeRec.voided
  by_cases hr : r.run = run <;> by_cases ho : r.isOpen = true <;> simp_all [ChangeRec.isOpen]

/-- R76: what the passage to VOID leaves of the tracker, the entries and the cues. -/
theorem State.voidRecord_of_open {run : Nat} {s : State} (h : (s.openRecord? run).isSome = true) :
    (s.voidRecord run).tracker =
        { records := s.tracker.records.map (ChangeRec.voided run), closed := s.tracker.closed ++ s.openNumbers run } ∧
      (s.voidRecord run).table.entries = s.table.entries.map (Entry.unrecorded run) ∧
      (s.voidRecord run).cues = (s.withdraw .change run).cues := by
  unfold State.voidRecord
  rw [if_pos h]
  refine ⟨?_, ?_, ?_⟩
  · rw [State.withdraw_tracker, State.post_tracker]
    rfl
  · rw [State.withdraw_table, State.post_table]
    simp only [State.updEntry, updWhere, decide_eq_true_eq]
    rfl
  · simp only [State.withdraw, State.withdrawWhere, State.withCues, State.post_cues]
    rfl

theorem State.voidRecord_of_none {run : Nat} {s : State} (h : s.openRecord? run = none) : s.voidRecord run = s := by
  simp [State.voidRecord, h]

theorem State.voidRecord_openRecord (run : Nat) (s : State) : (s.voidRecord run).openRecord? run = none := by
  cases h : s.openRecord? run with
  | none => rwa [State.voidRecord_of_none h]
  | some r =>
    obtain ⟨htracker, -, -⟩ := State.voidRecord_of_open (run := run) (s := s) (by rw [h]; rfl)
    rw [State.openRecord?_none, htracker]
    intro x hx ho
    obtain ⟨y, -, rfl⟩ := List.mem_map.1 hx
    obtain ⟨-, hrun, hopen⟩ := ChangeRec.voided_fields run y
    exact hrun ▸ (hopen.1 ho).2

/-! ## PLAN -/

theorem State.withEntries_cons_entry {s : State} {e : Entry} (hnew : s.entry? e.run = none) :
    (s.withEntries (e :: s.table.entries)).entry? e.run = some e := by
  have hperm := sortEntries_perm (e :: s.table.entries)
  rw [State.entry?_eq]
  cases hfind : entryIn e.run (s.withEntries (e :: s.table.entries)).table.entries with
  | none =>
    have := List.find?_eq_none.1 hfind e (hperm.mem_iff.2 List.mem_cons_self)
    simp at this
  | some x =>
    obtain rfl | hx := List.mem_cons.1 (hperm.mem_iff.1 (entryIn_mem hfind))
    · rfl
    · have := List.find?_eq_none.1 hnew x hx
      simp [entryIn_run hfind] at this

theorem newEntry_ok (dayStart confirm : Nat) (f : PlanFields) : (newEntry dayStart f).Ok confirm := by
  refine (Entry.ok_iff _ _).2 ⟨?_, Nat.zero_le _, nofun, Filter.empty_ok confirm⟩
  simp [newEntry]

/-- An entry stands for itself with another count of its revisions. -/
theorem Entry.counted_fields (old e : Entry) :
    (old.counted e).run = e.run ∧ (old.counted e).openRec = e.openRec ∧ (old.counted e).state = e.state ∧
      ∀ confirm, e.Ok confirm → (old.counted e).Ok confirm := by
  unfold Entry.counted
  split <;> exact ⟨rfl, rfl, rfl, fun _ h => h⟩

theorem State.createEntry_moved {s : State} {e : Entry} (hjoin : join = some e.run) (hnew : s.entry? e.run = none)
    (hroom : s.table.entries.length < 96) (hok : e.Ok s.inForce.confirm) (hrec : e.openRec = none)
    (hin : e.inService = true) : State.Moved out join s (s.createEntry e) := by
  obtain ⟨htrun, htrec, -⟩ := Entry.transition_fields s.inForce s.now e
  obtain ⟨hcrun, hcrec, hcstate, hcok⟩ := Entry.counted_fields e (e.transition s.inForce s.now)
  have hstate : (e.counted (e.transition s.inForce s.now)).state ≠ .retiring := by
    rw [hcstate]
    obtain heq | ⟨-, hin'⟩ := Entry.transition_service s.inForce s.now e
    · rw [heq]
      exact Entry.inService_not_retiring hin
    · exact Entry.inService_not_retiring hin'
  have hok' := hcok _ (hok.transition s.inForce s.now)
  have hrun := hcrun.trans htrun
  have hrec' := (hcrec.trans htrec).trans hrec
  unfold State.createEntry
  dsimp only
  generalize e.counted (e.transition s.inForce s.now) = x at *
  rw [← hrun] at hjoin hnew
  refine State.Moved.trans ?_ (State.settle_moved _ s)
  refine State.Moved.trans ?_ (State.cueHandover_moved ⟨x, ?_, hstate⟩ none)
  · exact (State.Move.create s x hjoin hnew hroom hok' hrec' hstate).moved.trans (State.rederive_moved _)
  · exact State.withEntries_cons_entry hnew

/-! ## The other telegrams of the table -/

theorem State.changeEntry_calls {s : State} {old new : Entry} (hold : s.entry? old.run = some old)
    (hr : new.run = old.run) (hstate : new.state ≠ .retiring) : (s.changeEntry old new).1.RunCalls old.run := by
  obtain ⟨hcrun, -, hcstate, -⟩ := Entry.counted_fields old new
  have hput : (s.putEntry old (old.counted new)).RunCalls old.run :=
    ⟨_, State.putEntry_entry_same hold (hcrun.trans hr), hcstate ▸ hstate⟩
  exact hput.of_facts (State.changeEntry_facts old new s)

theorem State.cancelEntry_moved {s : State} {e : Entry} (hold : s.entry? e.run = some e) (hstate : e.state ≠ .retiring)
    (reason : Option Text) : State.Moved (some e.run) join s (s.cancelEntry e reason) := by
  have hreplace : e.Replaces (some e.run) s.inForce.confirm (e.cancel s.now reason) :=
    ⟨rfl, rfl, ⟨hstate, nofun⟩, fun _ => .inr rfl, fun _ h => h⟩
  unfold State.cancelEntry
  dsimp only
  have hcalls := State.changeEntry_calls (new := e.cancel s.now reason) hold rfl nofun
  refine State.Moved.trans ?_ (State.settle_moved _ s)
  refine State.Moved.trans ?_ (State.appendUrgent_moved ..)
  refine State.Moved.trans ?_ (State.trigger_moved ?_ ..)
  · refine State.Moved.trans ?_ (State.withdrawWhere_moved ..)
    refine State.Moved.trans ?_ (State.voidRecord_moved ..)
    exact State.changeEntry_moved hold hreplace fun h => absurd rfl h
  · exact (hcalls.of_facts (State.voidRecord_facts ..)).of_table rfl

@[simp] theorem State.trigger_tracker (k : CueKind) (run : Nat) (z : List Nat) (due : Int) (s : State) :
    (s.trigger k run z due).tracker = s.tracker := by
  unfold State.trigger
  repeat' split
  all_goals simp [State.postDropped]

theorem State.cancelEntry_openRecord (s : State) (e : Entry) (reason : Option Text) :
    (s.cancelEntry e reason).openRecord? e.run = none := by
  unfold State.cancelEntry
  dsimp only
  refine State.OpenFrom.openRecord?_none (State.settle_openFrom _ s) ?_
  unfold State.openRecord?
  rw [State.appendUrgent_tracker, State.trigger_tracker, State.withdrawWhere_tracker]
  exact State.voidRecord_openRecord ..

theorem State.departEntry_moved {s : State} {e : Entry} (hold : s.entry? e.run = some e) (hstate : e.state ≠ .retiring) :
    State.Moved (some e.run) join s (s.departEntry e) := by
  have hreplace : e.Replaces (some e.run) s.inForce.confirm { e with state := .departed, stateTime := some s.now } :=
    ⟨rfl, rfl, ⟨hstate, nofun⟩, fun _ => .inr rfl, fun _ h => h⟩
  unfold State.departEntry
  refine State.Moved.trans ?_ (State.settle_moved _ s)
  refine State.Moved.trans ?_ (State.voidRecord_moved ..)
  exact State.changeEntry_moved hold hreplace fun h => absurd rfl h

theorem State.departEntry_openRecord (s : State) (e : Entry) : (s.departEntry e).openRecord? e.run = none := by
  unfold State.departEntry
  exact State.OpenFrom.openRecord?_none (State.settle_openFrom _ s) (State.voidRecord_openRecord ..)

theorem State.reinstate_moved {s : State} {e : Entry} (hold : s.entry? e.run = some e) (hstate : e.state = .cancelled) :
    State.Moved out join s (s.reinstate e) := by
  have hout : e.inService = false := by simp [Entry.inService, hstate]
  have hreplace : e.Replaces out s.inForce.confirm { e with state := .listed, stateTime := none, reason := none } :=
    ⟨rfl, rfl, ⟨by rw [hstate]; nofun, nofun⟩, fun h => by simp [hout] at h, fun _ h => h⟩
  unfold State.reinstate
  dsimp only
  refine State.Moved.trans ?_ (State.settle_moved _ s)
  refine (State.withdraw_moved .cancel e.run s).trans ?_
  refine State.changeEntry_moved hold ((hreplace.recompute _).transition ..) fun hne => ?_
  rw [(Entry.transition_fields ..).2.2, (Entry.recompute_keeps ..).2.2.2] at hne
  exact absurd rfl hne

theorem State.refilter_moved {s : State} {e : Entry} {g : Filter} (hold : s.entry? e.run = some e)
    (hin : e.inService = true) (hg : 1 ≤ s.inForce.confirm → e.filter.Ok s.inForce.confirm → g.Ok s.inForce.confirm)
    (runs : Bool) : State.Moved out join s (s.refilter e g runs) := by
  have hkeep : e.Keeps s.inForce.confirm { e with filter := g } :=
    ⟨rfl, rfl, rfl, rfl, rfl, fun hc h => (Entry.ok_iff _ _).2
      ⟨h.1, h.2.1, h.2.2.1, hg hc ((Entry.ok_iff _ _).1 h).2.2.2⟩⟩
  unfold State.refilter
  dsimp only
  split
  · refine State.amendEntry_moved hold ((hkeep.replaces hin).recompute _) fun hne => ?_
    rw [(Entry.recompute_keeps ..).2.2.2] at hne
    exact absurd rfl hne
  · exact (State.Move.touch s e _ hold hkeep).moved

theorem State.predict_moved {s : State} {e : Entry} (hold : s.entry? e.run = some e) (hin : e.inService = true)
    (n : Int) : State.Moved out join s (s.predict e n) :=
  State.refilter_moved hold hin (fun hc h => h.take hc (roundPrediction_le n)) _

/-! ## The owners -/

/-- What the checks of a telegram that names a run leave to its action (R13). -/
theorem State.onEntry_rel {R : State → Prop} {checks : List (Nat × Bool)} {run : Nat} {allowed : Entry → Bool}
    {act : Entry → State × Answer} {s : State} (hself : R s)
    (hact : ∀ e, s.entry? e.run = some e → e.run = run → allowed e = true → R (act e).1) :
    R (s.onEntry checks run allowed act).1 := by
  unfold State.onEntry
  split
  · exact hself
  · split
    · exact hself
    · next e he =>
      split
      · next hal =>
        have hrun : e.run = run := entryIn_run he
        exact hact e (hrun ▸ he) hrun hal
      · exact hself

/-- From `s` the command, a PLAN where `plan` holds, reaches `t` by a chain of moves; a run that has left service has no
OPEN record, and only a PLAN with the time set brings a run into the table. -/
def State.Carried (plan : Prop) (s t : State) : Prop :=
  ∃ out join, State.Moved out join s t ∧ (∀ run, out = some run → t.openRecord? run = none) ∧
    (join ≠ none → plan ∧ s.time.state ≠ .unset)

theorem State.Moved.carried {plan : Prop} {s t : State} (h : State.Moved none none s t) : s.Carried plan t :=
  ⟨none, none, h, nofun, fun h => absurd rfl h⟩

theorem State.Carried.refl (plan : Prop) (s : State) : s.Carried plan s := (State.Moved.refl s).carried

theorem State.Carried.aside {plan : Prop} {s t u : State} (h : s.Carried plan t) (k : t.Aside u) : s.Carried plan u := by
  obtain ⟨out, join, hm, hout, hjoin⟩ := h
  refine ⟨out, join, hm.trans k.moved, fun run hr => ?_, hjoin⟩
  rw [State.openRecord?, k.tracker]
  exact hout run hr

theorem State.Carried.answerTel {plan : Prop} {s t : State} (h : s.Carried plan t) (p : PortId) (tel : Tel) (a : Answer) :
    s.Carried plan (t.answerTel p tel a) :=
  h.aside ⟨rfl, rfl, rfl, rfl, rfl, rfl, State.NoticesFit.updPort fun h => h⟩

theorem planOwner_carried (f : PlanFields) (s : State) : s.Carried True (planOwner f s).1 := by
  unfold planOwner
  split
  · exact State.Carried.refl ..
  split
  · exact State.Carried.refl ..
  next hnone =>
  unfold State.planRefusal at hnone
  split_ifs at hnone with hset hdup hfull
  refine ⟨none, some f.run, ?_, nofun, fun _ => ⟨trivial, hset⟩⟩
  exact State.createEntry_moved rfl (Option.not_isSome_iff_eq_none.1 hdup) (by omega) (newEntry_ok ..) rfl rfl

theorem Entry.amend_replaces {confirm : Nat} {e : Entry} (hin : e.inService = true) (dayStart : Nat) (f : AmndFields) :
    e.Replaces out confirm (e.amend dayStart f) :=
  ⟨rfl, rfl, ⟨Entry.inService_not_retiring hin, Entry.inService_not_retiring (new := e.amend dayStart f) hin⟩,
    fun _ => .inl hin, fun _ h => (Entry.ok_iff _ _).2 ⟨rfl, h.2⟩⟩

theorem amndOwner_carried (plan : Prop) (f : AmndFields) (s : State) : s.Carried plan (amndOwner f s).1 := by
  refine State.onEntry_rel (R := s.Carried plan) (State.Carried.refl plan s) fun e he _ hin => ?_
  split
  · exact State.Carried.refl plan s
  · exact (State.amendEntry_moved he (Entry.amend_replaces hin ..) fun _ => hin).carried

theorem Entry.delay_fields (f : DlayFields) (e : Entry) :
    (e.delay f).run = e.run ∧ (e.delay f).openRec = e.openRec ∧ (e.delay f).state = e.state ∧
      (e.delay f).displayed = e.displayed ∧ ∀ confirm, e.Ok confirm → (e.delay f).Ok confirm := by
  unfold Entry.delay
  split
  · exact ⟨rfl, rfl, rfl, rfl, fun _ h => ⟨h.1, h.2.1, nofun, h.2.2.2⟩⟩
  · refine ⟨rfl, rfl, rfl, rfl, fun _ h => ⟨h.1, h.2.1, fun d hd => ?_, h.2.2.2⟩⟩
    rw [← Option.mem_some.1 hd]
    exact min_le_left ..

theorem dlayOwner_carried (plan : Prop) (f : DlayFields) (s : State) : s.Carried plan (dlayOwner f s).1 := by
  refine State.onEntry_rel (R := s.Carried plan) (State.Carried.refl plan s) fun e he _ hin => ?_
  obtain ⟨hr, hrec, hstate, hdisp, hok⟩ := Entry.delay_fields f e
  have hreplace : e.Replaces none s.inForce.confirm (e.delay f) :=
    ⟨hr, hrec, ⟨Entry.inService_not_retiring hin, hstate ▸ Entry.inService_not_retiring hin⟩,
      fun h => .inl (by rwa [Entry.inService, hstate]), fun _ h => hok _ h⟩
  refine (State.amendEntry_moved he (hreplace.recompute _) fun hne => ?_).carried
  rw [(Entry.recompute_keeps ..).2.2.2, hdisp] at hne
  exact absurd rfl hne

theorem cancOwner_carried (plan : Prop) (f : CancFields) (s : State) : s.Carried plan (cancOwner f s).1 := by
  refine State.onEntry_rel (R := s.Carried plan) (State.Carried.refl plan s) fun e he _ hallowed => ?_
  have hstate : e.state ≠ .departed ∧ e.state ≠ .retiring := by simpa using hallowed
  dsimp only [State.acceptRevision]
  split
  · apply State.Moved.carried
    exact State.amendEntry_moved he ⟨rfl, rfl, ⟨hstate.2, hstate.2⟩, fun h => .inl h, fun _ h => h⟩
      fun h => absurd rfl h
  · exact ⟨some e.run, none, State.cancelEntry_moved he hstate.2 _,
      fun run hr => Option.some.inj hr ▸ State.cancelEntry_openRecord .., fun h => absurd rfl h⟩

theorem rinsOwner_carried (plan : Prop) (run : Nat) (s : State) : s.Carried plan (rinsOwner run s).1 := by
  refine State.onEntry_rel (R := s.Carried plan) (State.Carried.refl plan s) fun e he _ _ => ?_
  dsimp only [State.acceptRevision]
  split
  · next hc => exact (State.reinstate_moved he hc).carried
  · exact State.Carried.refl plan s

theorem platOwner_carried (plan : Prop) (f : PlatFields) (s : State) : s.Carried plan (platOwner f s).1 := by
  refine State.onEntry_rel (R := s.Carried plan) (State.Carried.refl plan s) fun e he _ hin => ?_
  have hreplace : e.Replaces none s.inForce.confirm { e with assigned := optNat f.platform } :=
    ⟨rfl, rfl, ⟨Entry.inService_not_retiring hin, Entry.inService_not_retiring hin⟩, fun h => .inl h, fun _ h => h⟩
  exact (State.amendEntry_moved he hreplace fun _ => hin).carried

theorem predOwner_carried (plan : Prop) (f : PredFields) (s : State) : s.Carried plan (predOwner f s).1 := by
  refine State.onEntry_rel (R := s.Carried plan) (State.Carried.refl plan s) fun e he _ hin => ?_
  dsimp only [State.acceptRevision]
  split
  · exact (State.refilter_moved he hin (fun _ _ => Filter.empty_ok _) _).carried
  · exact (State.predict_moved he hin _).carried

theorem rdysOwner_carried (plan : Prop) (run : Nat) (s : State) : s.Carried plan (rdysOwner run s).1 := by
  refine State.onEntry_rel (R := s.Carried plan) (State.Carried.refl plan s) fun e he _ hin => ?_
  have hreplace : e.Replaces none s.inForce.confirm { e with state := .closed } :=
    ⟨rfl, rfl, ⟨Entry.inService_not_retiring hin, nofun⟩, fun _ => .inl rfl, fun _ h => h⟩
  exact (State.amendEntry_moved he hreplace fun _ => rfl).carried

theorem deptOwner_carried (plan : Prop) (run : Nat) (s : State) : s.Carried plan (deptOwner run s).1 := by
  refine State.onEntry_rel (R := s.Carried plan) (State.Carried.refl plan s) fun e he _ hallowed => ?_
  have hstate : e.state ≠ .cancelled ∧ e.state ≠ .retiring := by simpa using hallowed
  dsimp only [State.acceptRevision]
  split
  · exact State.Carried.refl plan s
  · exact ⟨some e.run, none, State.departEntry_moved he hstate.2,
      fun run hr => Option.some.inj hr ▸ State.departEntry_openRecord .., fun h => absurd rfl h⟩

end operations

end Sys2Proof.Machine
end

section
/-! The remaining operations, and every command, as chains of primitive moves. -/
namespace Sys2Proof.Machine

open Sys2Proof

section operations

variable {out join : Option Nat}

/-! ## Speech -/

theorem State.bestCue_mem {s : State} {c : Cue} (h : s.bestCue = some c) : c ∈ s.cues.list ∧ s.eligible c = true := by
  unfold State.bestCue at h
  obtain hnone | ⟨b, hb, hsome⟩ := foldl_best_mem (f := fun best c => match best with
      | none => some c
      | some b => if takenBefore c b then some c else best)
    (fun best c => by
      cases best with
      | none => exact .inl rfl
      | some b => dsimp only; split <;> simp) (s.cues.list.filter s.eligible) none
  · exact absurd (h.symm.trans hnone) nofun
  · obtain rfl := Option.some.inj (h.symm.trans hsome)
    simpa using hb

theorem takeOwner_moved (s : State) : State.Moved out join s (takeOwner s).1 := by
  unfold takeOwner
  split
  · exact State.Moved.refl s
  next hroom =>
  split
  · exact State.Moved.refl s
  next c hc =>
  split
  · exact State.Moved.refl s
  next e _ =>
  refine State.Moved.trans ?_ (State.settleAttention_moved _)
  have hgive := (State.Move.give (out := out) (join := join) s c
    { content := captureContent s.inForce e (s.changeOf c.run) c, timer := 0, limit := s.inForce.speakTime } hc
    (Nat.lt_of_not_le hroom)).moved
  exact State.Moved.ite (fun _ => hgive.trans (State.changeTaken_moved ..)) fun _ => hgive

theorem State.takenCue_find {number : Nat} {s : State} {c : Cue} {t : Taken} (h : s.takenCue? number = some (c, t)) :
    s.cues.list.find? (·.number = c.number) = some c ∧ c.number = number ∧ c.state = .taken t := by
  unfold State.takenCue? at h
  split at h
  · next c' hc' =>
    split at h
    · next t' ht' =>
      cases h
      have hn : c.number = number := by simpa using List.find?_some hc'
      exact ⟨hn ▸ hc', hn, ht'⟩
    · cases h
  · cases h

theorem State.spokenFacts_moved (t : Captured) (s : State) : State.Moved out join s (s.spokenFacts t) := by
  have hentry : ∀ (u : State) (run : Nat) (f : Entry → Entry), (∀ e : Entry, e.Keeps u.inForce.confirm (f e)) →
      State.Moved out join u (u.updEntry run f) := fun u run f hf => by
    refine (State.Move.entries u (fun e => if e.run = run then f e else e) fun e => ?_).moved.trans
      (State.Moved.of_eq ?_)
    · split
      · exact hf e
      · exact ⟨rfl, rfl, rfl, rfl, rfl, fun _ h => h⟩
    · simp only [State.updEntry, updWhere, decide_eq_true_eq]
  unfold State.spokenFacts
  split
  · exact hentry _ _ _ fun _ => ⟨rfl, rfl, rfl, rfl, rfl, fun _ h => h⟩
  · exact (State.changeDone_moved ..).trans (hentry _ _ _ fun _ => ⟨rfl, rfl, rfl, rfl, rfl, fun _ h => h⟩)
  · exact hentry _ _ _ fun _ => ⟨rfl, rfl, rfl, rfl, rfl, fun _ h => h⟩
  · exact State.Moved.refl s

theorem State.spokenFacts_cues (t : Captured) (s : State) : (s.spokenFacts t).cues = s.cues := by
  unfold State.spokenFacts
  split
  · rfl
  · rw [State.updEntry_cues, State.changeDone, State.informAll_cues]
    rfl
  · rfl
  · rfl

theorem State.cueEnded_moved (run : Nat) (s : State) : State.Moved out join s (s.cueEnded run) :=
  (State.Move.cueEnded s run).moved

theorem State.returnDue_moved {c : Cue} {s : State} (hc : s.cues.list.find? (·.number = c.number) = some c)
    (hdrop : c.pendDrop = false) {attempts : Nat} (ha : attempts ≤ 2) :
    State.Moved out join s (s.returnDue c attempts) :=
  (State.Move.giveBack s c (fun x => { x with
      state := .due, attempts := attempts, pendRev := false, pendDrop := false, zones := s.freshZones c }) hc hdrop
    fun _ => ⟨rfl, rfl, rfl, rfl, fun _ => ha⟩).moved

/-- The fate of a DONE, with the report of the cue's end (R101, R103). -/
theorem State.fateOfDone_moved {c : Cue} {s : State} (hc : s.cues.list.find? (·.number = c.number) = some c) :
    State.Moved out join s ((s.fateOfDone c).1.cueEnded c.run) := by
  have hend := (State.Move.endCue (out := out) (join := join) s c hc).moved
  unfold State.fateOfDone
  split
  · exact hend
  next hdrop =>
  have hdrop := Bool.eq_false_iff.2 hdrop
  have hback := (State.returnDue_moved (out := out) (join := join) hc hdrop (Nat.zero_le 2)).trans
    (State.cueEnded_moved c.run _)
  split
  · split
    · exact hend
    · exact hend
    · exact hback
  split
  · refine State.Moved.trans ?_ (State.cueEnded_moved c.run _)
    exact (State.Move.giveBack s c (fun x => { x with
        state := .waiting, due := s.now + s.inForce.repeatPeriod, attempts := 0 }) hc hdrop
      fun _ => ⟨rfl, rfl, rfl, rfl, fun _ => Nat.zero_le 2⟩).moved
  · exact hend

/-- The notice of a drop and the report of the cue's end do not touch each other. -/
theorem State.cueEnded_postDropped (run lost : Nat) (s : State) :
    (s.postDropped lost).cueEnded run = (s.cueEnded run).postDropped lost := by
  have hentry : (s.postDropped lost).entry? run = s.entry? run := rfl
  have hnamed : (s.postDropped lost).namedByTaken run = s.namedByTaken run := rfl
  unfold State.cueEnded
  rw [hentry, hnamed]
  split <;> rfl

theorem State.fateOfAbort_moved {c : Cue} {s : State} (hc : s.cues.list.find? (·.number = c.number) = some c) :
    State.Moved out join s ((s.fateOfAbort c).1.cueEnded c.run) := by
  have hend : ∀ u : State, u.cues.list = s.cues.list → State.Moved out join u ((u.endCue c.number).cueEnded c.run) :=
    fun u hu => (State.Move.endCue u c (hu ▸ hc)).moved
  unfold State.fateOfAbort
  split
  · exact hend s rfl
  next hdrop =>
  split
  · dsimp only
    split
    · have hcomm : ((s.endCue c.number).postDropped c.run).changeDropped c.run =
          ((s.changeDropped c.run).endCue c.number).postDropped c.run := rfl
      rw [hcomm, State.cueEnded_postDropped]
      exact (State.changeDropped_moved c.run s).trans ((hend (s.changeDropped c.run) rfl).trans (State.postDropped_moved ..))
    · rw [State.cueEnded_postDropped]
      exact (hend s rfl).trans (State.postDropped_moved ..)
  · next ha => exact (State.returnDue_moved hc (Bool.eq_false_iff.2 hdrop) (by omega)).trans (State.cueEnded_moved c.run _)

theorem State.speak_moved {done : Bool} {c : Cue} {s : State}
    (hc : s.cues.list.find? (·.number = c.number) = some c) (t : Taken) :
    State.Moved out join s (s.speak done c t).1 := by
  have hgap : (s.startGap t.content.zones).cues.list = s.cues.list := by
    unfold State.startGap
    split <;> rfl
  unfold State.speak
  dsimp only
  cases done
  · simp only [Bool.false_eq_true, if_false]
    refine State.Moved.trans ?_ (State.settle_moved _ s)
    refine (State.startGap_moved t.content.zones s).trans ?_
    split
    · refine (State.clearSpeech_moved c.run _).trans (State.fateOfAbort_moved ?_)
      rwa [State.clearSpeech_cues, hgap]
    · exact State.fateOfAbort_moved (by rwa [hgap])
  · simp only [if_true]
    refine State.Moved.trans ?_ (State.settle_moved _ s)
    refine (State.startGap_moved t.content.zones s).trans ?_
    refine (State.spokenFacts_moved t.content _).trans (State.fateOfDone_moved ?_)
    rwa [State.spokenFacts_cues, hgap]

theorem spknOwner_moved (f : SpknFields) (s : State) : State.Moved out join s (spknOwner f s).1 := by
  unfold spknOwner
  split
  · exact State.Moved.refl s
  split
  · exact State.Moved.refl s
  next c t ht => exact State.speak_moved (State.takenCue_find ht).1 t

theorem zoneOwner_moved (f : ZoneFields) (s : State) : State.Moved out join s (zoneOwner f s).1 := by
  unfold zoneOwner
  split
  · exact State.Moved.refl s
  · exact (State.Moved.quiet s _).trans (State.settleAttention_moved _)

/-! ## The wall -/

/-- The wall once a NOTICE mode without a notice to show has ended (R126). -/
def Wall.endNoticeMode (w : Wall) : Wall := if w.mode = .notice ∧ w.shown = none then { w with mode := .normal } else w

theorem State.endNoticeMode_eq (s : State) : s.endNoticeMode = s.withWall s.wall.endNoticeMode := by
  unfold State.endNoticeMode Wall.endNoticeMode
  split <;> rfl

/-- The wall alone decides its invariant. -/
def Wall.Ok (w : Wall) : Prop :=
  w.posted.length ≤ 12 ∧ (w.posted.map (·.number)).Nodup ∧ (∀ n ∈ w.posted, n.Ok) ∧
    (w.mode = .notice → ∃ n ∈ w.posted, n.priority = 0) ∧
    w.items.Nodup ∧ w.items.length ≤ 108 ∧ (∀ c ∈ w.current, c ∈ w.items) ∧
    (w.current = none ↔ w.items = []) ∧ (w.current = none ↔ w.dwell = none)

theorem State.wallOk_iff (s : State) : s.WallOk ↔ s.wall.Ok := Iff.rfl

/-- A fold that keeps the best so far finds one where there is any. -/
theorem foldl_best_none {α : Type} {f : Option α → α → Option α} (hf : ∀ best c, f best c ≠ none) (l : List α) :
    l.foldl f none = none ↔ l = [] := by
  have hsome : ∀ (l : List α) (b : Option α), b ≠ none → l.foldl f b ≠ none := by
    intro l
    induction l with
    | nil => exact fun _ h => h
    | cons x xs ih => exact fun b _ => ih _ (hf b x)
  cases l with
  | nil => simp
  | cons x xs => simpa using hsome xs _ (hf none x)

/-- R111: a notice is shown where one of priority 0 is posted. -/
theorem Wall.shown_none (w : Wall) : w.shown = none ↔ ∀ n ∈ w.posted, n.priority ≠ 0 := by
  unfold Wall.shown
  rw [foldl_best_none, List.filter_eq_nil_iff]
  · simp
  · intro best c
    cases best with
    | none => nofun
    | some b =>
      dsimp only
      split <;> nofun

/-- The notices posted and the mode alone have moved, and those keep their own rules. -/
theorem Wall.Ok.withPosted {w x : Wall} (h : w.Ok) (hlen : x.posted.length ≤ 12)
    (hnodup : (x.posted.map (·.number)).Nodup) (hok : ∀ n ∈ x.posted, n.Ok)
    (hmode : x.mode = .notice → ∃ n ∈ x.posted, n.priority = 0) (hitems : x.items = w.items)
    (hcurrent : x.current = w.current) (hdwell : x.dwell = w.dwell) : x.Ok := by
  obtain ⟨-, -, -, -, h1, h2, h3, h4, h5⟩ := h
  refine ⟨hlen, hnodup, hok, hmode, ?_⟩
  rw [hitems, hcurrent, hdwell]
  exact ⟨h1, h2, h3, h4, h5⟩

theorem Wall.endNoticeMode_mode {w : Wall} (h : w.endNoticeMode.mode = .notice) :
    ∃ n ∈ w.endNoticeMode.posted, n.priority = 0 := by
  unfold Wall.endNoticeMode at *
  split at h
  · cases h
  · next hn =>
    have hshown : w.shown ≠ none := fun hnone => hn ⟨h, hnone⟩
    rw [Ne, Wall.shown_none] at hshown
    push Not at hshown
    simp only [hn, if_false]
    exact hshown

theorem Wall.endNoticeMode_fields (w : Wall) :
    w.endNoticeMode.posted = w.posted ∧ w.endNoticeMode.items = w.items ∧ w.endNoticeMode.current = w.current ∧
      w.endNoticeMode.dwell = w.dwell := by
  unfold Wall.endNoticeMode
  split <;> exact ⟨rfl, rfl, rfl, rfl⟩

theorem State.withWall_moved {s : State} {w : Wall} (h : s.wall.Ok → w.Ok) : State.Moved out join s (s.withWall w) :=
  (State.Move.wall s w h).moved

theorem postedOf_ok {f : NoteFields} (h : firstBad (noteChecks f) = none) (edition : Count16) :
    (postedOf f edition).Ok := by
  have hall : ∀ c ∈ noteChecks f, c.2 = true := by
    have hfind : (noteChecks f).find? (fun c => !c.2) = none := by simpa [firstBad] using h
    intro c hc
    simpa using List.find?_eq_none.1 hfind c hc
  have h1 : 1 ≤ f.number ∧ f.number ≤ 200 := by
    simpa using hall (1, 1 ≤ f.number ∧ f.number ≤ 200) (by simp [noteChecks])
  have h2 : f.priority ≤ 3 := by simpa using hall (2, f.priority ≤ 3) (by simp [noteChecks])
  have h3 : f.text ≠ [] := by simpa using hall (3, f.text ≠ []) (by simp [noteChecks])
  refine ⟨h1.1, h1.2, h2, ?_, ?_, ?_⟩
  · cases hf : f.text with
    | nil => exact absurd hf h3
    | cons x xs => simp [postedOf, fixText, cleanText, hf]
  · simp [postedOf, fixText]
  · intro d hd
    have hd' : (if f.expiry = 0 then none else some (60 * min 1440 f.expiry)) = some d := hd
    split at hd'
    · cases hd'
    · cases hd'
      omega

theorem Wall.Ok.postNotice {w : Wall} (h : w.Ok) {f : NoteFields} (hf : firstBad (noteChecks f) = none)
    (hroom : w.holds f.number = true ∨ w.posted.length < 12) : (w.postNotice f).endNoticeMode.Ok := by
  obtain ⟨hposted, hitems, hcurrent, hdwell⟩ := Wall.endNoticeMode_fields (w.postNotice f)
  obtain ⟨hlen, hnodup, hok, -⟩ := id h
  have hnew := postedOf_ok hf (w.edition + 1)
  refine Wall.Ok.withPosted h ?_ ?_ ?_ Wall.endNoticeMode_mode (hitems.trans rfl) (hcurrent.trans rfl)
    (hdwell.trans rfl)
  all_goals rw [hposted]; unfold Wall.postNotice; dsimp only
  · split
    · rwa [length_updWhere]
    · next hh =>
      have := hroom.resolve_left hh
      simp only [List.length_append, List.length_singleton]
      omega
  · split
    · have hmap : (updWhere (fun x => decide (x.number = f.number)) (fun _ => postedOf f (w.edition + 1)) w.posted).map
          (·.number) = w.posted.map (·.number) := by
        simp only [updWhere, List.map_map]
        refine List.map_congr_left fun n _ => ?_
        by_cases hn : n.number = f.number
        · simp [hn, postedOf]
        · simp [hn]
      rwa [hmap]
    · next hh =>
      rw [List.map_append, List.map_singleton, List.nodup_append]
      refine ⟨hnodup, List.nodup_singleton _, fun a ha b hb => ?_⟩
      obtain ⟨n, hn, rfl⟩ := List.mem_map.1 ha
      rw [List.mem_singleton.1 hb]
      intro heq
      exact hh (List.any_eq_true.2 ⟨n, hn, decide_eq_true heq⟩)
  · intro n hn
    split at hn
    · obtain ⟨a, ha, rfl⟩ := List.mem_map.1 hn
      split
      · exact hnew
      · exact hok a ha
    · obtain hn | hn := List.mem_append.1 hn
      · exact hok n hn
      · rw [List.mem_singleton.1 hn]
        exact hnew

theorem noteOwner_moved (f : NoteFields) (s : State) : State.Moved out join s (noteOwner f s).1 := by
  unfold noteOwner
  split
  · exact State.Moved.refl s
  next hf =>
  split
  · exact State.Moved.refl s
  next hroom =>
  refine State.Moved.trans ?_ (State.settle_moved _ s)
  rw [State.endNoticeMode_eq]
  have hroom' : s.wall.holds f.number = true ∨ s.wall.posted.length < 12 := by
    by_contra hcon
    push Not at hcon
    exact hroom ⟨by simp [hcon.1], hcon.2⟩
  exact State.withWall_moved fun h => h.postNotice hf hroom'

theorem Wall.Ok.remove {w : Wall} (h : w.Ok) (number : Nat) :
    ({ w with posted := w.posted.filter (·.number ≠ number) } : Wall).endNoticeMode.Ok := by
  obtain ⟨hposted, hitems, hcurrent, hdwell⟩ :=
    Wall.endNoticeMode_fields { w with posted := w.posted.filter (·.number ≠ number) }
  obtain ⟨hlen, hnodup, hok, -⟩ := id h
  refine Wall.Ok.withPosted h ?_ ?_ ?_ Wall.endNoticeMode_mode (hitems.trans rfl) (hcurrent.trans rfl)
    (hdwell.trans rfl)
  all_goals rw [hposted]
  · exact (List.length_filter_le _ _).trans hlen
  · exact hnodup.sublist (List.filter_sublist.map _)
  · exact fun n hn => hok n (List.mem_filter.1 hn).1

theorem State.removeNotice_moved (number : Nat) (s : State) : State.Moved out join s (s.removeNotice number) := by
  unfold State.removeNotice
  refine State.Moved.trans ?_ (State.settle_moved _ s)
  rw [State.endNoticeMode_eq]
  exact State.withWall_moved fun h => h.remove number

theorem nclrOwner_moved (number : Nat) (s : State) : State.Moved out join s (nclrOwner number s).1 := by
  unfold nclrOwner
  split
  · exact State.Moved.ite (fun _ => State.removeNotice_moved ..) fun _ => State.Moved.refl s
  · exact State.Moved.refl s

theorem wallOwner_moved (n : Nat) (s : State) : State.Moved out join s (wallOwner n s).1 := by
  unfold wallOwner
  split
  · exact State.Moved.refl s
  split
  · exact State.Moved.refl s
  next hshown =>
  refine State.Moved.ite (fun _ => State.Moved.refl s) fun _ => State.Moved.trans ?_ (State.settle_moved _ s)
  refine State.withWall_moved fun h => ?_
  refine Wall.Ok.withPosted h h.1 h.2.1 h.2.2.1 (fun hm => ?_) rfl rfl rfl
  have hne : s.wall.shown ≠ none := fun hnone => hshown ⟨hm, hnone⟩
  rw [Ne, Wall.shown_none] at hne
  push Not at hne
  exact hne

theorem Wall.nextItem_mem {w : Wall} {i : Item} (h : w.nextItem = some i) : i ∈ w.items ∧ w.current ≠ none := by
  unfold Wall.nextItem at h
  split at h
  · next c hc => exact ⟨List.mem_of_getElem? h, by rw [hc]; nofun⟩
  · cases h

theorem Wall.Ok.showItem {w : Wall} (h : w.Ok) {i : Item} (hi : i ∈ w.items) (dwell : Nat) (mark : Option Count16) :
    (w.showItem dwell mark i).Ok := by
  obtain ⟨h1, h2, h3, h4, h5, h6, -, -, -⟩ := h
  refine ⟨h1, h2, h3, h4, h5, h6, fun c hc => ?_, ?_, ?_⟩
  · rwa [← Option.mem_some.1 hc]
  · exact ⟨nofun, fun hnil => absurd hi (by simp only [Wall.showItem] at hnil; simp [hnil])⟩
  · exact ⟨nofun, nofun⟩

theorem State.showItem_moved {s : State} {i : Item} (h : s.wall.nextItem = some i) :
    State.Moved out join s (s.showItem i) :=
  State.withWall_moved fun hw => hw.showItem (Wall.nextItem_mem h).1 ..

/-! ## Time -/

theorem Wall.Ok.tick {w : Wall} (h : w.Ok) :
    ({ w with
        dwell := w.dwell.map (· - 1)
        posted := w.posted.map fun n => { n with expiry := n.expiry.map (· - 1) } } : Wall).Ok := by
  obtain ⟨h1, h2, h3, h4, h5, h6, h7, h8, h9⟩ := h
  refine ⟨by rwa [List.length_map], by rwa [List.map_map], fun n hn => ?_, fun hm => ?_, h5, h6, h7, h8, ?_⟩
  · obtain ⟨a, ha, rfl⟩ := List.mem_map.1 hn
    obtain ⟨a1, a2, a3, a4, a5, a6⟩ := h3 a ha
    refine ⟨a1, a2, a3, a4, a5, fun d hd => ?_⟩
    obtain ⟨x, hx, rfl⟩ := Option.map_eq_some_iff.1 hd
    have := a6 x hx
    omega
  · obtain ⟨n, hn, hp⟩ := h4 hm
    exact ⟨_, List.mem_map.2 ⟨n, hn, rfl⟩, hp⟩
  · rw [h9]
    cases w.dwell <;> simp

theorem State.countSecond_moved (s : State) : State.Moved out join s s.countSecond := by
  have hentries := (State.Move.entries (out := out) (join := join) s (fun e => { e with filter := e.filter.tick }) fun e =>
    ⟨rfl, rfl, rfl, rfl, rfl, fun _ h => (Entry.ok_iff _ _).2
      ⟨h.1, h.2.1, h.2.2.1, Filter.Ok.tick ((Entry.ok_iff _ _).1 h).2.2.2⟩⟩).moved
  refine hentries.trans ?_
  refine (State.withCues_map_moved _ Cue.Keeps.tick).trans ?_
  refine (State.withWall_moved Wall.Ok.tick).trans (State.Aside.moved ⟨rfl, rfl, rfl, rfl, rfl, rfl, fun p hp => ?_⟩)
  cases p <;> exact hp

theorem State.announceTime_moved (minute : Bool) (s : State) : State.Moved out join s (s.announceTime minute) := by
  refine State.Moved.trans ?_ (State.Moved.quiet s.evaluateTable.testCues.testHolds _)
  exact (State.evaluateTable_moved s).trans ((State.testCues_moved _).trans (State.testHolds_moved _))

theorem State.minuteAdvanced_moved (s : State) : State.Moved out join s s.minuteAdvanced := by
  unfold State.minuteAdvanced
  dsimp only
  refine State.Moved.trans ?_ (State.announceTime_moved true _)
  exact State.Moved.ite (fun _ => State.rollover_moved s) fun _ => State.Moved.refl s

theorem State.enterHoldover_moved (s : State) : State.Moved out join s s.enterHoldover :=
  (State.Moved.quiet s _).trans (State.post_moved ..)

theorem State.judgePort_moved (p : PortId) (s : State) : State.Moved out join s (s.judgePort p) := by
  unfold State.judgePort
  exact State.Moved.ite (fun _ => State.fallSilent_moved p s) fun _ => State.Moved.refl s

theorem State.judgeLimits_moved (s : State) : State.Moved out join s s.judgeLimits := by
  unfold State.judgeLimits
  dsimp only
  refine State.Moved.trans ?_ (State.judgePort_moved ..)
  refine State.Moved.trans ?_ (State.judgePort_moved ..)
  refine State.Moved.trans ?_ (State.judgePort_moved ..)
  exact State.Moved.ite (fun _ => State.enterHoldover_moved s) fun _ => State.Moved.refl s

theorem State.second_moved (s : State) : State.Moved out join s s.second := by
  have hadvance : State.Moved out join s
      { s.judgeLimits.countSecond with time := s.judgeLimits.countSecond.time.advance } :=
    (State.judgeLimits_moved s).trans ((State.countSecond_moved _).trans (State.Moved.quiet _ _))
  unfold State.second
  dsimp only
  split
  · exact hadvance.trans ((State.minuteAdvanced_moved _).trans (State.settle_moved _ s))
  · exact State.Moved.ite (fun _ => hadvance) fun _ => hadvance.trans (State.settle_moved _ s)

theorem State.setClock_moved (received : Nat) (s : State) : State.Moved out join s (s.setClock received) := by
  have hset : State.Moved out join s { s with time := s.time.setTo received } := State.Moved.quiet s _
  refine State.Moved.trans ?_ (State.settleAttention_moved _)
  exact (hset.trans (State.testCues_moved _)).trans (State.Moved.quiet _ _)

theorem State.stepClock_moved (received : Nat) (d : Int) (p : PortId) (s : State) :
    State.Moved out join s (s.stepClock received d p) := by
  unfold State.stepClock
  dsimp only
  refine State.Moved.trans ?_ (State.finish_moved _ s)
  refine State.Moved.trans ?_ (State.post_moved ..)
  refine State.Moved.trans ?_ (State.recompose_moved _)
  refine State.Moved.trans ?_ (State.announceTime_moved ..)
  exact State.Moved.ite (fun _ => (State.Moved.quiet s _).trans (State.rollover_moved _)) fun _ => State.Moved.quiet s _

theorem timeOwner_moved (p : PortId) (seconds : Nat) (s : State) : State.Moved out join s (timeOwner p seconds s).1 := by
  unfold timeOwner
  dsimp only
  repeat' split
  · exact State.Moved.refl s
  · exact State.Moved.refl s
  · exact State.setClock_moved seconds s
  · exact State.Moved.refl s
  · exact State.Moved.quiet s _
  · exact State.stepClock_moved seconds _ p s

/-! ## Sensing and lines -/

theorem State.classifyChannels_moved (s : State) : State.Moved out join s s.classifyChannels := by
  unfold State.classifyChannels
  dsimp only
  refine State.Moved.trans ?_ (State.Moved.foldl _ (fun t n => State.post_moved ..) _)
  exact State.Moved.quiet s _

theorem State.endPass_moved (s : State) : State.Moved out join s s.endPass := by
  refine State.Moved.trans ?_ (State.Moved.quiet s.classifyChannels.computeZones _)
  exact (State.classifyChannels_moved s).trans (State.Moved.quiet _ _)

theorem State.beginPass_moved (s : State) : State.Moved out join s s.beginPass := by
  unfold State.beginPass
  dsimp only
  split
  · exact State.endPass_moved s
  · split <;> exact State.Moved.quiet s _

theorem State.takeReading_moved (channel value : Nat) (s : State) :
    State.Moved out join s (s.takeReading channel value) := by
  unfold State.takeReading
  dsimp only
  split
  · exact State.Moved.quiet s _
  · refine State.Moved.trans ?_ (State.Moved.quiet (State.endPass _) _)
    exact (State.Moved.quiet s _).trans (State.endPass_moved _)

theorem State.takeDial_moved (n : Fin 4) (d : PendingDial) (s : State) : State.Moved out join s (s.takeDial n d) := by
  unfold State.takeDial
  exact State.Moved.ite (fun _ => State.Moved.quiet s _) fun _ => State.Moved.quiet s _

theorem dialOwner_moved (f : DialFields) (s : State) : State.Moved out join s (dialOwner f s).1 := by
  unfold dialOwner
  split
  · exact State.Moved.refl s
  · exact State.takeDial_moved ..

theorem State.endImpulse_moved (l : Line) (i : Impulse) (s : State) : State.Moved out join s (s.endImpulse l i) := by
  unfold State.endImpulse
  dsimp only
  repeat' split
  · exact State.Moved.quiet s _
  · exact State.Moved.quiet s _
  · exact (State.Moved.quiet s _).trans (State.post_moved ..)
  · exact State.Moved.quiet s _

/-! ## The panel bus, the links and the configuration -/

theorem State.monitor_moved (q : Panel) (s : State) : State.Moved out join s (s.monitor q) := by
  unfold State.monitor
  dsimp only
  split
  · exact State.Moved.ite (fun _ => State.failPanel_moved ..) fun _ => State.updPanel_moved ..
  · exact State.Moved.refl s

theorem State.endInterval_moved (s : State) : State.Moved out join s s.endInterval := by
  unfold State.endInterval
  refine State.Moved.trans ?_ (State.finish_moved _ s)
  refine State.Moved.trans ?_ (State.Moved.quiet (s.bus.panels.foldl State.monitor s) _)
  exact State.Moved.foldl _ (fun t q => State.monitor_moved q t) s

theorem pollOwner_moved (p : PortId) (s : State) : State.Moved out join s (pollOwner p s).1 := by
  refine State.Moved.trans ?_ (State.settleAttention_moved _)
  refine s.updPort_moved p fun r h => ?_
  have : (r.notices.drop 4).length ≤ r.notices.length := by simp
  exact this.trans h

theorem State.failAbove_moved (s : State) : State.Moved out join s s.failAbove :=
  State.Moved.foldl _ (fun _ _ => State.failPanel_moved ..) s

theorem State.reclass_moved (before : Nat) (s : State) : State.Moved out join s (s.reclass before) := by
  refine (State.Move.entries s (fun e =>
    if e.state ≠ .retiring ∧ e.late before ≠ e.late s.inForce.lateness then { e with rev := e.rev + 1 } else e)
    fun e => ?_).moved
  split <;> exact ⟨rfl, rfl, rfl, rfl, rfl, fun _ h => h⟩

theorem State.afterConf_moved {n : Nat} (hn : n ≠ 301) (s old : State) :
    State.Moved out join s (s.afterConf n old) := by
  unfold State.afterConf
  rw [if_neg hn]
  split
  · exact (State.reclass_moved ..).trans (State.settle_moved ..)
  split
  · exact State.Moved.quiet s _
  split
  · exact (State.testHolds_moved s).trans (State.settle_moved ..)
  split
  · exact (State.refollow_moved ..).trans (State.settleAttention_moved _)
  split
  · exact (State.refollow_moved ..).trans (State.settleAttention_moved _)
  split
  · exact State.settle_moved ..
  split
  · exact (State.failAbove_moved s).trans (State.finish_moved ..)
  · exact State.Moved.refl s

/-- R198: a timing parameter is not the number of PA channels, and only 301 is the confirm count. -/
theorem Params.setNumber_timing {n : Nat} {row : ParamRow} (hn : paramRow n = some row) (ht : row.structural = false)
    (p : Params) (v : Nat) :
    (p.setNumber n v).channels = p.channels ∧ (n ≠ 301 → (p.setNumber n v).confirm = p.confirm) := by
  have hlow : ¬n < 300 := by
    rw [paramRow_structural hn] at ht
    exact of_decide_eq_false ht
  have h4 : (4 : Nat) ≠ n := by omega
  have hchannels := Params.value_setNumber_other hn (m := 4) rfl h4 p v
  exact ⟨hchannels, fun h => Params.value_setNumber_other hn (m := 301) rfl (Ne.symm h) p v⟩

theorem confOwner_moved (f : ConfFields) (s : State) : State.Moved out join s (confOwner f s).1 := by
  unfold confOwner
  split
  · exact State.Moved.refl s
  next row hrow =>
  dsimp only
  split
  · next hs =>
    unfold State.setParameter
    rw [hs, if_pos rfl]
    exact State.Moved.quiet s _
  next hs =>
  have hs := Bool.eq_false_iff.2 hs
  obtain ⟨hchannels, hconfirm⟩ := Params.setNumber_timing hrow hs s.inForce (row.range.nearest f.value)
  have hpending : State.Moved out join s
      { s with pendingCfg := s.pendingCfg.setNumber f.number (row.range.nearest f.value) } := State.Moved.quiet s _
  unfold State.setParameter
  simp only [hs, Bool.false_eq_true, if_false]
  by_cases h301 : f.number = 301
  · refine hpending.trans ?_
    have hafter : ∀ u : State, u.afterConf f.number s = u.capConfirm := fun u => by simp [State.afterConf, h301]
    rw [hafter]
    refine (State.Move.confirm { s with pendingCfg := s.pendingCfg.setNumber f.number (row.range.nearest f.value) }
      (s.inForce.setNumber f.number (row.range.nearest f.value)) ?_ hchannels).moved
    rw [h301] at hrow ⊢
    have hholds := (nearest_of_paramRow hrow f.value).1
    cases hrow
    have hle : 1 ≤ ParamRange.nearest (.span 1 3) f.value ∧ ParamRange.nearest (.span 1 3) f.value ≤ 3 := by
      simpa [ParamRange.holds] using hholds
    exact hle.1
  · refine State.Moved.trans ?_ (State.afterConf_moved h301 _ s)
    exact hpending.trans (State.Move.params
      { s with pendingCfg := s.pendingCfg.setNumber f.number (row.range.nearest f.value) } _ (hconfirm h301)
      hchannels).moved

theorem State.atMs_moved (ms : Nat) (s : State) : State.Moved out join s (s.atMs ms) := State.Moved.quiet s _

end operations

end Sys2Proof.Machine
end

section
/-! Every command but those that bring the picture to its reset values is a chain of primitive moves. -/
namespace Sys2Proof.Machine

open Sys2Proof

/-- The commands that bring the picture to its reset values (R191, R192). -/
def resetsPicture : Instr → Bool
  | .powerOn | .resetPin | .powerLoss _ | .rset _ => true
  | _ => false

/-- The command is a PLAN. -/
def isPlan : Instr → Prop
  | .plan _ => True
  | _ => False

/-- What a telegram's reply adds to a chain. -/
theorem State.Carried.takeTel {plan : Prop} {α : Type} {p : PortId} {k : Kind} {read : List Octet → Option α}
    {owner : α → State → State × Answer} {s t : State} (h : s.takeTel p k read owner = .next t)
    (howner : ∀ f, s.Carried plan (owner f s).1) : s.Carried plan t :=
  State.takeTel_rel (R := s.Carried plan) h (State.Carried.refl plan s) (fun _ tel a hu => hu.answerTel p tel a) howner

theorem State.Carried.answer {plan : Prop} {s t u : State} (h : s.answer u = .next t)
    (hu : State.Moved none none s u) : s.Carried plan t :=
  State.answer_rel (R := s.Carried plan) h (State.Carried.refl plan s) hu.carried

theorem exec_carried {i : Instr} {s t : State} (h : exec i s = .next t) (hi : resetsPicture i = false) :
    s.Carried (isPlan i) t := by
  cases i with
  | powerOn | resetPin | powerLoss cut | rset p => cases hi
  | telegramFrameEnd p ms octets =>
    refine State.Carried.answer h ?_
    split
    · refine (State.atMs_moved ms s).trans (State.updPort_moved _ p fun r hr => ?_)
      unfold Port.frameIn Port.offer
      split <;> exact hr
    · exact State.Moved.refl s
  | abortSequence p => exact State.Carried.answer h (State.Moved.refl s)
  | replySent p ms =>
    refine State.Carried.answer h (State.Moved.ite (fun _ => ?_) fun _ => State.Moved.refl s)
    refine (State.atMs_moved ms s).trans (State.updPort_moved _ p fun r hr => ?_)
    unfold Port.replyDone
    split <;> exact hr
  | unknown p =>
    refine State.Carried.answer h ?_
    split
    · split
      · exact State.updPort_moved s p fun _ hr => hr
      · exact State.Moved.refl s
    · exact State.Moved.refl s
  | plan p => exact State.Carried.takeTel h fun f => planOwner_carried f s
  | amnd p => exact State.Carried.takeTel h fun f => amndOwner_carried _ f s
  | dlay p => exact State.Carried.takeTel h fun f => dlayOwner_carried _ f s
  | canc p => exact State.Carried.takeTel h fun f => cancOwner_carried _ f s
  | rins p => exact State.Carried.takeTel h fun f => rinsOwner_carried _ f s
  | plat p => exact State.Carried.takeTel h fun f => platOwner_carried _ f s
  | pred p => exact State.Carried.takeTel h fun f => predOwner_carried _ f s
  | rdys p => exact State.Carried.takeTel h fun f => rdysOwner_carried _ f s
  | dept p => exact State.Carried.takeTel h fun f => deptOwner_carried _ f s
  | read p => exact State.Carried.takeTel h fun f => (State.Moved.of_eq (readOwner_state f s)).carried
  | csta p => exact State.Carried.takeTel h fun f => (State.Moved.of_eq (cstaOwner_state f s)).carried
  | time p =>
    exact State.takeWith_rel (R := s.Carried _) h (State.Carried.refl _ s) (fun _ tel a hu => hu.answerTel p tel a)
      fun f => (timeOwner_moved p f s).carried
  | take p => exact State.Carried.takeTel (owner := fun _ => takeOwner) h fun _ => (takeOwner_moved s).carried
  | spkn p => exact State.Carried.takeTel h fun f => (spknOwner_moved f s).carried
  | zone p => exact State.Carried.takeTel h fun f => (zoneOwner_moved f s).carried
  | note p => exact State.Carried.takeTel h fun f => (noteOwner_moved f s).carried
  | nclr p => exact State.Carried.takeTel h fun f => (nclrOwner_moved f s).carried
  | wall p => exact State.Carried.takeTel h fun f => (wallOwner_moved f s).carried
  | dial p => exact State.Carried.takeTel h fun f => (dialOwner_moved f s).carried
  | conf p => exact State.Carried.takeTel h fun f => (confOwner_moved f s).carried
  | csav p =>
    exact State.Carried.takeTel (owner := fun _ u => (u.saveConfiguration, Answer.accept .none)) h
      fun _ => (State.Moved.quiet s s.saveConfiguration).carried
  | poll p => exact State.Carried.takeTel (owner := fun _ => pollOwner p) h fun _ => (pollOwner_moved p s).carried
  | silenceExpiry p =>
    exact State.Carried.answer h (State.Moved.ite
      (fun _ => (State.fallSilent_moved p s).trans (State.settle_moved _ s)) fun _ => State.Moved.refl s)
  | runningSecond => exact State.Carried.answer h (State.second_moved s)
  | minuteAdvance =>
    exact State.Carried.answer h (State.Moved.ite (fun _ => State.second_moved s) fun _ => State.Moved.refl s)
  | holdoverExpiry =>
    exact State.Carried.answer h (State.Moved.ite
      (fun _ => (State.enterHoldover_moved s).trans (State.settleAttention_moved _)) fun _ => State.Moved.refl s)
  | predictionStale run =>
    refine State.Carried.answer h ?_
    split
    · exact State.Moved.ite (fun _ => (State.clearFilter_moved run s).trans (State.finish_moved _ s))
        fun _ => State.Moved.refl s
    · exact State.Moved.refl s
  | speakTimeout cue =>
    refine State.Carried.answer h ?_
    split
    · next c k hk =>
      refine State.Moved.ite (fun _ => ?_) fun _ => State.Moved.refl s
      refine (State.post_moved ..).trans (State.speak_moved ?_ k)
      rw [State.post_cues]
      exact (State.takenCue_find hk).1
    · exact State.Moved.refl s
  | gapEnd zone =>
    refine State.Carried.answer h (State.Moved.ite (fun _ => ?_) fun _ => State.Moved.refl s)
    exact (State.Moved.quiet s _).trans (State.settleAttention_moved _)
  | noticeExpiry number =>
    exact State.Carried.answer h (State.Moved.ite (fun _ => State.removeNotice_moved number s)
      fun _ => State.Moved.refl s)
  | dwellExpiry =>
    refine State.Carried.answer h ?_
    split
    · next hi => exact (State.showItem_moved hi).trans (State.settle_moved _ s)
    · exact State.Moved.refl s
  | panelFrameEnd ms =>
    refine State.Carried.answer h ?_
    split
    · exact State.Moved.quiet s _
    · exact State.Moved.refl s
  | panelReplyReceived ms octets =>
    refine State.Carried.answer h ?_
    split
    · exact (State.atMs_moved ms s).trans (State.endExchange_moved ..)
    · exact State.Moved.refl s
  | replyWindowClose ms =>
    refine State.Carried.answer h ?_
    split
    · exact State.Moved.ite (fun _ => (State.atMs_moved ms s).trans (State.endExchange_moved ..))
        fun _ => State.Moved.refl s
    · exact State.Moved.refl s
  | strayPanelOctets octets => exact State.Carried.answer h (State.Moved.refl s)
  | keepaliveDue ms addr =>
    exact State.Carried.answer h (State.Moved.ite
      (fun _ => (State.atMs_moved ms s).trans (State.dispatch_moved _)) fun _ => State.Moved.refl s)
  | probeDue ms addr =>
    exact State.Carried.answer h (State.Moved.ite
      (fun _ => (State.atMs_moved ms s).trans (State.dispatch_moved _)) fun _ => State.Moved.refl s)
  | intervalEnd ms =>
    exact State.Carried.answer h (State.Moved.ite
      (fun _ => (State.atMs_moved ms s).trans (State.endInterval_moved _)) fun _ => State.Moved.refl s)
  | passTrigger ms =>
    refine State.Carried.answer h (State.Moved.ite (fun _ => ?_) fun _ => State.Moved.refl s)
    have hscan : State.Moved none none s (s.atMs ms).restartScan := State.Moved.quiet s _
    exact State.Moved.ite (fun _ => hscan)
      fun _ => hscan.trans ((State.beginPass_moved _).trans (State.finish_moved _ s))
  | lightConversionComplete ms value =>
    refine State.Carried.answer h ?_
    split
    · exact (State.atMs_moved ms s).trans ((State.takeReading_moved ..).trans (State.finish_moved _ s))
    · exact State.Moved.refl s
  | lineCheckRequest ms line =>
    exact State.Carried.answer h (State.Moved.ite (fun _ => State.Moved.quiet s _) fun _ => State.Moved.refl s)
  | lineCheckComplete ms value =>
    refine State.Carried.answer h ?_
    split
    · exact State.Moved.quiet s _
    · exact State.Moved.refl s
  | nextImpulseTime ms line =>
    exact State.Carried.answer h (State.Moved.ite (fun _ => State.Moved.quiet s _) fun _ => State.Moved.refl s)
  | impulseEnd ms line =>
    refine State.Carried.answer h ?_
    dsimp only
    split
    · exact (State.atMs_moved ms s).trans ((State.endImpulse_moved ..).trans (State.settleAttention_moved _))
    · exact State.Moved.refl s

end Sys2Proof.Machine
end

section
/-! The order of the departure table under every command (R2, R39). -/
namespace Sys2Proof.Machine

open Sys2Proof

/-! ## What the composite moves leave -/

/-- The entries once removal has been decided for one, its record not yet void (R10). -/
def State.takenOff (run : Nat) (s : State) : List Entry :=
  if s.namedByTaken run then
    updWhere (·.run = run) (fun e => { e with state := .retiring, rev := e.rev + 1 }) s.table.entries
  else s.table.entries.filter (·.run ≠ run)

/-- The state once removal has been decided for an entry, its record not yet void (R10). -/
def State.retire (run : Nat) (s : State) : State :=
  if s.namedByTaken run then
    (s.updEntry run fun e => { e with state := .retiring, rev := e.rev + 1 }).rederive
  else s.dropEntry run

theorem State.takeOff_eq (run : Nat) (s : State) :
    s.takeOff run = ((s.retire run).voidRecord run).withdrawWhere (·.run = run) := rfl

theorem State.retire_frame (run : Nat) (s : State) :
    (s.retire run).table.entries = s.takenOff run ∧ (s.retire run).tracker = s.tracker ∧ (s.retire run).cues = s.cues ∧
      (s.retire run).inForce = s.inForce ∧ (s.retire run).wall = s.wall ∧ (s.retire run).ports = s.ports := by
  unfold State.retire State.takenOff
  split <;> exact ⟨rfl, rfl, rfl, rfl, rfl, rfl⟩

/-- The entries with the record of a run void, if it has an OPEN one (R76). -/
def State.unrecordedEntries (run : Nat) (s : State) : List Entry :=
  if (s.openRecord? run).isSome then s.table.entries.map (Entry.unrecorded run) else s.table.entries

theorem State.voidRecord_entries (run : Nat) (s : State) :
    (s.voidRecord run).table.entries = s.unrecordedEntries run := by
  unfold State.unrecordedEntries
  split
  · next h => exact (State.voidRecord_of_open h).2.1
  · next h => rw [State.voidRecord_of_none (Option.not_isSome_iff_eq_none.1 h)]

theorem State.takeOff_entries (run : Nat) (s : State) :
    (s.takeOff run).table.entries = (s.retire run).unrecordedEntries run := by
  rw [State.takeOff_eq, State.withdrawWhere_table, State.voidRecord_entries]

theorem State.takeOff_sources (run : Nat) (s : State) : (s.takeOff run).sources = s.sources := by
  rw [State.takeOff_eq, State.withdrawWhere_sources, State.voidRecord_sources]
  unfold State.retire
  split <;> simp

theorem State.cueEnded_entries (run : Nat) (s : State) :
    (s.cueEnded run).table.entries = s.table.entries ∨
      (s.cueEnded run).table.entries = s.table.entries.filter (·.run ≠ run) := by
  unfold State.cueEnded
  split
  · exact .inr rfl
  · exact .inl rfl

theorem State.inform_entries (r : ChangeRec) (s : State) :
    (s.inform r).table.entries =
      updWhere (·.run = r.run) (fun e => { e with openRec := none, rev := e.rev + 1 }) s.table.entries := by
  simp [State.inform]
  rfl

/-! ## The entries -/

/-- The departure table stands in order (R2, R39). -/
def EntriesOk (confirm : Nat) (l : List Entry) : Prop :=
  l.Pairwise (fun a b => keyLt a b = true) ∧ (l.map (·.run)).Nodup ∧ l.length ≤ 96 ∧ ∀ e ∈ l, e.Ok confirm

theorem State.tableOk_iff (s : State) : s.TableOk ↔ EntriesOk s.inForce.confirm s.table.entries := Iff.rfl

section entries

variable {confirm : Nat} {l : List Entry}

/-- Entries that move none of their keys against each other. -/
theorem EntriesOk.map (h : EntriesOk confirm l) {f : Entry → Entry} {d : Int} (hrun : ∀ e, (f e).run = e.run)
    (hsched : ∀ e, (f e).sched = e.sched - d) (hexp : ∀ e, (f e).exp = e.exp - d)
    (hok : ∀ e, e.Ok confirm → (f e).Ok confirm) : EntriesOk confirm (l.map f) := by
  obtain ⟨hsort, hnodup, hlen, hall⟩ := h
  refine ⟨?_, ?_, by rwa [List.length_map], fun e he => ?_⟩
  · refine List.pairwise_map.2 (hsort.imp fun {a b} hab => ?_)
    rw [keyLt_iff] at *
    rw [hrun, hrun, hsched, hsched, hexp, hexp]
    omega
  · rw [List.map_map]
    have : (fun e : Entry => e.run) ∘ f = fun e => e.run := funext hrun
    rwa [this]
  · obtain ⟨a, ha, rfl⟩ := List.mem_map.1 he
    exact hok a (hall a ha)

theorem EntriesOk.mapSame (h : EntriesOk confirm l) {f : Entry → Entry} (hrun : ∀ e, (f e).run = e.run)
    (hsched : ∀ e, (f e).sched = e.sched) (hexp : ∀ e, (f e).exp = e.exp)
    (hok : ∀ e, e.Ok confirm → (f e).Ok confirm) : EntriesOk confirm (l.map f) :=
  h.map (d := 0) hrun (fun e => by rw [hsched]; omega) (fun e => by rw [hexp]; omega) hok

theorem EntriesOk.filter (h : EntriesOk confirm l) (p : Entry → Bool) : EntriesOk confirm (l.filter p) := by
  obtain ⟨hsort, hnodup, hlen, hall⟩ := h
  exact ⟨hsort.sublist List.filter_sublist, hnodup.sublist (List.filter_sublist.map _),
    (List.length_filter_le _ _).trans hlen, fun e he => hall e (List.mem_filter.1 he).1⟩

theorem EntriesOk.sorted (hnodup : (l.map (·.run)).Nodup) (hlen : l.length ≤ 96) (hall : ∀ e ∈ l, e.Ok confirm) :
    EntriesOk confirm (sortEntries l) := by
  have hperm := sortEntries_perm l
  exact ⟨sortEntries_sorted l hnodup, (hperm.map _).nodup_iff.2 hnodup, by rwa [length_sortEntries],
    fun e he => hall e (hperm.mem_iff.1 he)⟩

theorem map_run_put (old new : Entry) (hr : new.run = old.run) (l : List Entry) :
    (updWhere (·.run = old.run) (fun _ => new) l).map (·.run) = l.map (·.run) := by
  simp only [updWhere, List.map_map]
  refine List.map_congr_left fun a _ => ?_
  by_cases ha : a.run = old.run
  · simp [ha, hr]
  · simp [ha]

theorem mem_put {old new x : Entry} {l : List Entry} (h : x ∈ updWhere (·.run = old.run) (fun _ => new) l) :
    x = new ∨ (x ∈ l ∧ x.run ≠ old.run) := by
  obtain ⟨a, ha, rfl⟩ := List.mem_map.1 h
  by_cases har : a.run = old.run
  · simp [har]
  · simp [har, ha]

theorem EntriesOk.put (h : EntriesOk confirm l) {old new : Entry} (hr : new.run = old.run) (hok : new.Ok confirm) :
    EntriesOk confirm (sortEntries (updWhere (·.run = old.run) (fun _ => new) l)) := by
  obtain ⟨-, hnodup, hlen, hall⟩ := h
  refine EntriesOk.sorted ?_ (by rwa [length_updWhere]) fun e he => ?_
  · rwa [map_run_put old new hr]
  · obtain rfl | ⟨hmem, -⟩ := mem_put he
    · exact hok
    · exact hall e hmem

/-- The one entry of a run replaced in its place. -/
theorem EntriesOk.touch (h : EntriesOk confirm l) {old new : Entry} (hold : old ∈ l) (hr : new.run = old.run)
    (hs : new.sched = old.sched) (he : new.exp = old.exp) (hok : new.Ok confirm) :
    EntriesOk confirm (updWhere (·.run = old.run) (fun _ => new) l) := by
  obtain ⟨hsort, hnodup, hlen, hall⟩ := id h
  have heq : updWhere (·.run = old.run) (fun _ => new) l =
      l.map fun e => if e.run = old.run then { new with run := e.run, sched := e.sched, exp := e.exp } else e := by
    refine List.map_congr_left fun a ha => ?_
    by_cases har : a.run = old.run
    · have : a = old := List.inj_on_of_nodup_map hnodup ha hold har
      subst this
      simp [← hr, ← hs, ← he]
    · simp [har]
  have hput := h.put hr hok
  obtain ⟨-, hnodup', hlen', hall'⟩ := hput
  refine ⟨?_, by rwa [map_run_put old new hr], by rwa [length_updWhere], fun e hm => ?_⟩
  · rw [heq]
    refine List.pairwise_map.2 (hsort.imp fun {a b} hab => ?_)
    rw [keyLt_iff] at *
    split <;> split <;> exact hab
  · obtain rfl | ⟨hmem, -⟩ := mem_put hm
    · exact hok
    · exact hall e hmem

theorem EntriesOk.unrecorded (h : EntriesOk confirm l) (run : Nat) : EntriesOk confirm (l.map (Entry.unrecorded run)) := by
  refine h.mapSame ?_ ?_ ?_ ?_ <;> intro e
  all_goals unfold Entry.unrecorded
  · split <;> rfl
  · split <;> rfl
  · split <;> rfl
  · split <;> exact id

end entries

/-! ## The moves -/

/-- The table in order, under a confirm count of at least 1. -/
def State.Tabled (s : State) : Prop := EntriesOk s.inForce.confirm s.table.entries ∧ 1 ≤ s.inForce.confirm

theorem State.Tabled.of_eq {s t : State} (h : s.Tabled) (he : t.table.entries = s.table.entries)
    (hf : t.inForce = s.inForce) : t.Tabled := by
  unfold State.Tabled
  rwa [he, hf]

theorem State.Tabled.of_sources {s t : State} (h : s.Tabled) (he : EntriesOk s.inForce.confirm t.table.entries)
    (hf : t.sources = s.sources) : t.Tabled := by
  unfold State.Tabled
  rw [State.inForce_of_sources hf]
  exact ⟨he, h.2⟩

theorem State.Tabled.inform {s : State} (h : s.Tabled) (r : ChangeRec) : (s.inform r).Tabled := by
  refine h.of_sources ?_ (State.inform_sources r s)
  rw [State.inform_entries]
  refine h.1.mapSame ?_ ?_ ?_ ?_ <;> intro e
  · split <;> rfl
  · split <;> rfl
  · split <;> rfl
  · split <;> exact id

theorem State.Tabled.voidRecord {s : State} (h : s.Tabled) (run : Nat) : (s.voidRecord run).Tabled := by
  refine h.of_sources ?_ (State.voidRecord_sources run s)
  rw [State.voidRecord_entries, State.unrecordedEntries]
  split
  · exact h.1.unrecorded run
  · exact h.1

theorem State.Tabled.takeOff {s : State} (h : s.Tabled) (run : Nat) : (s.takeOff run).Tabled := by
  obtain ⟨hentries, -, -, hforce, -⟩ := State.retire_frame run s
  have hretire : (s.retire run).Tabled := by
    unfold State.Tabled
    rw [hentries, hforce]
    refine ⟨?_, h.2⟩
    unfold State.takenOff
    split
    · refine h.1.mapSame ?_ ?_ ?_ ?_ <;> intro e
      · split <;> rfl
      · split <;> rfl
      · split <;> rfl
      · split <;> exact id
    · exact h.1.filter _
  exact (hretire.voidRecord run).of_eq rfl rfl

theorem State.Tabled.cueEnded {s : State} (h : s.Tabled) (run : Nat) : (s.cueEnded run).Tabled := by
  unfold State.cueEnded
  split
  · exact ⟨h.1.filter _, h.2⟩
  · exact h

theorem State.Move.tabled {out join : Option Nat} {s t : State} (h : State.Move out join s t) (hs : s.Tabled) :
    t.Tabled := by
  cases h with
  | aside h => exact hs.of_eq h.entries h.inForce
  | compose => exact hs.of_eq (by rw [State.compose_table]) (State.inForce_of_sources (State.compose_sources s))
  | params p hconfirm _ => exact ⟨by rw [hconfirm]; exact hs.1, by rw [hconfirm]; exact hs.2⟩
  | confirm p hconfirm _ =>
    obtain ⟨hsort, hnodup, hlen, hall⟩ := hs.1
    refine ⟨⟨?_, ?_, ?_, fun e he => ?_⟩, hconfirm⟩
    · exact List.pairwise_map.2 hsort
    · simpa [State.withConfirm, State.capConfirm, List.map_map, Function.comp_def] using hnodup
    · simpa [State.withConfirm, State.capConfirm] using hlen
    · obtain ⟨a, ha, rfl⟩ := List.mem_map.1 he
      obtain ⟨h1, h2, h3, h4, h5, -, h7, h8⟩ := hall a ha
      exact ⟨h1, h2, h3, h4, h5, min_le_right .., h7, h8⟩
  | entries f hf =>
    exact ⟨hs.1.mapSame (fun e => (hf e).run) (fun e => (hf e).sched) (fun e => (hf e).exp)
      fun e he => (hf e).ok hs.2 he, hs.2⟩
  | touch old new hold hkeep =>
    have hmem := entryIn_mem hold
    exact ⟨hs.1.touch hmem hkeep.run hkeep.sched hkeep.exp (hkeep.ok hs.2 (hs.1.2.2.2 old hmem)), hs.2⟩
  | put old new hold hrep => exact ⟨hs.1.put hrep.run (hrep.ok hs.2 (hs.1.2.2.2 old (entryIn_mem hold))), hs.2⟩
  | create e _ hnew hroom hok _ _ =>
    obtain ⟨-, hnodup, -, hall⟩ := hs.1
    refine ⟨EntriesOk.sorted ?_ (by simpa using hroom) fun x hx => ?_, hs.2⟩
    · rw [List.map_cons, List.nodup_cons]
      refine ⟨fun hmem => ?_, hnodup⟩
      obtain ⟨x, hx, hxr⟩ := List.mem_map.1 hmem
      have := List.find?_eq_none.1 hnew x hx
      simp [hxr] at this
    · obtain rfl | hx := List.mem_cons.1 hx
      · exact hok
      · exact hall x hx
  | shift d =>
    refine ⟨hs.1.map (fun _ => rfl) (fun _ => rfl) (fun _ => rfl) fun e he => ?_, hs.2⟩
    obtain ⟨h1, h2⟩ := (Entry.ok_iff _ _).1 he
    refine (Entry.ok_iff _ _).2 ⟨?_, h2⟩
    dsimp only
    rw [h1]
    omega
  | takeOff run => exact hs.takeOff run
  | cueEnded run => exact hs.cueEnded run
  | endCue c _ => exact (State.Tabled.of_eq (t := s.endCue c.number) hs rfl rfl).cueEnded c.run
  | voidRecord run => exact hs.voidRecord run
  | enterRecord r n k _ _ _ _ =>
    refine ⟨hs.1.mapSame ?_ ?_ ?_ ?_, hs.2⟩ <;> intro e
    · split <;> rfl
    · split <;> rfl
    · split <;> rfl
    · split <;> exact id
  | informAll =>
    unfold State.informAll
    generalize s.tracker.records.filter _ = l
    induction l generalizing s with
    | nil => exact hs
    | cons r l ih => exact ih (hs.inform r)
  | _ => exact hs

theorem State.Moved.tabled {out join : Option Nat} {s t : State} (h : State.Moved out join s t) (hs : s.Tabled) :
    t.Tabled := by
  induction h with
  | refl => exact hs
  | tail _ hstep ih => exact hstep.tabled ih

end Sys2Proof.Machine
end

section
/-! The change records under every command: their slots, the closed list, one OPEN record a run (R64, R65), and each named by
its entry (R76, R77). -/
namespace Sys2Proof.Machine

open Sys2Proof

/-- The change records and the closed list stand in order (R64, R65). -/
def Tracker.Ok (k : Tracker) : Prop :=
  (k.records.map (·.no)).Nodup ∧ (∀ r ∈ k.records, 1 ≤ r.no ∧ r.no ≤ 16) ∧ k.closed.Nodup ∧
    (∀ n ∈ k.closed, ∃ r ∈ k.records, r.no = n ∧ r.isOpen = false) ∧
    (∀ r ∈ k.records, r.isOpen = false → r.no ∈ k.closed) ∧ ((k.records.filter (·.isOpen)).map (·.run)).Nodup

theorem State.trackerOk_iff (s : State) : s.TrackerOk ↔ s.tracker.Ok := Iff.rfl

section trackers

variable {k : Tracker}

theorem Tracker.Ok.record_unique (h : k.Ok) {r x : ChangeRec} (hr : r ∈ k.records) (hx : x ∈ k.records)
    (hno : r.no = x.no) : r = x := List.inj_on_of_nodup_map h.1 hr hx hno

theorem Tracker.Ok.open_unique (h : k.Ok) {r x : ChangeRec} (hr : r ∈ k.records) (hx : x ∈ k.records)
    (hro : r.isOpen = true) (hxo : x.isOpen = true) (hrun : r.run = x.run) : r = x := by
  obtain ⟨-, -, -, -, -, hopen⟩ := h
  exact List.inj_on_of_nodup_map hopen (List.mem_filter.2 ⟨hr, hro⟩) (List.mem_filter.2 ⟨hx, hxo⟩) hrun

/-- The OPEN records mapped by `f`, of those that stay OPEN. -/
theorem open_runs_map {f : ChangeRec → ChangeRec} (hrun : ∀ r, (f r).run = r.run)
    (hopen : ∀ r, (f r).isOpen = true → r.isOpen = true) {l : List ChangeRec}
    (h : ((l.filter (·.isOpen)).map (·.run)).Nodup) : (((l.map f).filter (·.isOpen)).map (·.run)).Nodup := by
  have heq : (((l.map f).filter (·.isOpen)).map (·.run)) =
      ((l.filter (·.isOpen)).filter fun r => (f r).isOpen).map (·.run) := by
    rw [List.filter_map, List.map_map, List.filter_filter]
    have hrun' : (fun r : ChangeRec => r.run) ∘ f = fun r => r.run := funext hrun
    rw [hrun']
    congr 1
    refine List.filter_congr fun r _ => ?_
    cases hf : (f r).isOpen
    · simp [hf]
    · simp [hf, hopen r hf]
  rw [heq]
  exact h.sublist (List.filter_sublist.map _)

/-- Records that keep their slots and their runs, some of the OPEN ones closed, their numbers appended to the closed list. -/
theorem Tracker.Ok.close (h : k.Ok) {f : ChangeRec → ChangeRec} (hno : ∀ r, (f r).no = r.no)
    (hrun : ∀ r, (f r).run = r.run) (hopen : ∀ r, (f r).isOpen = true → r.isOpen = true) {ns : List Nat}
    (hns : ns.Nodup)
    (hmem : ∀ n, n ∈ ns ↔ ∃ r ∈ k.records, r.isOpen = true ∧ (f r).isOpen = false ∧ r.no = n) :
    Tracker.Ok { records := k.records.map f, closed := k.closed ++ ns } := by
  obtain ⟨hnodup, hrange, hclosed, hback, hforth, hruns⟩ := id h
  have hno' : (fun r : ChangeRec => r.no) ∘ f = fun r => r.no := funext hno
  refine ⟨?_, ?_, ?_, ?_, ?_, ?_⟩
  · rwa [List.map_map, hno']
  · intro r hr
    obtain ⟨x, hx, rfl⟩ := List.mem_map.1 hr
    rw [hno]
    exact hrange x hx
  · refine List.nodup_append.2 ⟨hclosed, hns, fun a ha b hb hab => ?_⟩
    obtain ⟨r, hr, hrn, hro⟩ := hback a ha
    obtain ⟨x, hx, hxo, -, hxn⟩ := (hmem b).1 hb
    rw [h.record_unique hr hx (by rw [hrn, hxn, hab]), hxo] at hro
    cases hro
  · intro n hn
    obtain hn | hn := List.mem_append.1 hn
    · obtain ⟨r, hr, hrn, hro⟩ := hback n hn
      refine ⟨f r, List.mem_map.2 ⟨r, hr, rfl⟩, (hno r).trans hrn, Bool.eq_false_iff.2 fun ho => ?_⟩
      rw [hopen r ho] at hro
      cases hro
    · obtain ⟨r, hr, -, hfo, hrn⟩ := (hmem n).1 hn
      exact ⟨f r, List.mem_map.2 ⟨r, hr, rfl⟩, (hno r).trans hrn, hfo⟩
  · intro x hx hxo
    obtain ⟨r, hr, rfl⟩ := List.mem_map.1 hx
    rw [hno]
    cases hro : r.isOpen with
    | false => exact List.mem_append_left _ (hforth r hr hro)
    | true => exact List.mem_append_right _ ((hmem _).2 ⟨r, hr, hro, hxo, rfl⟩)
  · exact open_runs_map hrun hopen hruns

/-- Records that keep their slots and runs, none closed. -/
theorem Tracker.Ok.mapKeeps (h : k.Ok) {f : ChangeRec → ChangeRec} (hf : ∀ r : ChangeRec, r.Keeps (f r)) :
    Tracker.Ok { k with records := k.records.map f } := by
  have := h.close (f := f) (ns := []) (fun r => (hf r).no) (fun r => (hf r).run)
    (fun r ho => (hf r).isOpen ▸ ho) List.nodup_nil (fun n => ⟨nofun, fun ⟨r, _, ho, hc, _⟩ => by
      rw [(hf r).isOpen, ho] at hc
      cases hc⟩)
  simpa using this

end trackers

/-! ## Closing -/

theorem State.mem_openNumbers {run n : Nat} {s : State} :
    n ∈ s.openNumbers run ↔ ∃ r ∈ s.tracker.records, r.isOpen = true ∧ r.run = run ∧ r.no = n := by
  simp only [State.openNumbers, List.mem_map, List.mem_filter, Bool.and_eq_true, decide_eq_true_eq]
  exact ⟨fun ⟨r, ⟨hr, hrun, ho⟩, hn⟩ => ⟨r, hr, ho, hrun, hn⟩, fun ⟨r, hr, ho, hrun, hn⟩ => ⟨r, ⟨hr, hrun, ho⟩, hn⟩⟩

theorem State.openNumbers_nodup {s : State} (h : s.tracker.Ok) (run : Nat) : (s.openNumbers run).Nodup :=
  h.1.sublist (List.filter_sublist.map _)

theorem State.voidRecord_trackerOk {s : State} (h : s.tracker.Ok) (run : Nat) : (s.voidRecord run).tracker.Ok := by
  cases ho : s.openRecord? run with
  | none => rwa [State.voidRecord_of_none ho]
  | some r =>
    rw [(State.voidRecord_of_open (run := run) (s := s) (by rw [ho]; rfl)).1]
    have hf := ChangeRec.voided_fields run
    refine h.close (fun r => (hf r).1) (fun r => (hf r).2.1) (fun r hr => ((hf r).2.2.1 hr).1)
      (State.openNumbers_nodup h run) fun n => ?_
    rw [State.mem_openNumbers]
    refine exists_congr fun r => and_congr_right fun _ => and_congr_right fun hr => and_congr_left fun _ => ?_
    rw [Bool.eq_false_iff, Ne, (hf r).2.2]
    simp [hr]

/-- A record after those of its run have been superseded (R67). -/
def ChangeRec.superseded (run : Nat) (r : ChangeRec) : ChangeRec :=
  if r.run = run && r.live then { r with state := .superseded } else r

theorem ChangeRec.superseded_fields (run : Nat) (r : ChangeRec) :
    (r.superseded run).no = r.no ∧ (r.superseded run).run = r.run ∧
      ((r.superseded run).isOpen = true ↔ r.isOpen = true ∧ r.run ≠ run) := by
  unfold ChangeRec.superseded
  by_cases hr : r.run = run <;> by_cases ho : r.live = true <;> simp_all [ChangeRec.isOpen, ChangeRec.live]

theorem State.supersede_tracker (run : Nat) (s : State) :
    (s.supersede run).tracker =
      { records := s.tracker.records.map (ChangeRec.superseded run)
        closed := s.tracker.closed ++ s.openNumbers run } := rfl

theorem State.supersede_trackerOk {s : State} (h : s.tracker.Ok) (run : Nat) : (s.supersede run).tracker.Ok := by
  rw [State.supersede_tracker]
  have hf := ChangeRec.superseded_fields run
  refine h.close (fun r => (hf r).1) (fun r => (hf r).2.1) (fun r hr => ((hf r).2.2.1 hr).1)
    (State.openNumbers_nodup h run) fun n => ?_
  rw [State.mem_openNumbers]
  refine exists_congr fun r => and_congr_right fun _ => and_congr_right fun hr => and_congr_left fun _ => ?_
  rw [Bool.eq_false_iff, Ne, (hf r).2.2]
  simp [hr]

/-! ## Slots -/

/-- What a slot taken gives: a number in range that no record left holds, and records that still stand in order (R65). -/
theorem Tracker.Ok.takeSlot {k k' : Tracker} {n : Nat} (h : k.Ok) (hslot : k.takeSlot = some (n, k')) :
    k'.Ok ∧ 1 ≤ n ∧ n ≤ 16 ∧ (∀ r ∈ k'.records, r.no ≠ n) ∧
      (∀ r ∈ k'.records, r ∈ k.records) ∧ ∀ r ∈ k.records, r.isOpen = true → r ∈ k'.records := by
  obtain ⟨hnodup, hrange, hclosed, hback, hforth, hruns⟩ := id h
  unfold Tracker.takeSlot at hslot
  split at hslot
  · next m hfree =>
    cases hslot
    have hmem := List.mem_of_find?_eq_some hfree
    have hno := List.find?_some hfree
    simp only [List.mem_map, List.mem_range] at hmem
    obtain ⟨a, ha, rfl⟩ := hmem
    refine ⟨h, by omega, by omega, fun r hr hrn => ?_, fun r hr => hr, fun r hr _ => hr⟩
    have : k.records.any (fun x => x.no = a + 1) = true := List.any_eq_true.2 ⟨r, hr, decide_eq_true hrn⟩
    simp [this] at hno
  · split at hslot
    · next m rest hc =>
      cases hslot
      rw [hc] at hclosed hback hforth
      obtain ⟨hnew, hrest⟩ := List.nodup_cons.1 hclosed
      obtain ⟨r, hr, hrn, hro⟩ := hback n List.mem_cons_self
      have hkeep : ∀ x ∈ k.records, x.isOpen = true → x.no ≠ n := fun x hx hxo hxn => by
        rw [h.record_unique hx hr (hxn.trans hrn.symm), hro] at hxo
        cases hxo
      refine ⟨⟨?_, ?_, hrest, ?_, ?_, ?_⟩, ?_, ?_, ?_, ?_, ?_⟩
      · exact hnodup.sublist (List.filter_sublist.map _)
      · exact fun x hx => hrange x (List.mem_filter.1 hx).1
      · intro m hm
        obtain ⟨x, hx, hxn, hxo⟩ := hback m (List.mem_cons_of_mem _ hm)
        refine ⟨x, List.mem_filter.2 ⟨hx, decide_eq_true fun hxn' => hnew ?_⟩, hxn, hxo⟩
        rwa [← hxn', hxn]
      · intro x hx hxo
        obtain ⟨hx, hxn⟩ := List.mem_filter.1 hx
        exact (List.mem_cons.1 (hforth x hx hxo)).resolve_left (of_decide_eq_true hxn)
      · exact hruns.sublist ((List.filter_sublist.filter _).map _)
      · rw [← hrn]
        exact (hrange r hr).1
      · rw [← hrn]
        exact (hrange r hr).2
      · exact fun x hx => of_decide_eq_true (List.mem_filter.1 hx).2
      · exact fun x hx => (List.mem_filter.1 hx).1
      · exact fun x hx hxo => List.mem_filter.2 ⟨hx, decide_eq_true (hkeep x hx hxo)⟩
    · cases hslot

theorem Tracker.Ok.append {k : Tracker} (h : k.Ok) {r : ChangeRec} (hrange : 1 ≤ r.no ∧ r.no ≤ 16)
    (hopen : r.isOpen = true) (hno : ∀ x ∈ k.records, x.no ≠ r.no)
    (hrun : ∀ x ∈ k.records, x.isOpen = true → x.run ≠ r.run) :
    Tracker.Ok { k with records := k.records ++ [r] } := by
  obtain ⟨hnodup, hall, hclosed, hback, hforth, hruns⟩ := h
  refine ⟨?_, fun x hx => ?_, hclosed, fun n hn => ?_, fun x hx hxo => ?_, ?_⟩
  · rw [List.map_append, List.map_singleton]
    refine List.nodup_append.2 ⟨hnodup, List.nodup_singleton _, fun a ha b hb => ?_⟩
    obtain ⟨x, hx, rfl⟩ := List.mem_map.1 ha
    rw [List.mem_singleton.1 hb]
    exact hno x hx
  · obtain hx | hx := List.mem_append.1 hx
    · exact hall x hx
    · rwa [List.mem_singleton.1 hx]
  · obtain ⟨x, hx, hxn, hxo⟩ := hback n hn
    exact ⟨x, List.mem_append_left _ hx, hxn, hxo⟩
  · obtain hx | hx := List.mem_append.1 hx
    · exact hforth x hx hxo
    · rw [List.mem_singleton.1 hx, hopen] at hxo
      cases hxo
  · rw [List.filter_append, List.filter_cons_of_pos hopen, List.filter_nil, List.map_append, List.map_singleton]
    refine List.nodup_append.2 ⟨hruns, List.nodup_singleton _, fun a ha b hb => ?_⟩
    obtain ⟨x, hx, rfl⟩ := List.mem_map.1 ha
    rw [List.mem_singleton.1 hb]
    exact hrun x (List.mem_filter.1 hx).1 (List.mem_filter.1 hx).2

theorem State.enterRecord_tracker (r : ChangeRec) (n : Nat) (k : Tracker) (s : State) :
    (s.enterRecord r n k).tracker = { k with records := k.records ++ [r] } := rfl

theorem State.supersede_no_open {run : Nat} {s : State} {x : ChangeRec} (hx : x ∈ (s.supersede run).tracker.records)
    (ho : x.isOpen = true) : x.run ≠ run := by
  rw [State.supersede_tracker] at hx
  obtain ⟨y, -, rfl⟩ := List.mem_map.1 hx
  obtain ⟨-, hrun, hopen⟩ := ChangeRec.superseded_fields run y
  rw [hrun]
  exact (hopen.1 ho).2

/-! ## INFORMED -/

/-- A record after that of slot `n` has become INFORMED (R75). -/
def ChangeRec.informed (n : Nat) (r : ChangeRec) : ChangeRec := if r.no = n then { r with state := .informed } else r

theorem ChangeRec.informed_fields (n : Nat) (r : ChangeRec) :
    (r.informed n).no = r.no ∧ (r.informed n).run = r.run ∧
      ((r.informed n).isOpen = true ↔ r.isOpen = true ∧ r.no ≠ n) := by
  unfold ChangeRec.informed
  by_cases hr : r.no = n <;> simp [hr, ChangeRec.isOpen]

theorem State.inform_tracker (r : ChangeRec) (s : State) :
    (s.inform r).tracker =
      { records := s.tracker.records.map (ChangeRec.informed r.no), closed := s.tracker.closed ++ [r.no] } := by
  have hmap : updWhere (·.no = r.no) (fun x : ChangeRec => { x with state := .informed }) s.tracker.records =
      s.tracker.records.map (ChangeRec.informed r.no) :=
    List.map_congr_left fun x _ => by simp [ChangeRec.informed]
  rw [← hmap]
  rfl

theorem State.inform_trackerOk {s : State} (h : s.tracker.Ok) {r : ChangeRec}
    (hr : ∃ x ∈ s.tracker.records, x.no = r.no ∧ x.isOpen = true) : (s.inform r).tracker.Ok := by
  obtain ⟨x, hx, hxn, hxo⟩ := hr
  rw [State.inform_tracker]
  have hf := ChangeRec.informed_fields r.no
  refine h.close (fun r => (hf r).1) (fun r => (hf r).2.1) (fun r hr => ((hf r).2.2.1 hr).1) (List.nodup_singleton _)
    fun n => ?_
  rw [List.mem_singleton]
  refine ⟨fun hn => ⟨x, hx, hxo, ?_, hxn.trans hn.symm⟩, fun ⟨y, _, hyo, hyc, hyn⟩ => ?_⟩
  · rw [Bool.eq_false_iff, Ne, (hf x).2.2]
    simp [hxn]
  · rw [Bool.eq_false_iff, Ne, (hf y).2.2] at hyc
    simp only [hyo, true_and, not_not] at hyc
    rw [← hyn, hyc]

/-- Of records of different slots that stand OPEN, those after the first stand OPEN once that is INFORMED. -/
theorem State.inform_open {s : State} {r y : ChangeRec}
    (h : ∃ x ∈ s.tracker.records, x.no = y.no ∧ x.run = y.run ∧ x.isOpen = true) (hne : r.no ≠ y.no) :
    ∃ x ∈ (s.inform r).tracker.records, x.no = y.no ∧ x.run = y.run ∧ x.isOpen = true := by
  obtain ⟨x, hx, hxn, hxr, hxo⟩ := h
  obtain ⟨hno, hrun, hopen⟩ := ChangeRec.informed_fields r.no x
  rw [State.inform_tracker]
  exact ⟨_, List.mem_map.2 ⟨x, hx, rfl⟩, hno.trans hxn, hrun.trans hxr, hopen.2 ⟨hxo, by rw [hxn]; exact hne.symm⟩⟩

/-- What each passage to INFORMED keeps, where it concerns an OPEN record, the passage of all keeps (R75). -/
theorem State.informAll_keeps {P : State → Prop} {s : State} (hs : P s) (hok : ∀ u, P u → u.tracker.Ok)
    (hinform : ∀ u r, P u → (∃ x ∈ u.tracker.records, x.no = r.no ∧ x.run = r.run ∧ x.isOpen = true) → P (u.inform r)) :
    P s.informAll := by
  have hfold : ∀ (l : List ChangeRec) (u : State), (l.map (·.no)).Nodup →
      (∀ r ∈ l, ∃ x ∈ u.tracker.records, x.no = r.no ∧ x.run = r.run ∧ x.isOpen = true) → P u →
        P (l.foldl (fun t r => t.inform r) u) := by
    intro l
    induction l with
    | nil => exact fun _ _ _ hu => hu
    | cons r l ih =>
      intro u hnodup hopen hu
      rw [List.map_cons, List.nodup_cons] at hnodup
      refine ih _ hnodup.2 (fun y hy => State.inform_open (hopen y (List.mem_cons_of_mem r hy)) fun hne => ?_)
        (hinform u r hu (hopen r List.mem_cons_self))
      exact hnodup.1 (List.mem_map.2 ⟨y, hy, hne.symm⟩)
  refine hfold _ s ((hok s hs).1.sublist (List.filter_sublist.map _)) (fun r hr => ?_) hs
  obtain ⟨hr, hp⟩ := List.mem_filter.1 hr
  simp only [Bool.and_eq_true] at hp
  exact ⟨r, hr, rfl, rfl, hp.1.1⟩

/-! ## The moves -/

theorem State.enterRecord_trackerOk {s : State} (h : s.tracker.Ok) {r : ChangeRec} {n : Nat} {k : Tracker} (hno : r.no = n)
    (hopen : r.isOpen = true) (hslot : (s.supersede r.run).tracker.takeSlot = some (n, k)) :
    (s.enterRecord r n k).tracker.Ok := by
  obtain ⟨hk, hlow, hhigh, hfree, hsub, -⟩ := (State.supersede_trackerOk h r.run).takeSlot hslot
  rw [State.enterRecord_tracker]
  subst hno
  exact hk.append ⟨hlow, hhigh⟩ hopen hfree fun x hx ho => State.supersede_no_open (hsub x hx) ho

theorem State.Move.trackerOk {out join : Option Nat} {s t : State} (h : State.Move out join s t) (hs : s.tracker.Ok) :
    t.tracker.Ok := by
  cases h with
  | aside h => rwa [h.tracker]
  | compose => rwa [State.compose_tracker]
  | takeOff run =>
    rw [State.takeOff_eq, State.withdrawWhere_tracker]
    exact State.voidRecord_trackerOk (by rwa [(State.retire_frame run s).2.1]) run
  | cueEnded run =>
    unfold State.cueEnded
    split <;> exact hs
  | endCue c _ =>
    unfold State.cueEnded
    split <;> exact hs
  | records f hf => exact hs.mapKeeps hf
  | voidRecord run => exact State.voidRecord_trackerOk hs run
  | enterRecord r n k _ hno hopen hslot => exact State.enterRecord_trackerOk hs hno hopen hslot
  | supersede run _ => exact State.supersede_trackerOk hs run
  | informAll =>
    exact State.informAll_keeps (P := fun u => u.tracker.Ok) hs (fun _ h => h)
      fun u r hu ⟨x, hx, hxn, _, hxo⟩ => State.inform_trackerOk hu ⟨x, hx, hxn, hxo⟩
  | _ => exact hs

theorem State.Moved.trackerOk {out join : Option Nat} {s t : State} (h : State.Moved out join s t) (hs : s.tracker.Ok) :
    t.tracker.Ok := by
  induction h with
  | refl => exact hs
  | tail _ hstep ih => exact hstep.trackerOk ih

end Sys2Proof.Machine
end

section
/-! Every OPEN change record is named by the entry of its run, which is in service (R76, R77). -/
namespace Sys2Proof.Machine

open Sys2Proof

/-- Record `n` of these stands OPEN for the run. -/
def Opens (l : List ChangeRec) (run n : Nat) : Prop := ∃ r ∈ l, r.isOpen = true ∧ r.run = run ∧ r.no = n

/-- Each entry names the OPEN records `o` gives its run, and is in service where it names one, but for an entry of the run
`out` that leaves service; each such record is one of an entry. -/
structure Named (out : Option Nat) (l : List Entry) (o : Nat → Nat → Prop) : Prop where
  record : ∀ e ∈ l, ∀ n, e.openRec = some n ↔ o e.run n
  service : ∀ e ∈ l, e.openRec ≠ none → e.inService = true ∨ (out = some e.run ∧ e.state ≠ .retiring)
  held : ∀ run n, o run n → ∃ e ∈ l, e.run = run

theorem State.opens_iff {s : State} {run n : Nat} (h : s.tracker.Ok) :
    Opens s.tracker.records run n ↔ (s.openRecord? run).map (·.no) = some n := by
  rw [Option.map_eq_some_iff]
  refine ⟨fun ⟨r, hr, ho, hrun, hn⟩ => ?_, fun ⟨r, hr, hn⟩ => ?_⟩
  · cases hf : s.openRecord? run with
    | none => exact absurd hrun (State.openRecord?_none.1 hf r hr ho)
    | some x =>
      have hx := List.find?_some hf
      simp only [Bool.and_eq_true, decide_eq_true_eq] at hx
      refine ⟨x, rfl, ?_⟩
      rw [h.open_unique (List.mem_of_find?_eq_some hf) hr hx.2 ho (hx.1.trans hrun.symm), hn]
  · have hx := List.find?_some hr
    simp only [Bool.and_eq_true, decide_eq_true_eq] at hx
    exact ⟨r, List.mem_of_find?_eq_some hr, hx.2, hx.1, hn⟩

theorem State.entry?_isSome {s : State} {run : Nat} : (s.entry? run).isSome = true ↔ ∃ e ∈ s.table.entries, e.run = run := by
  simp [State.entry?]

theorem State.recordsNamed_iff {s : State} (h : s.tracker.Ok) :
    s.RecordsNamed ↔ Named none s.table.entries (Opens s.tracker.records) := by
  refine ⟨fun ⟨he, hr⟩ => ⟨fun e hm n => ?_, fun e hm hne => .inl ((he e hm).2 hne), fun run n ⟨r, hm, ho, hrun, _⟩ => ?_⟩,
    fun ⟨hrec, hserv, hheld⟩ => ⟨fun e hm => ⟨?_, fun hne => ?_⟩, fun r hm ho => ?_⟩⟩
  · rw [(he e hm).1, State.opens_iff h]
  · exact hrun ▸ State.entry?_isSome.1 (hr r hm ho)
  · refine Option.ext fun n => ?_
    exact (hrec e hm n).trans (State.opens_iff h)
  · obtain hs | ⟨hout, -⟩ := hserv e hm hne
    · exact hs
    · cases hout
  · exact State.entry?_isSome.2 (hheld r.run r.no ⟨r, hm, ho, rfl, rfl⟩)

section named

variable {out : Option Nat} {l l' : List Entry} {o o' : Nat → Nat → Prop}

/-- The run that may leave service has no OPEN record, and so every entry that names one is in service. -/
theorem Named.settled (h : Named out l o) (hout : ∀ run, out = some run → ∀ n, ¬o run n) : Named none l o := by
  refine ⟨h.record, fun e he hne => ?_, h.held⟩
  obtain hs | ⟨hrun, -⟩ := h.service e he hne
  · exact .inl hs
  · obtain ⟨n, hn⟩ := Option.ne_none_iff_exists'.1 hne
    exact absurd ((h.record e he n).1 hn) (hout e.run hrun n)

/-- Entries that keep what they name, of the same records. -/
theorem Named.entries (h : Named out l o)
    (hent : ∀ x ∈ l', ∃ e ∈ l, x.run = e.run ∧ x.openRec = e.openRec ∧ (x.state ≠ .retiring ∨ x.state = e.state) ∧
      (e.inService = true → x.inService = true ∨ (out = some e.run ∧ x.state ≠ .retiring)))
    (hback : ∀ e ∈ l, ∃ x ∈ l', x.run = e.run) : Named out l' o := by
  refine ⟨fun x hx n => ?_, fun x hx hne => ?_, fun run n hn => ?_⟩
  · obtain ⟨e, he, hrun, hrec, -⟩ := hent x hx
    rw [hrun, hrec]
    exact h.record e he n
  · obtain ⟨e, he, hrun, hrec, hstate, hserv⟩ := hent x hx
    rw [hrun]
    obtain hs | ⟨hout, hr⟩ := h.service e he (hrec ▸ hne)
    · exact hserv hs
    · refine .inr ⟨hout, ?_⟩
      obtain hx | hx := hstate
      · exact hx
      · rwa [hx]
  · obtain ⟨e, he, hrun⟩ := h.held run n hn
    obtain ⟨x, hx, hxr⟩ := hback e he
    exact ⟨x, hx, hxr.trans hrun⟩

/-- The entries of one run name no record any more, and it has no OPEN one. -/
theorem Named.leave (h : Named out l o) (run : Nat)
    (hent : ∀ x ∈ l', ∃ e ∈ l, x.run = e.run ∧ (x.run = run → x.openRec = none) ∧
      (x.run ≠ run → x.openRec = e.openRec ∧ x.state = e.state))
    (hback : ∀ e ∈ l, e.run ≠ run → ∃ x ∈ l', x.run = e.run) (ho : ∀ m n, o' m n ↔ o m n ∧ m ≠ run) :
    Named out l' o' := by
  refine ⟨fun x hx n => ?_, fun x hx hne => ?_, fun m n hn => ?_⟩
  · obtain ⟨e, he, hrun, hsame, hother⟩ := hent x hx
    rw [ho]
    by_cases hxr : x.run = run
    · simp [hsame hxr, hxr]
    · rw [(hother hxr).1, h.record e he, ← hrun]
      simp [hxr]
  · obtain ⟨e, he, hrun, hsame, hother⟩ := hent x hx
    have hxr : x.run ≠ run := fun hxr => hne (hsame hxr)
    obtain ⟨hrec, hstate⟩ := hother hxr
    rw [hrun, hstate]
    have := h.service e he (hrec ▸ hne)
    unfold Entry.inService at this ⊢
    rwa [hstate]
  · obtain ⟨hn, hm⟩ := (ho m n).1 hn
    obtain ⟨e, he, rfl⟩ := h.held m n hn
    exact hback e he hm

end named

/-- What the run of an entry names, the state keeps. -/
def State.NamedOut (out : Option Nat) (s : State) : Prop := Named out s.table.entries (Opens s.tracker.records)

theorem State.NamedOut.of_eq {out : Option Nat} {s t : State} (h : s.NamedOut out)
    (he : t.table.entries = s.table.entries) (hr : t.tracker = s.tracker) : t.NamedOut out := by
  unfold State.NamedOut
  rwa [he, hr]

/-! ## What closing leaves open -/

theorem opens_map {f : ChangeRec → ChangeRec} {l : List ChangeRec} {p : ChangeRec → Prop}
    (hf : ∀ r, (f r).no = r.no ∧ (f r).run = r.run ∧ ((f r).isOpen = true ↔ r.isOpen = true ∧ p r)) (m n : Nat) :
    Opens (l.map f) m n ↔ ∃ r ∈ l, (r.isOpen = true ∧ p r) ∧ r.run = m ∧ r.no = n := by
  constructor
  · rintro ⟨x, hx, ho, hm, hn⟩
    obtain ⟨r, hr, rfl⟩ := List.mem_map.1 hx
    obtain ⟨hno, hrun, hopen⟩ := hf r
    exact ⟨r, hr, hopen.1 ho, hrun ▸ hm, hno ▸ hn⟩
  · rintro ⟨r, hr, ho, hm, hn⟩
    obtain ⟨hno, hrun, hopen⟩ := hf r
    exact ⟨f r, List.mem_map.2 ⟨r, hr, rfl⟩, hopen.2 ho, hrun.trans hm, hno.trans hn⟩

/-- The records of one run closed. -/
theorem opens_closeRun {f : ChangeRec → ChangeRec} {l : List ChangeRec} {run : Nat}
    (hf : ∀ r, (f r).no = r.no ∧ (f r).run = r.run ∧ ((f r).isOpen = true ↔ r.isOpen = true ∧ r.run ≠ run)) (m n : Nat) :
    Opens (l.map f) m n ↔ Opens l m n ∧ m ≠ run := by
  rw [opens_map (p := (·.run ≠ run)) hf]
  refine ⟨fun ⟨r, hr, ⟨ho, hne⟩, hrun, hn⟩ => ⟨⟨r, hr, ho, hrun, hn⟩, hrun ▸ hne⟩,
    fun ⟨⟨r, hr, ho, hrun, hn⟩, hne⟩ => ⟨r, hr, ⟨ho, hrun.symm ▸ hne⟩, hrun, hn⟩⟩

theorem opens_keeps {f : ChangeRec → ChangeRec} {l : List ChangeRec} (hf : ∀ r : ChangeRec, r.Keeps (f r)) :
    Opens (l.map f) = Opens l := by
  funext m n
  rw [opens_map (p := fun _ => True) fun r => ⟨(hf r).no, (hf r).run, by rw [(hf r).isOpen]; simp⟩]
  simp [Opens]

theorem State.voidRecord_opens (run : Nat) (s : State) (m n : Nat) :
    Opens (s.voidRecord run).tracker.records m n ↔ Opens s.tracker.records m n ∧ m ≠ run := by
  cases ho : s.openRecord? run with
  | none =>
    rw [State.voidRecord_of_none ho]
    refine ⟨fun ⟨r, hr, hro, hrun, hn⟩ => ⟨⟨r, hr, hro, hrun, hn⟩, hrun ▸ State.openRecord?_none.1 ho r hr hro⟩, And.left⟩
  | some r =>
    rw [(State.voidRecord_of_open (run := run) (s := s) (by rw [ho]; rfl)).1]
    exact opens_closeRun (ChangeRec.voided_fields run) m n

theorem State.supersede_opens (run : Nat) (s : State) (m n : Nat) :
    Opens (s.supersede run).tracker.records m n ↔ Opens s.tracker.records m n ∧ m ≠ run :=
  opens_closeRun (ChangeRec.superseded_fields run) m n

theorem State.inform_opens {s : State} (h : s.tracker.Ok) {r : ChangeRec}
    (hr : ∃ x ∈ s.tracker.records, x.no = r.no ∧ x.run = r.run ∧ x.isOpen = true) (m n : Nat) :
    Opens (s.inform r).tracker.records m n ↔ Opens s.tracker.records m n ∧ m ≠ r.run := by
  obtain ⟨x, hx, hxn, hxr, hxo⟩ := hr
  rw [State.inform_tracker, opens_map (p := (·.no ≠ r.no)) (ChangeRec.informed_fields r.no)]
  refine ⟨fun ⟨y, hy, ⟨ho, hne⟩, hrun, hn⟩ => ⟨⟨y, hy, ho, hrun, hn⟩, fun hm => hne ?_⟩,
    fun ⟨⟨y, hy, ho, hrun, hn⟩, hne⟩ => ⟨y, hy, ⟨ho, fun hno => hne ?_⟩, hrun, hn⟩⟩
  · rw [h.open_unique hy hx ho hxo (by rw [hrun, hm, hxr]), hxn]
  · rw [← hrun, h.record_unique hy hx (hno.trans hxn.symm), hxr]

theorem Tracker.takeSlot_closed {k : Tracker} (h : k.takeSlot = none) : k.closed = [] := by
  unfold Tracker.takeSlot at h
  split at h
  · cases h
  · split at h
    · cases h
    · next hc => exact hc

/-- Where every slot is held by an OPEN record of another run, the run has none (R66). -/
theorem State.supersede_full {s : State} {run : Nat} (h : (s.supersede run).tracker.takeSlot = none) (n : Nat) :
    ¬Opens s.tracker.records run n := by
  have hc := Tracker.takeSlot_closed h
  rw [State.supersede_tracker, List.append_eq_nil_iff] at hc
  intro ho
  have := State.mem_openNumbers.2 ho
  rw [hc.2] at this
  cases this

/-! ## The moves -/

section moves

variable {out : Option Nat} {s : State}

theorem State.NamedOut.voidRecord (h : s.NamedOut out) (run : Nat) : (s.voidRecord run).NamedOut out := by
  refine h.leave run (fun x hx => ?_) (fun e he _ => ?_) (State.voidRecord_opens run s)
  · rw [State.voidRecord_entries, State.unrecordedEntries] at hx
    split at hx
    · obtain ⟨e, he, rfl⟩ := List.mem_map.1 hx
      refine ⟨e, he, ?_⟩
      unfold Entry.unrecorded
      split <;> simp_all
    · next hno =>
      refine ⟨x, hx, rfl, fun hrun => ?_, fun _ => ⟨rfl, rfl⟩⟩
      refine Option.eq_none_iff_forall_ne_some.2 fun n hn => ?_
      obtain ⟨r, hr, ho, hrr, -⟩ := (h.record x hx n).1 hn
      exact State.openRecord?_none.1 (Option.not_isSome_iff_eq_none.1 hno) r hr ho (hrr.trans hrun)
  · rw [State.voidRecord_entries, State.unrecordedEntries]
    split
    · refine ⟨_, List.mem_map.2 ⟨e, he, rfl⟩, ?_⟩
      unfold Entry.unrecorded
      split <;> rfl
    · exact ⟨e, he, rfl⟩

theorem State.NamedOut.takeOff (h : s.NamedOut out) (run : Nat) : (s.takeOff run).NamedOut out := by
  obtain ⟨hentries, htracker, -⟩ := State.retire_frame run s
  have hopens : ∀ m n, Opens (s.takeOff run).tracker.records m n ↔ Opens s.tracker.records m n ∧ m ≠ run := by
    intro m n
    rw [State.takeOff_eq, State.withdrawWhere_tracker, State.voidRecord_opens, htracker]
  have hvoid : ∀ x ∈ (s.takeOff run).table.entries, x.run = run → ∃ e ∈ s.takenOff run, e.run = run ∧
      x.openRec = if ((s.retire run).openRecord? run).isSome then none else e.openRec := by
    intro x hx hrun
    rw [State.takeOff_entries, State.unrecordedEntries, hentries] at hx
    split at hx
    · next ho =>
      obtain ⟨e, he, rfl⟩ := List.mem_map.1 hx
      unfold Entry.unrecorded at hrun ⊢
      split at hrun
      · next her => exact ⟨e, he, her, by rw [if_pos her, if_pos ho]⟩
      · exact absurd hrun ‹_›
    · next ho => exact ⟨x, hx, hrun, by rw [if_neg ho]⟩
  refine h.leave run (fun x hx => ?_) (fun e he hne => ?_) hopens
  · by_cases hrun : x.run = run
    · obtain ⟨e, he, her, hrec⟩ := hvoid x hx hrun
      have hsrc : ∃ a ∈ s.table.entries, a.run = e.run ∧ a.openRec = e.openRec := by
        unfold State.takenOff at he
        split at he
        · obtain ⟨a, ha, rfl⟩ := List.mem_map.1 he
          refine ⟨a, ha, ?_⟩
          split <;> exact ⟨rfl, rfl⟩
        · exact ⟨e, (List.mem_filter.1 he).1, rfl, rfl⟩
      obtain ⟨a, ha, har, hao⟩ := hsrc
      refine ⟨a, ha, by rw [hrun, har, her], fun _ => ?_, fun hne => absurd hrun hne⟩
      rw [hrec]
      split
      · rfl
      · next ho =>
        refine Option.eq_none_iff_forall_ne_some.2 fun n hn => ?_
        obtain ⟨r, hr, hro, hrr, -⟩ := (h.record a ha n).1 (hao.trans hn)
        refine State.openRecord?_none.1 (Option.not_isSome_iff_eq_none.1 ho) r ?_ hro (by rw [hrr, har, her])
        rwa [htracker]
    · refine ⟨x, ?_, rfl, fun h => absurd h hrun, fun _ => ⟨rfl, rfl⟩⟩
      rw [State.takeOff_entries, State.unrecordedEntries, hentries] at hx
      have htaken : x ∈ s.takenOff run := by
        split at hx
        · obtain ⟨e, he, rfl⟩ := List.mem_map.1 hx
          unfold Entry.unrecorded at hrun ⊢
          split at hrun
          · exact absurd ‹_› hrun
          · next hne => rwa [if_neg hne]
        · exact hx
      unfold State.takenOff at htaken
      split at htaken
      · obtain ⟨e, he, rfl⟩ := List.mem_map.1 htaken
        by_cases her : e.run = run
        · simp [her] at hrun
        · simpa [her] using he
      · exact (List.mem_filter.1 htaken).1
  · refine ⟨e, ?_, rfl⟩
    rw [State.takeOff_entries, State.unrecordedEntries, hentries]
    have htaken : e ∈ s.takenOff run := by
      unfold State.takenOff
      split
      · exact List.mem_map.2 ⟨e, he, by simp [hne]⟩
      · exact List.mem_filter.2 ⟨he, by simp [hne]⟩
    split
    · exact List.mem_map.2 ⟨e, htaken, if_neg hne⟩
    · exact htaken

/-- An entry in service no longer names a record where it leaves RETIRING (R93). -/
theorem State.NamedOut.cueEnded (h : s.NamedOut out) (run : Nat) :
    (s.cueEnded run).NamedOut out := by
  unfold State.cueEnded
  split
  · next hc =>
    obtain ⟨e, he, hstate⟩ := (Option.any_eq_true _ _).1 hc.1
    have hstate : e.state = .retiring := of_decide_eq_true hstate
    have hrec : e.openRec = none := by
      by_contra hne
      obtain hs | ⟨-, hr⟩ := h.service e (entryIn_mem he) hne
      · simp [Entry.inService, hstate] at hs
      · exact hr hstate
    have hrun : e.run = run := by simpa using List.find?_some he
    refine h.leave run (fun x hx => ?_) (fun x hx hne => ?_) fun m n => ?_
    · obtain ⟨hx, hxr⟩ := List.mem_filter.1 hx
      exact ⟨x, hx, rfl, fun h => absurd h (of_decide_eq_true hxr), fun _ => ⟨rfl, rfl⟩⟩
    · exact ⟨x, List.mem_filter.2 ⟨hx, decide_eq_true hne⟩, rfl⟩
    · refine (and_iff_left_of_imp fun hn hm => ?_).symm
      have := (h.record e (entryIn_mem he) n).2 (by rw [hrun, ← hm]; exact hn)
      rw [hrec] at this
      cases this
  · exact h

theorem State.NamedOut.inform (h : s.NamedOut out) (hk : s.tracker.Ok) {r : ChangeRec}
    (hr : ∃ x ∈ s.tracker.records, x.no = r.no ∧ x.run = r.run ∧ x.isOpen = true) : (s.inform r).NamedOut out := by
  refine h.leave r.run (fun x hx => ?_) (fun e he _ => ?_) (State.inform_opens hk hr)
  · rw [State.inform_entries] at hx
    obtain ⟨e, he, rfl⟩ := List.mem_map.1 hx
    exact ⟨e, he, by split <;> simp_all⟩
  · rw [State.inform_entries]
    exact ⟨_, List.mem_map.2 ⟨e, he, rfl⟩, by split <;> rfl⟩

/-- A new record is that of its entry, which is in service (R62, R77). -/
theorem State.NamedOut.enterRecord (h : s.NamedOut out) (hnodup : (s.table.entries.map (·.run)).Nodup)
    (hk : s.tracker.Ok) {r : ChangeRec} {n : Nat} {k : Tracker} (hrun : s.RunServes r.run) (hno : r.no = n)
    (hopen : r.isOpen = true) (hslot : (s.supersede r.run).tracker.takeSlot = some (n, k)) :
    (s.enterRecord r n k).NamedOut out := by
  obtain ⟨-, -, -, -, hsub, hsup⟩ := (State.supersede_trackerOk hk r.run).takeSlot hslot
  have hopens : ∀ m i, Opens (s.enterRecord r n k).tracker.records m i ↔
      (Opens s.tracker.records m i ∧ m ≠ r.run) ∨ (m = r.run ∧ i = n) := by
    intro m i
    rw [← State.supersede_opens, State.enterRecord_tracker]
    simp only [Opens, List.mem_append, List.mem_singleton]
    constructor
    · rintro ⟨x, hx | rfl, ho, hm, hi⟩
      · exact .inl ⟨x, hsub x hx, ho, hm, hi⟩
      · exact .inr ⟨hm.symm, by rw [← hi, hno]⟩
    · rintro (⟨x, hx, ho, hm, hi⟩ | ⟨hm, hi⟩)
      · exact ⟨x, .inl (hsup x hx ho), ho, hm, hi⟩
      · exact ⟨r, .inr rfl, hopen, hm.symm, by rw [hno, hi]⟩
  have hent : (s.enterRecord r n k).table.entries =
      updWhere (·.run = r.run) (fun e => { e with openRec := some n }) s.table.entries := rfl
  obtain ⟨a, ha, hserves⟩ := hrun
  have har : a.run = r.run := by simpa using List.find?_some ha
  refine ⟨fun x hx i => ?_, fun x hx hne => ?_, fun m i hm => ?_⟩
  · rw [hent] at hx
    obtain ⟨e, he, rfl⟩ := List.mem_map.1 hx
    rw [hopens]
    by_cases her : e.run = r.run
    · simp [her, eq_comm]
    · simp [her, h.record e he]
  · rw [hent] at hx
    obtain ⟨e, he, rfl⟩ := List.mem_map.1 hx
    by_cases her : e.run = r.run
    · have : e = a := List.inj_on_of_nodup_map hnodup he (entryIn_mem ha) (her.trans har.symm)
      subst this
      left
      simpa [her, Entry.inService] using hserves
    · simp only [her, decide_false, Bool.false_eq_true, if_false] at hne ⊢
      exact h.service e he hne
  · rw [hent]
    have hmem : ∃ e ∈ s.table.entries, e.run = m := by
      obtain ⟨hm, -⟩ | ⟨rfl, -⟩ := (hopens m i).1 hm
      · exact h.held m i hm
      · exact ⟨a, entryIn_mem ha, har⟩
    obtain ⟨e, he, her⟩ := hmem
    exact ⟨_, List.mem_map.2 ⟨e, he, rfl⟩, by split <;> exact her⟩

/-- A map of the entries that keeps what they name. -/
theorem State.NamedOut.map (h : s.NamedOut out) {f : Entry → Entry}
    (hf : ∀ e : Entry, (f e).run = e.run ∧ (f e).openRec = e.openRec ∧ (f e).state = e.state) :
    Named out (s.table.entries.map f) (Opens s.tracker.records) := by
  refine h.entries (fun x hx => ?_) fun e he => ⟨f e, List.mem_map.2 ⟨e, he, rfl⟩, (hf e).1⟩
  obtain ⟨e, he, rfl⟩ := List.mem_map.1 hx
  obtain ⟨hrun, hrec, hstate⟩ := hf e
  refine ⟨e, he, hrun, hrec, .inr hstate, fun hs => .inl ?_⟩
  unfold Entry.inService at *
  rwa [hstate]

/-- The entry of a run replaced by one that names what it named. -/
theorem State.NamedOut.replace (h : s.NamedOut out) {old new : Entry} (hold : s.entry? old.run = some old)
    (hrun : new.run = old.run) (hrec : new.openRec = old.openRec)
    (hstate : new.state ≠ .retiring ∨ new.state = old.state)
    (hserv : old.inService = true → new.inService = true ∨ (out = some old.run ∧ new.state ≠ .retiring)) :
    Named out (updWhere (·.run = old.run) (fun _ => new) s.table.entries) (Opens s.tracker.records) := by
  refine h.entries (fun x hx => ?_) fun e he => ?_
  · obtain rfl | ⟨hm, -⟩ := mem_put hx
    · exact ⟨old, entryIn_mem hold, hrun, hrec, hstate, hserv⟩
    · exact ⟨x, hm, rfl, rfl, .inr rfl, .inl⟩
  · refine ⟨_, List.mem_map.2 ⟨e, he, rfl⟩, ?_⟩
    by_cases her : e.run = old.run
    · simp [her, hrun]
    · simp [her]

theorem Named.perm {l l' : List Entry} {o : Nat → Nat → Prop} (h : Named out l o) (hp : ∀ e, e ∈ l' ↔ e ∈ l) :
    Named out l' o :=
  ⟨fun e he => h.record e ((hp e).1 he), fun e he => h.service e ((hp e).1 he), fun run n hn => by
    obtain ⟨e, he, her⟩ := h.held run n hn
    exact ⟨e, (hp e).2 he, her⟩⟩

theorem State.Move.namedOut {join : Option Nat} {t : State} (h : State.Move out join s t)
    (hnodup : (s.table.entries.map (·.run)).Nodup) (hk : s.tracker.Ok) (hs : s.NamedOut out) : t.NamedOut out := by
  cases h with
  | aside h => exact hs.of_eq h.entries h.tracker
  | compose => exact hs.of_eq (by rw [State.compose_table]) (State.compose_tracker s)
  | confirm p _ _ => exact hs.map fun e => ⟨rfl, rfl, rfl⟩
  | entries f hf => exact hs.map fun e => ⟨(hf e).run, (hf e).openRec, (hf e).state⟩
  | shift d => exact hs.map fun e => ⟨rfl, rfl, rfl⟩
  | touch old new hold hkeep =>
    refine hs.replace hold hkeep.run hkeep.openRec (.inr hkeep.state) fun h => .inl ?_
    unfold Entry.inService at *
    rwa [hkeep.state]
  | put old new hold hrep =>
    refine Named.perm (hs.replace hold hrep.run hrep.openRec (.inl hrep.stays.2) fun h => ?_)
      fun e => (sortEntries_perm _).mem_iff
    exact (hrep.service h).imp_right fun ho => ⟨ho, hrep.stays.2⟩
  | create e _ hnew _ _ hrec _ =>
    have hnone : ∀ n, ¬Opens s.tracker.records e.run n := fun n hn => by
      obtain ⟨x, hx, hxr⟩ := hs.held e.run n hn
      have := List.find?_eq_none.1 hnew x hx
      simp [hxr] at this
    refine Named.perm (l := e :: s.table.entries) ⟨fun x hx n => ?_, fun x hx hne => ?_, fun run n hn => ?_⟩
      fun e => (sortEntries_perm _).mem_iff
    · obtain rfl | hx := List.mem_cons.1 hx
      · simpa [hrec] using hnone n
      · exact hs.record x hx n
    · obtain rfl | hx := List.mem_cons.1 hx
      · exact absurd hrec hne
      · exact hs.service x hx hne
    · obtain ⟨x, hx, hxr⟩ := hs.held run n hn
      exact ⟨x, List.mem_cons_of_mem _ hx, hxr⟩
  | takeOff run => exact hs.takeOff run
  | cueEnded run => exact hs.cueEnded run
  | endCue c _ => exact State.NamedOut.cueEnded (s := s.endCue c.number) hs c.run
  | records f hf =>
    have : Named out s.table.entries (Opens (s.tracker.records.map f)) := by
      rw [opens_keeps hf]
      exact hs
    exact this
  | voidRecord run => exact hs.voidRecord run
  | enterRecord r n k hrun hno hopen hslot => exact hs.enterRecord hnodup hk hrun hno hopen hslot
  | supersede run hslot =>
    have heq : Opens (s.supersede run).tracker.records = Opens s.tracker.records := by
      funext m n
      rw [State.supersede_opens, eq_iff_iff, and_iff_left_iff_imp]
      rintro hn rfl
      exact State.supersede_full hslot n hn
    unfold State.NamedOut
    rw [heq]
    exact hs
  | informAll =>
    exact (State.informAll_keeps (P := fun u => u.tracker.Ok ∧ u.NamedOut out) ⟨hk, hs⟩ (fun _ h => h.1)
      fun u r hu hr => ⟨State.inform_trackerOk hu.1 (by obtain ⟨x, hx, hxn, -, hxo⟩ := hr; exact ⟨x, hx, hxn, hxo⟩),
        hu.2.inform hu.1 hr⟩).2
  | _ => exact hs

theorem State.Moved.namedOut {join : Option Nat} {t : State} (h : State.Moved out join s t) (htab : s.Tabled)
    (hk : s.tracker.Ok) (hs : s.NamedOut out) : t.NamedOut out := by
  induction h with
  | refl => exact hs
  | tail hchain hstep ih =>
    have htab := State.Moved.tabled hchain htab
    exact hstep.namedOut htab.1.2.1 (State.Moved.trackerOk hchain hk) ih

end moves

/-- A command that does not reset the picture keeps every OPEN record named by its entry. -/
theorem State.Carried.recordsNamed {plan : Prop} {s t : State} (h : s.Carried plan t) (htab : s.Tabled)
    (hk : s.TrackerOk) (hs : s.RecordsNamed) : t.RecordsNamed := by
  obtain ⟨out, join, hmoved, hout, -⟩ := h
  have hk' := hmoved.trackerOk hk
  have hstart := (State.recordsNamed_iff hk).1 hs
  have hs' : s.NamedOut out :=
    { record := hstart.record
      service := fun e he hne => (hstart.service e he hne).imp_right fun h => nomatch h.1
      held := hstart.held }
  refine (State.recordsNamed_iff hk').2 ((hmoved.namedOut htab hk hs').settled fun run hr n ⟨r, hm, ho, hrun, _⟩ => ?_)
  exact State.openRecord?_none.1 (hout run hr) r hm ho hrun

end Sys2Proof.Machine
end

section
/-! The commands that bring the picture to its reset values leave no entry, no change record and no cue (R191, R192); the
runs of the table (R14) and the time base (R46) under every command. -/
namespace Sys2Proof.Machine

open Sys2Proof

/-! ## The runs of the table -/

/-- Every run of the table of `t` is one of that of `s`, or `join`. -/
def State.RunsFrom (join : Option Nat) (s t : State) : Prop :=
  ∀ x ∈ t.table.entries, (∃ e ∈ s.table.entries, x.run = e.run) ∨ join = some x.run

theorem State.RunsFrom.of_eq {join : Option Nat} {s t : State} (h : t.table.entries = s.table.entries) :
    s.RunsFrom join t := fun x hx => .inl ⟨x, h ▸ hx, rfl⟩

theorem State.RunsFrom.map {join : Option Nat} {s t : State} {f : Entry → Entry}
    (h : t.table.entries = s.table.entries.map f) (hf : ∀ e, (f e).run = e.run) : s.RunsFrom join t := by
  intro x hx
  rw [h] at hx
  obtain ⟨e, he, rfl⟩ := List.mem_map.1 hx
  exact .inl ⟨e, he, hf e⟩

theorem State.RunsFrom.trans {join : Option Nat} {s t u : State} (h : s.RunsFrom join t) (k : t.RunsFrom join u) :
    s.RunsFrom join u := by
  intro x hx
  obtain ⟨y, hy, hxy⟩ | hj := k x hx
  · rw [hxy]
    exact h y hy
  · exact .inr hj

theorem State.voidRecord_runsFrom (join : Option Nat) (run : Nat) (s : State) : s.RunsFrom join (s.voidRecord run) := by
  have hentries := State.voidRecord_entries run s
  unfold State.unrecordedEntries at hentries
  split at hentries
  · refine .map hentries fun e => ?_
    unfold Entry.unrecorded
    split <;> rfl
  · exact .of_eq hentries

theorem State.retire_runsFrom (join : Option Nat) (run : Nat) (s : State) : s.RunsFrom join (s.retire run) := by
  have hentries := (State.retire_frame run s).1
  unfold State.takenOff at hentries
  split at hentries
  · exact .map hentries fun e => by split <;> rfl
  · exact fun x hx => .inl ⟨x, (List.mem_filter.1 (hentries ▸ hx)).1, rfl⟩

theorem State.cueEnded_runsFrom (join : Option Nat) (run : Nat) (s : State) : s.RunsFrom join (s.cueEnded run) := by
  obtain h | h := State.cueEnded_entries run s
  · exact .of_eq h
  · exact fun x hx => .inl ⟨x, (List.mem_filter.1 (h ▸ hx)).1, rfl⟩

theorem State.put_runsFrom {join : Option Nat} {s t : State} {old new : Entry} (hold : s.entry? old.run = some old)
    (hrun : new.run = old.run)
    (h : ∀ x ∈ t.table.entries, x ∈ updWhere (·.run = old.run) (fun _ => new) s.table.entries) : s.RunsFrom join t := by
  intro x hx
  obtain rfl | ⟨hm, -⟩ := mem_put (h x hx)
  · exact .inl ⟨old, entryIn_mem hold, hrun⟩
  · exact .inl ⟨x, hm, rfl⟩

theorem State.informs_runsFrom (join : Option Nat) (l : List ChangeRec) :
    ∀ s : State, s.RunsFrom join (l.foldl (fun t r => t.inform r) s) := by
  induction l with
  | nil => exact fun s => .of_eq rfl
  | cons r l ih =>
    intro s
    have hinform : s.RunsFrom join (s.inform r) := .map (State.inform_entries r s) fun e => by split <;> rfl
    exact hinform.trans (ih (s.inform r))

theorem State.Move.runsFrom {out join : Option Nat} {s t : State} (h : State.Move out join s t) : s.RunsFrom join t := by
  cases h with
  | aside h => exact .of_eq h.entries
  | compose => exact .of_eq (by rw [State.compose_table])
  | confirm p _ _ => exact .map rfl fun _ => rfl
  | entries f hf => exact .map rfl fun e => (hf e).run
  | shift d => exact .map rfl fun _ => rfl
  | touch old new hold hkeep => exact State.put_runsFrom hold hkeep.run fun x hx => hx
  | put old new hold hrep => exact State.put_runsFrom hold hrep.run fun x hx => (sortEntries_perm _).mem_iff.1 hx
  | create e hjoin _ _ _ _ _ =>
    intro x hx
    obtain rfl | hx := List.mem_cons.1 ((sortEntries_perm _).mem_iff.1 hx)
    · exact .inr hjoin
    · exact .inl ⟨x, hx, rfl⟩
  | takeOff run =>
    rw [State.takeOff_eq]
    exact ((State.retire_runsFrom join run s).trans (State.voidRecord_runsFrom join run _)).trans (.of_eq rfl)
  | cueEnded run => exact State.cueEnded_runsFrom join run s
  | endCue c _ => exact State.cueEnded_runsFrom join c.run (s.endCue c.number)
  | voidRecord run => exact State.voidRecord_runsFrom join run s
  | enterRecord r n k _ _ _ _ => exact .map rfl fun e => by split <;> rfl
  | informAll => exact State.informs_runsFrom join _ s
  | _ => exact .of_eq rfl

theorem State.Moved.runsFrom {out join : Option Nat} {s t : State} (h : State.Moved out join s t) : s.RunsFrom join t := by
  induction h with
  | refl => exact .of_eq rfl
  | tail _ hstep ih => exact ih.trans hstep.runsFrom

theorem State.RunsFrom.empty {s t : State} (h : s.RunsFrom none t) (hs : s.table.entries = []) :
    t.table.entries = [] := by
  refine List.eq_nil_iff_forall_not_mem.2 fun x hx => ?_
  obtain ⟨e, he, -⟩ | hj := h x hx
  · rw [hs] at he
    cases he
  · cases hj

/-! ## The empty picture -/

/-- No entry, no change record and no cue, and no cue numbered yet. -/
structure State.Bare (s : State) : Prop where
  entries : s.table.entries = []
  records : s.tracker.records = []
  closed : s.tracker.closed = []
  cues : s.cues.list = []
  last : s.cues.last = 0

theorem State.Bare.runCalls {s : State} (h : s.Bare) {run : Nat} : ¬s.RunCalls run := by
  rintro ⟨e, he, -⟩
  have := entryIn_mem he
  rw [h.entries] at this
  cases this

theorem State.Bare.runServes {s : State} (h : s.Bare) {run : Nat} : ¬s.RunServes run := by
  rintro ⟨e, he, -⟩
  have := entryIn_mem he
  rw [h.entries] at this
  cases this

theorem State.Bare.of_frame {s t : State} (h : s.Bare) (hk : t.tracker = s.tracker) (hl : t.cues.list = s.cues.list)
    (hn : t.cues.last = s.cues.last) (he : t.table.entries = []) : t.Bare :=
  ⟨he, hk ▸ h.records, hk ▸ h.closed, hl ▸ h.cues, hn ▸ h.last⟩

theorem State.Bare.voidRecord {s : State} (h : s.Bare) (run : Nat) : s.voidRecord run = s :=
  State.voidRecord_of_none (State.openRecord?_none.2 (by simp [h.records]))

theorem State.Move.bare {out : Option Nat} {s t : State} (h : State.Move out none s t) (hs : s.Bare) : t.Bare := by
  have hent := h.runsFrom.empty hs.entries
  cases h with
  | aside h => exact hs.of_frame h.tracker h.cues h.last hent
  | compose => exact hs.of_frame (State.compose_tracker s) (by rw [State.compose_cues]) (by rw [State.compose_cues]) hent
  | touch old _ hold _ | put old _ hold _ =>
    have := entryIn_mem hold
    rw [hs.entries] at this
    cases this
  | takeOff run =>
    obtain ⟨-, hk, hc, -⟩ := State.retire_frame run s
    have hbare : (s.retire run).Bare :=
      hs.of_frame hk (by rw [hc]) (by rw [hc]) ((State.retire_runsFrom none run s).empty hs.entries)
    rw [State.takeOff_eq, hbare.voidRecord] at hent ⊢
    exact ⟨hent, hbare.records, hbare.closed, by simp [State.withdrawWhere, State.withCues, hbare.cues], hbare.last⟩
  | cueEnded run =>
    unfold State.cueEnded
    split
    · exact ⟨by simp [State.dropEntry, hs.entries], hs.records, hs.closed, hs.cues, hs.last⟩
    · exact hs
  | endCue c hc | giveBack c f hc _ _ => simp [hs.cues] at hc
  | cueMap f _ => exact ⟨hs.entries, hs.records, hs.closed, by simp [State.withCues, hs.cues], hs.last⟩
  | revise _ run _ _ hrun | replace _ _ run _ _ hrun _ _ _ | append _ run _ _ hrun _ _ => exact absurd hrun hs.runCalls
  | withdraw p => exact ⟨hs.entries, hs.records, hs.closed, by simp [State.withdrawWhere, State.withCues, hs.cues], hs.last⟩
  | give c k hc _ =>
    have := (bestCue_mem hc)
    simp [hs.cues] at this
  | records f _ => exact ⟨hs.entries, by simp [State.withTracker, hs.records], hs.closed, hs.cues, hs.last⟩
  | voidRecord run => rwa [hs.voidRecord]
  | enterRecord r _ _ hrun _ _ _ => exact absurd hrun hs.runServes
  | supersede run _ =>
    refine ⟨hent, ?_, ?_, hs.cues, hs.last⟩ <;> rw [State.supersede_tracker]
    · simp [hs.records]
    · simp [hs.closed, State.openNumbers, hs.records]
  | informAll =>
    have : s.informAll = s := by simp [State.informAll, hs.records]
    rwa [this]
  | _ => exact hs.of_frame rfl rfl rfl hent

theorem State.Moved.bare {out : Option Nat} {s t : State} (h : State.Moved out none s t) (hs : s.Bare) : t.Bare := by
  induction h with
  | refl => exact hs
  | tail _ hstep ih => exact hstep.bare ih

theorem State.restart_bare (store : Store) (pending : List Instr) : (State.restart store pending).Bare := by
  refine ((State.recompose_moved _).trans ((State.dispatch_moved _).trans (State.settleAttention_moved _))).bare
    (out := none) ?_
  exact ⟨rfl, rfl, rfl, rfl, rfl⟩

theorem State.resetPicture_bare (s : State) : s.resetPicture.Bare := by
  refine ((State.post_moved ..).trans (State.settle_moved _ _)).bare (out := none) ?_
  exact ⟨rfl, rfl, rfl, rfl, rfl⟩

/-- A command that resets the picture leaves none, where it acts. -/
theorem exec_bare {i : Instr} {s t : State} (h : exec i s = .next t) (hi : resetsPicture i = true) :
    (State.Moved none none s t ∧ t.sources = s.sources) ∨ t.Bare := by
  have hself : (State.Moved none none s s ∧ s.sources = s.sources) ∨ s.Bare := .inl ⟨State.Moved.refl s, rfl⟩
  cases i with
  | powerOn =>
    exact execPowerOn_rel (R := fun t => (State.Moved none none s t ∧ t.sources = s.sources) ∨ t.Bare) h hself
      (.inr (State.restart_bare ..))
  | resetPin =>
    exact State.answer_rel (R := fun t => (State.Moved none none s t ∧ t.sources = s.sources) ∨ t.Bare) h hself
      (.inr (State.restart_bare ..))
  | powerLoss cut =>
    exact State.answer_rel (R := fun t => (State.Moved none none s t ∧ t.sources = s.sources) ∨ t.Bare) h hself
      (.inr ⟨rfl, rfl, rfl, rfl, rfl⟩)
  | rset p =>
    refine State.takeTel_rel (R := fun t => (State.Moved none none s t ∧ t.sources = s.sources) ∨ t.Bare)
      (owner := fun _ u => (u.resetPicture, Answer.accept .none)) h hself (fun u tel a hu => ?_)
      fun _ => .inr (State.resetPicture_bare s)
    have haside : State.Moved none none u (u.answerTel p tel a) :=
      State.Aside.moved ⟨rfl, rfl, rfl, rfl, rfl, rfl, State.NoticesFit.updPort fun h => h⟩
    exact hu.imp (fun hu => ⟨State.Moved.trans hu.1 haside, hu.2⟩) haside.bare
  | _ => cases hi

/-! ## What an empty picture meets -/

theorem State.Bare.tableOk {s : State} (h : s.Bare) : s.TableOk := by
  simp [State.TableOk, h.entries]

theorem State.Bare.trackerOk {s : State} (h : s.Bare) : s.TrackerOk := by
  simp [State.TrackerOk, h.records, h.closed]

theorem State.Bare.recordsNamed {s : State} (h : s.Bare) : s.RecordsNamed := by
  simp [State.RecordsNamed, h.entries, h.records]

end Sys2Proof.Machine
end

section
/-! The time base under every command (R46 to R53), and what every step keeps of the table, the time base and the change
records. -/
namespace Sys2Proof.Machine

open Sys2Proof

/-! ## The commands that leave the clock alone -/

/-- The clock, the slew remainder and the counts of running seconds stand, in UNSET or out of it. -/
structure TimeBase.Stands (x y : TimeBase) : Prop where
  clock : y.clock = x.clock
  runSec : y.runSec = x.runSec
  slew : y.slew = x.slew
  holdover : y.holdover = x.holdover
  unset : y.state = .unset ↔ x.state = .unset
  subMs : x.subMs ≤ 999 → y.subMs ≤ 999

theorem TimeBase.Stands.refl (x : TimeBase) : x.Stands x := ⟨rfl, rfl, rfl, rfl, Iff.rfl, id⟩

theorem TimeBase.Stands.of_eq {x y : TimeBase} (h : y = x) : x.Stands y := h ▸ .refl x

theorem TimeBase.Stands.of_sources {s t : State} (h : t.sources = s.sources) : s.time.Stands t.time :=
  .of_eq (State.time_of_sources h)

theorem State.atMs_stands (ms : Nat) (s : State) : s.time.Stands (s.atMs ms).time :=
  ⟨rfl, rfl, rfl, rfl, Iff.rfl, fun h => max_le h (min_le_right ms 999)⟩

theorem TimeBase.Stands.atMs {s t : State} {ms : Nat} (h : t.time = (s.atMs ms).time) : s.time.Stands t.time :=
  h ▸ State.atMs_stands ms s

theorem State.enterHoldover_stands {s : State} (h : s.holdoverReached = true) :
    s.time.Stands s.enterHoldover.time := by
  have hset : s.time.state = .set := by
    unfold State.holdoverReached at h
    simp only [Bool.and_eq_true, decide_eq_true_eq] at h
    exact h.1
  have heq : s.enterHoldover.time = { s.time with state := .holdover } := congrArg Sources.time (State.enterHoldover_sources s)
  rw [heq]
  exact ⟨rfl, rfl, rfl, rfl, by simp [hset], id⟩

theorem State.classifyChannels_time (s : State) : s.classifyChannels.time = s.time :=
  foldl_keeps State.time (fun t n => t.post [.planning] .sensorFault (.light n))
    (fun t _ => State.post_time _ _ _ t) _ _

theorem State.endPass_time (s : State) : s.endPass.time = s.time := State.classifyChannels_time s

theorem State.beginPass_time (s : State) : s.beginPass.time = s.time := by
  simp only [State.beginPass]
  split
  · exact State.endPass_time s
  · split <;> rfl

theorem State.takeReading_time (channel value : Nat) (s : State) : (s.takeReading channel value).time = s.time := by
  simp only [State.takeReading]
  split
  · rfl
  · exact State.endPass_time _

theorem State.finish_time (s old : State) : (s.finish old).time = s.time :=
  State.time_of_sources (State.finish_sources s old)

theorem State.endImpulse_time (l : Line) (i : Impulse) (s : State) : (s.endImpulse l i).time = s.time := by
  simp only [State.endImpulse]
  repeat' split
  · rfl
  · rfl
  · exact State.post_time _ _ _ _
  · rfl

theorem dialOwner_time (f : DialFields) (s : State) : (dialOwner f s).1.time = s.time := by
  unfold dialOwner
  split
  · rfl
  · simp only [State.takeDial]
    split <;> rfl

theorem confOwner_stands (f : ConfFields) (s : State) : s.time.Stands (confOwner f s).1.time := by
  have hset : ∀ n v b, (s.setParameter n v b).time = s.time := fun n v b => by
    unfold State.setParameter
    split <;> rfl
  unfold confOwner
  split
  · exact .refl _
  · next row _ =>
    dsimp only
    split
    · exact .of_eq (hset ..)
    · obtain ⟨moved, hm⟩ :=
        State.afterConf_sources f.number (s.setParameter f.number (row.range.nearest f.value) row.structural) s
      have ht := congrArg Sources.time hm
      simp only [State.sources_time, hset] at ht
      rw [ht]
      exact ⟨rfl, rfl, rfl, rfl, Iff.rfl, id⟩

/-- The commands that move the clock, the running seconds or the slew remainder (R47 to R53). -/
def movesClock : Instr → Bool
  | .powerOn | .resetPin | .powerLoss _ | .time _ | .runningSecond | .minuteAdvance => true
  | _ => false

theorem exec_stands {i : Instr} {s t : State} (h : exec i s = .next t) (hi : movesClock i = false) :
    s.time.Stands t.time := by
  by_cases hsrc : movesSources i = false
  · obtain ⟨ms, hs⟩ := exec_sources h hsrc
    exact .atMs (State.time_of_sources (s := s.atMs ms) hs)
  have hself := TimeBase.Stands.refl s.time
  cases i with
  | dial p =>
    exact State.takeTel_rel (R := fun t => s.time.Stands t.time) h hself (fun _ _ _ hu => hu)
      fun f => .of_eq (dialOwner_time f s)
  | conf p =>
    exact State.takeTel_rel (R := fun t => s.time.Stands t.time) h hself (fun _ _ _ hu => hu) fun f => confOwner_stands f s
  | csav p =>
    exact State.takeTel_rel (R := fun t => s.time.Stands t.time)
      (owner := fun _ u => (u.saveConfiguration, Answer.accept .none)) h hself (fun _ _ _ hu => hu) fun _ => hself
  | rset p =>
    exact State.takeTel_rel (R := fun t => s.time.Stands t.time)
      (owner := fun _ u => (u.resetPicture, Answer.accept .none)) h hself (fun _ _ _ hu => hu)
      fun _ => .of_eq (State.resetPicture_time s)
  | holdoverExpiry =>
    exact State.answer_ite_rel (R := fun t => s.time.Stands t.time) h hself fun hc => State.enterHoldover_stands hc.1
  | passTrigger ms =>
    refine State.answer_ite_rel (R := fun t => s.time.Stands t.time) h hself fun _ => ?_
    dsimp only
    split
    · exact .atMs rfl
    · exact .atMs ((State.finish_time _ _).trans (State.beginPass_time _))
  | lightConversionComplete ms value =>
    refine State.answer_rel (R := fun t => s.time.Stands t.time) h hself ?_
    split
    · exact .atMs ((State.finish_time _ _).trans (State.takeReading_time _ _ _))
    · exact hself
  | lineCheckRequest ms line | nextImpulseTime ms line =>
    refine State.answer_rel (R := fun t => s.time.Stands t.time) h hself ?_
    dsimp only
    split
    · exact .atMs rfl
    · exact hself
  | lineCheckComplete ms value =>
    refine State.answer_rel (R := fun t => s.time.Stands t.time) h hself ?_
    split
    · exact .atMs rfl
    · exact hself
  | impulseEnd ms line =>
    refine State.answer_rel (R := fun t => s.time.Stands t.time) h hself ?_
    dsimp only
    split
    · exact .atMs (State.endImpulse_time _ _ _)
    · exact hself
  | powerOn | resetPin | powerLoss cut | time p | runningSecond | minuteAdvance => cases hi
  | _ => exact absurd rfl hsrc

/-! ## The time base in range -/

/-- The clock, the slew remainder and the timers in their ranges (R46, R55). -/
def TimeBase.Ok (x : TimeBase) : Prop :=
  x.clock < 86400 ∧ -30 ≤ x.slew ∧ x.slew ≤ 30 ∧ x.subMs ≤ 999 ∧
    (x.state = .unset → x.slew = 0 ∧ x.holdover = 0) ∧ x.holdover ≤ 86400

theorem State.timeOk_iff (s : State) :
    s.TimeOk ↔ s.time.Ok ∧ (s.time.state = .unset → s.table.entries = []) := by
  unfold State.TimeOk TimeBase.Ok
  tauto

theorem TimeBase.Ok.stands {x y : TimeBase} (h : x.Ok) (k : x.Stands y) : y.Ok := by
  obtain ⟨hclock, hlow, hhigh, hms, hunset, hhold⟩ := h
  unfold TimeBase.Ok
  rw [k.clock, k.slew, k.holdover, k.unset]
  exact ⟨hclock, hlow, hhigh, k.subMs hms, hunset, hhold⟩

theorem TimeBase.Ok.reset : TimeBase.reset.Ok := by
  unfold TimeBase.Ok
  decide

theorem TimeBase.Ok.count {x : TimeBase} (h : x.Ok) {limit : Nat} (hl : limit ≤ 1440) : (x.count limit).Ok := by
  obtain ⟨hclock, hlow, hhigh, hms, hunset, hhold⟩ := h
  refine ⟨hclock, hlow, hhigh, by simp [TimeBase.count], fun hu => ?_, ?_⟩
  · have hu : x.state = .unset := hu
    have hne : ¬(x.state = .set ∧ x.holdover < 60 * limit) := by simp [hu]
    exact ⟨(hunset hu).1, by simp only [TimeBase.count, if_neg hne]; exact (hunset hu).2⟩
  · unfold TimeBase.count
    dsimp only
    split <;> omega

theorem TimeBase.advance_state (x : TimeBase) :
    x.advance.state = x.state ∧ x.advance.holdover = x.holdover ∧ x.advance.subMs = x.subMs := by
  unfold TimeBase.advance
  split
  · exact ⟨rfl, rfl, rfl⟩
  · split <;> exact ⟨rfl, rfl, rfl⟩

theorem TimeBase.Ok.advance {x : TimeBase} (h : x.Ok) : x.advance.Ok := by
  obtain ⟨hclock, hlow, hhigh, hms, hunset, hhold⟩ := h
  obtain ⟨hstate, hholdover, hsub⟩ := x.advance_state
  have hslew : -30 ≤ x.advance.slew ∧ x.advance.slew ≤ 30 ∧ (x.slew = 0 → x.advance.slew = 0) ∧
      x.advance.clock < 86400 := by
    unfold TimeBase.advance
    split
    · dsimp only
      omega
    · split
      · dsimp only
        omega
      · dsimp only
        omega
  refine ⟨hslew.2.2.2, hslew.1, hslew.2.1, by rwa [hsub], fun hu => ?_, by rwa [hholdover]⟩
  rw [hstate] at hu
  exact ⟨hslew.2.2.1 (hunset hu).1, by rw [hholdover]; exact (hunset hu).2⟩

theorem State.judgedTime_stands (s : State) : s.time.Stands s.judgedTime := by
  unfold State.judgedTime
  split
  · next hc =>
    have hset : s.time.state = .set := by
      have := hc.2
      unfold State.holdoverReached at this
      simp only [Bool.and_eq_true, decide_eq_true_eq] at this
      exact this.1
    exact ⟨rfl, rfl, rfl, rfl, by simp [hset], id⟩
  · exact .refl _

theorem State.second_time (s : State) : s.second.time = s.secondTime := by
  have h := congrArg Sources.time (State.second_sources s)
  exact h

/-- A running second neither enters UNSET nor leaves it. -/
theorem State.secondTime_unset (s : State) : s.secondTime.state = .unset ↔ s.time.state = .unset := by
  have hcount : (s.judgedTime.count s.inForce.holdover).state = s.judgedTime.state := rfl
  rw [State.secondTime, (TimeBase.advance_state _).1, hcount, (State.judgedTime_stands s).unset]

theorem Params.Ok.holdover_le {p : Params} (h : p.Ok) : p.holdover ≤ 1440 := by
  obtain ⟨-, -, -, -, hall⟩ := h
  have := hall 321 (by omega) _ rfl
  simp only [ParamRange.holds, Params.value, Bool.and_eq_true, decide_eq_true_eq] at this
  exact this.2

theorem Params.Ok.one_le_confirm {p : Params} (h : p.Ok) : 1 ≤ p.confirm := by
  obtain ⟨-, -, -, -, hall⟩ := h
  have := hall 301 (by omega) _ rfl
  simp only [ParamRange.holds, Params.value, Bool.and_eq_true, decide_eq_true_eq] at this
  exact this.1

theorem timeOwner_timeOk {s : State} (h : s.time.Ok) (p : PortId) (n : Nat) : (timeOwner p n s).1.time.Ok := by
  obtain ⟨hclock, hlow, hhigh, hms, hunset, hhold⟩ := id h
  unfold timeOwner
  split
  · exact h
  · next hn =>
    split
    · exact h
    · split
      · have ht := congrArg Sources.time (State.setClock_sources n s)
        dsimp only at ht ⊢
        rw [State.sources_time] at ht
        rw [ht]
        exact ⟨by simp only [TimeBase.setTo]; omega, by simp [TimeBase.setTo], by simp [TimeBase.setTo], Nat.zero_le _,
          nofun, Nat.zero_le _⟩
      · dsimp only
        split
        · exact h
        · split
          · next hd =>
            exact ⟨hclock, (by omega : -30 ≤ timeOffset n s.time.clock), (by omega : timeOffset n s.time.clock ≤ 30), hms,
              nofun, Nat.zero_le _⟩
          · have ht := congrArg Sources.time (State.stepClock_sources n (timeOffset n s.time.clock) p s)
            rw [State.sources_time] at ht
            dsimp only
            rw [ht]
            exact ⟨by simp only [TimeBase.stepTo]; omega, by simp [TimeBase.stepTo], by simp [TimeBase.stepTo], hms, nofun,
              Nat.zero_le _⟩

theorem timeOwner_unset (p : PortId) (n : Nat) (s : State) :
    (timeOwner p n s).1.time.state = .unset → s.time.state = .unset := by
  unfold timeOwner
  split
  · exact id
  · split
    · exact id
    · split
      · exact fun _ => ‹_›
      · dsimp only
        split
        · exact id
        · split
          · nofun
          · have ht := congrArg Sources.time (State.stepClock_sources n (timeOffset n s.time.clock) p s)
            rw [State.sources_time] at ht
            dsimp only
            rw [ht]
            nofun

/-- The time base of `t` in its ranges, and UNSET only where that of `s` is, but after a reset. -/
def State.TimeGoes (reset : Bool) (s t : State) : Prop :=
  t.time.Ok ∧ (reset = false → t.time.state = .unset → s.time.state = .unset)

/-- No command but a reset brings the clock into UNSET (R46, R191). -/
theorem exec_time {i : Instr} {s t : State} (h : exec i s = .next t) (hconf : s.ConfigOk) (hs : s.time.Ok) :
    s.TimeGoes (resetsPicture i) t := by
  have hself : ∀ b, s.TimeGoes b s := fun _ => ⟨hs, fun _ => id⟩
  have hsecond : s.second.time.Ok ∧ (s.second.time.state = .unset → s.time.state = .unset) := by
    rw [State.second_time]
    exact ⟨((hs.stands (State.judgedTime_stands s)).count hconf.1.holdover_le).advance, (State.secondTime_unset s).1⟩
  by_cases hi : movesClock i = false
  · have hst := exec_stands h hi
    exact ⟨hs.stands hst, fun _ => hst.unset.1⟩
  cases i with
  | powerOn =>
    exact execPowerOn_rel (R := s.TimeGoes (resetsPicture .powerOn)) h (hself _)
      ⟨State.restart_time s.store s.pending ▸ TimeBase.Ok.reset, nofun⟩
  | resetPin =>
    exact State.answer_rel (R := s.TimeGoes (resetsPicture .resetPin)) h (hself _)
      ⟨State.restart_time s.store s.pending ▸ TimeBase.Ok.reset, nofun⟩
  | powerLoss cut =>
    exact State.answer_rel (R := s.TimeGoes (resetsPicture (.powerLoss cut))) h (hself _)
      ⟨TimeBase.Ok.reset, nofun⟩
  | time p =>
    exact State.takeWith_rel (R := s.TimeGoes (resetsPicture (.time p))) h
      (hself _) (fun _ _ _ hu => hu) fun n => ⟨timeOwner_timeOk hs p n, fun _ => timeOwner_unset p n s⟩
  | runningSecond =>
    exact State.answer_rel (R := s.TimeGoes (resetsPicture .runningSecond)) h
      (hself _) ⟨hsecond.1, fun _ => hsecond.2⟩
  | minuteAdvance =>
    exact State.answer_ite_rel (R := s.TimeGoes (resetsPicture .minuteAdvance)) h
      (hself _) fun _ => ⟨hsecond.1, fun _ => hsecond.2⟩
  | _ => exact absurd rfl hi

/-! ## The whole step -/

theorem State.Bare.tabled {s : State} (h : s.Bare) (hconf : s.ConfigOk) : s.Tabled := ⟨h.tableOk, hconf.1.one_le_confirm⟩

theorem State.ConfigOk.tabled {s : State} (h : s.ConfigOk) (ht : s.TableOk) : s.Tabled := ⟨ht, h.1.one_le_confirm⟩

/-- What every chain of moves keeps and an empty picture has, every command keeps. -/
theorem exec_keepsPicture {P : State → Prop} {i : Instr} {s t : State} (h : exec i s = .next t)
    (hmoved : s.Carried (isPlan i) t → P t) (hbare : t.Bare → P t) : P t := by
  cases hi : resetsPicture i with
  | false => exact hmoved (exec_carried h hi)
  | true =>
    obtain ⟨hm, -⟩ | hb := exec_bare h hi
    · exact hmoved hm.carried
    · exact hbare hb

theorem exec_tableOk {i : Instr} {s t : State} (h : exec i s = .next t) (hconf : s.ConfigOk) (hs : s.TableOk) :
    t.TableOk :=
  exec_keepsPicture h (fun ⟨_, _, hm, _⟩ => (hm.tabled (hconf.tabled hs)).1) State.Bare.tableOk

theorem exec_trackerOk {i : Instr} {s t : State} (h : exec i s = .next t) (hs : s.TrackerOk) : t.TrackerOk :=
  exec_keepsPicture h (fun ⟨_, _, hm, _⟩ => hm.trackerOk hs) State.Bare.trackerOk

theorem exec_recordsNamed {i : Instr} {s t : State} (h : exec i s = .next t) (hconf : s.ConfigOk) (htab : s.TableOk)
    (hk : s.TrackerOk) (hs : s.RecordsNamed) : t.RecordsNamed :=
  exec_keepsPicture h (fun hc => hc.recordsNamed (hconf.tabled htab) hk hs) State.Bare.recordsNamed

/-- R14, R46: with the clock UNSET no entry comes into the table. -/
theorem exec_timeOk {i : Instr} {s t : State} (h : exec i s = .next t) (hconf : s.ConfigOk) (hs : s.TimeOk) :
    t.TimeOk := by
  obtain ⟨htime, hempty⟩ := (State.timeOk_iff s).1 hs
  obtain ⟨htime', hunset⟩ := exec_time h hconf htime
  refine (State.timeOk_iff t).2 ⟨htime', fun hu => ?_⟩
  cases hi : resetsPicture i with
  | true =>
    obtain ⟨hm, hsrc⟩ | hb := exec_bare h hi
    · refine State.RunsFrom.empty hm.runsFrom (hempty ?_)
      rwa [← State.time_of_sources hsrc]
    · exact hb.entries
  | false =>
    obtain ⟨out, join, hm, -, hjoin⟩ := exec_carried h hi
    have hs' := hunset hi hu
    have hnone : join = none := by
      by_contra hne
      exact (hjoin hne).2 hs'
    subst hnone
    exact hm.runsFrom.empty (hempty hs')

/-- A step without a command waiting idles; any other runs one on the state with the queue's rest. -/
theorem step_cases {s t : State} (h : step s = .next t) :
    t = s ∨ ∃ i rest, exec i { s with pending := rest } = .next t := by
  unfold step at h
  split at h
  · cases h
    exact .inl rfl
  · exact .inr ⟨_, _, h⟩

/-- Settles O56: the entries, the change records and the time base under the moves a command is made of. -/
theorem tableTimeAndRecordsStayInOrder : Obligations.TableTimeAndRecordsStayInOrder := by
  intro s t h
  obtain rfl | ⟨i, rest, h⟩ := step_cases h
  · exact ⟨fun _ => id, fun _ => id, id, fun _ _ _ => id⟩
  · have hconf : s.ConfigOk → ({ s with pending := rest } : State).ConfigOk := id
    have htable := fun hc => exec_tableOk h (hconf hc)
    have htime := fun hc => exec_timeOk h (hconf hc)
    have htracker := exec_trackerOk h
    have hnamed := fun hc => exec_recordsNamed h (hconf hc)
    exact ⟨htable, htime, htracker, hnamed⟩

end Sys2Proof.Machine
end

section
/-! The cue list under every command: its numbers, kinds and runs (R83, R84), the TAKEN cues (R99) and the entries they name
(R93). -/
namespace Sys2Proof.Machine

open Sys2Proof

/-! ## The number of a new cue (R83) -/

theorem nextNumber_fresh (used : List Nat) (fuel : Nat) : ∀ last, last ≤ 255 →
    nextNumber used fuel last ∉ used ∨ ∀ k < fuel, (last + k) % 255 + 1 ∈ used := by
  induction fuel with
  | zero => exact fun _ _ => .inr nofun
  | succ fuel ih =>
    intro last hlast
    have hnext : (if last ≥ 255 then 1 else last + 1) = last % 255 + 1 := by
      split <;> omega
    unfold nextNumber
    simp only [hnext]
    split
    · next hused =>
      obtain hfree | hall := ih (last % 255 + 1) (by omega)
      · exact .inl hfree
      · refine .inr fun k hk => ?_
        cases k with
        | zero => simpa using hused
        | succ k =>
          have := hall k (by omega)
          rwa [show (last % 255 + 1 + k) % 255 = (last + (k + 1)) % 255 by omega] at this
    · next hfree => exact .inl (by simpa using hfree)

theorem nextNumber_range (used : List Nat) (fuel : Nat) : ∀ last, last ≤ 255 →
    1 ≤ nextNumber used (fuel + 1) last ∧ nextNumber used (fuel + 1) last ≤ 255 := by
  induction fuel with
  | zero =>
    intro last hlast
    simp only [nextNumber]
    repeat' split
    all_goals omega
  | succ fuel ih =>
    intro last hlast
    have hnext : (if last ≥ 255 then 1 else last + 1) = last % 255 + 1 := by
      split <;> omega
    unfold nextNumber
    simp only [hnext]
    split
    · exact ih _ (by omega)
    · omega

/-- A list that is shorter than 255 leaves a number free. -/
theorem nextNumber_not_mem {used : List Nat} (hlen : used.length < 255) {last : Nat} (hlast : last ≤ 255) :
    nextNumber used 255 last ∉ used := by
  obtain h | h := nextNumber_fresh used 255 last hlast
  · exact h
  · have hsub : ((List.range 255).map (· + 1)) ⊆ used := fun n hn => by
      obtain ⟨m, hm, rfl⟩ := List.mem_map.1 hn
      have hm := List.mem_range.1 hm
      have := h ((m + 255 - last % 255) % 255) (by omega)
      rwa [show (last + (m + 255 - last % 255) % 255) % 255 = m by omega] at this
    have hnodup : ((List.range 255).map (· + 1)).Nodup := List.nodup_range.map fun _ _ h => by simpa using h
    have := (hnodup.subperm hsub).length_le
    simp at this
    omega

/-! ## The cue list -/

/-- A list of cues with the number last assigned (R83, R84). -/
def CuesIn (last : Nat) (l : List Cue) : Prop :=
  l.length ≤ 32 ∧ (l.map (·.number)).Nodup ∧ (∀ c ∈ l, 1 ≤ c.number ∧ c.number ≤ 255 ∧ c.attempts ≤ 2) ∧
    (l.map fun c => (c.kind, c.run)).Nodup ∧ last ≤ 255

theorem State.cuesOk_iff (s : State) : s.CuesOk ↔ CuesIn s.cues.last s.cues.list := Iff.rfl

/-- No more TAKEN cues than channels, and no zone under two of them (R99). -/
def SpeechIn (channels : Nat) (l : List Cue) : Prop :=
  (l.filter (·.isTaken)).length ≤ channels ∧
    l.Pairwise fun a b => a.isTaken = true → b.isTaken = true → ∀ z ∈ a.zones, z ∉ b.zones

theorem State.speechOk_iff (s : State) : s.SpeechOk ↔ SpeechIn s.inForce.channels s.cues.list := Iff.rfl

section lists

variable {last channels : Nat} {l l' : List Cue}

theorem CuesIn.sublist (h : CuesIn last l) (hl : l'.Sublist l) : CuesIn last l' := by
  obtain ⟨hlen, hnum, hall, hkind, hlast⟩ := h
  exact ⟨hl.length_le.trans hlen, hnum.sublist (hl.map _), fun c hc => hall c (hl.subset hc), hkind.sublist (hl.map _),
    hlast⟩

theorem CuesIn.map (h : CuesIn last l) {f : Cue → Cue}
    (hf : ∀ c, (f c).number = c.number ∧ (f c).kind = c.kind ∧ (f c).run = c.run ∧ (c.attempts ≤ 2 → (f c).attempts ≤ 2)) :
    CuesIn last (l.map f) := by
  obtain ⟨hlen, hnum, hall, hkind, hlast⟩ := h
  refine ⟨by rwa [List.length_map], ?_, fun c hc => ?_, ?_, hlast⟩
  · rwa [List.map_map, show (fun c : Cue => c.number) ∘ f = fun c => c.number from funext fun c => (hf c).1]
  · obtain ⟨a, ha, rfl⟩ := List.mem_map.1 hc
    obtain ⟨hlow, hhigh, htries⟩ := hall a ha
    rw [(hf a).1]
    exact ⟨hlow, hhigh, (hf a).2.2.2 htries⟩
  · rwa [List.map_map, show (fun c : Cue => (c.kind, c.run)) ∘ f = fun c => (c.kind, c.run) from
      funext fun c => by simp only [Function.comp, (hf c).2.1, (hf c).2.2.1]]

theorem CuesIn.updWhere (h : CuesIn last l) {p : Cue → Bool} {f : Cue → Cue}
    (hf : ∀ c, (f c).number = c.number ∧ (f c).kind = c.kind ∧ (f c).run = c.run ∧ (c.attempts ≤ 2 → (f c).attempts ≤ 2)) :
    CuesIn last (updWhere p f l) := by
  refine h.map fun c => ?_
  split
  · exact hf c
  · exact ⟨rfl, rfl, rfl, id⟩

theorem CuesIn.append (h : CuesIn last l) {c : Cue} {last' : Nat} (hlen : l.length < 32)
    (hnum : ∀ b ∈ l, b.number ≠ c.number) (hrange : 1 ≤ c.number ∧ c.number ≤ 255) (htries : c.attempts ≤ 2)
    (hkind : ∀ b ∈ l, ¬(b.kind = c.kind ∧ b.run = c.run)) (hlast : last' ≤ 255) : CuesIn last' (l ++ [c]) := by
  obtain ⟨-, hnumbers, hall, hkinds, -⟩ := h
  refine ⟨by simpa using hlen, ?_, fun b hb => ?_, ?_, hlast⟩
  · rw [List.map_append, List.map_singleton]
    refine List.nodup_append.2 ⟨hnumbers, List.nodup_singleton _, fun a ha b hb => ?_⟩
    obtain ⟨x, hx, rfl⟩ := List.mem_map.1 ha
    rw [List.mem_singleton.1 hb]
    exact hnum x hx
  · obtain hb | hb := List.mem_append.1 hb
    · exact hall b hb
    · rw [List.mem_singleton.1 hb]
      exact ⟨hrange.1, hrange.2, htries⟩
  · rw [List.map_append, List.map_singleton]
    refine List.nodup_append.2 ⟨hkinds, List.nodup_singleton _, fun a ha b hb hab => ?_⟩
    obtain ⟨x, hx, rfl⟩ := List.mem_map.1 ha
    rw [List.mem_singleton.1 hb] at hab
    exact hkind x hx ⟨congrArg Prod.fst hab, congrArg Prod.snd hab⟩

theorem SpeechIn.sublist (h : SpeechIn channels l) (hl : l'.Sublist l) : SpeechIn channels l' :=
  ⟨(hl.filter _).length_le.trans h.1, h.2.sublist hl⟩

/-- Cues that are TAKEN only where they were, in the zones they were. -/
theorem SpeechIn.map (h : SpeechIn channels l) {f : Cue → Cue}
    (hf : ∀ c ∈ l, (f c).isTaken = true → c.isTaken = true ∧ (f c).zones = c.zones) : SpeechIn channels (l.map f) := by
  refine ⟨le_trans ?_ h.1, List.pairwise_map.2 (h.2.imp_of_mem fun {a b} ha hb hab hfa hfb => ?_)⟩
  · rw [List.filter_map, List.length_map, ← List.countP_eq_length_filter, ← List.countP_eq_length_filter]
    exact List.countP_mono_left fun c hc ht => (hf c hc ht).1
  · obtain ⟨ha', hza⟩ := hf a ha hfa
    obtain ⟨hb', hzb⟩ := hf b hb hfb
    rw [hza, hzb]
    exact hab ha' hb'

theorem SpeechIn.updWhere (h : SpeechIn channels l) {p : Cue → Bool} {f : Cue → Cue}
    (hf : ∀ c, (f c).isTaken = true → c.isTaken = true ∧ (f c).zones = c.zones) :
    SpeechIn channels (updWhere p f l) := by
  refine h.map fun c _ => ?_
  split
  · exact hf c
  · exact fun ht => ⟨ht, rfl⟩

theorem SpeechIn.append (h : SpeechIn channels l) {c : Cue} (hc : c.isTaken = false) : SpeechIn channels (l ++ [c]) := by
  refine ⟨?_, List.pairwise_append.2 ⟨h.2, List.pairwise_singleton _ _, fun a _ b hb _ hbt => ?_⟩⟩
  · rw [List.filter_append, List.filter_cons_of_neg (by simp [hc])]
    simpa using h.1
  · rw [List.mem_singleton.1 hb, hc] at hbt
    cases hbt

theorem updWhere_split {α : Type} {p : α → Bool} {f : α → α} {before after : List α} {c : α} (hp : p c = true)
    (hbefore : ∀ b ∈ before, p b = false) (hafter : ∀ b ∈ after, p b = false) :
    updWhere p f (before ++ c :: after) = before ++ f c :: after := by
  have hkeep : ∀ m : List α, (∀ b ∈ m, p b = false) → updWhere p f m = m := fun m hm =>
    (List.map_congr_left fun b hb => by simp [hm b hb]).trans (List.map_id m)
  have happ : updWhere p f (before ++ c :: after) = updWhere p f before ++ (if p c then f c else c) :: updWhere p f after := by
    simp [updWhere]
  rw [happ, hkeep before hbefore, hkeep after hafter, if_pos hp]

/-- A cue is taken whose zones are free of the TAKEN ones. -/
theorem SpeechIn.give (h : SpeechIn channels l) (hnum : (l.map (·.number)).Nodup) {c : Cue} (hc : c ∈ l)
    (hroom : (l.filter (·.isTaken)).length < channels) (hwas : c.isTaken = false)
    (hfree : ∀ b ∈ l, b.isTaken = true → ∀ z ∈ c.zones, z ∉ b.zones) {g : Cue → Cue} (hzones : (g c).zones = c.zones)
    (htaken : (g c).isTaken = true) : SpeechIn channels (Sys2Proof.updWhere (·.number = c.number) g l) := by
  obtain ⟨before, after, rfl⟩ := List.append_of_mem hc
  rw [List.map_append, List.map_cons] at hnum
  obtain ⟨-, hafter, hdisj⟩ := List.nodup_append.1 hnum
  rw [updWhere_split (by simp) (fun b hb => decide_eq_false ?_) fun b hb => decide_eq_false ?_]
  · obtain ⟨-, hpair⟩ := h
    obtain ⟨hb, hca, hba⟩ := List.pairwise_append.1 hpair
    obtain ⟨hcp, ha⟩ := List.pairwise_cons.1 hca
    refine ⟨?_, List.pairwise_append.2 ⟨hb, List.pairwise_cons.2 ⟨fun b hm _ hbt => ?_, ha⟩, fun b hm x hx hbt hxt => ?_⟩⟩
    · rw [List.filter_append, List.filter_cons_of_pos (p := fun x : Cue => x.isTaken) htaken]
      rw [List.filter_append, List.filter_cons_of_neg (by simp [hwas])] at hroom
      simp only [List.length_append, List.length_cons] at hroom ⊢
      omega
    · rw [hzones]
      exact hfree b (by simp [hm]) hbt
    · obtain rfl | hx := List.mem_cons.1 hx
      · rw [hzones]
        exact fun z hz hzc => hfree b (by simp [hm]) hbt z hzc hz
      · exact hba b hm x (List.mem_cons_of_mem _ hx) hbt hxt
  · exact hdisj _ (List.mem_map.2 ⟨b, hb, rfl⟩) _ List.mem_cons_self
  · intro heq
    exact (List.nodup_cons.1 hafter).1 (heq ▸ List.mem_map.2 ⟨b, hb, rfl⟩)

end lists

/-! ## What the moves do to the list -/

theorem State.withdrawWhere_list (p : Cue → Bool) (s : State) :
    (s.withdrawWhere p).cues.list = (s.cues.list.filter fun c => !p c || c.isTaken).map
      fun c => if p c then { c with pendDrop := true } else c := rfl

theorem State.voidRecord_list (run : Nat) (s : State) :
    (s.voidRecord run).cues.last = s.cues.last ∧ ((s.voidRecord run).cues.list = s.cues.list ∨
      (s.voidRecord run).cues.list = (s.withdraw .change run).cues.list) := by
  cases h : s.openRecord? run with
  | none => simp [State.voidRecord_of_none h]
  | some r =>
    rw [(State.voidRecord_of_open (run := run) (s := s) (by rw [h]; rfl)).2.2]
    exact ⟨rfl, .inr rfl⟩

theorem State.cueEnded_cues (run : Nat) (s : State) : (s.cueEnded run).cues = s.cues := by
  unfold State.cueEnded
  split <;> rfl

/-- What a rule on the list keeps where cues leave it and marks are set, a withdrawal keeps. -/
theorem CuesIn.withdrawWhere {s : State} (h : CuesIn s.cues.last s.cues.list) (p : Cue → Bool) :
    CuesIn s.cues.last (s.withdrawWhere p).cues.list := by
  rw [State.withdrawWhere_list]
  refine (h.sublist List.filter_sublist).map fun c => ?_
  split <;> exact ⟨rfl, rfl, rfl, id⟩

theorem SpeechIn.withdrawWhere {channels : Nat} {s : State} (h : SpeechIn channels s.cues.list) (p : Cue → Bool) :
    SpeechIn channels (s.withdrawWhere p).cues.list := by
  rw [State.withdrawWhere_list]
  refine (h.sublist List.filter_sublist).map fun c _ ht => ?_
  split at ht <;> exact ⟨ht, by split <;> rfl⟩

theorem Cue.revise_fields (now : Int) (zones : List Nat) (due : Int) (c : Cue) :
    (c.revise now zones due).number = c.number ∧ (c.revise now zones due).kind = c.kind ∧
      (c.revise now zones due).run = c.run ∧ (c.revise now zones due).attempts = c.attempts ∧
      ((c.revise now zones due).isTaken = true → c.isTaken = true ∧ (c.revise now zones due).zones = c.zones) := by
  unfold Cue.revise Cue.test
  cases h : c.state with
  | waiting =>
    dsimp only
    split <;> simp [Cue.isTaken, h]
  | due => simp [Cue.isTaken, h]
  | taken t => simp [Cue.isTaken, h]

/-- The cue that a trigger makes (R84). -/
def newCue (number : Nat) (kind : CueKind) (run : Nat) (zones : List Nat) (due now : Int) : Cue :=
  { number := number, kind := kind, run := run, zones := zones, due := due,
    state := if due ≤ now then .due else .waiting, attempts := 0, pendRev := false, pendDrop := false }

theorem newCue_isTaken (number : Nat) (kind : CueKind) (run : Nat) (zones : List Nat) (due now : Int) :
    (newCue number kind run zones due now).isTaken = false := by
  unfold newCue Cue.isTaken
  dsimp only
  split
  · next h => split at h <;> cases h
  · rfl

theorem State.appendCue_list (kind : CueKind) (run : Nat) (zones : List Nat) (due : Int) (s : State) :
    (s.appendCue kind run zones due).cues.list = s.cues.list ++
      [newCue (s.appendCue kind run zones due).cues.last kind run zones due s.now] := rfl

theorem State.cue?_none_iff {kind : CueKind} {run : Nat} {s : State} :
    s.cue? kind run = none ↔ ∀ c ∈ s.cues.list, ¬(c.kind = kind ∧ c.run = run) := by
  simp [State.cue?]

theorem State.appendCue_cuesIn {kind : CueKind} {run : Nat} {zones : List Nat} {due : Int} {s : State}
    (h : CuesIn s.cues.last s.cues.list) (hnew : s.cue? kind run = none) (hroom : s.cues.list.length < 32) :
    CuesIn (s.appendCue kind run zones due).cues.last (s.appendCue kind run zones due).cues.list := by
  have hlast := h.2.2.2.2
  have hrange := nextNumber_range (s.cues.list.map (·.number)) 254 s.cues.last hlast
  have hfree := nextNumber_not_mem (used := s.cues.list.map (·.number)) (by rw [List.length_map]; omega) hlast
  rw [State.appendCue_list]
  exact h.append hroom (fun b hb heq => hfree (List.mem_map.2 ⟨b, hb, heq⟩)) hrange (Nat.zero_le _)
    (State.cue?_none_iff.1 hnew) hrange.2

theorem State.replace_room {s : State} {d : Cue} (hlen : s.cues.list.length ≤ 32) (hd : d ∈ s.cues.list) :
    (s.cues.list.filter (·.number ≠ d.number)).length < 32 := by
  have : (s.cues.list.filter (·.number ≠ d.number)).length < s.cues.list.length := by
    refine List.length_filter_lt_length_iff_exists.2 ⟨d, hd, by simp⟩
  omega

theorem State.replace_new {s : State} {d : Cue} {kind : CueKind} {run : Nat} (h : s.cue? kind run = none) :
    (s.withCues (s.cues.list.filter (·.number ≠ d.number))).cue? kind run = none :=
  State.cue?_none_iff.2 fun c hc => State.cue?_none_iff.1 h c (List.mem_filter.1 hc).1

theorem State.Move.cuesOk {out join : Option Nat} {s t : State} (h : State.Move out join s t) (hs : s.CuesOk) :
    t.CuesOk := by
  rw [State.cuesOk_iff] at hs ⊢
  cases h with
  | aside h => rwa [h.last, h.cues]
  | compose => rwa [State.compose_cues]
  | takeOff run =>
    obtain ⟨-, -, hc, -⟩ := State.retire_frame run s
    obtain ⟨hlast, hlist⟩ := State.voidRecord_list run (s.retire run)
    rw [State.takeOff_eq]
    refine CuesIn.withdrawWhere (s := (s.retire run).voidRecord run) ?_ _
    rw [← hc] at hs
    rw [hlast]
    obtain hlist | hlist := hlist <;> rw [hlist]
    · exact hs
    · exact hs.withdrawWhere _
  | cueEnded run => rwa [State.cueEnded_cues]
  | endCue c _ =>
    rw [State.cueEnded_cues]
    exact hs.sublist List.filter_sublist
  | giveBack c f _ _ hf => exact hs.updWhere fun x => ⟨(hf x).number, (hf x).kind, (hf x).run, (hf x).attempts⟩
  | cueMap f hf => exact hs.map fun x => ⟨(hf x).number, (hf x).kind, (hf x).run, (hf x).attempts⟩
  | revise kind run zones due _ =>
    refine hs.updWhere fun c => ?_
    obtain ⟨hnum, hkind, hrun, htries, -⟩ := Cue.revise_fields s.now zones due c
    exact ⟨hnum, hkind, hrun, fun h => htries ▸ h⟩
  | replace d kind run zones due _ hnew hd _ =>
    exact State.appendCue_cuesIn (s := s.withCues _) (hs.sublist List.filter_sublist) (State.replace_new hnew)
      (State.replace_room hs.1 hd)
  | withdraw p => exact hs.withdrawWhere p
  | append kind run zones due _ hnew hroom => exact State.appendCue_cuesIn hs hnew hroom
  | give c k _ _ => exact hs.updWhere fun x => ⟨rfl, rfl, rfl, id⟩
  | voidRecord run =>
    obtain ⟨hlast, hlist⟩ := State.voidRecord_list run s
    rw [hlast]
    obtain hlist | hlist := hlist <;> rw [hlist]
    · exact hs
    · exact hs.withdrawWhere _
  | informAll => rwa [State.informAll_cues]
  | _ => exact hs

/-- An eligible cue is DUE, its zones free of the TAKEN ones (R96, R99). -/
theorem State.eligible_free {s : State} {c : Cue} (h : s.eligible c = true) :
    c.isTaken = false ∧ ∀ b ∈ s.cues.list, b.isTaken = true → ∀ z ∈ c.zones, z ∉ b.zones := by
  simp only [State.eligible, Bool.and_eq_true, decide_eq_true_eq, List.all_eq_true, Bool.not_eq_true'] at h
  refine ⟨Cue.isTaken_of_due h.1, fun b hb ht z hz hzb => ?_⟩
  have := (h.2 z hz).1
  simp only [State.zoneBusy, List.any_eq_false, Bool.and_eq_true, List.contains_iff_mem, not_and] at this
  exact this b hb ht hzb

theorem State.Move.speechOk {out join : Option Nat} {s t : State} (h : State.Move out join s t) (hok : s.CuesOk)
    (hs : s.SpeechOk) : t.SpeechOk := by
  rw [State.speechOk_iff] at hs ⊢
  cases h with
  | aside h => rwa [h.inForce, h.cues]
  | compose => rwa [State.compose_cues, State.inForce_of_sources (State.compose_sources s)]
  | params p _ hch => exact hch.symm ▸ hs
  | confirm p _ hch =>
    have : SpeechIn p.channels s.cues.list := hch.symm ▸ hs
    exact this
  | takeOff run =>
    obtain ⟨-, -, hc, -⟩ := State.retire_frame run s
    obtain ⟨-, hlist⟩ := State.voidRecord_list run (s.retire run)
    rw [State.inForce_of_sources (State.takeOff_sources run s), State.takeOff_eq]
    refine SpeechIn.withdrawWhere ?_ _
    rw [← hc] at hs
    obtain hlist | hlist := hlist <;> rw [hlist]
    · exact hs
    · exact hs.withdrawWhere _
  | cueEnded run =>
    have hforce : (s.cueEnded run).inForce = s.inForce := by
      unfold State.cueEnded
      split <;> rfl
    rwa [hforce, State.cueEnded_cues]
  | endCue c _ =>
    have hforce : ((s.endCue c.number).cueEnded c.run).inForce = s.inForce := by
      unfold State.cueEnded
      split <;> rfl
    rw [hforce, State.cueEnded_cues]
    exact hs.sublist List.filter_sublist
  | giveBack c f _ _ hf =>
    refine hs.updWhere fun x ht => ?_
    rw [(hf x).taken] at ht
    cases ht
  | cueMap f hf =>
    refine hs.map fun x _ ht => ?_
    rw [(hf x).taken] at ht
    exact ⟨ht, (hf x).zones ht⟩
  | revise kind run zones due _ => exact hs.updWhere fun c => (Cue.revise_fields s.now zones due c).2.2.2.2
  | replace d kind run zones due _ _ _ _ =>
    exact SpeechIn.append (hs.sublist List.filter_sublist) (newCue_isTaken ..)
  | withdraw p => exact hs.withdrawWhere p
  | append kind run zones due _ _ _ => exact hs.append (newCue_isTaken ..)
  | give c k hc hroom =>
    obtain ⟨hmem, hel⟩ := bestCue_mem hc
    obtain ⟨hwas, hfree⟩ := State.eligible_free hel
    exact hs.give hok.2.1 hmem hroom hwas hfree rfl rfl
  | voidRecord run =>
    obtain ⟨-, hlist⟩ := State.voidRecord_list run s
    rw [State.inForce_of_sources (State.voidRecord_sources run s)]
    obtain hlist | hlist := hlist <;> rw [hlist]
    · exact hs
    · exact hs.withdrawWhere _
  | informAll =>
    have hforce : s.informAll.inForce = s.inForce := State.inForce_of_sources (State.informAll_sources s)
    rwa [hforce, State.informAll_cues]
  | _ => exact hs

theorem State.Moved.cuesOk {out join : Option Nat} {s t : State} (h : State.Moved out join s t) (hs : s.CuesOk) :
    t.CuesOk := by
  induction h with
  | refl => exact hs
  | tail _ hstep ih => exact hstep.cuesOk ih

theorem State.Moved.speechOk {out join : Option Nat} {s t : State} (h : State.Moved out join s t) (hok : s.CuesOk)
    (hs : s.SpeechOk) : t.SpeechOk := by
  induction h with
  | refl => exact hs
  | tail hchain hstep ih => exact hstep.speechOk (State.Moved.cuesOk hchain hok) ih

end Sys2Proof.Machine
end

section
/-! Every cue names a run of the table, and those of a RETIRING entry are TAKEN and marked (R11, R83, R93). -/
namespace Sys2Proof.Machine

open Sys2Proof

/-- The run has a RETIRING entry. -/
def Retires (l : List Entry) (run : Nat) : Prop := ∃ e ∈ l, e.run = run ∧ e.state = .retiring

/-- The cues `k` name runs of the entries `l`; a RETIRING entry has one, and all of its are TAKEN and marked. -/
structure CuesOf (l : List Entry) (k : List Cue) : Prop where
  named : ∀ c ∈ k, ∃ e ∈ l, e.run = c.run
  one : ∀ run, Retires l run → ∃ c ∈ k, c.run = run
  ended : ∀ c ∈ k, Retires l c.run → c.isTaken = true ∧ c.pendDrop = true

theorem State.cuesNamed_iff (s : State) : s.CuesNamed ↔ CuesOf s.table.entries s.cues.list := by
  refine ⟨fun ⟨hn, hr⟩ => ⟨fun c hc => State.entry?_isSome.1 (hn c hc), ?_, ?_⟩,
    fun h => ⟨fun c hc => State.entry?_isSome.2 (h.named c hc), fun e he hst => ⟨?_, fun c hc hrun => ?_⟩⟩⟩
  · rintro run ⟨e, he, rfl, hst⟩
    exact (hr e he hst).1
  · rintro c hc ⟨e, he, hrun, hst⟩
    exact (hr e he hst).2 c hc hrun.symm
  · exact h.one e.run ⟨e, he, rfl, hst⟩
  · exact h.ended c hc ⟨e, he, hrun.symm, hst⟩

section cues

variable {l l' : List Entry} {k k' : List Cue}

theorem CuesOf.entries (h : CuesOf l k) (hback : ∀ e ∈ l, ∃ x ∈ l', x.run = e.run)
    (hret : ∀ run, Retires l' run → Retires l run) : CuesOf l' k := by
  refine ⟨fun c hc => ?_, fun run hr => h.one run (hret run hr), fun c hc hr => h.ended c hc (hret c.run hr)⟩
  obtain ⟨e, he, her⟩ := h.named c hc
  obtain ⟨x, hx, hxr⟩ := hback e he
  exact ⟨x, hx, hxr.trans her⟩

/-- Entries that keep their runs and states. -/
theorem CuesOf.mapEntries (h : CuesOf l k) {f : Entry → Entry} (hf : ∀ e, (f e).run = e.run ∧ (f e).state = e.state) :
    CuesOf (l.map f) k := by
  refine h.entries (fun e he => ⟨f e, List.mem_map.2 ⟨e, he, rfl⟩, (hf e).1⟩) ?_
  rintro run ⟨x, hx, hrun, hst⟩
  obtain ⟨e, he, rfl⟩ := List.mem_map.1 hx
  exact ⟨e, he, (hf e).1.symm.trans hrun, (hf e).2.symm.trans hst⟩

/-- The entry of a run replaced by one that is RETIRING only where it was. -/
theorem CuesOf.put (h : CuesOf l k) {old new : Entry} (hold : old ∈ l) (hrun : new.run = old.run)
    (hst : new.state = .retiring → old.state = .retiring) :
    CuesOf (updWhere (·.run = old.run) (fun _ => new) l) k := by
  refine h.entries (fun e he => ?_) ?_
  · refine ⟨_, List.mem_map.2 ⟨e, he, rfl⟩, ?_⟩
    by_cases her : e.run = old.run
    · simp [her, hrun]
    · simp [her]
  · rintro run ⟨x, hx, hxr, hxs⟩
    obtain rfl | ⟨hm, -⟩ := mem_put hx
    · exact ⟨old, hold, hrun.symm.trans hxr, hst hxs⟩
    · exact ⟨x, hm, hxr, hxs⟩

/-- The entry of a run with no cue leaves. -/
theorem CuesOf.drop (h : CuesOf l k) {run : Nat} (hno : ∀ c ∈ k, c.run ≠ run) :
    CuesOf (l.filter (·.run ≠ run)) k := by
  have hsub : ∀ m, Retires (l.filter (·.run ≠ run)) m → Retires l m := fun m ⟨e, he, hr⟩ =>
    ⟨e, (List.mem_filter.1 he).1, hr⟩
  refine ⟨fun c hc => ?_, fun m hm => h.one m (hsub m hm), fun c hc hm => h.ended c hc (hsub c.run hm)⟩
  obtain ⟨e, he, her⟩ := h.named c hc
  exact ⟨e, List.mem_filter.2 ⟨he, decide_eq_true (her ▸ hno c hc)⟩, her⟩

/-- The entry of a run becomes RETIRING, its cues all being TAKEN and marked. -/
theorem CuesOf.retire (h : CuesOf l k) {run : Nat} (hone : ∃ c ∈ k, c.run = run)
    (hall : ∀ c ∈ k, c.run = run → c.isTaken = true ∧ c.pendDrop = true) :
    CuesOf (updWhere (·.run = run) (fun e => { e with state := .retiring, rev := e.rev + 1 }) l) k := by
  have hsub : ∀ m, m ≠ run → Retires (updWhere (·.run = run)
      (fun e => { e with state := .retiring, rev := e.rev + 1 }) l) m → Retires l m := by
    rintro m hm ⟨x, hx, hxr, hxs⟩
    obtain ⟨e, he, rfl⟩ := List.mem_map.1 hx
    by_cases her : e.run = run
    · simp [her] at hxr
      exact absurd hxr.symm hm
    · simp only [her, decide_false, Bool.false_eq_true, if_false] at hxr hxs
      exact ⟨e, he, hxr, hxs⟩
  refine ⟨fun c hc => ?_, fun m hm => ?_, fun c hc hm => ?_⟩
  · obtain ⟨e, he, her⟩ := h.named c hc
    exact ⟨_, List.mem_map.2 ⟨e, he, rfl⟩, by split <;> exact her⟩
  · by_cases hmr : m = run
    · exact hmr ▸ hone
    · exact h.one m (hsub m hmr hm)
  · by_cases hcr : c.run = run
    · exact hall c hc hcr
    · exact h.ended c hc (hsub c.run hcr hm)

/-- Cues changed in place that keep their runs, and that of a RETIRING entry its state and mark. -/
theorem CuesOf.mapCues (h : CuesOf l k) {f : Cue → Cue}
    (hf : ∀ c ∈ k, (f c).run = c.run ∧
      (c.isTaken = true → c.pendDrop = true → Retires l c.run → (f c).isTaken = true ∧ (f c).pendDrop = true)) :
    CuesOf l (k.map f) := by
  refine ⟨fun x hx => ?_, fun run hr => ?_, fun x hx hr => ?_⟩
  · obtain ⟨c, hc, rfl⟩ := List.mem_map.1 hx
    rw [(hf c hc).1]
    exact h.named c hc
  · obtain ⟨c, hc, rfl⟩ := h.one run hr
    exact ⟨f c, List.mem_map.2 ⟨c, hc, rfl⟩, (hf c hc).1⟩
  · obtain ⟨c, hc, rfl⟩ := List.mem_map.1 hx
    obtain ⟨hrun, himp⟩ := hf c hc
    rw [hrun] at hr
    obtain ⟨ht, hd⟩ := h.ended c hc hr
    exact himp ht hd hr

/-- Only cues that are not TAKEN leave. -/
theorem CuesOf.filterCues (h : CuesOf l k) {p : Cue → Bool} (hp : ∀ c ∈ k, c.isTaken = true → p c = true) :
    CuesOf l (k.filter p) := by
  refine ⟨fun c hc => h.named c (List.mem_filter.1 hc).1, fun run hr => ?_, fun c hc => h.ended c (List.mem_filter.1 hc).1⟩
  obtain ⟨c, hc, rfl⟩ := h.one run hr
  exact ⟨c, List.mem_filter.2 ⟨hc, hp c hc (h.ended c hc hr).1⟩, rfl⟩

theorem CuesOf.append (h : CuesOf l k) {c : Cue} (hrun : ∃ e ∈ l, e.run = c.run) (hr : ¬Retires l c.run) :
    CuesOf l (k ++ [c]) := by
  refine ⟨fun x hx => ?_, fun run hret => ?_, fun x hx hret => ?_⟩
  · obtain hx | hx := List.mem_append.1 hx
    · exact h.named x hx
    · rw [List.mem_singleton.1 hx]
      exact hrun
  · obtain ⟨x, hx, hxr⟩ := h.one run hret
    exact ⟨x, List.mem_append_left _ hx, hxr⟩
  · obtain hx | hx := List.mem_append.1 hx
    · exact h.ended x hx hret
    · rw [List.mem_singleton.1 hx] at hret
      exact absurd hret hr

end cues

theorem CuesOf.withdrawWhere {l : List Entry} {s : State} (h : CuesOf l s.cues.list) (p : Cue → Bool) :
    CuesOf l (s.withdrawWhere p).cues.list := by
  rw [State.withdrawWhere_list]
  refine (h.filterCues fun c _ ht => by simp [ht]).mapCues fun c _ => ?_
  split
  · exact ⟨rfl, fun ht _ _ => ⟨ht, rfl⟩⟩
  · exact ⟨rfl, fun ht hd _ => ⟨ht, hd⟩⟩

/-- An entry that is not RETIRING has no RETIRING twin. -/
theorem State.RunCalls.not_retires {run : Nat} {s : State} (h : s.RunCalls run)
    (hnodup : (s.table.entries.map (·.run)).Nodup) :
    (∃ e ∈ s.table.entries, e.run = run) ∧ ¬Retires s.table.entries run := by
  obtain ⟨e, he, hst⟩ := h
  have hrun : e.run = run := by simpa using List.find?_some he
  refine ⟨⟨e, entryIn_mem he, hrun⟩, ?_⟩
  rintro ⟨x, hx, hxr, hxs⟩
  have : x = e := List.inj_on_of_nodup_map hnodup hx (entryIn_mem he) (hxr.trans hrun.symm)
  exact hst (this ▸ hxs)

theorem State.namedByTaken_iff {s : State} {run : Nat} :
    s.namedByTaken run = true ↔ ∃ c ∈ s.cues.list, c.run = run ∧ c.isTaken = true := by
  simp [State.namedByTaken]

/-- A withdrawal takes no TAKEN cue off the list. -/
theorem State.withdrawWhere_namedByTaken (p : Cue → Bool) (s : State) (run : Nat) :
    (s.withdrawWhere p).namedByTaken run = true ↔ s.namedByTaken run = true := by
  rw [State.namedByTaken_iff, State.namedByTaken_iff, State.withdrawWhere_list]
  constructor
  · rintro ⟨x, hx, hrun, ht⟩
    obtain ⟨c, hc, rfl⟩ := List.mem_map.1 hx
    refine ⟨c, (List.mem_filter.1 hc).1, ?_⟩
    split at hrun <;> split at ht <;> exact ⟨hrun, ht⟩
  · rintro ⟨c, hc, hrun, ht⟩
    refine ⟨_, List.mem_map.2 ⟨c, List.mem_filter.2 ⟨hc, by simp [ht]⟩, rfl⟩, ?_⟩
    split <;> exact ⟨hrun, ht⟩

/-- The cues that a withdrawal of a whole run leaves of it. -/
theorem State.withdrawWhere_run {s : State} {run : Nat} {c : Cue} (hc : c ∈ (s.withdrawWhere (·.run = run)).cues.list)
    (hrun : c.run = run) : c.isTaken = true ∧ c.pendDrop = true := by
  rw [State.withdrawWhere_list] at hc
  obtain ⟨b, hb, rfl⟩ := List.mem_map.1 hc
  have hbr : b.run = run := by
    split at hrun <;> exact hrun
  obtain ⟨-, ht⟩ := List.mem_filter.1 hb
  simp only [hbr, decide_true, Bool.not_true, Bool.false_or] at ht
  simp only [hbr, decide_true, if_true]
  exact ⟨ht, trivial⟩

/-! ## The moves -/

section moves

variable {l : List Entry} {s : State}

theorem CuesOf.voidRecord (h : CuesOf l s.cues.list) (run : Nat) : CuesOf l (s.voidRecord run).cues.list := by
  obtain ⟨-, hlist | hlist⟩ := State.voidRecord_list run s <;> rw [hlist]
  · exact h
  · exact h.withdrawWhere _

theorem State.voidRecord_namedByTaken (s : State) (m run : Nat) :
    (s.voidRecord m).namedByTaken run = true ↔ s.namedByTaken run = true := by
  have hcongr : ∀ u v : State, u.cues.list = v.cues.list → (u.namedByTaken run = true ↔ v.namedByTaken run = true) :=
    fun u v h => by rw [State.namedByTaken_iff, State.namedByTaken_iff, h]
  obtain ⟨-, hlist | hlist⟩ := State.voidRecord_list m s
  · exact hcongr _ _ hlist
  · exact (hcongr _ _ hlist).trans (State.withdrawWhere_namedByTaken _ s run)

theorem CuesOf.unrecorded {k : List Cue} (h : CuesOf s.table.entries k) (run : Nat) : CuesOf (s.unrecordedEntries run) k := by
  unfold State.unrecordedEntries
  split
  · refine h.mapEntries fun e => ?_
    unfold Entry.unrecorded
    split <;> exact ⟨rfl, rfl⟩
  · exact h

/-- The entry of a run leaves the table, none of its cues being TAKEN and the rest withdrawn, or waits in RETIRING for those
that are (R10, R11). -/
theorem State.takeOff_cuesOf (h : CuesOf s.table.entries s.cues.list) (run : Nat) :
    CuesOf (s.takeOff run).table.entries (s.takeOff run).cues.list := by
  obtain ⟨hentries, -, hcues, -⟩ := State.retire_frame run s
  have hlist : CuesOf s.table.entries (s.takeOff run).cues.list :=
    ((show CuesOf s.table.entries (s.retire run).cues.list from hcues ▸ h).voidRecord run).withdrawWhere _
  have hnamed : (s.takeOff run).namedByTaken run = true ↔ s.namedByTaken run = true := by
    rw [State.takeOff_eq, State.withdrawWhere_namedByTaken, State.voidRecord_namedByTaken, State.namedByTaken_iff,
      State.namedByTaken_iff, hcues]
  have hall : ∀ c ∈ (s.takeOff run).cues.list, c.run = run → c.isTaken = true ∧ c.pendDrop = true := fun c hc =>
    State.withdrawWhere_run hc
  rw [State.takeOff_entries]
  refine CuesOf.unrecorded ?_ run
  rw [hentries, State.takenOff]
  split
  · next ht =>
    obtain ⟨c, hc, hrun, -⟩ := State.namedByTaken_iff.1 (hnamed.2 ht)
    exact hlist.retire ⟨c, hc, hrun⟩ hall
  · next ht =>
    exact hlist.drop fun c hc hrun => ht (hnamed.1 (State.namedByTaken_iff.2 ⟨c, hc, hrun, (hall c hc hrun).1⟩))

/-- The end of a cue takes a RETIRING entry off the table where it was the last. -/
theorem State.cueEnded_cuesOf {run : Nat} (hnodup : (s.table.entries.map (·.run)).Nodup)
    (hnamed : ∀ c ∈ s.cues.list, ∃ e ∈ s.table.entries, e.run = c.run)
    (hone : ∀ m, m ≠ run → Retires s.table.entries m → ∃ c ∈ s.cues.list, c.run = m)
    (hended : ∀ c ∈ s.cues.list, Retires s.table.entries c.run → c.isTaken = true ∧ c.pendDrop = true) :
    CuesOf (s.cueEnded run).table.entries (s.cueEnded run).cues.list := by
  unfold State.cueEnded
  split
  · next hc =>
    obtain ⟨e, he, hst⟩ := (Option.any_eq_true _ _).1 hc.1
    have her : e.run = run := by simpa using List.find?_some he
    have hret : Retires s.table.entries run := ⟨e, entryIn_mem he, her, of_decide_eq_true hst⟩
    have hno : ∀ c ∈ s.cues.list, c.run ≠ run := fun c hcm hcr =>
      hc.2 (State.namedByTaken_iff.2 ⟨c, hcm, hcr, (hended c hcm (hcr ▸ hret)).1⟩)
    have hsub : ∀ m, Retires (s.table.entries.filter (·.run ≠ run)) m → m ≠ run ∧ Retires s.table.entries m := by
      rintro m ⟨x, hx, rfl, hxs⟩
      obtain ⟨hx, hxr⟩ := List.mem_filter.1 hx
      exact ⟨of_decide_eq_true hxr, x, hx, rfl, hxs⟩
    refine ⟨fun c hcm => ?_, fun m hm => hone m (hsub m hm).1 (hsub m hm).2, fun c hcm hm => hended c hcm (hsub c.run hm).2⟩
    obtain ⟨x, hx, hxr⟩ := hnamed c hcm
    exact ⟨x, List.mem_filter.2 ⟨hx, decide_eq_true (hxr ▸ hno c hcm)⟩, hxr⟩
  · next hc =>
    refine ⟨hnamed, fun m hm => ?_, hended⟩
    by_cases hmr : m = run
    · subst hmr
      obtain ⟨x, hx, hxr, hxs⟩ := id hm
      have hfind : s.entry? m = some x := hxr ▸ entryIn_of_mem hnodup hx
      have ht : s.namedByTaken m = true := by
        by_contra hno
        exact hc ⟨by simp [hfind, hxs], hno⟩
      obtain ⟨c, hcm, hcr, -⟩ := State.namedByTaken_iff.1 ht
      exact ⟨c, hcm, hcr⟩
    · exact hone m hmr hm

theorem State.Move.cuesOf {out join : Option Nat} {t : State} (h : State.Move out join s t)
    (hnodup : (s.table.entries.map (·.run)).Nodup) (hnum : (s.cues.list.map (·.number)).Nodup)
    (hs : CuesOf s.table.entries s.cues.list) : CuesOf t.table.entries t.cues.list := by
  have hfound : ∀ c : Cue, s.cues.list.find? (·.number = c.number) = some c →
      c ∈ s.cues.list ∧ ∀ b ∈ s.cues.list, b.number = c.number → b = c := fun c hc =>
    ⟨List.mem_of_find?_eq_some hc,
      fun b hb hbn => List.inj_on_of_nodup_map hnum hb (List.mem_of_find?_eq_some hc) hbn⟩
  cases h with
  | aside h => rwa [h.entries, h.cues]
  | compose => rwa [State.compose_table, State.compose_cues]
  | confirm p _ _ => exact hs.mapEntries fun e => ⟨rfl, rfl⟩
  | entries f hf => exact hs.mapEntries fun e => ⟨(hf e).run, (hf e).state⟩
  | shift d => exact hs.mapEntries fun e => ⟨rfl, rfl⟩
  | touch old new hold hkeep => exact hs.put (entryIn_mem hold) hkeep.run fun h => hkeep.state ▸ h
  | put old new hold hrep =>
    refine (hs.put (entryIn_mem hold) hrep.run fun h => absurd h hrep.stays.2).entries
      (fun e he => ⟨e, (sortEntries_perm _).mem_iff.2 he, rfl⟩) fun run ⟨e, he, hr⟩ => ⟨e, (sortEntries_perm _).mem_iff.1 he, hr⟩
  | create e _ _ _ _ _ hstate =>
    refine hs.entries (fun x hx => ⟨x, (sortEntries_perm _).mem_iff.2 (List.mem_cons_of_mem _ hx), rfl⟩) ?_
    rintro run ⟨x, hx, hr, hst⟩
    obtain rfl | hx := List.mem_cons.1 ((sortEntries_perm _).mem_iff.1 hx)
    · exact absurd hst hstate
    · exact ⟨x, hx, hr, hst⟩
  | takeOff run => exact State.takeOff_cuesOf hs run
  | cueEnded run => exact State.cueEnded_cuesOf hnodup hs.named (fun m _ => hs.one m) hs.ended
  | endCue c hc =>
    obtain ⟨-, huniq⟩ := hfound c hc
    refine State.cueEnded_cuesOf (s := s.endCue c.number) hnodup (fun b hb => hs.named b (List.mem_filter.1 hb).1)
      (fun m hm hr => ?_) fun b hb => hs.ended b (List.mem_filter.1 hb).1
    obtain ⟨b, hb, hbr⟩ := hs.one m hr
    exact ⟨b, List.mem_filter.2 ⟨hb, decide_eq_true fun hn => hm (by rw [← hbr, huniq b hb hn])⟩, hbr⟩
  | giveBack c f hc hdrop hf =>
    obtain ⟨-, huniq⟩ := hfound c hc
    refine hs.mapCues fun b hb => ?_
    split
    · next hn =>
      refine ⟨(hf b).run, fun _ hd _ => ?_⟩
      rw [huniq b hb (of_decide_eq_true hn), hdrop] at hd
      cases hd
    · exact ⟨rfl, fun ht hd _ => ⟨ht, hd⟩⟩
  | cueMap f hf => exact hs.mapCues fun c _ => ⟨(hf c).run, fun ht hd _ => ⟨(hf c).taken.trans ht, (hf c).drop hd⟩⟩
  | revise kind run zones due hrun =>
    obtain ⟨-, hnot⟩ := hrun.not_retires hnodup
    refine hs.mapCues fun c _ => ?_
    split
    · next hc =>
      simp only [Bool.and_eq_true, decide_eq_true_eq] at hc
      exact ⟨(Cue.revise_fields _ _ _ c).2.2.1, fun _ _ hr => absurd (hc.2 ▸ hr) hnot⟩
    · exact ⟨rfl, fun ht hd _ => ⟨ht, hd⟩⟩
  | replace d kind run zones due hrun _ hd hstate =>
    obtain ⟨hex, hnot⟩ := hrun.not_retires hnodup
    refine CuesOf.append (hs.filterCues fun c hc ht => ?_) hex hnot
    refine decide_eq_true (p := c.number ≠ d.number) fun hn => ?_
    rw [List.inj_on_of_nodup_map hnum hc hd hn, hstate] at ht
    cases ht
  | withdraw p => exact hs.withdrawWhere p
  | append kind run zones due hrun _ _ =>
    obtain ⟨hex, hnot⟩ := hrun.not_retires hnodup
    exact CuesOf.append hs hex hnot
  | give c k hc _ =>
    obtain ⟨hmem, hel⟩ := bestCue_mem hc
    have hwas := (State.eligible_free hel).1
    refine hs.mapCues fun b hb => ?_
    split
    · next hn =>
      refine ⟨rfl, fun ht _ _ => ?_⟩
      rw [List.inj_on_of_nodup_map hnum hb hmem (of_decide_eq_true hn), hwas] at ht
      cases ht
    · exact ⟨rfl, fun ht hd _ => ⟨ht, hd⟩⟩
  | voidRecord run =>
    rw [State.voidRecord_entries]
    exact CuesOf.unrecorded (hs.voidRecord run) run
  | enterRecord r n k _ _ _ _ => exact hs.mapEntries fun e => by split <;> exact ⟨rfl, rfl⟩
  | informAll =>
    have hkeep : ∀ u r, CuesOf (State.table u).entries s.cues.list → CuesOf (u.inform r).table.entries s.cues.list :=
      fun u r hu => by
        rw [State.inform_entries]
        exact hu.mapEntries fun e => by split <;> exact ⟨rfl, rfl⟩
    rw [State.informAll_cues]
    unfold State.informAll
    generalize s.tracker.records.filter _ = records
    suffices hall : ∀ u : State, CuesOf u.table.entries s.cues.list →
        CuesOf (records.foldl (fun t r => t.inform r) u).table.entries s.cues.list from hall s hs
    induction records with
    | nil => exact fun u hu => hu
    | cons r records ih => exact fun u hu => ih _ (hkeep u r hu)
  | _ => exact hs

theorem State.Moved.cuesNamed {out join : Option Nat} {t : State} (h : State.Moved out join s t) (htab : s.Tabled)
    (hok : s.CuesOk) (hs : s.CuesNamed) : t.CuesNamed := by
  rw [State.cuesNamed_iff] at hs ⊢
  induction h with
  | refl => exact hs
  | tail hchain hstep ih =>
    exact hstep.cuesOf (State.Moved.tabled hchain htab).1.2.1 (State.Moved.cuesOk hchain hok).2.1 ih

end moves

theorem State.Bare.cuesOk {s : State} (h : s.Bare) : s.CuesOk := by
  simp [State.CuesOk, h.cues, h.last]

theorem State.Bare.speechOk {s : State} (h : s.Bare) : s.SpeechOk := by
  simp [State.SpeechOk, State.takenCount, h.cues]

theorem State.Bare.cuesNamed {s : State} (h : s.Bare) : s.CuesNamed := by
  simp [State.CuesNamed, h.cues, h.entries]

theorem exec_cuesOk {i : Instr} {s t : State} (h : exec i s = .next t) (hs : s.CuesOk) : t.CuesOk :=
  exec_keepsPicture h (fun ⟨_, _, hm, _⟩ => hm.cuesOk hs) State.Bare.cuesOk

theorem exec_speechOk {i : Instr} {s t : State} (h : exec i s = .next t) (hok : s.CuesOk) (hs : s.SpeechOk) : t.SpeechOk :=
  exec_keepsPicture h (fun ⟨_, _, hm, _⟩ => hm.speechOk hok hs) State.Bare.speechOk

theorem exec_cuesNamed {i : Instr} {s t : State} (h : exec i s = .next t) (hconf : s.ConfigOk) (htab : s.TableOk)
    (hok : s.CuesOk) (hs : s.CuesNamed) : t.CuesNamed :=
  exec_keepsPicture h (fun ⟨_, _, hm, _⟩ => hm.cuesNamed (hconf.tabled htab) hok hs) State.Bare.cuesNamed

/-- Settles O57: the cue list under the moves a command is made of. -/
theorem cuesStayWithinTheirChannels : Obligations.CuesStayWithinTheirChannels := by
  intro s t h
  obtain rfl | ⟨i, rest, h⟩ := step_cases h
  · exact ⟨id, fun _ _ _ => id⟩
  · have hok : s.CuesOk → t.CuesOk := fun hs => by
      have := exec_cuesOk h
      exact this hs
    have hspeech : s.CuesOk → s.SpeechOk → t.SpeechOk := fun hs => by
      have := exec_speechOk h
      exact this hs
    have hnamed := exec_cuesNamed h
    exact ⟨fun hs => ⟨hok hs.1, hspeech hs.1 hs.2⟩, hnamed⟩

end Sys2Proof.Machine
end

section
/-! What a change of the departure picture leaves of the wall's board, the panel records, the zones and the bus (R110, R130,
R139), operation by operation. -/
namespace Sys2Proof.Machine

open Sys2Proof

/-- What the bus holds besides the panel records and the urgent list. -/
def Bus.line (b : Bus) : Bus := { b with panels := [], urgent := [] }

/-- The urgent list holds an address once, with at most two retries (R140). -/
def UrgentOk (l : List Urgent) : Prop := (l.map (·.addr)).Nodup ∧ ∀ u ∈ l, u.retries ≤ 2

/-- With no current item no content is marked as composed (R123; the field `mark` is the model's, log entry 15). -/
def Wall.Marked (w : Wall) : Prop := w.current = none → w.mark = none

/-- From `s` to `t` the picture may have changed, but nothing of the board, the panel records, the zones and the exchange in
flight; the urgent list keeps its form. -/
structure State.Steady (s t : State) : Prop where
  board : t.wall.board = s.wall.board
  records : t.records = s.records
  zones : t.cues.zones = s.cues.zones
  line : t.bus.line = s.bus.line
  urgent : UrgentOk s.bus.urgent → UrgentOk t.bus.urgent
  marked : s.wall.Marked → t.wall.Marked

theorem State.Steady.refl (s : State) : s.Steady s := ⟨rfl, rfl, rfl, rfl, id, id⟩

theorem State.Steady.trans {s t u : State} (h : s.Steady t) (k : t.Steady u) : s.Steady u :=
  ⟨k.board.trans h.board, k.records.trans h.records, k.zones.trans h.zones, k.line.trans h.line,
    fun hs => k.urgent (h.urgent hs), fun hs => k.marked (h.marked hs)⟩

theorem State.Steady.of_blocks {s t : State} (hbus : t.bus = s.bus) (hwall : t.wall = s.wall)
    (hzones : t.cues.zones = s.cues.zones) : s.Steady t :=
  ⟨by rw [hwall], State.records_of_bus hbus, hzones, by rw [hbus], by rw [hbus]; exact id,
    by rw [hwall]; exact id⟩

theorem State.Steady.ite {s t u : State} {c : Prop} [Decidable c] (ht : s.Steady t) (hu : s.Steady u) :
    s.Steady (if c then t else u) := by
  split
  · exact ht
  · exact hu

/-- A fold of steps each of which leaves these. -/
theorem State.Steady.foldl {α : Type} {f : State → α → State} (h : ∀ (s : State) (a : α), s.Steady (f s a)) (l : List α) (s : State) :
    s.Steady (l.foldl f s) := by
  induction l generalizing s with
  | nil => exact .refl s
  | cons a l ih => exact (h s a).trans (ih (f s a))

/-! ## The urgent list -/

theorem UrgentOk.updWhere {l : List Urgent} (h : UrgentOk l) {p : Urgent → Bool} {f : Urgent → Urgent}
    (haddr : ∀ u, (f u).addr = u.addr) (hret : ∀ u ∈ l, (f u).retries ≤ 2) : UrgentOk (updWhere p f l) := by
  refine ⟨by rw [map_updWhere (fun u : Urgent => u.addr) _ _ haddr]; exact h.1, fun u hu => ?_⟩
  obtain ⟨v, hv, rfl⟩ := List.mem_map.1 hu
  split
  · exact hret v hv
  · exact h.2 v hv

theorem UrgentOk.append {l : List Urgent} (h : UrgentOk l) {addr n : Nat} (hnew : l.any (·.addr = addr) = false)
    (hn : n ≤ 2) : UrgentOk (l ++ [⟨addr, n⟩]) := by
  refine ⟨?_, fun u hu => ?_⟩
  · rw [List.map_append, List.map_singleton]
    refine List.nodup_append.2 ⟨h.1, List.nodup_singleton _, fun a ha b hb hab => ?_⟩
    obtain ⟨u, hu, rfl⟩ := List.mem_map.1 ha
    rw [List.mem_singleton.1 hb] at hab
    simpa [hab] using List.any_eq_false.1 hnew u hu
  · obtain hu | hu := List.mem_append.1 hu
    · exact h.2 u hu
    · rw [List.mem_singleton.1 hu]
      exact hn

theorem UrgentOk.urgentAppend {l : List Urgent} (h : UrgentOk l) (addr : Nat) : UrgentOk (urgentAppend addr l) := by
  unfold Sys2Proof.Machine.urgentAppend
  split
  · exact h.updWhere (fun _ => rfl) fun _ _ => le_refl 2
  · next hno => exact h.append (Bool.eq_false_iff.2 hno) (le_refl 2)

theorem UrgentOk.reappend {l : List Urgent} (h : UrgentOk l) (addr : Nat) {n : Nat} (hn : n ≤ 2) :
    UrgentOk (reappend addr n l) := by
  unfold Sys2Proof.Machine.reappend
  split
  · exact h.updWhere (fun _ => rfl) fun u hu => max_le (h.2 u hu) (by omega)
  · next hno => exact h.append (Bool.eq_false_iff.2 hno) (by omega)

theorem State.appendUrgent_steady (run : Nat) (platform : Option Nat) (s : State) :
    s.Steady (s.appendUrgent run platform) := by
  refine ⟨rfl, rfl, rfl, rfl, fun h => ?_, id⟩
  have hfold : ∀ (l : List Nat) (q : List Urgent), UrgentOk q → UrgentOk (l.foldl (fun l a => urgentAppend a l) q) := by
    intro l
    induction l with
    | nil => exact fun q hq => hq
    | cons a l ih => exact fun q hq => ih _ (hq.urgentAppend a)
  exact hfold _ _ h

/-! ## Cues -/

theorem State.post_steady (names : List PortId) (k : NoticeKind) (x : Subject) (s : State) : s.Steady (s.post names k x) :=
  .of_blocks (State.post_bus ..) (State.post_wall ..) (by rw [State.post_cues])

theorem State.trigger_steady (kind : CueKind) (run : Nat) (zones : List Nat) (due : Int) (s : State) :
    s.Steady (s.trigger kind run zones due) := by
  unfold State.trigger
  split
  · exact .of_blocks rfl rfl rfl
  · split
    · exact .of_blocks rfl rfl rfl
    · split
      · next d _ =>
        have hleave : s.Steady (s.withCues (s.cues.list.filter (·.number ≠ d.number))) := .of_blocks rfl rfl rfl
        exact (hleave.trans (State.post_steady ..)).trans (.of_blocks rfl rfl rfl)
      · exact State.post_steady ..

theorem State.withdrawWhere_steady (p : Cue → Bool) (s : State) : s.Steady (s.withdrawWhere p) := .of_blocks rfl rfl rfl

theorem State.handoverFinal_steady (old : Option Entry) (e : Entry) (s : State) : s.Steady (s.handoverFinal old e) := by
  unfold State.handoverFinal
  dsimp only
  refine .ite (State.trigger_steady ..) (.ite (State.trigger_steady ..) (.refl s))

theorem State.cueHandover_steady (old : Option Entry) (e : Entry) (s : State) : s.Steady (s.cueHandover old e) := by
  unfold State.cueHandover
  dsimp only
  refine State.Steady.trans ?_ (State.handoverFinal_steady ..)
  refine State.Steady.trans ?_ (.ite (State.trigger_steady ..) (.refl _))
  refine State.Steady.trans ?_ (.ite (State.trigger_steady ..) (.refl _))
  exact .of_blocks rfl rfl rfl

theorem State.handStanding_steady (e : Entry) (st : EntryState) (s : State) : s.Steady (s.handStanding e st) :=
  State.cueHandover_steady ..

/-! ## Change records -/

theorem State.voidRecord_steady (run : Nat) (s : State) : s.Steady (s.voidRecord run) := by
  unfold State.voidRecord
  refine .ite ?_ (.refl s)
  refine State.Steady.trans ?_ (State.withdrawWhere_steady ..)
  refine State.Steady.trans ?_ (State.post_steady ..)
  exact .of_blocks rfl rfl rfl

theorem State.callChange_steady (run src dst n : Nat) (s : State) : s.Steady (s.callChange run src dst n) := by
  unfold State.callChange
  dsimp only
  refine State.Steady.trans ?_ (State.appendUrgent_steady ..)
  refine State.Steady.trans (State.trigger_steady .change run [0, src, dst] s.now s) ?_
  exact .of_blocks rfl rfl rfl

theorem State.openRecord_steady (run src dst : Nat) (r : Count16) (s : State) : s.Steady (s.openRecord run src dst r).1 := by
  cases hslot : (s.supersede run).tracker.takeSlot with
  | none =>
    rw [State.openRecord_untracked hslot]
    exact State.Steady.trans (t := s.supersede run) (.of_blocks rfl rfl rfl) (State.post_steady ..)
  | some slot =>
    rw [State.openRecord_tracked hslot]
    exact State.Steady.trans (t := s.enterRecord _ _ _) (.of_blocks rfl rfl rfl) (State.callChange_steady ..)

theorem State.platformChanged_steady (e : Entry) (st : EntryState) (old : Option Nat) (s : State) :
    s.Steady (s.platformChanged e st old).1 := by
  unfold State.platformChanged
  split
  · exact .ite ((State.voidRecord_steady ..).trans (State.handStanding_steady ..)) (.refl s)
  · split
    · exact (State.openRecord_steady ..).trans (State.handStanding_steady ..)
    · exact .refl s
  · exact .refl s

theorem State.inform_steady (r : ChangeRec) (s : State) : s.Steady (s.inform r) := by
  unfold State.inform
  dsimp only
  refine State.Steady.trans ?_ (State.post_steady ..)
  exact .of_blocks rfl rfl rfl

theorem State.informAll_steady (s : State) : s.Steady s.informAll :=
  State.Steady.foldl (fun t r => State.inform_steady r t) _ s

theorem State.evaluate_steady (s : State) : s.Steady s.evaluate :=
  .of_blocks (State.evaluate_bus s) (State.evaluate_wall s) (by rw [State.evaluate_cues])

theorem State.waiveRows_steady (addr : Nat) (s : State) : s.Steady (s.waiveRows addr) := by
  unfold State.waiveRows
  exact .ite (.of_blocks rfl rfl rfl) (.refl s)

theorem State.changeDone_steady (run : Nat) (s : State) : s.Steady (s.changeDone run) := by
  unfold State.changeDone
  dsimp only
  refine State.Steady.trans ?_ (State.informAll_steady _)
  exact .of_blocks rfl rfl rfl

/-! ## Composition -/

theorem State.compose_marked {s : State} (h : s.wall.Marked) : s.compose.wall.Marked := by
  unfold State.compose
  rw [State.setDesired_wall]
  unfold State.rotate
  dsimp only
  split
  · exact h
  · nofun
  · exact fun _ => rfl
  · next hc _ =>
    split
    · split
      · exact h
      · exact fun hn => absurd (hc.symm.trans hn) (by simp)
    · nofun

theorem State.compose_steady (s : State) : s.Steady s.compose := by
  have hline : s.compose.bus.line = s.bus.line ∧ s.compose.bus.urgent = s.bus.urgent := by
    have : s.remap.rotate.bus = s.bus := by rw [State.rotate_bus, State.remap_bus]
    unfold State.compose State.setDesired Bus.line
    dsimp only
    rw [this]
    exact ⟨rfl, rfl⟩
  exact ⟨State.compose_board s, State.compose_records s, by rw [State.compose_cues], hline.1, by rw [hline.2]; exact id,
    State.compose_marked⟩

theorem State.recompose_steady (s : State) : s.Steady s.recompose :=
  (State.compose_steady s).trans ((State.evaluate_steady _).trans (State.compose_steady _))

/-! ## The departure table -/

theorem State.putEntry_steady (old e : Entry) (s : State) : s.Steady (s.putEntry old e) := by
  unfold State.putEntry
  dsimp only
  split <;> exact .of_blocks rfl rfl rfl

theorem State.handPlatform_steady (old e : Entry) (s : State) : s.Steady (s.handPlatform old e).1 := by
  unfold State.handPlatform
  exact (State.platformChanged_steady ..).trans (State.cueHandover_steady ..)

theorem State.changeEntry_steady (old new : Entry) (s : State) : s.Steady (s.changeEntry old new).1 := by
  have hstate : ∀ (u : State) (e : Entry), u.Steady
      (if old.state = e.state then u else u.cueHandover (some (u.standing e old.state)) (u.standing e e.state)) := fun u e =>
    .ite (.refl u) (State.cueHandover_steady ..)
  have hdelay : ∀ (u : State) (e : Entry),
      u.Steady (if old.dd = e.dd ∧ old.exp = e.exp then u else u.handStanding e e.state) := fun u e =>
    .ite (.refl u) (State.handStanding_steady ..)
  unfold State.changeEntry
  dsimp only
  refine State.Steady.trans ?_ (hdelay _ _)
  refine State.Steady.trans ?_ (hstate _ _)
  split
  · exact State.putEntry_steady ..
  · exact (State.putEntry_steady ..).trans (State.handPlatform_steady ..)

theorem State.takeOff_steady (run : Nat) (s : State) : s.Steady (s.takeOff run) := by
  rw [State.takeOff_eq]
  refine State.Steady.trans ?_ (State.withdrawWhere_steady ..)
  refine State.Steady.trans (t := s.retire run) ?_ (State.voidRecord_steady ..)
  unfold State.retire
  split <;> exact .of_blocks rfl rfl rfl

theorem State.decideRemoval_steady (expired : Bool) (run : Nat) (s : State) : s.Steady (s.decideRemoval expired run) := by
  rw [decideRemoval_eq]
  split
  · exact ((State.takeOff_steady run s).trans (State.recompose_steady _)).trans (State.post_steady ..)
  · exact (State.takeOff_steady run s).trans (State.recompose_steady _)

theorem State.cueEnded_steady (run : Nat) (s : State) : s.Steady (s.cueEnded run) := by
  unfold State.cueEnded
  split <;> exact .of_blocks rfl rfl rfl

theorem State.evaluateEntry_steady (s : State) (run : Nat) : s.Steady (s.evaluateEntry run) := by
  unfold State.evaluateEntry
  split
  · refine .ite (State.decideRemoval_steady ..) (.ite (State.decideRemoval_steady ..) ?_)
    exact .ite (.refl s) ((State.changeEntry_steady ..).trans (State.recompose_steady _))
  · exact .refl s

theorem State.evaluateTable_steady (s : State) : s.Steady s.evaluateTable :=
  (State.Steady.foldl State.evaluateEntry_steady _ s).trans (.of_blocks rfl rfl rfl)

theorem State.rollTable_steady (s : State) : s.Steady s.rollTable := by
  unfold State.rollTable
  dsimp only
  have hderive : ∀ u : State, u.Steady u.rederive := fun _ => .of_blocks rfl rfl rfl
  refine State.Steady.trans ?_ (State.recompose_steady _)
  refine State.Steady.trans ?_ (hderive _)
  have hfold := fun (u : State) (l : List Nat) =>
    State.Steady.foldl (f := fun t run => t.decideRemoval true run) (fun t run => State.decideRemoval_steady true run t) l u
  refine State.Steady.trans ?_ (hfold _ _)
  exact .of_blocks rfl rfl rfl

theorem State.rollover_steady (s : State) : s.Steady s.rollover :=
  State.Steady.trans (t := s.rollTracker.rollCues) (.of_blocks rfl rfl rfl) (State.rollTable_steady _)

theorem State.announceTime_steady (minute : Bool) (s : State) : s.Steady (s.announceTime minute) :=
  (State.evaluateTable_steady s).trans (.of_blocks rfl rfl rfl)

theorem State.minuteAdvanced_steady (s : State) : s.Steady s.minuteAdvanced := by
  unfold State.minuteAdvanced
  dsimp only
  split
  · exact (State.rollover_steady s).trans (State.announceTime_steady ..)
  · exact State.announceTime_steady ..

theorem State.clearFilter_steady (run : Nat) (s : State) : s.Steady (s.clearFilter run) := by
  unfold State.clearFilter
  split
  · exact .ite ((State.changeEntry_steady ..).trans (State.recompose_steady _)) (.of_blocks rfl rfl rfl)
  · exact .refl s

theorem State.clearFilters_steady (s : State) : s.Steady s.clearFilters :=
  State.Steady.foldl (fun t run => State.clearFilter_steady run t) _ s

theorem State.fallSilent_steady (p : PortId) (s : State) : s.Steady (s.fallSilent p) := by
  have hpost : s.Steady ((s.updPort p fun r => { r with live := false }).post
      ([PortId.planning, .signalling, .announcement].filter (· ≠ p)) .portSilent (.port p)) := by
    refine State.Steady.trans ?_ (State.post_steady ..)
    exact .of_blocks rfl rfl rfl
  exact .ite (hpost.trans (State.clearFilters_steady _)) hpost

/-! ## Speech -/

theorem State.spokenFacts_steady (t : Captured) (s : State) : s.Steady (s.spokenFacts t) := by
  unfold State.spokenFacts
  split
  · exact .of_blocks rfl rfl rfl
  · exact (State.changeDone_steady ..).trans (.of_blocks rfl rfl rfl)
  · exact .of_blocks rfl rfl rfl
  · exact .refl s

theorem State.fateOfDone_steady (c : Cue) (s : State) : s.Steady (s.fateOfDone c).1 := by
  unfold State.fateOfDone
  repeat' split
  all_goals exact .of_blocks rfl rfl rfl

theorem State.fateOfAbort_steady (c : Cue) (s : State) : s.Steady (s.fateOfAbort c).1 := by
  have hdrop : s.Steady ((s.endCue c.number).postDropped c.run) :=
    State.Steady.trans (t := s.endCue c.number) (.of_blocks rfl rfl rfl) (State.post_steady ..)
  unfold State.fateOfAbort
  dsimp only
  split
  · exact .of_blocks rfl rfl rfl
  · split
    · dsimp only
      exact .ite (hdrop.trans (.of_blocks rfl rfl rfl)) hdrop
    · exact .of_blocks rfl rfl rfl

end Sys2Proof.Machine
end

section
/-! The panel records and levels under the operations of the bus (R130 to R147, R158 to R160), and what a dispatch decision
leaves of the bus (R139 to R143). -/
namespace Sys2Proof.Machine

open Sys2Proof

/-! ## The bus -/

/-- The urgent list, the exchange in flight and the refresh pointer in form (R139, R140, R142). -/
def Bus.Ok (b : Bus) : Prop :=
  UrgentOk b.urgent ∧ (∀ x ∈ b.exchange, ∀ n ∈ x.urgent, n ≤ 2) ∧ 1 ≤ b.pointer ∧ b.pointer ≤ 60

/-- An IDLE bus has no panel waiting for a frame (R141). -/
def Bus.Idle (b : Bus) : Prop := b.exchange = none → b.urgent = [] ∧ ∀ p ∈ b.panels, p.wantsFrame = false

theorem State.busOk_iff (s : State) : s.BusOk ↔ s.bus.Ok ∧ s.bus.Idle := by
  unfold State.BusOk Bus.Ok Bus.Idle UrgentOk
  tauto

theorem Bus.Ok.of_line {b c : Bus} (h : b.Ok) (hline : c.line = b.line) (hurgent : UrgentOk b.urgent → UrgentOk c.urgent) :
    c.Ok := by
  obtain ⟨hu, hx, hp⟩ := h
  have hex : c.exchange = b.exchange := (congrArg Bus.exchange hline : c.line.exchange = b.line.exchange)
  have hptr : c.pointer = b.pointer := (congrArg Bus.pointer hline : c.line.pointer = b.line.pointer)
  exact ⟨hurgent hu, by rwa [hex], by rwa [hptr]⟩

theorem Bus.Ok.steady {s t : State} (h : s.bus.Ok) (k : s.Steady t) : t.bus.Ok := h.of_line k.line k.urgent

theorem urgentPick_rest (panels : List Panel) (l : List Urgent) : (urgentPick panels l).2.Sublist l ∧
    (∀ u p, (urgentPick panels l).1 = some (u, p) → u ∈ l ∧ p ∈ panels ∧ p.addr = u.addr ∧ p.wantsFrame = true) ∧
    ((urgentPick panels l).1 = none → (urgentPick panels l).2 = []) := by
  induction l with
  | nil => simp [urgentPick]
  | cons u rest ih =>
    obtain ⟨hsub, hpick, hnone⟩ := ih
    unfold urgentPick
    split
    · next p hp =>
      split
      · next hw =>
        refine ⟨List.sublist_cons_self u rest, fun v q hv => ?_, nofun⟩
        obtain ⟨rfl, rfl⟩ := Prod.mk.inj (Option.some.inj hv)
        exact ⟨List.mem_cons_self, List.mem_of_find?_eq_some hp, by simpa using List.find?_some hp, hw⟩
      · exact ⟨hsub.cons u, fun v q hv => ⟨List.mem_cons_of_mem u (hpick v q hv).1, (hpick v q hv).2⟩, hnone⟩
    · exact ⟨hsub.cons u, fun v q hv => ⟨List.mem_cons_of_mem u (hpick v q hv).1, (hpick v q hv).2⟩, hnone⟩

theorem UrgentOk.sublist {l l' : List Urgent} (h : UrgentOk l) (hl : l'.Sublist l) : UrgentOk l' :=
  ⟨h.1.sublist (hl.map _), fun u hu => h.2 u (hl.subset hu)⟩

theorem State.startExchange_bus (p : Panel) (urgent : Option Nat) (s : State) :
    (s.startExchange p urgent).bus.urgent = s.bus.urgent ∧ (s.startExchange p urgent).bus.pointer = s.bus.pointer ∧
      ∃ x, (s.startExchange p urgent).bus.exchange = some x ∧ x.urgent = urgent := ⟨rfl, rfl, _, rfl, rfl⟩

theorem State.dispatch_busOk {s : State} (h : s.bus.Ok) : s.dispatch.bus.Ok := by
  obtain ⟨hsub, hpick, -⟩ := urgentPick_rest s.bus.panels s.bus.urgent
  obtain ⟨hu, hx, hp⟩ := id h
  unfold State.dispatch
  split
  · exact h
  · split
    · next u p rest heq =>
      rw [heq] at hsub hpick
      refine ⟨hu.sublist hsub, fun x hx n hn => ?_, hp⟩
      cases hx
      cases hn
      exact hu.2 u (hpick u p rfl).1
    · next rest heq =>
      rw [heq] at hsub
      dsimp only
      split
      · refine ⟨hu.sublist hsub, fun x hx n hn => ?_, ?_⟩
        · cases hx
          cases hn
        · have hptr : ∀ a : Nat, 1 ≤ (if a ≥ 60 then 1 else a + 1) ∧ (if a ≥ 60 then 1 else a + 1) ≤ 60 := fun a => by
            split <;> omega
          exact hptr _
      · exact ⟨hu.sublist hsub, hx, hp⟩

/-- A dispatch decision leaves no panel unserved on an IDLE bus (R141, R142). -/
theorem State.dispatch_idle (s : State) : s.dispatch.bus.Idle := by
  obtain ⟨-, -, hnone⟩ := urgentPick_rest s.bus.panels s.bus.urgent
  unfold State.dispatch
  split
  · next hsome =>
    intro h
    rw [h] at hsome
    cases hsome
  · split
    · next u p rest heq => nofun
    · next rest heq =>
      rw [heq] at hnone
      dsimp only
      split
      · nofun
      · next hfind =>
        refine fun _ => ⟨hnone rfl, fun p hp => ?_⟩
        have hmem : p ∈ ({ s with bus := { s.bus with urgent := rest } } : State).cycleOrder := by
          unfold State.cycleOrder
          simp only [List.mem_append, List.mem_filter, decide_eq_true_eq]
          have hp : p ∈ s.bus.panels := hp
          by_cases hle : s.bus.pointer ≤ p.addr
          · exact .inl ⟨hp, hle⟩
          · exact .inr ⟨hp, not_le.1 hle⟩
        have := List.find?_eq_none.1 hfind p hmem
        simp only [State.needsService, Bool.or_eq_true, not_or, Bool.not_eq_true] at this
        exact this.1.1

theorem State.serve_busOk {s : State} (h : s.bus.Ok) (old : State) : (s.serve old).bus.Ok := by
  unfold State.serve
  split
  · exact State.dispatch_busOk h
  · exact h

theorem State.serve_idle (s old : State) : (s.serve old).bus.Idle := by
  unfold State.serve
  split
  · exact State.dispatch_idle s
  · next hdue =>
    simp only [State.decisionDue, Bool.or_eq_true, not_or, Bool.not_eq_true, Bool.not_eq_false', List.isEmpty_iff,
      List.any_eq_false] at hdue
    exact fun _ => ⟨hdue.1, fun p hp => (hdue.2 p hp).1⟩

theorem State.finish_busOk {s : State} (h : s.bus.Ok) (old : State) : (s.finish old).BusOk :=
  (State.busOk_iff _).2 ⟨State.serve_busOk h old, State.serve_idle s old⟩

/-! ## The panel records -/

/-- An ACTIVE panel's error counter stands below the threshold `T`, and a panel is ABSENT where it has no role (R130, R145). -/
def Panel.Whole (T : Nat) (p : Panel) : Prop :=
  (p.state = .active → p.ec < T) ∧ p.goodRun ≤ 2 ∧ (p.state = .absent ↔ p.role = .none)

/-- A panel's desired level is at most 15, or 6 in overtemperature (R160). -/
def Panel.LevelOk (p : Panel) : Prop := p.desiredLevel ≤ 15 ∧ (p.overtemp = true → p.desiredLevel ≤ 6)

/-- The address and role of every panel. -/
def State.roles (s : State) : List (Nat × Role) := s.bus.panels.map fun p => (p.addr, p.role)

theorem State.updPanel_roles (addr : Nat) {f : Panel → Panel} (h : ∀ p, (f p).addr = p.addr ∧ (f p).role = p.role)
    (s : State) : (s.updPanel addr f).roles = s.roles :=
  map_updWhere (fun p : Panel => (p.addr, p.role)) _ f (fun p => by rw [(h p).1, (h p).2]) _

theorem State.writeLevels_roles (q : Panel → Bool) (s : State) : (s.writeLevels q).roles = s.roles :=
  map_updWhere (fun p : Panel => (p.addr, p.role)) _ (fun p => { p with desiredLevel := s.panelLevel p })
    (fun _ => rfl) _

/-- The panel of an address is configured. -/
def State.ConfiguredAt (addr : Nat) (s : State) : Prop := (addr, Role.none) ∉ s.roles

theorem State.configuredAt_iff {addr : Nat} {s : State} :
    s.ConfiguredAt addr ↔ ∀ p ∈ s.bus.panels, p.addr = addr → p.role ≠ .none := by
  simp [State.ConfiguredAt, State.roles]

/-- No zone stands above 15. -/
def Sense.ZonesOk (u : Sense) : Prop := ∀ z ∈ u.zones, z.level ≤ 15 ∧ z.target ≤ 15

theorem State.panelsOk_iff (s : State) :
    s.PanelsOk ↔ s.roles.map (·.1) = (List.range 60).map (· + 1) ∧ 1 ≤ s.inForce.failThreshold ∧
      ∀ p ∈ s.bus.panels, p.Whole s.inForce.failThreshold := by
  unfold State.PanelsOk Panel.Whole State.roles
  rw [List.map_map]
  constructor
  · rintro ⟨haddr, hT, hec, hrun, habs⟩
    exact ⟨haddr, hT, fun p hp => ⟨hec p hp, hrun p hp, habs p hp⟩⟩
  · rintro ⟨haddr, hT, h⟩
    exact ⟨haddr, hT, fun p hp => (h p hp).1, fun p hp => (h p hp).2.1, fun p hp => (h p hp).2.2⟩

theorem State.levelsOk_iff (s : State) : s.LevelsOk ↔ s.sense.ZonesOk ∧ ∀ p ∈ s.bus.panels, p.LevelOk := Iff.rfl

theorem Panel.whole_record (T : Nat) (p : Panel) : p.record.Whole T ↔ p.Whole T := Iff.rfl

theorem Panel.levelOk_record (p : Panel) : p.record.LevelOk ↔ p.LevelOk := Iff.rfl

/-- From `s` to `t` the panels keep their roles, and what holds of every record under the threshold `T`. -/
structure State.PanelsKept (T : Nat) (s t : State) : Prop where
  roles : t.roles = s.roles
  zones : t.sense.zones = s.sense.zones
  whole : (∀ p ∈ s.bus.panels, p.Whole T) → ∀ p ∈ t.bus.panels, p.Whole T
  level : s.sense.ZonesOk → (∀ p ∈ s.bus.panels, p.LevelOk) → ∀ p ∈ t.bus.panels, p.LevelOk

theorem State.PanelsKept.refl (T : Nat) (s : State) : State.PanelsKept T s s := ⟨rfl, rfl, id, fun _ => id⟩

theorem State.PanelsKept.trans {T : Nat} {s t u : State} (h : State.PanelsKept T s t) (k : State.PanelsKept T t u) :
    State.PanelsKept T s u :=
  ⟨k.roles.trans h.roles, k.zones.trans h.zones, fun hs => k.whole (h.whole hs),
    fun hz hs => k.level (by unfold Sense.ZonesOk; rwa [h.zones]) (h.level hz hs)⟩

theorem State.roles_of_records {s t : State} (h : t.records = s.records) : t.roles = s.roles := by
  have := congrArg (List.map fun p : Panel => (p.addr, p.role)) h
  simpa [State.records, State.roles, List.map_map, Function.comp_def, Panel.record] using this

theorem State.mem_of_records {s t : State} (h : t.records = s.records) {p : Panel} (hp : p ∈ t.bus.panels) :
    ∃ q ∈ s.bus.panels, q.record = p.record := by
  have : p.record ∈ t.records := List.mem_map.2 ⟨p, hp, rfl⟩
  rw [h] at this
  exact List.mem_map.1 this

theorem State.PanelsKept.of_records {T : Nat} {s t : State} (h : t.records = s.records)
    (hz : t.sense.zones = s.sense.zones) : State.PanelsKept T s t := by
  refine ⟨State.roles_of_records h, hz, fun hs p hp => ?_, fun _ hs p hp => ?_⟩
  · obtain ⟨q, hq, heq⟩ := State.mem_of_records h hp
    exact (Panel.whole_record T p).1 (heq ▸ (Panel.whole_record T q).2 (hs q hq))
  · obtain ⟨q, hq, heq⟩ := State.mem_of_records h hp
    exact (Panel.levelOk_record p).1 (heq ▸ (Panel.levelOk_record q).2 (hs q hq))

theorem State.PanelsKept.steady {T : Nat} {s t : State} (h : s.Steady t) (hs : t.sources = s.sources) :
    State.PanelsKept T s t := .of_records h.records (by rw [State.sense_of_sources hs])

/-- A change of the panels of one address. -/
theorem State.updPanel_kept {T : Nat} {s : State} (addr : Nat) {f : Panel → Panel}
    (hrole : ∀ p, (f p).addr = p.addr ∧ (f p).role = p.role)
    (hwhole : ∀ p ∈ s.bus.panels, p.addr = addr → p.Whole T → (f p).Whole T)
    (hlevel : ∀ p : Panel, p.LevelOk → (f p).LevelOk) : State.PanelsKept T s (s.updPanel addr f) := by
  refine ⟨State.updPanel_roles addr hrole s, rfl, fun hs p hp => ?_, fun _ hs p hp => ?_⟩
  all_goals
    obtain ⟨q, hq, rfl⟩ := List.mem_map.1 hp
    split
  · next haddr => exact hwhole q hq (of_decide_eq_true haddr) (hs q hq)
  · exact hs q hq
  · exact hlevel q (hs q hq)
  · exact hs q hq

theorem State.zoneLevel_le {s : State} (h : s.sense.ZonesOk) (z : Nat) : s.zoneLevel z ≤ 15 := by
  unfold State.zoneLevel
  cases hf : s.sense.zones.find? (·.no = z) with
  | none => exact Nat.zero_le _
  | some a => exact (h a (List.mem_of_find?_eq_some hf)).1

theorem State.panelLevel_ok {s : State} (h : s.sense.ZonesOk) (p : Panel) :
    ({ p with desiredLevel := s.panelLevel p } : Panel).LevelOk := by
  refine ⟨(min_le_left _ _).trans (State.zoneLevel_le h _), fun hover => (min_le_right _ _).trans ?_⟩
  have hover : p.overtemp = true := hover
  simp [hover]

theorem State.writeLevels_kept (T : Nat) (q : Panel → Bool) (s : State) : State.PanelsKept T s (s.writeLevels q) := by
  refine ⟨State.writeLevels_roles q s, rfl, fun hs p hp => ?_, fun hz hs p hp => ?_⟩
  all_goals
    obtain ⟨a, ha, rfl⟩ := List.mem_map.1 hp
    split
  · exact hs a ha
  · exact hs a ha
  · exact State.panelLevel_ok hz a
  · exact hs a ha

/-! ## Outcomes -/

section outcomes

variable {T : Nat} {s : State} {addr : Nat}

theorem State.ConfiguredAt.kept {t : State} (h : s.ConfiguredAt addr) (k : State.PanelsKept T s t) :
    t.ConfiguredAt addr := by
  unfold State.ConfiguredAt
  rwa [k.roles]

/-- A configured panel put into a state other than ABSENT. -/
theorem State.updPanel_state_kept (h : s.ConfiguredAt addr) {f : Panel → Panel}
    (hrole : ∀ p, (f p).addr = p.addr ∧ (f p).role = p.role) (hstate : ∀ p, (f p).state ≠ .absent)
    (hec : ∀ p, (f p).state = .active → (f p).ec < T) (hrun : ∀ p : Panel, p.goodRun ≤ 2 → (f p).goodRun ≤ 2)
    (hlevel : ∀ p : Panel, p.LevelOk → (f p).LevelOk) : State.PanelsKept T s (s.updPanel addr f) := by
  refine State.updPanel_kept addr hrole (fun p hp haddr hw => ⟨hec p, hrun p hw.2.1, ?_⟩) hlevel
  rw [(hrole p).2]
  exact iff_of_false (hstate p) (State.configuredAt_iff.1 h p hp haddr)

theorem State.failPanel_kept (h : s.ConfiguredAt addr) : State.PanelsKept T s (s.failPanel addr) := by
  have hfail : State.PanelsKept T s
      (s.updPanel addr fun p => { p with state := .failed, ec := 0, goodRun := 0 }) :=
    State.updPanel_state_kept h (fun _ => ⟨rfl, rfl⟩) (fun _ => nofun) (fun _ => nofun) (fun _ _ => Nat.zero_le _)
      fun _ h => h
  refine hfail.trans ?_
  refine .steady (((State.waiveRows_steady addr _).trans (State.recompose_steady _)).trans (State.post_steady ..)) ?_
  exact State.failPanel_sources addr s

theorem State.takeStatus_kept (h : s.ConfiguredAt addr) (overtemp : Bool) :
    State.PanelsKept T s (s.takeStatus addr overtemp) := by
  unfold State.takeStatus
  split
  · split
    · exact .refl T s
    · have hroles : ((s.updPanel addr fun p => { p with overtemp := overtemp }).writeLevels
          fun p => p.addr = addr).roles = s.roles :=
        (State.writeLevels_roles ..).trans (State.updPanel_roles addr (f := fun p => { p with overtemp := overtemp })
          (fun _ => ⟨rfl, rfl⟩) s)
      refine ⟨hroles, rfl, fun hs p hp => ?_, fun hz hs p hp => ?_⟩
      · obtain ⟨a, ha, rfl⟩ := List.mem_map.1 hp
        obtain ⟨b, hb, rfl⟩ := List.mem_map.1 ha
        split <;> split <;> exact hs b hb
      · obtain ⟨a, ha, rfl⟩ := List.mem_map.1 hp
        split
        · exact State.panelLevel_ok (s := s.updPanel addr _) hz a
        · next hno =>
          obtain ⟨b, hb, rfl⟩ := List.mem_map.1 ha
          by_cases hba : b.addr = addr
          · have hrole := State.configuredAt_iff.1 h b hb hba
            simp [hba, Panel.configured, hrole] at hno
          · simpa [hba] using hs b hb
  · exact .refl T s

theorem State.acknowledge_kept {x : Exchange} (h : s.ConfiguredAt x.addr) (overtemp : Bool) :
    State.PanelsKept T s (s.acknowledge x overtemp) := by
  have hack : State.PanelsKept T s (s.updPanel x.addr fun p =>
      { p with ackedLevel := p.sentLevel, acked := if x.content = .polf then p.acked else p.sent }) :=
    State.updPanel_kept x.addr (fun _ => ⟨rfl, rfl⟩) (fun _ _ _ h => h) fun _ h => h
  exact hack.trans (State.takeStatus_kept (h.kept hack) overtemp)

theorem State.probingOutcome_kept {x : Exchange} (h : s.ConfiguredAt x.addr) (hT : 1 ≤ T) (o : Outcome) :
    State.PanelsKept T s (s.probingOutcome x o) := by
  have hclear : State.PanelsKept T s (s.updPanel x.addr Panel.clearFlags) :=
    State.updPanel_kept x.addr (fun _ => ⟨rfl, rfl⟩) (fun _ _ _ h => h) fun _ h => h
  unfold State.probingOutcome
  cases o with
  | good overtemp =>
    have hack := State.acknowledge_kept (T := T) h overtemp
    exact hack.trans (State.updPanel_state_kept (h.kept hack) (fun _ => ⟨rfl, rfl⟩) (fun _ => nofun)
      (fun _ _ => hT) (fun _ h => h) fun _ h => h)
  | refused | failed => exact hclear.trans (State.failPanel_kept (h.kept hclear))

theorem State.panel?_some {p : Panel} (h : s.panel? addr = some p) : p ∈ s.bus.panels ∧ p.addr = addr :=
  ⟨List.mem_of_find?_eq_some h, by simpa using List.find?_some h⟩

/-- Of a list of panels that holds an address once. -/
theorem panel_unique {l : List Panel} (h : (l.map (·.addr)).Nodup) {p q : Panel} (hp : p ∈ l) (hq : q ∈ l)
    (haddr : p.addr = q.addr) : p = q := List.inj_on_of_nodup_map h hp hq haddr

theorem State.probeOutcome_kept {x : Exchange} (h : s.ConfiguredAt x.addr) (hT : 1 ≤ T)
    (hnodup : (s.bus.panels.map (·.addr)).Nodup) (o : Outcome) : State.PanelsKept T s (s.probeOutcome x o) := by
  unfold State.probeOutcome
  cases o with
  | good overtemp =>
    have hstatus := State.takeStatus_kept (T := T) h overtemp
    dsimp only
    refine hstatus.trans ?_
    have hroles : (s.takeStatus x.addr overtemp).roles = s.roles := hstatus.roles
    have hnodup' : ((s.takeStatus x.addr overtemp).bus.panels.map (·.addr)).Nodup := by
      have := congrArg (List.map (·.1)) hroles
      simp only [State.roles, List.map_map] at this
      rw [show ((s.takeStatus x.addr overtemp).bus.panels.map (·.addr)) = s.bus.panels.map (·.addr) from this]
      exact hnodup
    have hconf := h.kept hstatus
    generalize s.takeStatus x.addr overtemp = u at hnodup' hconf ⊢
    have hcount : ∀ p ∈ u.bus.panels, p.addr = x.addr →
        (u.updPanel x.addr fun p => { p with goodRun := p.goodRun + 1 }).panel? x.addr =
          some { p with goodRun := p.goodRun + 1 } := by
      intro p hp haddr
      obtain ⟨before, after, heq⟩ := List.append_of_mem hp
      have hno : ∀ q ∈ before, q.addr ≠ x.addr := fun q hq hqa => by
        rw [heq, List.map_append, List.map_cons] at hnodup'
        exact (List.nodup_append.1 hnodup').2.2 _ (List.mem_map.2 ⟨q, hq, rfl⟩) _ List.mem_cons_self (hqa.trans haddr.symm)
      unfold State.panel? State.updPanel
      simp only [heq, updWhere, List.map_append, List.map_cons, haddr, decide_true, if_true]
      rw [List.find?_append, List.find?_eq_none.2, Option.none_or, List.find?_cons_of_pos (by simp)]
      intro q hq
      obtain ⟨b, hb, rfl⟩ := List.mem_map.1 hq
      simp [hno b hb]
    split
    · next hthree =>
      refine State.PanelsKept.trans (t := (u.updPanel x.addr fun p => { p with goodRun := p.goodRun + 1 }).updPanel x.addr
        fun p => { p.clearFlags with
          state := .active, ec := 0, goodRun := 0, sent := none, acked := none, sentLevel := none, ackedLevel := none })
        ?_ ?_
      · have htwice : ((u.updPanel x.addr fun p => { p with goodRun := p.goodRun + 1 }).updPanel x.addr
            fun p => { p.clearFlags with
              state := .active, ec := 0, goodRun := 0, sent := none, acked := none, sentLevel := none
              ackedLevel := none }) = u.updPanel x.addr fun p => { p.clearFlags with
                state := .active, ec := 0, goodRun := 0, sent := none, acked := none, sentLevel := none
                ackedLevel := none } := by
          unfold State.updPanel updWhere
          simp only [List.map_map]
          congr 2
          refine List.map_congr_left fun p _ => ?_
          by_cases hp : p.addr = x.addr <;> simp [hp, Panel.clearFlags]
        rw [htwice]
        exact State.updPanel_state_kept hconf (fun _ => ⟨rfl, rfl⟩) (fun _ => nofun) (fun _ _ => hT)
          (fun _ _ => Nat.zero_le _) fun _ h => h
      · refine .steady ((State.recompose_steady _).trans (State.post_steady ..)) ?_
        rw [State.post_sources, State.recompose_sources]
    · next hno =>
      refine State.updPanel_kept x.addr (fun _ => ⟨rfl, rfl⟩) (fun p hp haddr hw => ⟨hw.1, ?_, hw.2.2⟩) fun _ h => h
      rw [hcount p hp haddr] at hno
      simp only [Option.any_some, decide_eq_true_eq] at hno
      show p.goodRun + 1 ≤ 2
      omega
  | refused | failed =>
    exact State.updPanel_kept x.addr (fun _ => ⟨rfl, rfl⟩) (fun p _ _ hw => ⟨hw.1, Nat.zero_le _, hw.2.2⟩) fun _ h => h

end outcomes

end Sys2Proof.Machine
end

section
/-! The panels, their levels and the bus under the ends of exchanges, intervals and passes, and under a configuration
applied (R131 to R147, R158 to R160). -/
namespace Sys2Proof.Machine

open Sys2Proof

/-! ## The bus under an outcome -/

/-- The bus but for its panel records stands; the urgent list keeps its form. -/
structure State.OnLine (s t : State) : Prop where
  line : t.bus.line = s.bus.line
  urgent : UrgentOk s.bus.urgent → UrgentOk t.bus.urgent
  marked : s.wall.Marked → t.wall.Marked

theorem State.OnLine.refl (s : State) : s.OnLine s := ⟨rfl, id, id⟩

theorem State.OnLine.trans {s t u : State} (h : s.OnLine t) (k : t.OnLine u) : s.OnLine u :=
  ⟨k.line.trans h.line, fun hs => k.urgent (h.urgent hs), fun hs => k.marked (h.marked hs)⟩

theorem State.Steady.onLine {s t : State} (h : s.Steady t) : s.OnLine t := ⟨h.line, h.urgent, h.marked⟩

theorem State.OnLine.of_bus {s t : State} (h : t.bus = s.bus) (hwall : t.wall = s.wall) : s.OnLine t :=
  ⟨by rw [h], by rw [h]; exact id, by rw [hwall]; exact id⟩

theorem State.updPanel_onLine (addr : Nat) (f : Panel → Panel) (s : State) : s.OnLine (s.updPanel addr f) := ⟨rfl, id, id⟩

theorem State.writeLevels_onLine (q : Panel → Bool) (s : State) : s.OnLine (s.writeLevels q) := ⟨rfl, id, id⟩

theorem Bus.Ok.onLine {s t : State} (h : s.bus.Ok) (k : s.OnLine t) : t.bus.Ok := h.of_line k.line k.urgent

theorem State.failPanel_onLine (addr : Nat) (s : State) : s.OnLine (s.failPanel addr) := by
  refine (State.updPanel_onLine addr (fun p => { p with state := .failed, ec := 0, goodRun := 0 }) s).trans ?_
  exact (((State.waiveRows_steady addr _).trans (State.recompose_steady _)).trans (State.post_steady ..)).onLine

theorem State.takeStatus_onLine (addr : Nat) (overtemp : Bool) (s : State) : s.OnLine (s.takeStatus addr overtemp) := by
  unfold State.takeStatus
  split
  · split
    · exact .refl s
    · exact ⟨rfl, id, id⟩
  · exact .refl s

theorem State.acknowledge_onLine (x : Exchange) (overtemp : Bool) (s : State) : s.OnLine (s.acknowledge x overtemp) :=
  (State.updPanel_onLine x.addr _ s).trans (State.takeStatus_onLine x.addr overtemp _)

theorem State.actOn_onLine (x : Exchange) (o : Outcome) (s : State) : s.OnLine (s.actOn x o) := by
  unfold State.actOn
  cases x.startState with
  | active =>
    cases o with
    | good overtemp => exact State.acknowledge_onLine x overtemp s
    | refused | failed => exact .refl s
  | probing =>
    cases o with
    | good overtemp =>
      exact (State.acknowledge_onLine x overtemp s).trans (State.updPanel_onLine x.addr _ _)
    | refused | failed => exact (State.updPanel_onLine x.addr _ s).trans (State.failPanel_onLine x.addr _)
  | failed =>
    dsimp only
    unfold State.probeOutcome
    cases o with
    | good overtemp =>
      refine (State.takeStatus_onLine x.addr overtemp s).trans ?_
      refine (State.updPanel_onLine x.addr (fun p => { p with goodRun := p.goodRun + 1 }) _).trans ?_
      dsimp only
      split
      · refine State.OnLine.trans ?_ (State.post_steady ..).onLine
        refine State.OnLine.trans ?_ (State.recompose_steady _).onLine
        exact State.updPanel_onLine ..
      · exact .refl _
    | refused | failed => exact State.updPanel_onLine x.addr _ s
  | absent => exact .refl s

theorem State.reappendUrgent_busOk {x : Exchange} {o : Outcome} {s : State} (h : s.bus.Ok)
    (hx : ∀ n ∈ x.urgent, n ≤ 2) : (s.reappendUrgent x o).bus.Ok := by
  obtain ⟨hu, hex, hp⟩ := id h
  unfold State.reappendUrgent
  split
  · exact h
  · next n _ _ _ heq _ =>
    split
    · exact ⟨hu.reappend x.addr (hx _ heq), hex, hp⟩
    · exact h
  · exact h

/-- The exchange is over, and its panel carries the flags and the time of R134. -/
def State.exchangeEnded (x : Exchange) (o : Outcome) (s : State) : State :=
  ({ s with bus := { s.bus with exchange := none } } : State).updPanel x.addr (Panel.endOfExchange s.runTime o)

/-- What the outcome of an exchange does, past the flags and the time (R134, R138). -/
def State.outcomeActed (x : Exchange) (o : Outcome) (s : State) : State :=
  if x.rset || !(s.panel? x.addr).any (·.state = x.startState) then s else (s.actOn x o).reappendUrgent x o

theorem State.endExchange_eq (x : Exchange) (o : Outcome) (s : State) :
    s.endExchange x o = ((s.exchangeEnded x o).outcomeActed x o).recompose.dispatch.settleAttention := rfl

theorem State.dispatched_busOk {v : State} (h : v.bus.Ok) : v.recompose.dispatch.settleAttention.BusOk := by
  rw [State.busOk_iff, State.settleAttention_bus]
  exact ⟨State.dispatch_busOk (h.steady (State.recompose_steady v)), State.dispatch_idle _⟩

/-- The end of an exchange leaves the bus in form, served afresh (R133, R139, R141). -/
theorem State.endExchange_busOk {x : Exchange} {o : Outcome} {s : State} (h : s.bus.Ok) (hx : ∀ n ∈ x.urgent, n ≤ 2) :
    (s.endExchange x o).BusOk := by
  rw [State.endExchange_eq]
  refine State.dispatched_busOk ?_
  have hended : (s.exchangeEnded x o).bus.Ok :=
    ⟨h.1, fun y hy => absurd (show y ∈ (none : Option Exchange) from hy) (Option.not_mem_none y), h.2.2⟩
  unfold State.outcomeActed
  split
  · exact hended
  · exact State.reappendUrgent_busOk (hended.onLine (State.actOn_onLine x o _)) hx

/-! ## The panels under an outcome -/

theorem State.PanelsKept.panelsOk {s t : State} (h : s.PanelsOk) (hin : t.inForce.failThreshold = s.inForce.failThreshold)
    (k : State.PanelsKept s.inForce.failThreshold s t) : t.PanelsOk := by
  obtain ⟨haddr, hT, hall⟩ := (State.panelsOk_iff s).1 h
  exact (State.panelsOk_iff t).2 ⟨k.roles ▸ haddr, hin ▸ hT, hin ▸ k.whole hall⟩

theorem State.PanelsKept.levelsOk {T : Nat} {s t : State} (h : s.LevelsOk) (k : State.PanelsKept T s t) : t.LevelsOk :=
  (State.levelsOk_iff t).2 ⟨by unfold Sense.ZonesOk; rw [k.zones]; exact h.1, k.level h.1 h.2⟩

theorem State.PanelsOk.nodup {s : State} (h : s.PanelsOk) : (s.bus.panels.map (·.addr)).Nodup := by
  rw [h.1]
  exact List.nodup_range.map fun _ _ h => by simpa using h

theorem Panel.Whole.configured {T : Nat} {p : Panel} (h : p.Whole T) (hp : p.state ≠ .absent) : p.role ≠ .none :=
  fun hr => hp (h.2.2.2 hr)

theorem State.PanelsOk.configuredAt {s : State} (h : s.PanelsOk) {p : Panel} (hp : p ∈ s.bus.panels)
    (hstate : p.state ≠ .absent) : s.ConfiguredAt p.addr := by
  obtain ⟨-, -, hall⟩ := (State.panelsOk_iff s).1 h
  refine State.configuredAt_iff.2 fun q hq haddr => ?_
  rw [panel_unique h.nodup hq hp haddr]
  exact (hall p hp).configured hstate

theorem State.actOn_kept {T : Nat} {x : Exchange} {s : State} (hT : 1 ≤ T) (hnodup : (s.bus.panels.map (·.addr)).Nodup)
    (h : x.startState ≠ .absent → s.ConfiguredAt x.addr) (o : Outcome) : State.PanelsKept T s (s.actOn x o) := by
  unfold State.actOn
  cases hs : x.startState with
  | absent => exact .refl T s
  | active =>
    cases o with
    | good overtemp => exact State.acknowledge_kept (h (by simp [hs])) overtemp
    | refused | failed => exact .refl T s
  | probing => exact State.probingOutcome_kept (h (by simp [hs])) hT o
  | failed => exact State.probeOutcome_kept (h (by simp [hs])) hT hnodup o

theorem State.reappendUrgent_kept (T : Nat) (x : Exchange) (o : Outcome) (s : State) :
    State.PanelsKept T s (s.reappendUrgent x o) := by
  unfold State.reappendUrgent
  split
  · exact .refl T s
  · split
    · exact .of_records rfl rfl
    · exact .refl T s
  · exact .refl T s

theorem State.exchangeEnded_kept (T : Nat) (x : Exchange) (o : Outcome) (s : State) :
    State.PanelsKept T s (s.exchangeEnded x o) := by
  refine State.PanelsKept.trans ?_ (State.updPanel_kept x.addr (f := Panel.endOfExchange s.runTime o)
    (fun _ => ⟨rfl, rfl⟩) (fun _ _ _ h => h) fun _ h => h)
  exact .of_records rfl rfl

theorem State.outcomeActed_kept {s : State} (h : s.PanelsOk) (x : Exchange) (o : Outcome) :
    State.PanelsKept s.inForce.failThreshold s (s.outcomeActed x o) := by
  obtain ⟨-, hT, -⟩ := (State.panelsOk_iff s).1 h
  unfold State.outcomeActed
  split
  · exact .refl _ s
  · next hgo =>
    refine (State.actOn_kept hT h.nodup (fun hs => ?_) o).trans (State.reappendUrgent_kept ..)
    simp only [Bool.or_eq_true, Bool.not_eq_true', not_or, Bool.not_eq_false] at hgo
    obtain ⟨p, hp, hstate⟩ := (Option.any_eq_true ..).1 hgo.2
    obtain ⟨hmem, haddr⟩ := State.panel?_some hp
    rw [← haddr]
    exact h.configuredAt hmem (by rw [of_decide_eq_true hstate]; exact hs)

theorem State.dispatched_kept (T : Nat) (s : State) : State.PanelsKept T s s.recompose.dispatch.settleAttention := by
  refine .of_records ?_ (by rw [State.sense_of_sources (s := s) (by simp)])
  rw [State.records_of_bus (State.settleAttention_bus _), State.dispatch_records, State.recompose_records]

theorem State.endExchange_kept {s : State} (h : s.PanelsOk) (x : Exchange) (o : Outcome) :
    State.PanelsKept s.inForce.failThreshold s (s.endExchange x o) := by
  rw [State.endExchange_eq]
  have hended := State.exchangeEnded_kept s.inForce.failThreshold x o s
  have hok : (s.exchangeEnded x o).PanelsOk := hended.panelsOk h rfl
  exact hended.trans ((State.outcomeActed_kept hok x o).trans (State.dispatched_kept _ _))

/-! ## The monitor -/

theorem State.monitor_kept {s : State} {q : Panel} (h : q.state = .active → s.ConfiguredAt q.addr) :
    State.PanelsKept s.inForce.failThreshold s (s.monitor q) := by
  unfold State.monitor
  dsimp only
  split
  · next hq =>
    split
    · exact State.failPanel_kept (h hq.1)
    · next hec =>
      exact State.updPanel_kept q.addr (fun _ => ⟨rfl, rfl⟩) (fun p _ _ hw => ⟨fun _ => not_le.1 hec, hw.2⟩) fun _ h => h
  · exact .refl _ s

theorem State.monitor_inForce (q : Panel) (s : State) : (s.monitor q).inForce = s.inForce :=
  State.inForce_of_sources (State.monitor_sources q s)

theorem State.monitorAll_kept (l : List Panel) : ∀ s : State, (∀ q ∈ l, q.state = .active → s.ConfiguredAt q.addr) →
    State.PanelsKept s.inForce.failThreshold s (l.foldl State.monitor s) := by
  induction l with
  | nil => exact fun s _ => .refl _ s
  | cons q l ih =>
    intro s h
    have hq := State.monitor_kept (s := s) (h q List.mem_cons_self)
    have hl := ih (s.monitor q) fun p hp hs => (h p (List.mem_cons_of_mem q hp) hs).kept hq
    rw [State.monitor_inForce] at hl
    exact hq.trans hl

theorem State.clearIntervalFlags_kept (T : Nat) (s : State) : State.PanelsKept T s s.clearIntervalFlags := by
  refine ⟨?_, rfl, fun hs p hp => ?_, fun _ hs p hp => ?_⟩
  · simp [State.roles, State.clearIntervalFlags, Panel.clearFlags]
  all_goals
    obtain ⟨q, hq, rfl⟩ := List.mem_map.1 hp
    exact hs q hq

theorem State.endInterval_kept {s : State} (h : s.PanelsOk) :
    State.PanelsKept s.inForce.failThreshold s s.endInterval := by
  have hall := State.monitorAll_kept s.bus.panels s fun q hq hs => h.configuredAt hq (by rw [hs]; nofun)
  refine hall.trans ((State.clearIntervalFlags_kept _ _).trans ?_)
  refine .of_records ?_ ?_
  · exact State.finish_records ..
  · exact congrArg Sense.zones (State.sense_of_sources (State.finish_sources ..))

theorem State.monitor_onLine (q : Panel) (s : State) : s.OnLine (s.monitor q) := by
  unfold State.monitor
  dsimp only
  split
  · split
    · exact State.failPanel_onLine ..
    · exact State.updPanel_onLine ..
  · exact .refl s

theorem State.OnLine.foldl {α : Type} {f : State → α → State} (h : ∀ (s : State) (a : α), s.OnLine (f s a))
    (l : List α) (s : State) : s.OnLine (l.foldl f s) := by
  induction l generalizing s with
  | nil => exact .refl s
  | cons a l ih => exact (h s a).trans (ih (f s a))

theorem State.endInterval_busOk {s : State} (h : s.bus.Ok) : s.endInterval.BusOk := by
  refine State.finish_busOk ?_ s
  exact (h.onLine (State.OnLine.foldl (fun t q => State.monitor_onLine q t) _ s) :)

/-! ## A lowered threshold -/

/-- A panel is whole under `T`, or its error counter is still to be judged at one of these addresses. -/
def Panel.WholeBut (T : Nat) (addrs : List Nat) (p : Panel) : Prop :=
  (p.state = .active → p.ec < T ∨ p.addr ∈ addrs) ∧ p.goodRun ≤ 2 ∧ (p.state = .absent ↔ p.role = .none)

theorem State.failPanels_whole {T : Nat} (addrs : List Nat) : ∀ s : State, (∀ a ∈ addrs, s.ConfiguredAt a) →
    (∀ p ∈ s.bus.panels, p.WholeBut T addrs) →
      ∀ p ∈ (addrs.foldl (fun t a => t.failPanel a) s).bus.panels, p.Whole T := by
  induction addrs with
  | nil =>
    intro s _ h p hp
    obtain ⟨hec, hrest⟩ := h p hp
    exact ⟨fun hs => (hec hs).resolve_right List.not_mem_nil, hrest⟩
  | cons a addrs ih =>
    intro s hconf h
    have hkept : State.PanelsKept T s (s.failPanel a) := State.failPanel_kept (hconf a List.mem_cons_self)
    refine ih (s.failPanel a) (fun b hb => (hconf b (List.mem_cons_of_mem a hb)).kept hkept) fun p hp => ?_
    have hrec : (s.failPanel a).records =
        (s.updPanel a fun p => { p with state := .failed, ec := 0, goodRun := 0 }).records :=
      (((State.waiveRows_steady a _).trans (State.recompose_steady _)).trans (State.post_steady ..)).records
    obtain ⟨q, hq, heq⟩ := State.mem_of_records hrec hp
    have hq' : q.WholeBut T addrs := by
      obtain ⟨r, hr, rfl⟩ := List.mem_map.1 hq
      obtain ⟨hec, hrun, habs⟩ := h r hr
      split
      · next hra =>
        have hra : r.addr = a := of_decide_eq_true hra
        exact ⟨nofun, Nat.zero_le _, iff_of_false nofun
          (State.configuredAt_iff.1 (hconf a List.mem_cons_self) r hr hra)⟩
      · next hra =>
        exact ⟨fun hs => (hec hs).imp_right fun hm => (List.mem_cons.1 hm).resolve_left fun hc => hra (decide_eq_true hc),
          hrun, habs⟩
    have hrecord : ∀ x : Panel, x.record.WholeBut T addrs ↔ x.WholeBut T addrs := fun _ => Iff.rfl
    exact (hrecord p).1 (heq ▸ (hrecord q).2 hq')

theorem State.failPanels_kept {T : Nat} (addrs : List Nat) : ∀ s : State, (∀ a ∈ addrs, s.ConfiguredAt a) →
    State.PanelsKept T s (addrs.foldl (fun t a => t.failPanel a) s) := by
  induction addrs with
  | nil => exact fun s _ => .refl T s
  | cons a addrs ih =>
    intro s hconf
    have hkept : State.PanelsKept T s (s.failPanel a) := State.failPanel_kept (hconf a List.mem_cons_self)
    exact hkept.trans (ih _ fun b hb => (hconf b (List.mem_cons_of_mem a hb)).kept hkept)

theorem State.failAbove_eq (s : State) :
    s.failAbove = ((s.bus.panels.filter fun p => p.state = .active && s.inForce.failThreshold ≤ p.ec).map
      (·.addr)).foldl (fun t a => t.failPanel a) s := by
  rw [List.foldl_map]
  rfl

/-- A lowered threshold leaves no ACTIVE panel at or above it (R147). -/
theorem State.failAbove_panels {s u : State} (h : s.PanelsOk) (hbus : u.bus = s.bus) :
    State.PanelsKept u.inForce.failThreshold u u.failAbove ∧
      ∀ p ∈ u.failAbove.bus.panels, p.Whole u.inForce.failThreshold := by
  obtain ⟨-, -, hall⟩ := (State.panelsOk_iff s).1 h
  have hconf : ∀ a ∈ (u.bus.panels.filter fun p => p.state = .active && u.inForce.failThreshold ≤ p.ec).map (·.addr),
      u.ConfiguredAt a := by
    intro a ha
    obtain ⟨p, hp, rfl⟩ := List.mem_map.1 ha
    obtain ⟨hmem, hp⟩ := List.mem_filter.1 hp
    simp only [Bool.and_eq_true, decide_eq_true_eq] at hp
    rw [hbus] at hmem
    have := h.configuredAt hmem (by rw [hp.1]; nofun)
    unfold State.ConfiguredAt State.roles
    rw [hbus]
    exact this
  rw [State.failAbove_eq]
  refine ⟨State.failPanels_kept _ u hconf, State.failPanels_whole _ u hconf fun p hp => ?_⟩
  have hw := hall p (hbus ▸ hp)
  refine ⟨fun hs => ?_, hw.2⟩
  by_cases hec : p.ec < u.inForce.failThreshold
  · exact .inl hec
  · exact .inr (List.mem_map.2 ⟨p, List.mem_filter.2 ⟨hp, by simp [hs, not_lt.1 hec]⟩, rfl⟩)

theorem State.failAbove_onLine (s : State) : s.OnLine s.failAbove := by
  rw [State.failAbove_eq]
  exact State.OnLine.foldl (fun t a => State.failPanel_onLine a t) _ s

/-! ## The end of a pass -/

theorem Params.Ok.ceiling_le {p : Params} (h : p.Ok) : p.ceiling ≤ 15 := by
  obtain ⟨-, -, -, -, hall⟩ := h
  have := hall 374 (by omega) _ rfl
  simp only [ParamRange.holds, Params.value, Bool.and_eq_true, decide_eq_true_eq] at this
  exact this.2

theorem Params.Ok.one_le_failThreshold {p : Params} (h : p.Ok) : 1 ≤ p.failThreshold := by
  obtain ⟨-, -, -, -, hall⟩ := h
  have := hall 361 (by omega) _ rfl
  simp only [ParamRange.holds, Params.value, Bool.and_eq_true, decide_eq_true_eq] at this
  exact le_trans (by omega) this.1

theorem stepToward_le {level desired n : Nat} (hl : level ≤ n) (hd : desired ≤ n) : stepToward level desired ≤ n := by
  unfold stepToward
  split
  · omega
  · split <;> omega

theorem newTarget_le {t a : Nat} (ht : t ≤ 15) (ha : a ≤ 1020) : newTarget t a ≤ 15 := by
  unfold newTarget
  dsimp only
  split
  · omega
  · split <;> omega

theorem Sense.usable_le (u : Sense) (z : Nat) : ∀ r ∈ u.usable z, r ≤ 1020 := by
  intro r hr
  obtain ⟨c, -, hc⟩ := List.mem_filterMap.1 hr
  split at hc
  · obtain ⟨v, -, hv⟩ := Option.bind_eq_some_iff.1 hc
    split at hv
    · next hgood =>
      cases hv
      simp only [goodReading, Bool.and_eq_true, decide_eq_true_eq] at hgood
      exact hgood.2
    · cases hv
  · cases hc

theorem average_le {l : List Nat} {n : Nat} (h : ∀ r ∈ l, r ≤ n) : l.sum / l.length ≤ n := by
  refine Nat.div_le_of_le_mul ?_
  simpa using List.sum_le_card_nsmul l n h

theorem LightZone.afterPass_le {p : Params} (hp : p.ceiling ≤ 15) {usable : List Nat} (hu : ∀ r ∈ usable, r ≤ 1020)
    {z : LightZone} (hz : z.level ≤ 15 ∧ z.target ≤ 15) :
    (z.afterPass p usable).level ≤ 15 ∧ (z.afterPass p usable).target ≤ 15 := by
  have hdesired : ∀ t, desiredLevel p t ≤ 15 := fun t => (min_le_right _ _).trans hp
  unfold LightZone.afterPass
  split
  · split
    · exact ⟨stepToward_le hz.1 (hdesired _), hz.2⟩
    · exact hz
  · exact ⟨stepToward_le hz.1 (hdesired _), newTarget_le hz.2 (average_le hu)⟩

theorem State.classifyChannels_wall (s : State) : s.classifyChannels.wall = s.wall :=
  foldl_keeps State.wall (fun t n => t.post [.planning] .sensorFault (.light n)) (fun t _ => State.post_wall _ _ _ t) _ _

theorem State.endPass_wall (s : State) : s.endPass.wall = s.wall := State.classifyChannels_wall s

theorem State.classifyChannels_bus (s : State) : s.classifyChannels.bus = s.bus :=
  foldl_keeps State.bus (fun t n => t.post [.planning] .sensorFault (.light n)) (fun t _ => State.post_bus _ _ _ t) _ _

/-- What the end of a pass does to the panels is a writing of levels under the new zones. -/
theorem State.endPass_bus (s : State) : ∃ (q : Panel → Bool) (u : State), u.bus = s.bus ∧ u.sense.zones = s.endPass.sense.zones ∧
    s.endPass.bus = (u.writeLevels q).bus :=
  ⟨_, (s.classifyChannels.withSense { s.classifyChannels.sense with
    zones := s.classifyChannels.sense.zones.map fun z => z.afterPass s.classifyChannels.inForce
      (s.classifyChannels.sense.usable z.no) }), State.classifyChannels_bus s, rfl, rfl⟩

theorem State.endPass_zonesOk {s : State} (hc : s.inForce.ceiling ≤ 15) (h : s.sense.ZonesOk) :
    s.endPass.sense.ZonesOk := by
  intro z hz
  rw [State.endPass_sense, State.computeZones_sense, State.classifyChannels_sense] at hz
  obtain ⟨a, ha, rfl⟩ := List.mem_map.1 hz
  rw [State.classifyChannels_inForce]
  exact LightZone.afterPass_le hc (Sense.usable_le _ _) (h a ha)

/-- From `s` to `t` the zones and the desired levels may have moved, but nothing else of the panels. -/
structure State.Dimmed (s t : State) : Prop where
  roles : t.roles = s.roles
  inForce : t.inForce = s.inForce
  line : s.OnLine t
  whole : ∀ T, (∀ p ∈ s.bus.panels, p.Whole T) → ∀ p ∈ t.bus.panels, p.Whole T
  level : s.inForce.ceiling ≤ 15 → s.LevelsOk → t.LevelsOk

theorem State.Dimmed.of_blocks {s t : State} (hbus : t.bus = s.bus) (hwall : t.wall = s.wall) (hin : t.inForce = s.inForce)
    (hz : t.sense.zones = s.sense.zones) : s.Dimmed t :=
  ⟨by unfold State.roles; rw [hbus], hin, .of_bus hbus hwall, fun _ => by rw [hbus]; exact id,
    fun _ h => by unfold State.LevelsOk; rw [hbus, hz]; exact h⟩

theorem State.Dimmed.trans {s t u : State} (h : s.Dimmed t) (k : t.Dimmed u) : s.Dimmed u :=
  ⟨k.roles.trans h.roles, k.inForce.trans h.inForce, h.line.trans k.line, fun T hs => k.whole T (h.whole T hs),
    fun hc hs => k.level (h.inForce ▸ hc) (h.level hc hs)⟩

theorem State.endPass_dimmed (s : State) : s.Dimmed s.endPass := by
  obtain ⟨q, u, hbus, hzones, heq⟩ := State.endPass_bus s
  have hkept := fun T => State.writeLevels_kept T q u
  refine ⟨?_, ?_, ?_, fun T hs p hp => ?_, fun hc hs => ⟨State.endPass_zonesOk hc hs.1, fun p hp => ?_⟩⟩
  · have : s.endPass.roles = (u.writeLevels q).roles := by unfold State.roles; rw [heq]
    rw [this, (hkept 0).roles]
    unfold State.roles
    rw [hbus]
  · exact (State.classifyChannels_inForce s :)
  · refine ⟨by rw [heq, ← hbus]; rfl, fun hu => ?_, by rw [State.endPass_wall]; exact id⟩
    rw [heq]
    show UrgentOk u.bus.urgent
    rwa [hbus]
  · exact (hkept T).whole (by rwa [hbus]) p (heq ▸ hp)
  · refine (hkept 0).level ?_ ?_ p (heq ▸ hp)
    · unfold Sense.ZonesOk
      rw [hzones]
      exact State.endPass_zonesOk hc hs.1
    · rw [hbus]
      exact hs.2

theorem Sense.choose_zones (threshold : Nat) (u : Sense) : (u.choose threshold).zones = u.zones := by
  unfold Sense.choose
  split <;> rfl

theorem State.chooseConversion_dimmed (s : State) : s.Dimmed s.chooseConversion :=
  .of_blocks rfl rfl rfl (Sense.choose_zones _ _)

theorem State.beginPass_dimmed (s : State) : s.Dimmed s.beginPass := by
  unfold State.beginPass
  dsimp only
  split
  · exact State.endPass_dimmed s
  · split
    · exact .of_blocks rfl rfl rfl (Sense.choose_zones _ _)
    · exact .of_blocks rfl rfl rfl rfl

theorem State.takeReading_dimmed (channel value : Nat) (s : State) : s.Dimmed (s.takeReading channel value) := by
  unfold State.takeReading
  dsimp only
  split
  · exact .of_blocks rfl rfl rfl (Sense.choose_zones _ _)
  · refine State.Dimmed.trans ?_ (State.chooseConversion_dimmed _)
    refine State.Dimmed.trans ?_ (State.endPass_dimmed _)
    exact .of_blocks rfl rfl rfl rfl

theorem State.finish_dimmed (s old : State) : ∀ T, State.PanelsKept T s (s.finish old) := fun T =>
  .of_records (State.finish_records s old) (by rw [State.sense_of_sources (State.finish_sources ..)])

/-! ## A configuration applied -/

theorem freshPanel_whole (p : Params) (T a : Nat) :
    (freshPanel p a).Whole T ∧ (freshPanel p a).LevelOk ∧ (freshPanel p a).addr = a := by
  unfold freshPanel
  dsimp only
  split
  · exact ⟨⟨nofun, Nat.zero_le _, iff_of_true rfl rfl⟩, ⟨Nat.zero_le _, nofun⟩, rfl⟩
  · next hr => exact ⟨⟨nofun, Nat.zero_le _, iff_of_false nofun hr⟩, ⟨Nat.zero_le _, nofun⟩, rfl⟩

theorem freshPanels_addr (p : Params) : (freshPanels p).map (·.addr) = (List.range 60).map (· + 1) := by
  unfold freshPanels
  rw [List.map_map]
  exact List.map_congr_left fun i _ => (freshPanel_whole p 0 (i + 1)).2.2

theorem mem_freshPanels {p : Params} (T : Nat) {q : Panel} (hq : q ∈ freshPanels p) :
    q.Whole T ∧ q.LevelOk := by
  obtain ⟨i, -, rfl⟩ := List.mem_map.1 hq
  exact ⟨(freshPanel_whole p T _).1, (freshPanel_whole p T _).2.1⟩

section fresh

variable {s t : State} {p : Params}

/-- The panels of a state that has just applied a configuration. -/
theorem State.fresh_panelsOk (hp : p.Ok) (hfresh : s.bus.panels = freshPanels p)
    (k : State.PanelsKept p.failThreshold s t) (hin : t.inForce = p) : t.PanelsOk := by
  have haddr : s.roles.map (·.1) = (List.range 60).map (· + 1) := by
    rw [← freshPanels_addr p, ← hfresh, State.roles, List.map_map]
    rfl
  refine (State.panelsOk_iff t).2 ⟨k.roles ▸ haddr, hin ▸ hp.one_le_failThreshold, ?_⟩
  rw [hin]
  exact k.whole fun q hq => (mem_freshPanels _ (hfresh ▸ hq)).1

theorem State.fresh_levelsOk {T : Nat} (hfresh : s.bus.panels = freshPanels p) (hz : s.sense.ZonesOk)
    (k : State.PanelsKept T s t) : t.LevelsOk :=
  k.levelsOk ⟨hz, fun _ hq => (mem_freshPanels 0 (hfresh ▸ hq)).2⟩

end fresh

theorem freshSense_zonesOk {p : Params} (hp : p.Ok) : (freshSense p).ZonesOk := by
  intro z hz
  obtain ⟨i, -, rfl⟩ := List.mem_map.1 hz
  exact ⟨hp.ceiling_le, le_refl 15⟩

end Sys2Proof.Machine
end

section
/-! What the wall shows hangs on few facts of the picture (R110 to R115, R121): composing makes it current, and a change of
any other fact leaves it so. -/
namespace Sys2Proof.Machine

open Sys2Proof

/-! ## What the picture reads -/

/-- What the picture reads of an entry: its run, revision, state, displayed platform and displayed delay. -/
def Entry.look (e : Entry) : Entry :=
  { e with
    headcode := none, destination := [], calls := [], sched := 0, planned := e.displayed, assigned := none, opDelay := none
    filter := Filter.empty, exp := 0, stateTime := none, reason := none, announced := none, lastDelay := 0
    openRec := none }

/-- What the picture reads of a change record: its run, its state and its diverted gates. -/
def ChangeRec.look (r : ChangeRec) : ChangeRec :=
  { r with
    no := 0, src := 0, dst := 0, openedMinute := 0, openedSecond := 0, r := 0, announced := false, displayed := false
    degraded := false, rowPart := .pending, gatePart := .pending, gateReq := none, cue := none, inSpeech := false }

/-- What the picture reads of a posted notice: its number, priority and edition. -/
def Posted.look (n : Posted) : Posted := { n with text := [], expiry := none }

/-- What the picture reads of the wall: all but the texts and timers. -/
def Wall.look (w : Wall) : Wall := { w with dwell := none, edition := 0, posted := w.posted.map Posted.look }

theorem Wall.look_fields {v w : Wall} (h : v.look = w.look) :
    v.rowMap = w.rowMap ∧ v.gateChoice = w.gateChoice ∧ v.items = w.items ∧ v.current = w.current ∧ v.mark = w.mark ∧
      v.count = w.count ∧ v.mode = w.mode ∧ v.posted.map Posted.look = w.posted.map Posted.look := by
  unfold Wall.look at h
  injection h with hrows hgates hitems hcurrent hmark _ hcount hposted hmode
  exact ⟨hrows, hgates, hitems, hcurrent, hmark, hcount, hmode, hposted⟩

/-- What the picture reads of a panel: its address, role, state and desired tag. -/
def Panel.look (p : Panel) : Panel := { Panel.absentAt p.addr 0 with role := p.role, state := p.state, desired := p.desired }

theorem Panel.look_fields {p q : Panel} (h : q.look = p.look) :
    q.addr = p.addr ∧ q.role = p.role ∧ q.desired = p.desired := by
  unfold Panel.look Panel.absentAt at h
  injection h with haddr hrole _ _ _ _ _ _ hdesired
  exact ⟨haddr, hrole, hdesired⟩

theorem Entry.look_fields {e x : Entry} (h : x.look = e.look) : x.run = e.run ∧ x.rev = e.rev := by
  unfold Entry.look at h
  injection h with hrun _ _ _ _ _ _ _ _ _ _ _ _ _ hrev
  exact ⟨hrun, by assumption⟩

theorem Posted.look_fields {n m : Posted} (h : m.look = n.look) : m.number = n.number ∧ m.edition = n.edition := by
  unfold Posted.look at h
  injection h with hnumber _ _ hedition
  exact ⟨hnumber, hedition⟩

/-- From `s` to `t` nothing that the picture reads has moved. -/
structure State.Alike (s t : State) : Prop where
  entries : t.table.entries.map Entry.look = s.table.entries.map Entry.look
  displayable : t.table.displayable = s.table.displayable
  records : t.tracker.records.map ChangeRec.look = s.tracker.records.map ChangeRec.look
  wall : t.wall.look = s.wall.look
  panels : t.bus.panels.map Panel.look = s.bus.panels.map Panel.look
  now : t.now = s.now ∨ s.table.entries = []
  delayThreshold : t.inForce.delayThreshold = s.inForce.delayThreshold
  diversionHold : t.inForce.diversionHold = s.inForce.diversionHold

theorem State.Alike.refl (s : State) : s.Alike s := ⟨rfl, rfl, rfl, rfl, rfl, .inl rfl, rfl, rfl⟩

theorem State.Alike.trans {s t u : State} (h : s.Alike t) (k : t.Alike u) : s.Alike u := by
  refine ⟨k.entries.trans h.entries, k.displayable.trans h.displayable, k.records.trans h.records, k.wall.trans h.wall,
    k.panels.trans h.panels, ?_, k.delayThreshold.trans h.delayThreshold, k.diversionHold.trans h.diversionHold⟩
  obtain hk | hk := k.now
  · exact h.now.imp_left hk.trans
  · have := h.entries
    rw [hk] at this
    exact .inr (List.map_eq_nil_iff.1 this.symm)

@[simp] theorem Entry.look_displayed (e : Entry) : e.look.displayed = e.displayed := by
  unfold Entry.look
  generalize e.displayed = d
  cases d <;> rfl

@[simp] theorem Entry.look_run (e : Entry) : e.look.run = e.run := rfl

@[simp] theorem Entry.look_inService (e : Entry) : e.look.inService = e.inService := rfl

@[simp] theorem Entry.look_awaiting (e : Entry) : e.look.awaiting = e.awaiting := rfl

/-- Filters that read only what a projection keeps agree on lists that agree under it. -/
theorem filter_map_congr {α : Type} {f : α → α} {l l' : List α} (h : l'.map f = l.map f) {p q : α → Bool}
    (hp : ∀ a, p (f a) = p a) (hpq : ∀ a, q a = p a) : (l'.filter q).map f = (l.filter p).map f := by
  have hq : q = p := funext hpq
  have hpf : p ∘ f = p := funext hp
  have hl : ∀ k : List α, (k.filter p).map f = (k.map f).filter p := fun k => by rw [List.filter_map, hpf]
  rw [hq, hl, hl, h]

theorem find_map_congr {α : Type} {f : α → α} {l l' : List α} (h : l'.map f = l.map f) {p q : α → Bool}
    (hp : ∀ a, p (f a) = p a) (hpq : ∀ a, q a = p a) : (l'.find? q).map f = (l.find? p).map f := by
  have hq : q = p := funext hpq
  have hpf : p ∘ f = p := funext hp
  have hl : ∀ k : List α, (k.find? p).map f = (k.map f).find? p := fun k => by rw [List.find?_map, hpf]
  rw [hq, hl, hl, h]

theorem takeWhile_map_congr {α : Type} {f : α → α} {l l' : List α} (h : l'.map f = l.map f) {p : α → Bool}
    (hp : ∀ a, p (f a) = p a) : (l'.takeWhile p).map f = (l.takeWhile p).map f := by
  have hpf : p ∘ f = p := funext hp
  have hl : ∀ k : List α, (k.takeWhile p).map f = (k.map f).takeWhile p := fun k => by rw [List.takeWhile_map, hpf]
  rw [hl, hl, h]

theorem any_map_congr {α : Type} {f : α → α} {l l' : List α} (h : l'.map f = l.map f) {p q : α → Bool}
    (hp : ∀ a, p (f a) = p a) (hpq : ∀ a, q a = p a) : l'.any q = l.any p := by
  have hq : q = p := funext hpq
  have hpf : p ∘ f = p := funext hp
  have hl : ∀ k : List α, k.any p = (k.map f).any p := fun k => by rw [List.any_map, hpf]
  rw [hq, hl l', hl l, h]

/-- A reading of what a projection keeps. -/
theorem map_map_congr {α β : Type} {f : α → α} {l l' : List α} (h : l'.map f = l.map f) {g : α → β}
    (hg : ∀ a, g (f a) = g a) : l'.map g = l.map g := by
  have hgf : g ∘ f = g := funext hg
  have hl : ∀ k : List α, k.map g = (k.map f).map g := fun k => by rw [List.map_map, hgf]
  rw [hl l', hl l, h]

section alike

variable {s t : State}

theorem State.Alike.entry? (h : s.Alike t) (run : Nat) : (t.entry? run).map Entry.look = (s.entry? run).map Entry.look :=
  find_map_congr h.entries (fun _ => rfl) fun _ => rfl

theorem State.Alike.displayed (h : s.Alike t) : t.displayed.map Entry.look = s.displayed.map Entry.look := by
  unfold State.displayed
  rw [h.displayable]
  exact filter_map_congr h.entries (fun _ => rfl) fun _ => rfl

theorem State.Alike.nextAtPlatform (h : s.Alike t) (p : Nat) :
    (t.nextAtPlatform p).map Entry.look = (s.nextAtPlatform p).map Entry.look :=
  find_map_congr h.entries (fun _ => by simp) fun _ => rfl

theorem State.Alike.divertedFrom (h : s.Alike t) (hnow : t.now = s.now) (p : Nat) (e : Entry) :
    t.divertedFrom p e = s.divertedFrom p e := by
  unfold State.divertedFrom
  rw [h.diversionHold, hnow]
  exact congrArg _ (any_map_congr h.records (fun _ => rfl) fun _ => rfl)

theorem State.Alike.diversionEntry (h : s.Alike t) (p : Nat) :
    (t.diversionEntry p).map Entry.look = (s.diversionEntry p).map Entry.look := by
  obtain hnow | hnil := h.now
  · unfold State.diversionEntry
    exact find_map_congr (takeWhile_map_congr h.entries fun _ => by simp) (fun _ => by simp [State.divertedFrom]; rfl)
      (h.divertedFrom hnow p)
  · have hempty := h.entries
    rw [hnil] at hempty
    unfold State.diversionEntry
    rw [hnil, List.map_eq_nil_iff.1 hempty]
    rfl

theorem State.gateTag_look (s : State) (p : Nat) :
    s.gateTag p =
      match (s.diversionEntry p).map Entry.look with
      | some e => .diversion e.run e.rev
      | none =>
        match (s.nextAtPlatform p).map Entry.look with
        | some e => .gate e.run e.rev
        | none => .empty p := by
  unfold State.gateTag
  cases s.diversionEntry p with
  | some e => rfl
  | none => cases s.nextAtPlatform p <;> rfl

theorem State.Alike.gateTag (h : s.Alike t) (p : Nat) : t.gateTag p = s.gateTag p := by
  rw [State.gateTag_look, State.gateTag_look, h.diversionEntry, h.nextAtPlatform]

/-- The panel readings of the map and the gates. -/
theorem filterMap_look {β : Type} {l l' : List Panel} (h : l'.map Panel.look = l.map Panel.look) {f g : Panel → Option β}
    (hf : ∀ p : Panel, f p.look = f p) (hfg : ∀ p, g p = f p) : l'.filterMap g = l.filterMap f := by
  have hg : g = f := funext hfg
  have hl : ∀ k : List Panel, k.filterMap f = (k.map Panel.look).filterMap f := fun k => by
    rw [List.filterMap_map]
    exact List.filterMap_congr fun p _ => (hf p).symm
  rw [hg, hl l', hl l, h]

theorem State.Alike.freshRowMap (h : s.Alike t) : t.freshRowMap = s.freshRowMap := by
  have hrows : t.activeRows = s.activeRows := by
    unfold State.activeRows
    rw [filterMap_look h.panels (fun p => rfl) fun p => rfl]
  have hruns : t.displayed.map (·.run) = s.displayed.map (·.run) := map_map_congr h.displayed fun _ => rfl
  unfold State.freshRowMap
  rw [hrows, hruns]

theorem State.Alike.freshGates (h : s.Alike t) : t.freshGates = s.freshGates := by
  unfold State.freshGates
  refine filterMap_look h.panels (fun p => rfl) fun p => ?_
  cases p.role <;> simp [h.gateTag]

theorem State.Alike.posted (h : s.Alike t) : t.wall.posted.map Posted.look = s.wall.posted.map Posted.look :=
  congrArg Wall.posted h.wall

theorem State.Alike.freshItems (h : s.Alike t) : t.freshItems = s.freshItems := by
  have hposted : ∀ k, t.postedAt k = s.postedAt k := fun k =>
    map_map_congr (filter_map_congr h.posted (p := fun n => n.priority = k) (fun _ => rfl) fun _ => rfl) fun _ => rfl
  have hdelays := map_map_congr (g := fun e : Entry => Item.delay e.run)
    (filter_map_congr h.displayed (p := fun e => e.awaiting && s.inForce.delayThreshold ≤ e.dd) (fun _ => rfl) fun _ => rfl)
    fun _ => rfl
  unfold State.freshItems
  rw [hposted, hposted, hposted, hposted, h.delayThreshold]
  exact congrArg _ hdelays

theorem State.Alike.itemMark (h : s.Alike t) (i : Item) : t.itemMark i = s.itemMark i := by
  cases i with
  | note n =>
    have := congrArg (Option.map Posted.edition)
      (find_map_congr h.posted (p := fun m => m.number = n) (fun _ => rfl) fun _ => rfl)
    rwa [Option.map_map, Option.map_map] at this
  | delay run =>
    have := congrArg (Option.map Entry.rev) (h.entry? run)
    rwa [Option.map_map, Option.map_map] at this

/-- The notice shown is read from numbers, priorities and order alone (R111). -/
theorem Wall.shown_look (w : Wall) : w.look.shown = w.shown.map Posted.look := by
  have hfold : ∀ (l : List Posted) (b : Option Posted),
      (l.map Posted.look).foldl
          (fun best n => match best with
            | none => some n
            | some b => if n.number < b.number then some n else best) (b.map Posted.look) =
        (l.foldl
          (fun best n => match best with
            | none => some n
            | some b => if n.number < b.number then some n else best) b).map Posted.look := by
    intro l
    induction l with
    | nil => exact fun _ => rfl
    | cons n l ih =>
      intro b
      cases b with
      | none => exact ih (some n)
      | some b =>
        have hb : (if n.look.number < b.look.number then some n.look else some b.look) =
            (if n.number < b.number then some n else some b).map Posted.look :=
          (apply_ite (Option.map Posted.look) (n.number < b.number) (some n) (some b)).symm
        simp only [List.map_cons, List.foldl_cons, Option.map_some]
        rw [hb]
        exact ih _
  have hfilter : w.look.posted.filter (·.priority = 0) = (w.posted.filter (·.priority = 0)).map Posted.look := by
    show (w.posted.map Posted.look).filter _ = _
    rw [List.filter_map]
    rfl
  unfold Wall.shown
  rw [hfilter]
  exact hfold _ none

theorem State.Alike.desiredTag (h : s.Alike t) {p q : Panel} (hpq : q.look = p.look) :
    t.desiredTag q = s.desiredTag p := by
  obtain ⟨haddr, hrole, -⟩ := Panel.look_fields hpq
  obtain ⟨hrowMap, hgates, -, hcurrent, -, hcount, hmode, -⟩ := Wall.look_fields h.wall
  have hshown : t.wall.shown.map Posted.look = s.wall.shown.map Posted.look := by
    rw [← Wall.shown_look, h.wall, Wall.shown_look]
  have hnormal : t.normalTag q = s.normalTag p := by
    unfold State.normalTag
    rw [hrole, haddr, hrowMap, hgates, hcurrent, hcount]
    cases p.role with
    | row i =>
      dsimp only
      cases s.wall.rowMap.find? (·.1 = p.addr) with
      | none => rfl
      | some m =>
        have he := h.entry? m.2
        dsimp only [Option.bind_some]
        cases ht : t.entry? m.2 <;> cases hs : s.entry? m.2 <;> rw [ht, hs] at he <;> simp only [Option.map_none,
          Option.map_some, reduceCtorEq] at he
        · obtain ⟨hrun, hrev⟩ := Entry.look_fields (Option.some_inj.1 he)
          exact congrArg₂ Tag.row hrun hrev
    | gate g => rfl
    | banner => rfl
    | none => rfl
  have hconf : q.configured = p.configured := by simp [Panel.configured, hrole]
  unfold State.desiredTag
  rw [hconf, hmode, hnormal]
  split
  · split
    · rfl
    · rfl
    · cases ht : t.wall.shown <;> cases hs : s.wall.shown <;> rw [ht, hs] at hshown <;> simp only [Option.map_none,
        Option.map_some, reduceCtorEq] at hshown
      · obtain ⟨hnumber, hedition⟩ := Posted.look_fields (Option.some_inj.1 hshown)
        exact congrArg some (congrArg₂ Tag.notice hnumber hedition)
  · rfl

end alike

/-! ## The picture current -/

/-- Every desired tag, the row map, the gate choices and the rotation list are those formed afresh (R110 to R115, R121). -/
def State.Current (s : State) : Prop := s.DesiredCurrent ∧ s.PictureCurrent

theorem State.Current.alike {s t : State} (h : s.Current) (k : s.Alike t) : t.Current := by
  obtain ⟨hdesired, hmap, hgates, hitems, hmark⟩ := h
  obtain ⟨hrowMap, hgateChoice, hitemList, hcurrent, hwallMark, -, -, -⟩ := Wall.look_fields k.wall
  refine ⟨fun q hq => ?_, ?_, ?_, ?_, ?_⟩
  · have hmem : q.look ∈ s.bus.panels.map Panel.look := k.panels ▸ List.mem_map.2 ⟨q, hq, rfl⟩
    obtain ⟨p, hp, hpq⟩ := List.mem_map.1 hmem
    rw [k.desiredTag hpq.symm, ← hdesired p hp]
    exact (Panel.look_fields hpq).2.2.symm
  · rw [k.freshRowMap, ← hmap, hrowMap]
  · rw [k.freshGates, ← hgates, hgateChoice]
  · rw [k.freshItems, ← hitems, hitemList]
  · rw [hwallMark, hmark, hcurrent, funext k.itemMark]

theorem State.Current.marked {s : State} (h : s.Current) : s.wall.Marked := by
  intro hn
  obtain ⟨-, -, -, -, hmark⟩ := h
  rw [hmark, hn]
  rfl

/-! ## Composing -/

theorem State.rotate_sameMap (s : State) :
    s.rotate.wall.rowMap = s.wall.rowMap ∧ s.rotate.wall.gateChoice = s.wall.gateChoice ∧
      s.rotate.wall.posted = s.wall.posted := by
  simp only [State.rotate]
  repeat' split
  all_goals exact ⟨rfl, rfl, rfl⟩

/-- The marks are those of the items as the rotation finds them (R123). -/
theorem State.rotate_mark {s : State} (h : s.wall.Marked) :
    s.rotate.wall.mark = s.rotate.wall.current.bind s.itemMark := by
  unfold State.rotate
  dsimp only
  split
  · next hc _ => exact (h hc).trans (by simp [State.withWall, hc])
  · rfl
  · rfl
  · next c _ _ hc _ =>
    split
    · split
      · next hm => exact hm.trans (by simp [State.withWall, hc])
      · simp [State.withWall, hc]
    · rfl

theorem State.setDesired_look (s : State) : s.setDesired.activeRows = s.activeRows ∧
    s.setDesired.freshGates = s.freshGates := by
  constructor
  · unfold State.activeRows State.setDesired
    dsimp only
    rw [List.filterMap_map]
    rfl
  · unfold State.freshGates State.setDesired
    dsimp only
    rw [List.filterMap_map]
    rfl

/-- Composition leaves the picture current (R110 to R115, R121). -/
theorem State.compose_current {s : State} (h : s.wall.Marked) : s.compose.Current := by
  have hboard : s.remap.rotate.wall.posted = s.wall.posted := (State.rotate_sameMap _).2.2
  have htable : s.remap.rotate.table = s.table := by simp
  have htracker : s.remap.rotate.tracker = s.tracker := by simp
  have hbus : s.remap.rotate.bus = s.bus := by simp
  have htime : s.remap.rotate.time = s.time := State.time_of_sources (by simp)
  have hin : s.remap.rotate.inForce = s.inForce := State.inForce_of_sources (by simp)
  have hnow : s.remap.rotate.now = s.now := by unfold State.now State.elapsed; rw [htime, hin]
  have hdisplayed : s.remap.rotate.displayed = s.displayed := by unfold State.displayed; rw [htable]
  obtain ⟨hrows, hgates⟩ := State.setDesired_look s.remap.rotate
  have hgateTag : ∀ p, s.remap.rotate.gateTag p = s.gateTag p := fun p => by
    unfold State.gateTag State.diversionEntry State.nextAtPlatform State.divertedFrom
    rw [htable, htracker, hnow, hin]
  have hfreshGates : s.remap.rotate.freshGates = s.freshGates := by
    unfold State.freshGates
    rw [hbus]
    exact List.filterMap_congr fun p _ => by cases p.role <;> simp [hgateTag]
  have hfreshRows : s.remap.rotate.activeRows = s.activeRows := by unfold State.activeRows; rw [hbus]
  have hitemMark : ∀ i, s.remap.rotate.itemMark i = s.itemMark i := fun i => by
    unfold State.itemMark State.entry?
    rw [htable, hboard]
  refine ⟨fun q hq => ?_, ?_, ?_, ?_, ?_⟩
  · obtain ⟨p, -, rfl⟩ := List.mem_map.1 hq
    rfl
  · show s.remap.rotate.wall.rowMap = s.remap.rotate.setDesired.activeRows.zip (s.remap.rotate.displayed.map (·.run))
    rw [hrows, hfreshRows, hdisplayed]
    exact (State.rotate_sameMap _).1
  · show s.remap.rotate.wall.gateChoice = s.remap.rotate.setDesired.freshGates
    rw [hgates, hfreshGates]
    exact (State.rotate_sameMap _).2.1
  · show s.remap.rotate.wall.items = s.remap.rotate.freshItems
    rw [State.rotate_items]
    unfold State.freshItems State.postedAt
    rw [hboard, hdisplayed, hin]
    rfl
  · show s.remap.rotate.wall.mark = s.remap.rotate.wall.current.bind s.remap.rotate.itemMark
    rw [State.rotate_mark (s := s.remap) h]
    exact congrArg _ (funext fun i => (hitemMark i).symm)

theorem State.recompose_current {s : State} (h : s.wall.Marked) : s.recompose.Current :=
  State.compose_current ((State.evaluate_steady _).marked ((State.compose_steady _).marked h))

end Sys2Proof.Machine
end

section
/-! The state right after reset, and what a loss of power leaves of it (R191; log entry 13). -/
namespace Sys2Proof.Machine

open Sys2Proof

theorem State.reset_configOk : State.reset.ConfigOk :=
  ⟨Params.default_ok, Params.default_ok, Params.default_ok⟩

theorem State.reset_current : State.reset.Current := by
  unfold State.Current
  decide +kernel

theorem State.reset_attentionOk : State.reset.AttentionOk := by
  intro _ p
  cases p <;> rfl

theorem State.reset_bus : State.reset.PanelsOk ∧ State.reset.LevelsOk ∧ State.reset.BusOk := by decide +kernel

theorem State.reset_ports : State.reset.PortsOk := by decide +kernel

/-- Settles O60: each invariant read off the reset state. -/
theorem resetMeetsEveryInvariant : Obligations.ResetMeetsEveryInvariant := by
  unfold Obligations.ResetMeetsEveryInvariant
  obtain ⟨hdesired, hpicture⟩ := State.reset_current
  obtain ⟨hpanels, hlevels, hbus⟩ := State.reset_bus
  have htable : State.reset.TableOk ∧ State.reset.TimeOk ∧ State.reset.TrackerOk ∧ State.reset.RecordsNamed := by
    decide +kernel
  have hcues : State.reset.CuesOk ∧ State.reset.SpeechOk ∧ State.reset.CuesNamed := by decide +kernel
  have hwall : State.reset.WallOk := by decide +kernel
  have hlines : State.reset.SenseOk ∧ State.reset.LinesOk := by decide +kernel
  have hfault : ∀ l ∈ State.reset.lines, l.state = .fault := by decide +kernel
  obtain ⟨htable, htime, htracker, hnamed⟩ := htable
  obtain ⟨hcues, hspeech, hcuesNamed⟩ := hcues
  obtain ⟨hsense, hlines⟩ := hlines
  exact ⟨State.reset_configOk, htable, htime, htracker, hcues, hspeech, hdesired, hpicture, State.reset_attentionOk, hnamed,
    hcuesNamed, hwall, hlevels, hpanels, hbus, hsense, hlines, State.reset_ports, rfl, rfl, rfl, hfault, rfl⟩

end Sys2Proof.Machine
end

section
/-! What every command keeps of the panels, the bus, the attention lines and the picture, from how it ends (R106, R110,
R139, R187). -/
namespace Sys2Proof.Machine

open Sys2Proof

/-! ## Changes that the picture does not read -/

theorem State.dispatch_alike (s : State) : s.Alike s.dispatch := by
  have hpanels : ∀ (p : Panel) (n : Option Nat) (u : State), u.Alike (u.startExchange p n) := fun p n u => by
    refine ⟨rfl, rfl, rfl, rfl, ?_, .inl rfl, rfl, rfl⟩
    apply map_updWhere Panel.look
    exact fun _ => rfl
  unfold State.dispatch
  split
  · exact .refl s
  · split
    · refine State.Alike.trans ?_ (hpanels _ _ _)
      exact ⟨rfl, rfl, rfl, rfl, rfl, .inl rfl, rfl, rfl⟩
    · dsimp only
      split
      · refine State.Alike.trans ?_ (hpanels _ _ _)
        exact ⟨rfl, rfl, rfl, rfl, rfl, .inl rfl, rfl, rfl⟩
      · exact ⟨rfl, rfl, rfl, rfl, rfl, .inl rfl, rfl, rfl⟩

theorem State.settleAttention_alike (s : State) : s.Alike s.settleAttention :=
  ⟨rfl, rfl, rfl, rfl, rfl, .inl rfl, rfl, rfl⟩

theorem State.finish_alike (s old : State) : s.Alike (s.finish old) := by
  refine State.Alike.trans ?_ (State.settleAttention_alike _)
  unfold State.serve
  split
  · exact State.dispatch_alike s
  · exact .refl s

theorem State.post_alike (names : List PortId) (k : NoticeKind) (x : Subject) (s : State) : s.Alike (s.post names k x) := by
  refine ⟨by rw [State.post_table], by rw [State.post_table], by rw [State.post_tracker], by rw [State.post_wall],
    by rw [State.post_bus], .inl ?_, by rw [State.post_inForce], by rw [State.post_inForce]⟩
  unfold State.now State.elapsed
  rw [State.post_time, State.post_inForce]

theorem State.updPanel_alike (addr : Nat) {f : Panel → Panel} (h : ∀ p, (f p).look = p.look) (s : State) :
    s.Alike (s.updPanel addr f) :=
  ⟨rfl, rfl, rfl, rfl, map_updWhere Panel.look _ f h _, .inl rfl, rfl, rfl⟩

theorem State.writeLevels_alike (q : Panel → Bool) (s : State) : s.Alike (s.writeLevels q) := by
  refine ⟨rfl, rfl, rfl, rfl, ?_, .inl rfl, rfl, rfl⟩
  apply map_updWhere Panel.look
  exact fun _ => rfl

theorem State.failPanel_current {s : State} (h : s.wall.Marked) (addr : Nat) : (s.failPanel addr).Current := by
  unfold State.failPanel
  dsimp only
  refine State.Current.alike ?_ (State.post_alike ..)
  refine State.recompose_current ?_
  exact ((State.updPanel_onLine addr (fun p => { p with state := .failed, ec := 0, goodRun := 0 }) s).trans
    (State.waiveRows_steady addr _).onLine).marked h

theorem State.failPanels_current (addrs : List Nat) : ∀ s : State, s.Current →
    (addrs.foldl (fun t a => t.failPanel a) s).Current := by
  induction addrs with
  | nil => exact fun _ h => h
  | cons a addrs ih => exact fun s h => ih _ (State.failPanel_current h.marked a)

theorem State.monitor_current {s : State} (h : s.Current) (q : Panel) : (s.monitor q).Current := by
  unfold State.monitor
  dsimp only
  split
  · split
    · exact State.failPanel_current h.marked _
    · refine h.alike (State.updPanel_alike q.addr ?_ s)
      exact fun _ => rfl
  · exact h

theorem State.monitorAll_current (l : List Panel) : ∀ s : State, s.Current → (l.foldl State.monitor s).Current := by
  induction l with
  | nil => exact fun _ h => h
  | cons q l ih => exact fun s h => ih _ (State.monitor_current h q)

theorem State.endInterval_current {s : State} (h : s.Current) : s.endInterval.Current := by
  refine State.Current.alike ?_ (State.finish_alike _ s)
  have hall := State.monitorAll_current s.bus.panels s h
  refine hall.alike ⟨rfl, rfl, rfl, rfl, ?_, .inl rfl, rfl, rfl⟩
  exact (List.map_map ..).trans (List.map_congr_left fun _ _ => rfl)

theorem State.endExchange_current {s : State} (h : s.Current) (x : Exchange) (o : Outcome) :
    (s.endExchange x o).Current := by
  rw [State.endExchange_eq]
  refine State.Current.alike ?_ (State.settleAttention_alike _)
  refine State.Current.alike ?_ (State.dispatch_alike _)
  refine State.recompose_current ?_
  unfold State.outcomeActed
  split
  · exact h.marked
  · have hact := (State.actOn_onLine x o (s.exchangeEnded x o)).marked h.marked
    unfold State.reappendUrgent
    split
    · exact hact
    · split <;> exact hact
    · exact hact

theorem State.classifyChannels_alike (s : State) : s.Alike s.classifyChannels := by
  have hfold : ∀ (l : List Nat) (u : State), u.Alike (l.foldl (fun t n => t.post [.planning] .sensorFault (.light n)) u) := by
    intro l
    induction l with
    | nil => exact fun u => .refl u
    | cons n l ih => exact fun u => (State.post_alike ..).trans (ih _)
  unfold State.classifyChannels
  dsimp only
  refine State.Alike.trans ?_ (hfold _ _)
  exact ⟨rfl, rfl, rfl, rfl, rfl, .inl rfl, rfl, rfl⟩

theorem State.endPass_alike (s : State) : s.Alike s.endPass := by
  refine (State.classifyChannels_alike s).trans ?_
  refine State.Alike.trans (t := s.classifyChannels.computeZones) ?_ ⟨rfl, rfl, rfl, rfl, rfl, .inl rfl, rfl, rfl⟩
  unfold State.computeZones
  dsimp only
  refine State.Alike.trans ?_ (State.writeLevels_alike _ _)
  exact ⟨rfl, rfl, rfl, rfl, rfl, .inl rfl, rfl, rfl⟩

theorem State.beginPass_alike (s : State) : s.Alike s.beginPass := by
  unfold State.beginPass
  dsimp only
  split
  · exact State.endPass_alike s
  · split <;> exact ⟨rfl, rfl, rfl, rfl, rfl, .inl rfl, rfl, rfl⟩

theorem State.takeReading_alike (channel value : Nat) (s : State) : s.Alike (s.takeReading channel value) := by
  unfold State.takeReading
  dsimp only
  split
  · exact ⟨rfl, rfl, rfl, rfl, rfl, .inl rfl, rfl, rfl⟩
  · refine State.Alike.trans ?_ (State.Alike.trans (State.endPass_alike _) ⟨rfl, rfl, rfl, rfl, rfl, .inl rfl, rfl, rfl⟩)
    exact ⟨rfl, rfl, rfl, rfl, rfl, .inl rfl, rfl, rfl⟩

/-! ## The attention lines -/

theorem State.settleAttention_attentionOk (s : State) : s.settleAttention.AttentionOk := by
  intro _ p
  cases p <;> rfl

theorem State.finish_attentionOk (s old : State) : (s.finish old).AttentionOk := State.settleAttention_attentionOk _

/-- The attention lines hang on the notice lists and the cues alone (R106, R187). -/
theorem State.AttentionOk.of_cues {s t : State} (h : s.AttentionOk) (hpow : t.powered = s.powered)
    (hcues : t.cues = s.cues) (hnotices : ∀ p, (t.port p).notices = (s.port p).notices)
    (hattention : ∀ p, (t.port p).attention = (s.port p).attention) : t.AttentionOk := by
  intro hp p
  rw [hattention, h (hpow ▸ hp) p]
  have heligible : t.eligible = s.eligible := by
    funext c
    unfold State.eligible State.zoneBusy State.zoneClosed
    rw [hcues]
  have hannounce : t.ports.announcement.notices = s.ports.announcement.notices := hnotices .announcement
  cases p with
  | announcement =>
    unfold State.wantsAttention
    rw [hcues, heligible, hannounce]
  | planning => exact congrArg (fun l : List Notice => !l.isEmpty) (hnotices .planning).symm
  | signalling => exact congrArg (fun l : List Notice => !l.isEmpty) (hnotices .signalling).symm

/-! ## What a command keeps -/

/-- The premises under which a step keeps the picture current. -/
def State.Ordered (s : State) : Prop := s.ConfigOk ∧ s.TableOk ∧ s.TimeOk

/-- What every command keeps of the panels, the levels, the bus, the attention lines and the picture. -/
structure State.Sound (s t : State) : Prop where
  panels : s.ConfigOk → s.PanelsOk → t.PanelsOk
  levels : s.ConfigOk → s.PanelsOk → s.LevelsOk → t.LevelsOk
  bus : s.BusOk → t.BusOk
  attention : s.Ordered → s.AttentionOk → t.AttentionOk
  current : s.Ordered → s.Current → t.Current

theorem State.Sound.refl (s : State) : s.Sound s := ⟨fun _ => id, fun _ _ => id, id, fun _ => id, fun _ => id⟩

/-- From `s` to `t`, ahead of the end of a command: the panel records, the zones and the exchange in flight stand, the urgent
list keeps its form, and so does the mark of the rotation. -/
structure State.Base (s t : State) : Prop where
  records : t.records = s.records
  zones : t.sense.zones = s.sense.zones
  failThreshold : t.inForce.failThreshold = s.inForce.failThreshold
  line : s.OnLine t

theorem State.Base.refl (s : State) : s.Base s := ⟨rfl, rfl, rfl, .refl s⟩

theorem State.Base.trans {s t u : State} (h : s.Base t) (k : t.Base u) : s.Base u :=
  ⟨k.records.trans h.records, k.zones.trans h.zones, k.failThreshold.trans h.failThreshold, h.line.trans k.line⟩

theorem State.Steady.base {s t : State} (h : s.Steady t) (hs : t.sources = s.sources) : s.Base t :=
  ⟨h.records, by rw [State.sense_of_sources hs], by rw [State.inForce_of_sources hs], h.onLine⟩

theorem State.Steady.base' {s t : State} (h : s.Steady t) (hs : t.sense = s.sense) (hin : t.inForce = s.inForce) :
    s.Base t := ⟨h.records, by rw [hs], by rw [hin], h.onLine⟩

theorem State.Base.kept {s t : State} (h : s.Base t) (T : Nat) : State.PanelsKept T s t := .of_records h.records h.zones

/-- A command that ends with a dispatch decision where one is due and the attention lines. -/
theorem State.Sound.finish {s v : State} (h : s.Base v) (hcurrent : s.Ordered → s.Current → v.Current) (old : State) :
    s.Sound (v.finish old) := by
  have hkept : ∀ T, State.PanelsKept T s (v.finish old) := fun T => (h.kept T).trans (State.finish_dimmed v old T)
  have hT : (v.finish old).inForce.failThreshold = s.inForce.failThreshold := by
    rw [State.inForce_of_sources (State.finish_sources v old), h.failThreshold]
  exact ⟨fun _ hp => (hkept _).panelsOk hp hT, fun _ _ hl => (hkept 0).levelsOk hl,
    fun hb => State.finish_busOk (((State.busOk_iff s).1 hb).1.onLine h.line) old, fun _ _ => State.finish_attentionOk v old,
    fun ho hc => (hcurrent ho hc).alike (State.finish_alike v old)⟩

/-- A command that ends with the recomputation of the picture. -/
theorem State.Sound.settle {s v : State} (h : s.Base v) (old : State) : s.Sound (v.settle old) := by
  have hbase : s.Base v.recompose :=
    h.trans ((State.recompose_steady v).base (State.recompose_sources v))
  exact State.Sound.finish hbase (fun _ hc => State.recompose_current (h.line.marked hc.marked)) old

/-- A command that leaves the bus alone and moves nothing that the picture reads. -/
theorem State.Sound.of_alike {s t : State} (hbus : t.bus = s.bus) (hzones : t.sense.zones = s.sense.zones)
    (hT : t.inForce.failThreshold = s.inForce.failThreshold) (hattention : s.Ordered → s.AttentionOk → t.AttentionOk)
    (halike : s.Ordered → s.Alike t) : s.Sound t := by
  have hkept : ∀ T, State.PanelsKept T s t := fun T => .of_records (State.records_of_bus hbus) hzones
  exact ⟨fun _ hp => (hkept _).panelsOk hp hT, fun _ _ hl => (hkept 0).levelsOk hl,
    fun hb => by unfold State.BusOk; rw [hbus]; exact hb, hattention, fun ho hc => hc.alike (halike ho)⟩

/-- A command that leaves every block of the picture alone. -/
theorem State.Sound.of_blocks {s t : State} (hbus : t.bus = s.bus) (hzones : t.sense.zones = s.sense.zones)
    (hin : t.inForce = s.inForce) (htable : t.table = s.table) (htracker : t.tracker = s.tracker) (hwall : t.wall = s.wall)
    (hnow : t.now = s.now) (hattention : s.AttentionOk → t.AttentionOk) : s.Sound t :=
  .of_alike hbus hzones (by rw [hin]) (fun _ => hattention) fun _ =>
    ⟨by rw [htable], by rw [htable], by rw [htracker], by rw [hwall], by rw [hbus], .inl hnow, by rw [hin], by rw [hin]⟩

theorem State.answerTel_sound {s u : State} (h : s.Sound u) (p : PortId) (tel : Tel) (a : Answer) :
    s.Sound (u.answerTel p tel a) := by
  have hattention : u.AttentionOk → (u.answerTel p tel a).AttentionOk := fun k =>
    k.of_cues rfl rfl (fun q => by cases p <;> cases q <;> rfl) fun q => by cases p <;> cases q <;> rfl
  exact ⟨h.panels, h.levels, h.bus, fun ho hs => hattention (h.attention ho hs),
    fun ho hs => (h.current ho hs).alike ⟨rfl, rfl, rfl, rfl, rfl, .inl rfl, rfl, rfl⟩⟩

theorem State.Sound.takeWith {α : Type} {done : State → Answer → Answer} {p : PortId} {k : Kind}
    {read : List Octet → Option α} {owner : α → State → State × Answer} {s t : State}
    (h : s.takeWith done p k read owner = .next t) (howner : ∀ f, s.Sound (owner f s).1) : s.Sound t :=
  State.takeWith_rel (R := s.Sound) h (.refl s) (fun _ _ _ hu => State.answerTel_sound hu ..) howner

theorem State.Sound.takeTel {α : Type} {p : PortId} {k : Kind} {read : List Octet → Option α}
    {owner : α → State → State × Answer} {s t : State} (h : s.takeTel p k read owner = .next t)
    (howner : ∀ f, s.Sound (owner f s).1) : s.Sound t := State.Sound.takeWith h howner

theorem State.Sound.answer {s t u : State} (h : s.answer u = .next t) (hu : s.Sound u) : s.Sound t :=
  State.answer_rel h (.refl s) hu

theorem State.Sound.answer_ite {s t u : State} {c : Prop} [Decidable c] (h : s.answer (if c then u else s) = .next t)
    (hu : c → s.Sound u) : s.Sound t := State.answer_ite_rel h (.refl s) hu

end Sys2Proof.Machine
end

section
/-! What the telegrams of the departure table keep of the panels, the bus, the attention lines and the picture (R13 to R34,
R106, R110, R187). -/
namespace Sys2Proof.Machine

open Sys2Proof

/-! ## A change that shows nothing -/

theorem sortEntries_of_sorted {l : List Entry} (h : l.Pairwise fun a b => keyLt a b = true) : sortEntries l = l := by
  induction l with
  | nil => rfl
  | cons e l ih =>
    obtain ⟨hfirst, hrest⟩ := List.pairwise_cons.1 h
    show insertEntry e (sortEntries l) = e :: l
    rw [ih hrest]
    cases l with
    | nil => rfl
    | cons x l => exact if_pos (hfirst x List.mem_cons_self)

/-- The entry of a run is the only one of that run (R2). -/
theorem State.TableOk.unique {s : State} (h : s.TableOk) {e : Entry} {run : Nat} (he : s.entry? run = some e) {x : Entry}
    (hx : x ∈ s.table.entries) (hrun : x.run = run) : x = e := by
  have herun : e.run = run := by simpa using List.find?_some he
  exact List.inj_on_of_nodup_map h.2.1 hx (List.mem_of_find?_eq_some he) (hrun.trans herun.symm)

/-- An entry replaced by one of the same key keeps the order (R2). -/
theorem State.TableOk.put_sorted {s : State} (h : s.TableOk) {old new : Entry} (hold : s.entry? old.run = some old)
    (hrun : new.run = old.run) (hsched : new.sched = old.sched) (hexp : new.exp = old.exp) :
    sortEntries (updWhere (·.run = old.run) (fun _ => new) s.table.entries) =
      updWhere (·.run = old.run) (fun _ => new) s.table.entries := by
  refine sortEntries_of_sorted (List.pairwise_map.2 (h.1.imp_of_mem fun {a b} ha hb hab => ?_))
  have hkey : ∀ x ∈ s.table.entries, (if decide (x.run = old.run) = true then new else x).run = x.run ∧
      (if decide (x.run = old.run) = true then new else x).sched = x.sched ∧
        (if decide (x.run = old.run) = true then new else x).exp = x.exp := by
    intro x hx
    split
    · next hxr =>
      rw [h.unique hold hx (of_decide_eq_true hxr)]
      exact ⟨hrun, hsched, hexp⟩
    · exact ⟨rfl, rfl, rfl⟩
  obtain ⟨har, has, hae⟩ := hkey a ha
  obtain ⟨hbr, hbs, hbe⟩ := hkey b hb
  unfold keyLt at hab ⊢
  rw [har, has, hae, hbr, hbs, hbe]
  exact hab

theorem State.TableOk.put_look {s : State} (h : s.TableOk) {old new : Entry} (hold : s.entry? old.run = some old)
    (hlook : new.look = old.look) :
    (updWhere (·.run = old.run) (fun _ => new) s.table.entries).map Entry.look = s.table.entries.map Entry.look := by
  unfold updWhere
  rw [List.map_map]
  refine List.map_congr_left fun x hx => ?_
  dsimp only [Function.comp_apply]
  split
  · next hxr => rw [h.unique hold hx (of_decide_eq_true hxr), hlook]
  · rfl

theorem Entry.sameShown_fields {a b : Entry} (h : a.sameShown b = true) :
    a.sched = b.sched ∧ a.displayed = b.displayed ∧ a.dd = b.dd ∧ a.state = b.state := by
  simp only [Entry.sameShown, Bool.and_eq_true, decide_eq_true_eq] at h
  obtain ⟨⟨⟨⟨⟨⟨-, hsched⟩, hdisplayed⟩, hdd⟩, hstate⟩, -⟩, -⟩ := h
  exact ⟨hsched, hdisplayed, hdd, hstate⟩

theorem Entry.look_of_sameShown {a b : Entry} (h : a.sameShown b = true) (hrun : b.run = a.run) (hrev : b.rev = a.rev) :
    b.look = a.look := by
  obtain ⟨-, hdisplayed, hdd, hstate⟩ := Entry.sameShown_fields h
  unfold Entry.look
  rw [hdisplayed, hdd, hstate, hrun, hrev]

theorem State.trigger_bus (kind : CueKind) (run : Nat) (zones : List Nat) (due : Int) (s : State) :
    (s.trigger kind run zones due).bus = s.bus := by
  unfold State.trigger State.postDropped
  split
  · rfl
  · split
    · rfl
    · split
      · rw [State.appendCue_bus, State.post_bus]
        rfl
      · exact State.post_bus ..

theorem State.cueHandover_bus (old : Option Entry) (e : Entry) (s : State) : (s.cueHandover old e).bus = s.bus := by
  have hfinal : ∀ u : State, (u.handoverFinal old e).bus = u.bus := fun u => by
    unfold State.handoverFinal
    dsimp only
    split
    · exact State.trigger_bus ..
    · split
      · exact State.trigger_bus ..
      · rfl
  have hcalled : ∀ (c : Prop) [Decidable c] (u : State) (kind : CueKind) (run : Nat) (zones : List Nat) (due : Int),
      (if c then u.trigger kind run zones due else u).bus = u.bus := fun c _ u kind run zones due => by
    split
    · exact State.trigger_bus ..
    · rfl
  unfold State.cueHandover
  dsimp only
  rw [hfinal, hcalled, hcalled]
  rfl

section silent

variable {s : State} {old new : Entry}

/-- A change that shows nothing is a change of the entry and at most a handover of its due points (R5, R38). -/
theorem State.changeEntry_bus_of_sameShown (h : old.sameShown new = true) : (s.changeEntry old new).1.bus = s.bus := by
  obtain ⟨-, hdisplayed, -, hstate⟩ := Entry.sameShown_fields h
  have hput : (s.putEntry old new).bus = s.bus := by
    unfold State.putEntry
    dsimp only
    split <;> rfl
  unfold State.changeEntry Entry.counted
  rw [if_pos h]
  dsimp only
  rw [if_pos hdisplayed, if_pos hstate]
  split
  · exact hput
  · exact (State.cueHandover_bus ..).trans hput

theorem State.changeEntry_eq_of_sameShown (h : old.sameShown new = true) (hexp : new.exp = old.exp) :
    (s.changeEntry old new).1 = s.withEntries (updWhere (·.run = old.run) (fun _ => new) s.table.entries) := by
  obtain ⟨-, hdisplayed, hdd, hstate⟩ := Entry.sameShown_fields h
  unfold State.changeEntry Entry.counted State.putEntry
  rw [if_pos h]
  dsimp only
  rw [if_pos hdisplayed, if_pos hstate, if_pos ⟨hdd, hexp.symm⟩, if_pos ⟨hstate, hexp.symm⟩]

theorem Entry.Ok.exp_of_sameShown {confirm : Nat} (h : old.sameShown new = true) (hold : old.Ok confirm)
    (hnew : new.Ok confirm) : new.exp = old.exp := by
  obtain ⟨hsched, -, hdd, -⟩ := Entry.sameShown_fields h
  rw [hnew.1, hold.1, hsched, hdd]

theorem State.Ordered.one_le_confirm (h : s.Ordered) : 1 ≤ s.inForce.confirm := h.1.1.one_le_confirm

theorem State.Ordered.entry_ok (h : s.Ordered) (hold : s.entry? old.run = some old) : old.Ok s.inForce.confirm :=
  h.2.1.2.2.2 old (List.mem_of_find?_eq_some hold)

/-- An entry changed in what is not shown leaves the picture as it is (R5). -/
theorem State.changeEntry_silent {out : Option Nat} (hold : s.entry? old.run = some old)
    (h : old.Replaces out s.inForce.confirm new) (hrev : new.rev = old.rev) (hsame : old.sameShown new = true) :
    s.Sound (s.changeEntry old new).1 := by
  have heq : s.Ordered → (s.changeEntry old new).1 =
      s.withEntries (updWhere (·.run = old.run) (fun _ => new) s.table.entries) := fun ho =>
    State.changeEntry_eq_of_sameShown hsame
      (Entry.Ok.exp_of_sameShown hsame (ho.entry_ok hold) (h.ok ho.one_le_confirm (ho.entry_ok hold)))
  refine .of_alike (State.changeEntry_bus_of_sameShown hsame) ?_ ?_ (fun ho hs => ?_) fun ho => ?_
  · rw [State.sense_of_sources (State.changeEntry_sources ..)]
  · rw [State.inForce_of_sources (State.changeEntry_sources ..)]
  · rw [heq ho]
    exact hs.of_cues rfl rfl (fun _ => rfl) fun _ => rfl
  · rw [heq ho]
    refine ⟨?_, rfl, rfl, rfl, rfl, .inl rfl, rfl, rfl⟩
    have hexp := Entry.Ok.exp_of_sameShown hsame (ho.entry_ok hold) (h.ok ho.one_le_confirm (ho.entry_ok hold))
    show (sortEntries _).map Entry.look = _
    rw [ho.2.1.put_sorted hold h.run (Entry.sameShown_fields hsame).1.symm hexp]
    exact ho.2.1.put_look hold (Entry.look_of_sameShown hsame h.run hrev)

theorem Entry.transition_rev (p : Params) (now : Int) (e : Entry) : (e.transition p now).rev = e.rev := by
  unfold Entry.transition
  repeat' split
  all_goals rfl

theorem State.retest_rev : (s.retest old new).rev = new.rev := by
  unfold State.retest
  split
  · rfl
  · exact Entry.transition_rev ..

theorem Entry.recompute_rev (hysteresis : Nat) (e : Entry) : (e.recompute hysteresis).rev = e.rev := by
  unfold Entry.recompute
  dsimp only
  split <;> rfl

theorem State.amendEntry_sound {out : Option Nat} (hold : s.entry? old.run = some old)
    (h : old.Replaces out s.inForce.confirm new) (hrev : new.rev = old.rev) : s.Sound (s.amendEntry old new).1 := by
  unfold State.amendEntry
  split
  · exact .refl s
  · dsimp only
    split
    · next hsame => exact State.changeEntry_silent hold (h.retest s) (State.retest_rev.trans hrev) hsame
    · exact .settle ((State.changeEntry_steady ..).base (State.changeEntry_sources ..)) s

/-- The filter of an entry replaced with no stage run (R30). -/
theorem State.updFilter_sound (hold : s.entry? old.run = some old) (g : Filter) :
    s.Sound (s.updEntry old.run fun _ => { old with filter := g }) := by
  refine .of_alike rfl rfl rfl (fun _ hs => hs.of_cues rfl rfl (fun _ => rfl) fun _ => rfl) fun ho => ?_
  refine ⟨?_, rfl, rfl, rfl, rfl, .inl rfl, rfl, rfl⟩
  exact ho.2.1.put_look hold rfl

theorem State.refilter_sound (hold : s.entry? old.run = some old) (hin : old.inService = true) {g : Filter}
    (hg : 1 ≤ s.inForce.confirm → old.filter.Ok s.inForce.confirm → g.Ok s.inForce.confirm) (runs : Bool) :
    s.Sound (s.refilter old g runs) := by
  have hkeep : old.Keeps s.inForce.confirm { old with filter := g } :=
    ⟨rfl, rfl, rfl, rfl, rfl, fun hc h => (Entry.ok_iff _ _).2
      ⟨h.1, h.2.1, h.2.2.1, hg hc ((Entry.ok_iff _ _).1 h).2.2.2⟩⟩
  unfold State.refilter
  dsimp only
  split
  · exact State.amendEntry_sound (out := none) hold ((hkeep.replaces hin).recompute _) (Entry.recompute_rev ..)
  · exact State.updFilter_sound hold g

theorem State.predict_sound (hold : s.entry? old.run = some old) (hin : old.inService = true) (n : Int) :
    s.Sound (s.predict old n) :=
  State.refilter_sound hold hin (fun hc h => h.take hc (roundPrediction_le n)) _

end silent

/-! ## The owners of the table -/

section owners

variable (s : State)

theorem planOwner_sound (f : PlanFields) : s.Sound (planOwner f s).1 := by
  unfold planOwner
  split
  · exact .refl s
  · split
    · exact .refl s
    · refine .settle (State.Steady.base ?_ ?_) s
      · refine State.Steady.trans ?_ (State.cueHandover_steady ..)
        exact .of_blocks rfl rfl rfl
      · rw [State.cueHandover_sources]
        rfl

theorem amndOwner_sound (f : AmndFields) : s.Sound (amndOwner f s).1 := by
  refine State.onEntry_rel (R := s.Sound) (.refl s) fun e he _ hin => ?_
  dsimp only [State.acceptRevision]
  split
  · exact .refl s
  · exact State.amendEntry_sound (out := none) he (Entry.amend_replaces hin ..) rfl

theorem dlayOwner_sound (f : DlayFields) : s.Sound (dlayOwner f s).1 := by
  refine State.onEntry_rel (R := s.Sound) (.refl s) fun e he _ hin => ?_
  obtain ⟨hr, hrec, hstate, hdisp, hok⟩ := Entry.delay_fields f e
  have hreplace : e.Replaces none s.inForce.confirm (e.delay f) :=
    ⟨hr, hrec, ⟨Entry.inService_not_retiring hin, hstate ▸ Entry.inService_not_retiring hin⟩,
      fun h => .inl (by rwa [Entry.inService, hstate]), fun _ h => hok _ h⟩
  refine State.amendEntry_sound he (hreplace.recompute _) ((Entry.recompute_rev ..).trans ?_)
  unfold Entry.delay
  split <;> rfl

theorem State.cancelEntry_sound (e : Entry) (reason : Option Text) : s.Sound (s.cancelEntry e reason) := by
  unfold State.cancelEntry
  refine .settle ?_ s
  refine ((State.changeEntry_steady ..).trans ((State.voidRecord_steady ..).trans ((State.withdrawWhere_steady ..).trans
    ((State.trigger_steady ..).trans (State.appendUrgent_steady ..))))).base ?_
  simp

theorem cancOwner_sound (f : CancFields) : s.Sound (cancOwner f s).1 := by
  refine State.onEntry_rel (R := s.Sound) (.refl s) fun e he _ hallowed => ?_
  have hstate : e.state ≠ .departed ∧ e.state ≠ .retiring := by simpa using hallowed
  dsimp only [State.acceptRevision]
  split
  · exact State.amendEntry_sound (out := none) he ⟨rfl, rfl, ⟨hstate.2, hstate.2⟩, fun h => .inl h, fun _ h => h⟩ rfl
  · exact State.cancelEntry_sound s e _

theorem State.reinstate_sound (e : Entry) : s.Sound (s.reinstate e) := by
  unfold State.reinstate
  refine .settle ?_ s
  refine ((State.withdrawWhere_steady ..).trans (State.changeEntry_steady ..)).base ?_
  rw [State.changeEntry_sources]
  rfl

theorem rinsOwner_sound (run : Nat) : s.Sound (rinsOwner run s).1 := by
  refine State.onEntry_rel (R := s.Sound) (.refl s) fun e he _ _ => ?_
  dsimp only [State.acceptRevision]
  split
  · exact State.reinstate_sound s e
  · exact .refl s

theorem platOwner_sound (f : PlatFields) : s.Sound (platOwner f s).1 := by
  refine State.onEntry_rel (R := s.Sound) (.refl s) fun e he _ hin => ?_
  exact State.amendEntry_sound (out := none) he
    ⟨rfl, rfl, ⟨Entry.inService_not_retiring hin, Entry.inService_not_retiring hin⟩, fun h => .inl h, fun _ h => h⟩ rfl

theorem predOwner_sound (f : PredFields) : s.Sound (predOwner f s).1 := by
  refine State.onEntry_rel (R := s.Sound) (.refl s) fun e he _ hin => ?_
  dsimp only [State.acceptRevision]
  split
  · exact State.refilter_sound he hin (fun _ _ => Filter.empty_ok _) _
  · exact State.predict_sound he hin _

theorem rdysOwner_sound (run : Nat) : s.Sound (rdysOwner run s).1 := by
  refine State.onEntry_rel (R := s.Sound) (.refl s) fun e he _ hin => ?_
  exact State.amendEntry_sound (out := none) he
    ⟨rfl, rfl, ⟨Entry.inService_not_retiring hin, nofun⟩, fun _ => .inl rfl, fun _ h => h⟩ rfl

theorem deptOwner_sound (run : Nat) : s.Sound (deptOwner run s).1 := by
  refine State.onEntry_rel (R := s.Sound) (.refl s) fun e he _ _ => ?_
  dsimp only [State.acceptRevision]
  split
  · exact .refl s
  · unfold State.departEntry
    refine .settle (((State.changeEntry_steady ..).trans (State.voidRecord_steady ..)).base ?_) s
    simp

/-- A prediction older than the stale limit cleared (R32). -/
theorem State.clearFilter_sound (run : Nat) : s.Sound ((s.clearFilter run).finish s) := by
  refine .finish ((State.clearFilter_steady run s).base (State.clearFilter_sources ..)) (fun ho hs => ?_) s
  unfold State.clearFilter
  split
  · next e he =>
    dsimp only
    split
    · exact State.recompose_current ((State.changeEntry_steady ..).marked hs.marked)
    · have hrun : e.run = run := by simpa using List.find?_some he
      rw [← hrun] at he ⊢
      exact (State.updFilter_sound he Filter.empty).current ho hs
  · exact hs

end owners

end Sys2Proof.Machine
end

section
/-! What the commands of the other blocks keep of the panels, the bus, the attention lines and the picture, operation by
operation (R106, R110, R130, R139, R187). -/
namespace Sys2Proof.Machine

open Sys2Proof

/-! ## A running time moved on first -/

section atMs

variable {s t : State} {ms : Nat}

theorem State.atMs_ordered (h : s.Ordered) : (s.atMs ms).Ordered := by
  obtain ⟨hconf, htable, hclock, hlo, hhi, hsub, hrest⟩ := h
  exact ⟨hconf, htable, hclock, hlo, hhi, (State.atMs_stands ms s).subMs hsub, hrest⟩

theorem State.atMs_alike : s.Alike (s.atMs ms) := ⟨rfl, rfl, rfl, rfl, rfl, .inl rfl, rfl, rfl⟩

theorem State.Sound.atMs (h : (s.atMs ms).Sound t) : s.Sound t :=
  ⟨h.panels, h.levels, h.bus,
    fun ho hs => h.attention (State.atMs_ordered ho) (hs.of_cues rfl rfl (fun _ => rfl) fun _ => rfl),
    fun ho hs => h.current (State.atMs_ordered ho) (hs.alike State.atMs_alike)⟩

end atMs

section operations

variable (s : State)

/-! ## The wall -/

theorem State.endNoticeMode_base : s.Base s.endNoticeMode := by
  unfold State.endNoticeMode
  split
  · exact ⟨rfl, rfl, rfl, rfl, id, id⟩
  · exact .refl s

theorem State.withWall_base {w : Wall} (h : s.wall.Marked → w.Marked) : s.Base (s.withWall w) :=
  ⟨rfl, rfl, rfl, rfl, id, h⟩

theorem State.removeNotice_sound (number : Nat) : s.Sound (s.removeNotice number) := by
  unfold State.removeNotice
  refine .settle (State.Base.trans ?_ (State.endNoticeMode_base _)) s
  exact State.withWall_base s id

theorem noteOwner_sound (f : NoteFields) : s.Sound (noteOwner f s).1 := by
  unfold noteOwner
  split
  · exact .refl s
  · split
    · exact .refl s
    · refine .settle (State.Base.trans ?_ (State.endNoticeMode_base _)) s
      refine State.withWall_base s fun hm hc => ?_
      have hmark := hm hc
      show (if s.wall.current = some (.note f.number) then none else s.wall.mark) = none
      split
      · rfl
      · exact hmark

theorem nclrOwner_sound (n : Nat) : s.Sound (nclrOwner n s).1 := by
  unfold nclrOwner
  split
  · dsimp only
    split
    · exact State.removeNotice_sound s n
    · exact .refl s
  · exact .refl s

theorem wallOwner_sound (n : Nat) : s.Sound (wallOwner n s).1 := by
  unfold wallOwner
  split
  · exact .refl s
  · split
    · exact .refl s
    · dsimp only
      split
      · exact .refl s
      · refine .settle ?_ s
        exact State.withWall_base s id

/-! ## The cues -/

/-- What speaks of a cue before its end is reported: the gap, what a DONE hands on, and the fate (R101). -/
def State.spokenOut (done : Bool) (c : Cue) (t : Taken) : State × Fate × Nat :=
  if done then ((s.startGap t.content.zones).spokenFacts t.content).fateOfDone c
  else
    (if c.kind = .change then (s.startGap t.content.zones).clearSpeech c.run
      else s.startGap t.content.zones).fateOfAbort c

theorem State.speak_eq (done : Bool) (c : Cue) (t : Taken) :
    s.speak done c t =
      ((((s.spokenOut done c t).1.cueEnded c.run).settle s), (s.spokenOut done c t).2) := rfl

theorem State.startGap_base (zones : List Nat) : s.Base (s.startGap zones) := by
  unfold State.startGap
  split <;> exact ⟨rfl, rfl, rfl, rfl, id, id⟩

theorem State.spokenFacts_sources (t : Captured) : (s.spokenFacts t).sources = s.sources := by
  unfold State.spokenFacts
  split <;> simp

theorem State.fateOfDone_sources (c : Cue) : (s.fateOfDone c).1.sources = s.sources := by
  unfold State.fateOfDone
  repeat' split
  all_goals rfl

theorem State.fateOfAbort_sources (c : Cue) : (s.fateOfAbort c).1.sources = s.sources := by
  unfold State.fateOfAbort
  repeat' split
  all_goals simp

theorem State.spokenOut_base (done : Bool) (c : Cue) (t : Taken) : s.Base (s.spokenOut done c t).1 := by
  unfold State.spokenOut
  split
  · refine (State.startGap_base s t.content.zones).trans ?_
    refine ((State.spokenFacts_steady ..).trans (State.fateOfDone_steady ..)).base ?_
    rw [State.fateOfDone_sources, State.spokenFacts_sources]
  · refine (State.startGap_base s t.content.zones).trans ?_
    refine State.Steady.base (State.Steady.trans ?_ (State.fateOfAbort_steady ..)) ?_
    · split
      · exact .of_blocks rfl rfl rfl
      · exact .refl _
    · rw [State.fateOfAbort_sources]
      split <;> rfl

theorem State.Sound.speak {u : State} (h : s.Base u) (done : Bool) (c : Cue) (t : Taken) :
    s.Sound (u.speak done c t).1 := by
  rw [State.speak_eq]
  refine .settle (h.trans ((State.spokenOut_base u done c t).trans ?_)) u
  exact (State.cueEnded_steady ..).base (State.cueEnded_sources ..)

theorem spknOwner_sound (f : SpknFields) : s.Sound (spknOwner f s).1 := by
  unfold spknOwner
  split
  · exact .refl s
  · split
    · exact .refl s
    · exact State.Sound.speak s (.refl s) ..

/-- A change of the cues alone, the attention lines settled after it. -/
theorem State.Sound.cues {u : State} (hbus : u.bus = s.bus) (hzones : u.sense.zones = s.sense.zones)
    (hin : u.inForce = s.inForce) (h : s.Alike u) : s.Sound u.settleAttention :=
  .of_alike hbus hzones (by rw [State.settleAttention_inForce, hin]) (fun _ _ => State.settleAttention_attentionOk u)
    fun _ => h.trans (State.settleAttention_alike u)

theorem State.giveCue_sound (c : Cue) (k : Captured) : s.Sound (s.giveCue c k) := by
  unfold State.giveCue
  dsimp only
  refine .cues s ?_ ?_ ?_ ?_
  · split <;> rfl
  · split <;> rfl
  · split <;> rfl
  · split
    · refine ⟨rfl, rfl, ?_, rfl, rfl, .inl rfl, rfl, rfl⟩
      apply map_updWhere ChangeRec.look
      exact fun _ => rfl
    · exact ⟨rfl, rfl, rfl, rfl, rfl, .inl rfl, rfl, rfl⟩

theorem takeOwner_sound : s.Sound (takeOwner s).1 := by
  unfold takeOwner
  split
  · exact .refl s
  · split
    · exact .refl s
    · split
      · exact .refl s
      · exact State.giveCue_sound s ..

theorem zoneOwner_sound (f : ZoneFields) : s.Sound (zoneOwner f s).1 := by
  unfold zoneOwner
  split
  · exact .refl s
  · exact .cues s rfl rfl rfl ⟨rfl, rfl, rfl, rfl, rfl, .inl rfl, rfl, rfl⟩

/-! ## Links, lines and sensing -/

theorem pollOwner_sound (p : PortId) : s.Sound (pollOwner p s).1 :=
  .cues s (u := s.updPort p Port.polled) rfl rfl rfl ⟨rfl, rfl, rfl, rfl, rfl, .inl rfl, rfl, rfl⟩

theorem State.takeDial_sound (n : Fin 4) (d : PendingDial) : s.Sound (s.takeDial n d) := by
  unfold State.takeDial
  split
  all_goals exact .of_blocks rfl rfl rfl rfl rfl rfl rfl fun h => h.of_cues rfl rfl (fun _ => rfl) fun _ => rfl

theorem dialOwner_sound (f : DialFields) : s.Sound (dialOwner f s).1 := by
  unfold dialOwner
  split
  · exact .refl s
  · exact State.takeDial_sound s ..

theorem State.endImpulse_sound (l : Line) (i : Impulse) : s.Sound (s.endImpulse l i).settleAttention := by
  have hpost : ∀ u : State, u.bus = s.bus → u.sense = s.sense → u.inForce = s.inForce → s.Alike u →
      s.Sound (u.post [.planning] .clockFault (.line l.no)).settleAttention := fun u hbus hsense hin h =>
    .cues s ((State.post_bus ..).trans hbus) (by rw [State.post_sense, hsense]) ((State.post_inForce ..).trans hin)
      (h.trans (State.post_alike ..))
  unfold State.endImpulse
  dsimp only
  split
  · exact .cues s rfl rfl rfl ⟨rfl, rfl, rfl, rfl, rfl, .inl rfl, rfl, rfl⟩
  · split
    · exact .cues s rfl rfl rfl ⟨rfl, rfl, rfl, rfl, rfl, .inl rfl, rfl, rfl⟩
    · split
      · exact hpost _ rfl rfl rfl ⟨rfl, rfl, rfl, rfl, rfl, .inl rfl, rfl, rfl⟩
      · exact .cues s rfl rfl rfl ⟨rfl, rfl, rfl, rfl, rfl, .inl rfl, rfl, rfl⟩

/-- A change of the levels, with the dispatch decision that it may call for. -/
theorem State.Sound.dimmed {v : State} (h : s.Dimmed v) (halike : s.Alike v) : s.Sound (v.finish s) := by
  have hfinish := State.finish_dimmed v s
  have hin : (v.finish s).inForce = s.inForce := by
    rw [State.inForce_of_sources (State.finish_sources v s), h.inForce]
  refine ⟨fun _ hp => ?_, fun hc hp hl => (hfinish 0).levelsOk (h.level hc.1.ceiling_le hl),
    fun hb => State.finish_busOk (((State.busOk_iff s).1 hb).1.onLine h.line) s, fun _ _ => State.finish_attentionOk v s,
    fun _ hc => (hc.alike halike).alike (State.finish_alike v s)⟩
  obtain ⟨haddr, hT, hall⟩ := (State.panelsOk_iff s).1 hp
  refine (State.panelsOk_iff _).2 ⟨?_, hin ▸ hT, hin ▸ (hfinish _).whole (h.whole _ hall)⟩
  rw [(hfinish 0).roles, h.roles]
  exact haddr

/-! ## The bus -/

theorem State.dispatch_sound : s.Sound s.dispatch := by
  have hkept : ∀ T, State.PanelsKept T s s.dispatch := fun T =>
    .of_records (State.dispatch_records s) (by rw [State.sense_of_sources (State.dispatch_sources s)])
  have hin : s.dispatch.inForce = s.inForce := State.inForce_of_sources (State.dispatch_sources s)
  have hports : s.dispatch.ports = s.ports := by
    unfold State.dispatch
    split
    · rfl
    · split
      · rfl
      · dsimp only
        split <;> rfl
  refine ⟨fun _ hp => (hkept _).panelsOk hp (by rw [hin]), fun _ _ hl => (hkept 0).levelsOk hl,
    fun hb => (State.busOk_iff _).2 ⟨State.dispatch_busOk ((State.busOk_iff s).1 hb).1, State.dispatch_idle s⟩,
    fun _ hs => hs.of_cues (congrArg Sources.powered (State.dispatch_sources s)) (State.dispatch_cues s) (fun p => ?_) fun p => ?_,
    fun _ hc => hc.alike (State.dispatch_alike s)⟩
  all_goals
    unfold State.port
    rw [hports]

theorem State.endExchange_sound {x : Exchange} (hx : s.bus.exchange = some x) (o : Outcome) :
    s.Sound (s.endExchange x o) := by
  have hin : (s.endExchange x o).inForce = s.inForce := State.inForce_of_sources (State.endExchange_sources x o s)
  exact ⟨fun _ hp => (State.endExchange_kept hp x o).panelsOk hp (by rw [hin]),
    fun _ hp hl => (State.endExchange_kept hp x o).levelsOk hl,
    fun hb => State.endExchange_busOk ((State.busOk_iff s).1 hb).1 (((State.busOk_iff s).1 hb).1.2.1 x hx),
    fun _ _ => State.settleAttention_attentionOk _, fun _ hc => State.endExchange_current hc x o⟩

theorem State.endInterval_sources' : s.endInterval.inForce = s.inForce := by
  unfold State.endInterval
  rw [State.inForce_of_sources (State.finish_sources ..)]
  exact foldl_keeps State.inForce State.monitor (fun t q => State.monitor_inForce q t) s.bus.panels s

theorem State.endInterval_sound : s.Sound s.endInterval :=
  ⟨fun _ hp => (State.endInterval_kept hp).panelsOk hp (by rw [State.endInterval_sources']),
    fun _ hp hl => (State.endInterval_kept hp).levelsOk hl,
    fun hb => State.endInterval_busOk ((State.busOk_iff s).1 hb).1, fun _ _ => State.finish_attentionOk _ s,
    fun _ hc => State.endInterval_current hc⟩

theorem State.openWindow_sound {x : Exchange} (hx : s.bus.exchange = some x) (n : Nat) :
    s.Sound (s.withExchange (some { x with phase := .window n })) := by
  refine ⟨fun _ h => h, fun _ _ h => h, fun hb => ?_,
    fun _ h => h.of_cues rfl rfl (fun _ => rfl) fun _ => rfl,
    fun _ h => h.alike ⟨rfl, rfl, rfl, rfl, rfl, .inl rfl, rfl, rfl⟩⟩
  obtain ⟨⟨hu, hex, hp⟩, -⟩ := (State.busOk_iff s).1 hb
  refine (State.busOk_iff _).2 ⟨⟨hu, fun y hy n hn => ?_, hp⟩, nofun⟩
  obtain rfl := Option.some.inj (Option.mem_def.1 hy)
  exact hex x hx n hn

end operations

end Sys2Proof.Machine
end

section
/-! What the running second, TIME, CONF and the resets keep of the panels, the bus, the attention lines and the picture
(R47 to R57, R131, R189 to R192). -/
namespace Sys2Proof.Machine

open Sys2Proof

section time

variable (s : State)

/-! ## The running second -/

theorem State.fallSilent_base (p : PortId) : s.Base (s.fallSilent p) :=
  (State.fallSilent_steady p s).base (State.fallSilent_sources p s)

theorem State.judgeLimits_base : s.Base s.judgeLimits := by
  have hport : ∀ (u : State) (p : PortId), u.Base (u.judgePort p) := fun u p => by
    unfold State.judgePort
    split
    · exact State.fallSilent_base u p
    · exact .refl u
  unfold State.judgeLimits
  dsimp only
  refine State.Base.trans ?_ (hport _ _)
  refine State.Base.trans ?_ (hport _ _)
  refine State.Base.trans ?_ (hport _ _)
  split
  · unfold State.enterHoldover
    refine State.Base.trans (t := { s with time := { s.time with state := .holdover } }) ⟨rfl, rfl, rfl, rfl, id, id⟩ ?_
    exact (State.post_steady ..).base (State.post_sources ..)
  · exact .refl s

/-- The counts of a second and the clock's own advance (R47). -/
theorem State.countSecond_base (x : TimeBase) : s.Base { s.countSecond with time := x } := ⟨rfl, rfl, rfl, rfl, id, id⟩

theorem State.announceTime_base (minute : Bool) : s.Base (s.announceTime minute) :=
  (State.announceTime_steady minute s).base' (congrArg Sources.sense (State.announceTime_sources (s := s) minute rfl))
    (congrArg Sources.inForce (State.announceTime_sources (s := s) minute rfl))

theorem State.minuteAdvanced_base : s.Base s.minuteAdvanced :=
  (State.minuteAdvanced_steady s).base' (congrArg Sources.sense (State.minuteAdvanced_sources s))
    (congrArg Sources.inForce (State.minuteAdvanced_sources s))

variable {s}

/-- Within a minute the absolute minute of the clock stands (R47, R48). -/
theorem now_of_advance {x : TimeBase} {d : Nat} (h : x.advance.clock % 60 ≠ 0) :
    ((x.advance.clock : Int) - 60 * d) % 86400 / 60 = ((x.clock : Int) - 60 * d) % 86400 / 60 := by
  unfold TimeBase.advance at h ⊢
  split
  · next hskip =>
    rw [if_pos hskip] at h
    dsimp only at h
    omega
  · next hskip =>
    rw [if_neg hskip] at h
    split
    · rfl
    · next hheld =>
      rw [if_neg hheld] at h
      dsimp only at h ⊢
      omega

/-- A second within the minute moves nothing that the picture reads (R47). -/
theorem State.countSecond_alike (htime : s.TimeOk) {x : TimeBase}
    (hx : x = (s.time.count s.inForce.holdover).advance)
    (h : (s.time.count s.inForce.holdover).entersMinute = false) : s.Alike { s.countSecond with time := x } := by
  obtain ⟨-, -, -, -, hunset, -⟩ := htime
  refine ⟨?_, rfl, rfl, ?_, rfl, ?_, rfl, rfl⟩
  · exact (List.map_map ..).trans (List.map_congr_left fun _ _ => rfl)
  · have hposted : (s.wall.posted.map fun n => { n with expiry := n.expiry.map (· - 1) }).map Posted.look =
        s.wall.posted.map Posted.look := (List.map_map ..).trans (List.map_congr_left fun _ _ => rfl)
    unfold Wall.look
    dsimp only [State.countSecond]
    rw [hposted]
  · by_cases hs : s.time.state = .unset
    · exact .inr (hunset hs).2.2
    · refine .inl ?_
      have hminute : (s.time.count s.inForce.holdover).advance.clock % 60 ≠ 0 := by
        have hstate : (s.time.count s.inForce.holdover).state ≠ .unset := hs
        simpa [TimeBase.entersMinute, hstate] using h
      unfold State.now State.elapsed
      rw [hx]
      exact congrArg (fun n : Int => n) (now_of_advance (x := s.time.count s.inForce.holdover) hminute)

theorem Cue.tick_fields (c : Cue) : c.tick.isTaken = c.isTaken ∧ c.tick.zones = c.zones ∧
    (c.tick.state = .due ↔ c.state = .due) := by
  unfold Cue.tick Cue.isTaken
  cases hc : c.state <;> simp [hc]

theorem State.countSecond_attentionOk (h : s.AttentionOk) (x : TimeBase) :
    ({ s.countSecond with time := x } : State).AttentionOk := by
  intro hp p
  have hports : (({ s.countSecond with time := x } : State).port p).attention = (s.port p).attention := by cases p <;> rfl
  rw [hports, h hp p]
  have hbusy : ∀ z, ({ s.countSecond with time := x } : State).zoneBusy z = s.zoneBusy z := fun z => by
    unfold State.zoneBusy State.countSecond
    dsimp only
    rw [List.any_map]
    refine congrArg (s.cues.list.any ·) (funext fun c => ?_)
    dsimp only [Function.comp_apply]
    rw [(Cue.tick_fields c).1, (Cue.tick_fields c).2.1]
  have heligible : ∀ c : Cue, ({ s.countSecond with time := x } : State).eligible c.tick = s.eligible c := fun c => by
    obtain ⟨-, hzones, hdue⟩ := Cue.tick_fields c
    unfold State.eligible
    rw [hzones, decide_eq_decide.2 hdue]
    refine congrArg (decide (c.state = .due) && c.zones.all ·) (funext fun z => ?_)
    rw [hbusy]
    rfl
  cases p with
  | announcement =>
    unfold State.wantsAttention
    have hany : ({ s.countSecond with time := x } : State).cues.list.any ({ s.countSecond with time := x } : State).eligible =
        s.cues.list.any s.eligible := by
      refine (List.any_map ..).trans (congrArg (s.cues.list.any ·) (funext fun c => heligible c))
    rw [hany]
    rfl
  | planning => rfl
  | signalling => rfl

theorem State.judgeLimits_of_none (h : s.time.limitsMoved = []) : s.judgeLimits = s := by
  unfold State.judgeLimits State.judgePort
  simp [h]

theorem State.second_sound : s.Sound s.second := by
  have hcount : s.Base { s.judgeLimits.countSecond with time := s.judgeLimits.countSecond.time.advance } :=
    (State.judgeLimits_base s).trans (State.countSecond_base _ _)
  unfold State.second
  dsimp only
  split
  · exact .settle (hcount.trans (State.minuteAdvanced_base _)) s
  · next henters =>
    split
    · next hnone =>
      rw [State.judgeLimits_of_none hnone] at henters ⊢
      refine .of_alike rfl rfl rfl (fun _ h => State.countSecond_attentionOk h _) fun ho => ?_
      exact State.countSecond_alike ho.2.2 rfl (Bool.eq_false_iff.2 henters)
    · exact .settle hcount s

/-! ## TIME -/

theorem State.setClock_sound (h : s.time.state = .unset) (n : Nat) : s.Sound (s.setClock n) := by
  refine .of_alike rfl rfl rfl (fun _ _ => State.settleAttention_attentionOk _) fun ho => ?_
  exact ⟨rfl, rfl, rfl, rfl, rfl, .inr (ho.2.2.2.2.2.2.1 h).2.2, rfl, rfl⟩

theorem State.stepClock_sound (n : Nat) (d : Int) (p : PortId) : s.Sound (s.stepClock n d p) := by
  unfold State.stepClock
  dsimp only
  have hroll : s.Base (if (0 < d && 86400 ≤ s.elapsed + d) = true then
      ({ s with time := { s.time.accept with clock := n, slew := 0, held := false } } : State).rollover
      else { s with time := { s.time.accept with clock := n, slew := 0, held := false } }) := by
    have hstep : s.Base { s with time := { s.time.accept with clock := n, slew := 0, held := false } } :=
      ⟨rfl, rfl, rfl, rfl, id, id⟩
    split
    · exact hstep.trans ((State.rollover_steady _).base (State.rollover_sources _))
    · exact hstep
  have hannounced := hroll.trans (State.announceTime_base _ false)
  refine .finish (hannounced.trans (((State.recompose_steady _).trans (State.post_steady ..)).base ?_)) (fun _ hc => ?_) s
  · rw [State.post_sources, State.recompose_sources]
  · exact (State.recompose_current (hannounced.line.marked hc.marked)).alike (State.post_alike ..)

theorem timeOwner_sound (p : PortId) (n : Nat) : s.Sound (timeOwner p n s).1 := by
  unfold timeOwner
  split
  · exact .refl s
  · split
    · exact .refl s
    · split
      · next hunset => exact State.setClock_sound hunset n
      · dsimp only
        split
        · exact .refl s
        · dsimp only
          split
          · exact .of_blocks rfl rfl rfl rfl rfl rfl rfl fun h => h.of_cues rfl rfl (fun _ => rfl) fun _ => rfl
          · exact State.stepClock_sound ..

end time

/-! ## CONF -/

section conf

variable {n : Nat} {row : ParamRow} (hrow : paramRow n = some row) (v : Nat) (s : State)
include hrow

/-- What the picture and the monitor read of the parameters stands but where their own number is set. -/
theorem Params.setNumber_shown (p : Params) :
    (n ≠ 343 → (p.setNumber n v).delayThreshold = p.delayThreshold) ∧
      (n ≠ 332 → (p.setNumber n v).diversionHold = p.diversionHold) ∧
      (n ≠ 361 → (p.setNumber n v).failThreshold = p.failThreshold) ∧ (n ≠ 2 → (p.setNumber n v).dayStart = p.dayStart) :=
  ⟨fun h => Params.value_setNumber_other hrow (m := 343) rfl h.symm p v,
    fun h => Params.value_setNumber_other hrow (m := 332) rfl h.symm p v,
    fun h => Params.value_setNumber_other hrow (m := 361) rfl h.symm p v,
    fun h => Params.value_setNumber_other hrow (m := 2) rfl h.symm p v⟩

theorem State.setParameter_base (h : n ≠ 361) : s.Base (s.setParameter n v row.structural) := by
  unfold State.setParameter
  dsimp only
  split
  · exact ⟨rfl, rfl, rfl, rfl, id, id⟩
  · exact ⟨rfl, rfl, (Params.setNumber_shown hrow v s.inForce).2.2.1 h, rfl, id, id⟩

theorem State.setParameter_alike (hd : n ≠ 343) (hh : n ≠ 332) : s.Alike (s.setParameter n v row.structural) := by
  unfold State.setParameter
  dsimp only
  split
  · exact ⟨rfl, rfl, rfl, rfl, rfl, .inl rfl, rfl, rfl⟩
  · next hstructural =>
    obtain ⟨hdelay, hhold, -, hday⟩ := Params.setNumber_shown hrow v s.inForce
    refine ⟨rfl, rfl, rfl, rfl, rfl, .inl ?_, hdelay hd, hhold hh⟩
    have hn : n ≠ 2 := by
      rintro rfl
      cases hrow
      exact hstructural rfl
    unfold State.now State.elapsed
    dsimp only
    rw [hday hn]

omit hrow in
/-- The threshold set, and the panels that stand at or above it failed (R147). -/
theorem State.failAbove_sound (hv : 1 ≤ v) : s.Sound ((s.setParameter 361 v false).failAbove.finish s) := by
  have hrow : paramRow 361 = some ⟨.span 8 255, false⟩ := rfl
  have hin : ((s.setParameter 361 v false).failAbove.finish s).inForce = (s.setParameter 361 v false).inForce := by
    rw [State.inForce_of_sources (State.finish_sources ..), State.failAbove_eq]
    exact foldl_keeps State.inForce (fun t a => t.failPanel a)
      (fun t a => State.inForce_of_sources (State.failPanel_sources a t)) _ _
  have hfinish := State.finish_dimmed (s.setParameter 361 v false).failAbove s
  refine ⟨fun _ hp => ?_, fun _ hp hl => ?_, fun hb => ?_, fun _ _ => State.finish_attentionOk _ s, fun _ hc => ?_⟩
  · obtain ⟨hkept, hwhole⟩ := State.failAbove_panels (u := s.setParameter 361 v false) hp rfl
    obtain ⟨haddr, -, -⟩ := (State.panelsOk_iff s).1 hp
    refine (State.panelsOk_iff _).2 ⟨?_, hin ▸ hv, hin ▸ (hfinish _).whole hwhole⟩
    rw [(hfinish 0).roles, hkept.roles]
    exact haddr
  · obtain ⟨hkept, -⟩ := State.failAbove_panels (u := s.setParameter 361 v false) hp rfl
    exact (hkept.trans (hfinish _)).levelsOk (s := s.setParameter 361 v false) hl
  · refine State.finish_busOk (Bus.Ok.onLine (s := s.setParameter 361 v false) ?_ (State.failAbove_onLine _)) s
    exact ((State.busOk_iff s).1 hb).1
  · refine State.Current.alike ?_ (State.finish_alike _ s)
    rw [State.failAbove_eq]
    exact State.failPanels_current _ _ (hc.alike (State.setParameter_alike hrow v s (by decide) (by decide)))

omit hrow in
/-- A parameter set leaves every block but the two copies of the configuration. -/
theorem State.setParameter_blocks (n : Nat) (structural : Bool) :
    (s.setParameter n v structural).bus = s.bus ∧ (s.setParameter n v structural).cues = s.cues ∧
      (s.setParameter n v structural).ports = s.ports ∧ (s.setParameter n v structural).powered = s.powered := by
  unfold State.setParameter
  dsimp only
  split <;> exact ⟨rfl, rfl, rfl, rfl⟩

omit hrow in
theorem State.structural_sound : s.Sound (s.setParameter n v true) :=
  .of_blocks rfl rfl rfl rfl rfl rfl rfl fun h => h.of_cues rfl rfl (fun _ => rfl) fun _ => rfl

/-- What a timing parameter calls for within its CONF (R43, R55, R73, R78, R95, R121, R184). -/
theorem State.afterConf_sound (htiming : row.structural = false) (hv : row.range.holds v = true) :
    s.Sound ((s.setParameter n v row.structural).afterConf n s) := by
  by_cases hn : n = 361
  · subst hn
    cases hrow
    refine State.failAbove_sound v s ?_
    simp only [ParamRange.holds, Bool.and_eq_true, decide_eq_true_eq] at hv
    omega
  have hbase := State.setParameter_base hrow v s hn
  have halike := State.setParameter_alike hrow v s
  obtain ⟨hbus, hcues, hports, hpow⟩ := State.setParameter_blocks v s n row.structural
  generalize s.setParameter n v row.structural = u at hbase halike hbus hcues hports hpow
  have hquiet : ∀ w : State, w.powered = u.powered → w.cues = u.cues → w.ports = u.ports → w.bus = u.bus →
      w.inForce = u.inForce → w.sense = u.sense → (s.Alike u → s.Alike w) → n ≠ 343 → n ≠ 332 → s.Sound w :=
    fun w hp hc hq hb hi hs ha h1 h2 =>
      .of_alike (hb.trans hbus) (by rw [hs, hbase.zones]) (by rw [hi, hbase.failThreshold])
        (fun _ h => h.of_cues (hp.trans hpow) (hc.trans hcues) (fun p => by unfold State.port; rw [hq, hports])
          fun p => by unfold State.port; rw [hq, hports]) fun _ => ha (halike h1 h2)
  have hsettled : ∀ w : State, w.bus = u.bus → w.sense = u.sense → w.inForce = u.inForce → w.wall = u.wall → s.Base w :=
    fun w hb hs hi hw => hbase.trans
      ⟨State.records_of_bus hb, by rw [hs], by rw [hi], .of_bus hb hw⟩
  have hrefollow : ∀ kind, n ≠ 343 → n ≠ 332 → s.Sound (u.refollow kind).settleAttention := fun kind h1 h2 =>
    .of_alike hbus hbase.zones hbase.failThreshold (fun _ _ => State.settleAttention_attentionOk _) fun _ =>
      (halike h1 h2).trans ⟨rfl, rfl, rfl, rfl, rfl, .inl rfl, rfl, rfl⟩
  unfold State.afterConf
  split
  · next h =>
    refine hquiet _ rfl rfl rfl rfl rfl rfl (fun ha => ha.trans ⟨?_, rfl, rfl, rfl, rfl, .inl rfl, rfl, rfl⟩)
      (by omega) (by omega)
    exact (List.map_map ..).trans (List.map_congr_left fun _ _ => rfl)
  split
  · refine .settle ?_ s
    exact hsettled _ rfl rfl rfl rfl
  split
  · exact hquiet _ rfl rfl rfl rfl rfl rfl (fun ha => ha.trans ⟨rfl, rfl, rfl, rfl, rfl, .inl rfl, rfl, rfl⟩)
      (by omega) (by omega)
  split
  · refine .settle ?_ s
    exact hsettled _ rfl rfl rfl rfl
  split
  · exact hrefollow _ (by omega) (by omega)
  split
  · exact hrefollow _ (by omega) (by omega)
  split
  · exact .settle hbase s
  · next h2 => exact hquiet u rfl rfl rfl rfl rfl rfl id h2 (by omega)

omit hrow in
theorem confOwner_sound (f : ConfFields) : s.Sound (confOwner f s).1 := by
  unfold confOwner
  split
  · exact .refl s
  · next row hrow =>
    dsimp only
    split
    · next hs =>
      rw [hs]
      exact State.structural_sound _ s
    · next hs => exact State.afterConf_sound hrow _ s (Bool.eq_false_iff.2 hs) (nearest_of_paramRow hrow _).1

end conf

/-! ## The resets -/

theorem Sense.rset_zones (p : Params) (u : Sense) : (u.rset p).zones = u.zones := by
  unfold Sense.rset
  dsimp only
  split
  · exact Sense.choose_zones ..
  · rfl

theorem Bus.Ok.fresh {b c : Bus} (h : b.Ok) (hu : c.urgent = [])
    (hx : c.exchange = b.exchange.map fun x => { x with rset := true }) (hp : c.pointer = b.pointer) : c.Ok := by
  refine ⟨by rw [hu]; exact ⟨List.nodup_nil, fun _ hm => absurd hm List.not_mem_nil⟩, fun x hm n hn => ?_, hp ▸ h.2.2⟩
  rw [hx] at hm
  obtain ⟨y, hy, rfl⟩ := Option.map_eq_some_iff.1 (Option.mem_def.1 hm)
  exact h.2.1 y hy n hn

/-- RSET is a writing of levels over fresh panels and an empty urgent list, then the notice and the composition (R192). -/
theorem State.resetPicture_fresh (s : State) : ∃ u v : State,
    v = (u.writeLevels fun _ => true).post [.planning, .signalling, .announcement] .restarted (.port .planning) ∧
      s.resetPicture = v.settle v ∧
      u.bus.panels = freshPanels (s.inForce.withStructural s.pendingCfg) ∧ u.sense.zones = s.sense.zones ∧
      (s.bus.Ok → u.bus.Ok) ∧ u.wall.Marked :=
  ⟨_, _, rfl, rfl, rfl, Sense.rset_zones .., fun h => h.fresh rfl rfl rfl, fun _ => rfl⟩

theorem State.resetPicture_sound (s : State) : s.Sound s.resetPicture := by
  obtain ⟨u, v, hv, heq, hfresh, hzones, hbus, hmarked⟩ := State.resetPicture_fresh s
  have hin := State.resetPicture_inForce s
  have hsteady : (u.writeLevels fun _ => true).Steady v := hv ▸ State.post_steady ..
  have hkept : ∀ T, State.PanelsKept T u s.resetPicture := fun T => by
    rw [heq]
    refine (State.writeLevels_kept T (fun _ => true) u).trans ((State.PanelsKept.steady hsteady ?_).trans ?_)
    · rw [hv, State.post_sources]
    · exact .of_records (State.settle_records ..) (congrArg Sense.zones (State.sense_of_sources (State.settle_sources ..)))
  refine ⟨fun hc _ => State.fresh_panelsOk (hc.1.withStructural hc.2.1) hfresh (hkept _) hin,
    fun _ _ hl => State.fresh_levelsOk hfresh (by unfold Sense.ZonesOk; rw [hzones]; exact hl.1) (hkept 0), fun hb => ?_,
    fun _ _ => ?_, fun _ _ => ?_⟩
  all_goals rw [heq]
  · refine State.finish_busOk (Bus.Ok.steady ?_ (State.recompose_steady _)) v
    exact Bus.Ok.steady ((hbus ((State.busOk_iff s).1 hb).1).onLine (State.writeLevels_onLine _ u)) hsteady
  · exact State.finish_attentionOk _ v
  · exact (State.recompose_current (hsteady.marked hmarked)).alike (State.finish_alike _ v)

/-- Power-on is a writing of levels over fresh panels and a fresh bus, then the composition and the first dispatch decision
(R191). -/
theorem State.restart_fresh (store : Store) (pending : List Instr) : ∃ u : State,
    State.restart store pending = (u.writeLevels fun _ => true).recompose.dispatch.settleAttention ∧
    u.bus.panels = freshPanels (loadParams store.configuration) ∧ u.sense = freshSense (loadParams store.configuration) ∧
      u.bus.Ok ∧ u.wall.Marked :=
  ⟨_, rfl, rfl, rfl, ((State.busOk_iff _).1 State.reset_bus.2.2).1, fun _ => rfl⟩

theorem State.restart_sound (s : State) (store : Store) (hstore : s.ConfigOk → store.configuration.contents.Ok)
    (pending : List Instr) : s.Sound (State.restart store pending) := by
  obtain ⟨u, heq, hfresh, hsense, hbus, hmarked⟩ := State.restart_fresh store pending
  have hkept : ∀ T, State.PanelsKept T u (State.restart store pending) := fun T => by
    rw [heq]
    exact (State.writeLevels_kept T _ u).trans (State.dispatched_kept T _)
  refine ⟨fun hc _ => State.fresh_panelsOk (loadParams_ok (hstore hc)) hfresh (hkept _) (State.restart_inForce ..),
    fun hc _ _ => State.fresh_levelsOk hfresh (by rw [hsense]; exact freshSense_zonesOk (loadParams_ok (hstore hc))) (hkept 0),
    fun _ => ?_, fun _ _ => ?_, fun _ _ => ?_⟩
  · rw [heq]
    exact State.dispatched_busOk (hbus.onLine (State.writeLevels_onLine _ u))
  · rw [heq]
    exact State.settleAttention_attentionOk _
  · rw [heq]
    refine State.Current.alike ?_ (State.settleAttention_alike _)
    exact (State.recompose_current (s := u.writeLevels fun _ => true) hmarked).alike (State.dispatch_alike _)

theorem State.losePower_sound (s : State) (cut : Option StorePart) : s.Sound (s.losePower cut) := by
  obtain ⟨hpanels, hlevels, hbus⟩ := State.reset_bus
  exact ⟨fun _ _ => hpanels, fun _ _ _ => hlevels, fun _ => hbus, fun _ _ => nofun,
    fun _ _ => State.reset_current.alike ⟨rfl, rfl, rfl, rfl, rfl, .inl rfl, rfl, rfl⟩⟩

theorem Sense.request_zones (threshold : Nat) (n : Fin 4) (u : Sense) : (u.request threshold n).zones = u.zones := by
  unfold Sense.request
  split
  · rfl
  · dsimp only
    split
    · rfl
    · exact Sense.choose_zones ..

/-! ## Every command -/

/-- A change of one port that leaves its notices and its line alone. -/
theorem State.updPort_sound (s : State) (p : PortId) {f : Port → Port}
    (h : ∀ r, (f r).notices = r.notices ∧ (f r).attention = r.attention) : s.Sound (s.updPort p f) := by
  refine .of_blocks rfl rfl rfl rfl rfl rfl rfl fun hs => hs.of_cues rfl rfl (fun q => ?_) fun q => ?_
  all_goals
    rw [State.port_updPort]
    split
  · next hq => rw [hq, (h _).1]
  · rfl
  · next hq => rw [hq, (h _).2]
  · rfl

theorem Bus.awaiting_exchange {b : Bus} {x : Exchange} {n : Nat} (h : b.awaiting = some (x, n)) : b.exchange = some x := by
  obtain ⟨y, hy, h⟩ := Option.bind_eq_some_iff.1 h
  split at h
  · cases h
    exact hy
  · cases h

/-- What every command keeps of the panels, the levels, the bus, the attention lines and the picture. -/
theorem exec_sound {i : Instr} {s t : State} (h : exec i s = .next t) : s.Sound t := by
  have hframe : ∀ {u : State}, u.bus = s.bus → u.sense.zones = s.sense.zones → u.inForce = s.inForce → u.table = s.table →
      u.tracker = s.tracker → u.wall = s.wall → u.now = s.now → u.powered = s.powered → u.cues = s.cues →
      (∀ p, (u.port p).notices = (s.port p).notices) → (∀ p, (u.port p).attention = (s.port p).attention) → s.Sound u :=
    fun hb hz hi ht hk hw hn hp hc hq ha => .of_blocks hb hz hi ht hk hw hn fun hs => hs.of_cues hp hc hq ha
  cases i with
  | powerOn => exact execPowerOn_rel (R := s.Sound) h (.refl s) (State.restart_sound s s.store (·.2.2) s.pending)
  | resetPin => exact .answer h (State.restart_sound s s.store (·.2.2) s.pending)
  | powerLoss cut => exact .answer h (State.losePower_sound s cut)
  | telegramFrameEnd p ms octets =>
    refine .answer h ?_
    split
    · refine .atMs (State.updPort_sound (s.atMs ms) p fun r => ?_)
      unfold Port.frameIn Port.offer
      split <;> exact ⟨rfl, rfl⟩
    · exact .refl s
  | abortSequence p => exact .answer h (.refl s)
  | replySent p ms =>
    refine .answer_ite h fun _ => .atMs (State.updPort_sound (s.atMs ms) p fun r => ?_)
    unfold Port.replyDone
    split <;> exact ⟨rfl, rfl⟩
  | unknown p =>
    refine .answer h ?_
    split
    · split
      · exact State.answerTel_sound (.refl s) ..
      · exact .refl s
    · exact .refl s
  | plan p => exact .takeTel h (planOwner_sound s)
  | amnd p => exact .takeTel h (amndOwner_sound s)
  | dlay p => exact .takeTel h (dlayOwner_sound s)
  | canc p => exact .takeTel h (cancOwner_sound s)
  | rins p => exact .takeTel h (rinsOwner_sound s)
  | plat p => exact .takeTel h (platOwner_sound s)
  | pred p => exact .takeTel h (predOwner_sound s)
  | rdys p => exact .takeTel h (rdysOwner_sound s)
  | dept p => exact .takeTel h (deptOwner_sound s)
  | read p =>
    refine .takeTel h fun f => ?_
    unfold readOwner
    split <;> exact .refl s
  | csta p =>
    refine .takeTel h fun f => ?_
    unfold cstaOwner
    split
    · split <;> exact .refl s
    · exact .refl s
  | time p => exact .takeWith h (timeOwner_sound p)
  | take p => exact .takeTel (owner := fun _ => takeOwner) h fun _ => takeOwner_sound s
  | spkn p => exact .takeTel h (spknOwner_sound s)
  | zone p => exact .takeTel h (zoneOwner_sound s)
  | note p => exact .takeTel h (noteOwner_sound s)
  | nclr p => exact .takeTel h (nclrOwner_sound s)
  | wall p => exact .takeTel h (wallOwner_sound s)
  | dial p => exact .takeTel h (dialOwner_sound s)
  | conf p => exact .takeTel h (confOwner_sound s)
  | csav p =>
    exact .takeTel (owner := fun _ u => (u.saveConfiguration, Answer.accept .none)) h fun _ =>
      hframe rfl rfl rfl rfl rfl rfl rfl rfl rfl (fun _ => rfl) fun _ => rfl
  | rset p =>
    exact .takeTel (owner := fun _ u => (u.resetPicture, Answer.accept .none)) h fun _ => State.resetPicture_sound s
  | poll p => exact .takeTel (owner := fun _ => pollOwner p) h fun _ => pollOwner_sound s p
  | silenceExpiry p => exact .answer_ite h fun _ => .settle (State.fallSilent_base s p) s
  | runningSecond => exact .answer h State.second_sound
  | minuteAdvance => exact .answer_ite h fun _ => State.second_sound
  | holdoverExpiry =>
    refine .answer_ite h fun _ => .cues s ?_ ?_ ?_ ?_
    · exact State.post_bus ..
    · exact congrArg Sense.zones (State.post_sense ..)
    · exact State.post_inForce ..
    · refine State.Alike.trans ?_ (State.post_alike ..)
      exact ⟨rfl, rfl, rfl, rfl, rfl, .inl rfl, rfl, rfl⟩
  | predictionStale run =>
    refine .answer h ?_
    split
    · split
      · exact State.clearFilter_sound s run
      · exact .refl s
    · exact .refl s
  | speakTimeout cue =>
    refine .answer h ?_
    split
    · split
      · exact .speak s ((State.post_steady ..).base (State.post_sources ..)) ..
      · exact .refl s
    · exact .refl s
  | gapEnd zone =>
    refine .answer_ite h fun _ => .cues s ?_ ?_ ?_ ?_
    · rfl
    · rfl
    · rfl
    · exact ⟨rfl, rfl, rfl, rfl, rfl, .inl rfl, rfl, rfl⟩
  | noticeExpiry number => exact .answer_ite h fun _ => State.removeNotice_sound s number
  | dwellExpiry =>
    refine .answer h ?_
    split
    · refine .settle ?_ s
      exact State.withWall_base s fun _ => nofun
    · exact .refl s
  | panelFrameEnd ms =>
    refine .answer h ?_
    split
    · next x hx =>
      obtain ⟨hx, -⟩ := Option.filter_eq_some_iff.1 hx
      exact .atMs (State.openWindow_sound (s.atMs ms) hx _)
    · exact .refl s
  | panelReplyReceived ms octets =>
    refine .answer h ?_
    split
    · next x _ hx => exact .atMs (State.endExchange_sound (s.atMs ms) (Bus.awaiting_exchange hx) _)
    · exact .refl s
  | replyWindowClose ms =>
    refine .answer h ?_
    split
    · next x _ hx =>
      split
      · exact .atMs (State.endExchange_sound (s.atMs ms) (Bus.awaiting_exchange hx) _)
      · exact .refl s
    · exact .refl s
  | strayPanelOctets octets => exact .answer h (.refl s)
  | keepaliveDue ms addr => exact .answer_ite h fun _ => .atMs (State.dispatch_sound _)
  | probeDue ms addr => exact .answer_ite h fun _ => .atMs (State.dispatch_sound _)
  | intervalEnd ms => exact .answer_ite h fun _ => .atMs (State.endInterval_sound _)
  | passTrigger ms =>
    refine .answer_ite h fun _ => ?_
    dsimp only
    have hscan : s.Dimmed (s.atMs ms).restartScan := .of_blocks rfl rfl rfl rfl
    have halike : s.Alike (s.atMs ms).restartScan := ⟨rfl, rfl, rfl, rfl, rfl, .inl rfl, rfl, rfl⟩
    split
    · exact hframe rfl rfl rfl rfl rfl rfl rfl rfl rfl (fun _ => rfl) fun _ => rfl
    · exact .dimmed s (hscan.trans (State.beginPass_dimmed _)) (halike.trans (State.beginPass_alike _))
  | lightConversionComplete ms value =>
    refine .answer h ?_
    split
    · have hms : s.Dimmed (s.atMs ms) := .of_blocks rfl rfl rfl rfl
      exact .dimmed s (hms.trans (State.takeReading_dimmed ..)) (State.atMs_alike.trans (State.takeReading_alike ..))
    · exact .refl s
  | lineCheckRequest ms line =>
    refine .answer_ite h fun _ => hframe rfl ?_ rfl rfl rfl rfl rfl rfl rfl (fun _ => rfl) fun _ => rfl
    exact Sense.request_zones ..
  | lineCheckComplete ms value =>
    refine .answer h ?_
    split
    · refine hframe rfl ?_ rfl rfl rfl rfl rfl rfl rfl (fun _ => rfl) fun _ => rfl
      exact Sense.choose_zones ..
    · exact .refl s
  | nextImpulseTime ms line =>
    exact .answer_ite h fun _ => hframe rfl rfl rfl rfl rfl rfl rfl rfl rfl (fun _ => rfl) fun _ => rfl
  | impulseEnd ms line =>
    refine .answer h ?_
    dsimp only
    split
    · exact .atMs (State.endImpulse_sound (s.atMs ms) ..)
    · exact .refl s

end Sys2Proof.Machine
end

section
/-! The port records under every command: no notice list beyond its 16 places, and the buffer, the service and the reply in
step (R181, R182, R185); and the panels, the bus, the converter, the lines and the ports whole. -/
namespace Sys2Proof.Machine

open Sys2Proof

/-! ## The notice lists -/

section notices

theorem State.NoticesFit.refl (s : State) : s.NoticesFit s := fun _ => id

theorem State.NoticesFit.trans {s t u : State} (h : s.NoticesFit t) (k : t.NoticesFit u) : s.NoticesFit u :=
  fun p hp => k p (h p hp)

theorem State.post_fits (names : List PortId) (k : NoticeKind) (x : Subject) (s : State) :
    s.NoticesFit (s.post names k x) := by
  unfold State.post
  generalize (⟨k, x, s.time.clock⟩ : Notice) = n
  induction names generalizing s with
  | nil => exact .refl s
  | cons p names ih => exact (State.NoticesFit.updPort (Port.post_fits n)).trans (ih _)

theorem State.voidRecord_fits (run : Nat) (s : State) : s.NoticesFit (s.voidRecord run) := by
  unfold State.voidRecord
  split
  · dsimp only
    refine State.NoticesFit.trans ?_ (State.NoticesFit.of_ports rfl)
    refine State.NoticesFit.trans ?_ (State.post_fits _ _ _ _)
    exact .of_ports rfl
  · exact .refl s

theorem State.informAll_fits (s : State) : s.NoticesFit s.informAll := by
  have hone : ∀ (r : ChangeRec) (u : State), u.NoticesFit (u.inform r) := fun r u => by
    unfold State.inform
    dsimp only
    refine State.NoticesFit.trans ?_ (State.post_fits _ _ _ _)
    exact .of_ports rfl
  have hall : ∀ (l : List ChangeRec) (u : State), u.NoticesFit (l.foldl (fun t r => t.inform r) u) := by
    intro l
    induction l with
    | nil => exact fun u => .refl u
    | cons r l ih => exact fun u => (hone r u).trans (ih _)
  exact hall _ s

theorem State.takeOff_fits (run : Nat) (s : State) : s.NoticesFit (s.takeOff run) := by
  unfold State.takeOff
  refine State.NoticesFit.trans ?_ (State.NoticesFit.of_ports rfl)
  refine State.NoticesFit.trans ?_ (State.voidRecord_fits _ _)
  split <;> exact .of_ports rfl

theorem State.compose_ports (s : State) : s.compose.ports = s.ports := by
  unfold State.compose State.rotate
  dsimp only
  repeat' split
  all_goals rfl

theorem State.cueEnded_ports (run : Nat) (s : State) : (s.cueEnded run).ports = s.ports := by
  unfold State.cueEnded
  split <;> rfl

theorem State.Move.fits {out join : Option Nat} {s t : State} (h : State.Move out join s t) : s.NoticesFit t := by
  cases h with
  | aside h => exact h.notices
  | compose => exact .of_ports (State.compose_ports s)
  | takeOff run => exact State.takeOff_fits run s
  | cueEnded run => exact .of_ports (State.cueEnded_ports run s)
  | endCue c => exact .of_ports (State.cueEnded_ports c.run _)
  | voidRecord run => exact State.voidRecord_fits run s
  | informAll => exact State.informAll_fits s
  | _ => exact .of_ports rfl

theorem State.Moved.fits {out join : Option Nat} {s t : State} (h : State.Moved out join s t) : s.NoticesFit t := by
  induction h with
  | refl => exact .refl s
  | tail _ hstep ih => exact ih.trans hstep.fits

theorem State.resetPicture_notices (s : State) (p : PortId) : (s.resetPicture.port p).notices.length ≤ 16 := by
  obtain ⟨u, v, hv, heq, hports⟩ : ∃ u v : State,
      v = (u.writeLevels fun _ => true).post [.planning, .signalling, .announcement] .restarted (.port .planning) ∧
        s.resetPicture = v.settle v ∧ ∀ q, (u.port q).notices = [] :=
    ⟨_, _, rfl, rfl, fun q => by cases q <;> rfl⟩
  rw [heq, hv]
  refine (State.settle_moved (out := none) (join := none) _ _).fits p (State.post_fits _ _ _ _ p ?_)
  show (u.port p).notices.length ≤ 16
  rw [hports]
  exact Nat.zero_le _

theorem loadNotices_length (store : Store) : (loadNotices store).length ≤ 16 := by
  unfold loadNotices
  cases store.configuration.good <;> cases store.dials.good <;> decide

theorem State.restart_notices (store : Store) (pending : List Instr) (p : PortId) :
    ((State.restart store pending).port p).notices.length ≤ 16 := by
  obtain ⟨u, heq, hports⟩ : ∃ u : State,
      State.restart store pending = (u.writeLevels fun _ => true).recompose.dispatch.settleAttention ∧
        ∀ q, (u.port q).notices.length ≤ 16 :=
    ⟨_, rfl, fun q => by
      cases q with
      | planning => exact loadNotices_length store
      | signalling | announcement => exact Nat.le_of_ble_eq_true rfl⟩
  rw [heq]
  refine (State.settleAttention_moved (out := none) (join := none) _).fits p ?_
  refine (State.dispatch_moved (out := none) (join := none) _).fits p ?_
  exact (State.recompose_moved (out := none) (join := none) _).fits p (hports p)

/-- No command lets a notice list grow beyond its 16 places (R185). -/
theorem exec_notices {i : Instr} {s t : State} (h : exec i s = .next t) : s.NoticesFit t := by
  by_cases hi : resetsPicture i = false
  · obtain ⟨out, join, hmoved, -, -⟩ := exec_carried h hi
    exact hmoved.fits
  cases i with
  | powerOn =>
    exact execPowerOn_rel (R := s.NoticesFit) h (.refl s) fun p _ => State.restart_notices s.store s.pending p
  | resetPin =>
    exact State.answer_rel (R := s.NoticesFit) h (.refl s) fun p _ => State.restart_notices s.store s.pending p
  | powerLoss cut =>
    exact State.answer_rel (R := s.NoticesFit) h (.refl s) fun p _ => by cases p <;> exact Nat.zero_le _
  | rset p =>
    refine State.takeTel_rel (R := s.NoticesFit) (owner := fun _ u => (u.resetPicture, Answer.accept .none)) h (.refl s)
      (fun u tel a hu => hu.trans (State.NoticesFit.updPort fun hn => hn)) fun _ q _ => State.resetPicture_notices s q
  | _ => exact absurd rfl hi

end notices

/-! ## Buffer, service and reply -/

/-- The buffer, the service and the reply of a port are in step (R181, R182). -/
def Port.InStep (r : Port) : Prop :=
  r.buffer.length ≤ 2 ∧ (r.service = .idle ↔ r.buffer = []) ∧ (r.service = .replying ↔ r.reply.isSome = true)

/-- The buffers, services and replies of `t` are those of `s`. -/
def State.LinksStand (s t : State) : Prop :=
  ∀ p, (t.port p).buffer = (s.port p).buffer ∧ (t.port p).service = (s.port p).service ∧ (t.port p).reply = (s.port p).reply

theorem State.LinksStand.of_link {s t : State} (h : ∀ p, t.link p = s.link p) : s.LinksStand t := by
  intro p
  have hbuffer : (t.link p).buffer = (s.link p).buffer := by rw [h]
  have hservice : (t.link p).service = (s.link p).service := by rw [h]
  have hreply : (t.link p).reply = (s.link p).reply := by rw [h]
  exact ⟨hbuffer, hservice, hreply⟩

theorem State.LinksStand.refl (s : State) : s.LinksStand s := fun _ => ⟨rfl, rfl, rfl⟩

theorem State.LinksStand.trans {s t u : State} (h : s.LinksStand t) (k : t.LinksStand u) : s.LinksStand u := fun p =>
  ⟨(k p).1.trans (h p).1, (k p).2.1.trans (h p).2.1, (k p).2.2.trans (h p).2.2⟩

theorem State.LinksStand.inStep {s t : State} (h : s.LinksStand t) {p : PortId} (hs : (s.port p).InStep) :
    (t.port p).InStep := by
  obtain ⟨hbuffer, hservice, hreply⟩ := h p
  unfold Port.InStep
  rwa [hbuffer, hservice, hreply]

/-- Every port of `t` is in step where those of `s` are. -/
def State.KeepsStep (s t : State) : Prop := (∀ p, (s.port p).InStep) → ∀ p, (t.port p).InStep

theorem State.KeepsStep.refl (s : State) : s.KeepsStep s := id

theorem State.LinksStand.keepsStep {s t : State} (h : s.LinksStand t) : s.KeepsStep t := fun hs _ => h.inStep (hs _)

theorem State.KeepsStep.of_link {s t : State} (h : ∀ p, t.link p = s.link p) : s.KeepsStep t :=
  (State.LinksStand.of_link h).keepsStep

theorem State.updPort_keepsStep (s : State) (p : PortId) {f : Port → Port} (h : (s.port p).InStep → (f (s.port p)).InStep) :
    s.KeepsStep (s.updPort p f) := by
  intro hs q
  rw [State.port_updPort]
  split
  · exact h (hs p)
  · exact hs q

theorem Port.frameIn_inStep (tel : Tel) {r : Port} (h : r.InStep) : (r.frameIn tel).InStep := by
  obtain ⟨hlen, hidle, hreply⟩ := h
  unfold Port.frameIn Port.offer
  dsimp only
  split
  · next hroom =>
    refine ⟨?_, ?_, ?_⟩
    · dsimp only
      rw [List.length_append, List.length_singleton]
      omega
    · dsimp only
      split
      · simp
      · next hs => exact iff_of_false hs (by simp)
    · dsimp only
      split
      · next hs =>
        rw [hs] at hreply
        simpa using hreply
      · exact hreply
  · exact ⟨hlen, hidle, hreply⟩

theorem Port.replyDone_inStep {r : Port} (h : r.InStep) : r.replyDone.InStep := by
  obtain ⟨hlen, hidle, hreply⟩ := h
  unfold Port.replyDone
  split
  · refine ⟨?_, ?_, ?_⟩
    · dsimp only
      rw [List.length_tail]
      omega
    · dsimp only
      split
      · next ht => simp [ht]
      · next ht => simp [ht]
    · dsimp only
      split <;> simp
  · exact ⟨hlen, hidle, hreply⟩

theorem State.serving_some {s : State} {p : PortId} {tel : Tel} (h : s.serving p = some tel) :
    (s.port p).service = .serving ∧ (s.port p).buffer ≠ [] := by
  unfold State.serving at h
  split at h
  · next hs hb => exact ⟨hs, by rw [hb]; nofun⟩
  · cases h

/-- A reply to a telegram that a port is taking (R182). -/
theorem State.answerTel_keepsStep {s u : State} (hu : s.LinksStand u) {p : PortId} {tel : Tel}
    (h : s.serving p = some tel) (a : Answer) : s.KeepsStep (u.answerTel p tel a) := by
  intro hs
  refine State.updPort_keepsStep u p (fun hp => ⟨hp.1, ?_, ?_⟩) (hu.keepsStep hs)
  · refine iff_of_false nofun ?_
    show (u.port p).buffer ≠ []
    rw [(hu p).1]
    exact (State.serving_some h).2
  · exact iff_of_true rfl rfl

theorem State.takeWith_keepsStep {α : Type} {done : State → Answer → Answer} {p : PortId} {k : Kind}
    {read : List Octet → Option α} {owner : α → State → State × Answer} {s t : State}
    (h : s.takeWith done p k read owner = .next t) (howner : ∀ f q, (owner f s).1.link q = s.link q) : s.KeepsStep t := by
  unfold State.takeWith at h
  refine State.answer_rel (R := s.KeepsStep) h (.refl s) ?_
  split
  · exact .refl s
  · next tel htel =>
    obtain ⟨hserving, -⟩ := Option.filter_eq_some_iff.1 htel
    dsimp only
    split
    · exact State.answerTel_keepsStep (.refl s) hserving _
    · exact State.answerTel_keepsStep (.of_link (howner _)) hserving _

theorem State.takeTel_keepsStep {α : Type} {p : PortId} {k : Kind} {read : List Octet → Option α}
    {owner : α → State → State × Answer} {s t : State} (h : s.takeTel p k read owner = .next t)
    (howner : ∀ f q, (owner f s).1.link q = s.link q) : s.KeepsStep t := State.takeWith_keepsStep h howner

theorem State.fallSilent_linksStand (p : PortId) (s : State) : s.LinksStand (s.fallSilent p) := by
  have hlive : s.LinksStand (s.updPort p fun r => { r with live := false }) := fun q => by
    rw [State.port_updPort]
    split
    · next hq => rw [hq]; exact ⟨rfl, rfl, rfl⟩
    · exact ⟨rfl, rfl, rfl⟩
  refine hlive.trans (.of_link fun q => ?_)
  unfold State.fallSilent
  dsimp only
  split <;> simp

theorem State.judgeLimits_linksStand (s : State) : s.LinksStand s.judgeLimits := by
  have hport : ∀ (u : State) (p : PortId), u.LinksStand (u.judgePort p) := fun u p => by
    unfold State.judgePort
    split
    · exact State.fallSilent_linksStand p u
    · exact .refl u
  unfold State.judgeLimits
  dsimp only
  refine State.LinksStand.trans ?_ (hport _ _)
  refine State.LinksStand.trans ?_ (hport _ _)
  refine State.LinksStand.trans ?_ (hport _ _)
  split
  · exact .of_link fun q => State.enterHoldover_link q s
  · exact .refl s

theorem State.second_linksStand (s : State) : s.LinksStand s.second := by
  have hcount : ∀ (u : State) (x : TimeBase), u.LinksStand { u.countSecond with time := x } := fun u x p => by
    cases p <;> exact ⟨rfl, rfl, rfl⟩
  have hafter := (State.judgeLimits_linksStand s).trans (hcount _ s.judgeLimits.countSecond.time.advance)
  unfold State.second
  dsimp only
  split
  · exact hafter.trans (.of_link fun p => by rw [State.settle_link, State.minuteAdvanced_link])
  · split
    · exact hafter
    · exact hafter.trans (.of_link fun p => State.settle_link p _ s)

theorem State.restart_inStep (store : Store) (pending : List Instr) (p : PortId) :
    ((State.restart store pending).port p).InStep := by
  have hlink : (State.restart store pending).link p = (Port.reset []).link := by
    simp only [State.restart, State.settleAttention_link, State.dispatch_link, State.resetValues,
      State.recompose_link, State.writeLevels_link]
    cases p <;> rfl
  have hfresh : ((State.restart store pending).link p).InStep := by
    rw [hlink]
    exact ⟨Nat.zero_le 2, iff_of_true rfl rfl, iff_of_false nofun nofun⟩
  exact hfresh

/-! ## Every command -/

/-- No command puts the buffer, the service and the reply of a port out of step (R181, R182). -/
theorem exec_keepsStep {i : Instr} {s t : State} (h : exec i s = .next t) : s.KeepsStep t := by
  have hself := State.KeepsStep.refl s
  have hlink : ∀ {u : State}, s.answer u = .next t → (∀ q, u.link q = s.link q) → s.KeepsStep t := fun h hu =>
    State.answer_rel (R := s.KeepsStep) h hself (.of_link hu)
  have hiff : ∀ {u : State} {c : Prop} [Decidable c], s.answer (if c then u else s) = .next t →
      (∀ q, u.link q = s.link q) → s.KeepsStep t := fun h hu =>
    State.answer_ite_rel (R := s.KeepsStep) h hself fun _ => .of_link hu
  cases i with
  | powerOn =>
    exact execPowerOn_rel (R := s.KeepsStep) h hself fun _ p => State.restart_inStep s.store s.pending p
  | resetPin =>
    exact State.answer_rel (R := s.KeepsStep) h hself fun _ p => State.restart_inStep s.store s.pending p
  | powerLoss cut =>
    refine State.answer_rel (R := s.KeepsStep) h hself fun _ p => ?_
    cases p <;> exact ⟨Nat.zero_le 2, iff_of_true rfl rfl, iff_of_false nofun nofun⟩
  | telegramFrameEnd p ms octets =>
    refine State.answer_rel (R := s.KeepsStep) h hself ?_
    split
    · exact State.updPort_keepsStep (s.atMs ms) p (Port.frameIn_inStep _)
    · exact hself
  | replySent p ms =>
    exact State.answer_ite_rel (R := s.KeepsStep) h hself fun _ =>
      State.updPort_keepsStep (s.atMs ms) p Port.replyDone_inStep
  | abortSequence p => exact hlink h fun _ => rfl
  | strayPanelOctets octets => exact hlink h fun _ => rfl
  | unknown p =>
    refine State.answer_rel (R := s.KeepsStep) h hself ?_
    split
    · next tel htel =>
      split
      · exact State.answerTel_keepsStep (.refl s) htel _
      · exact hself
    · exact hself
  | plan p => exact State.takeTel_keepsStep h fun f q => planOwner_link q f s
  | amnd p => exact State.takeTel_keepsStep h fun f q => amndOwner_link q f s
  | dlay p => exact State.takeTel_keepsStep h fun f q => dlayOwner_link q f s
  | canc p => exact State.takeTel_keepsStep h fun f q => cancOwner_link q f s
  | rins p => exact State.takeTel_keepsStep h fun f q => rinsOwner_link q f s
  | plat p => exact State.takeTel_keepsStep h fun f q => platOwner_link q f s
  | pred p => exact State.takeTel_keepsStep h fun f q => predOwner_link q f s
  | rdys p => exact State.takeTel_keepsStep h fun f q => rdysOwner_link q f s
  | dept p => exact State.takeTel_keepsStep h fun f q => deptOwner_link q f s
  | read p => exact State.takeTel_keepsStep h fun f q => readOwner_link q f s
  | csta p => exact State.takeTel_keepsStep h fun f q => cstaOwner_link q f s
  | time p => exact State.takeWith_keepsStep h fun f q => timeOwner_link q p f s
  | take p => exact State.takeTel_keepsStep (owner := fun _ => takeOwner) h fun _ q => takeOwner_link q s
  | spkn p => exact State.takeTel_keepsStep h fun f q => spknOwner_link q f s
  | zone p => exact State.takeTel_keepsStep h fun f q => zoneOwner_link q f s
  | note p => exact State.takeTel_keepsStep h fun f q => noteOwner_link q f s
  | nclr p => exact State.takeTel_keepsStep h fun f q => nclrOwner_link q f s
  | wall p => exact State.takeTel_keepsStep h fun f q => wallOwner_link q f s
  | dial p => exact State.takeTel_keepsStep h fun f q => dialOwner_link q f s
  | conf p => exact State.takeTel_keepsStep h fun f q => confOwner_link q f s
  | csav p =>
    exact State.takeTel_keepsStep (owner := fun _ u => (u.saveConfiguration, Answer.accept .none)) h fun _ q =>
      State.saveConfiguration_link q s
  | rset p =>
    exact State.takeTel_keepsStep (owner := fun _ u => (u.resetPicture, Answer.accept .none)) h fun _ q =>
      State.resetPicture_link q s
  | poll p => exact State.takeTel_keepsStep (owner := fun _ => pollOwner p) h fun _ q => pollOwner_link q p s
  | silenceExpiry p =>
    exact State.answer_ite_rel (R := s.KeepsStep) h hself fun _ =>
      ((State.fallSilent_linksStand p s).trans (.of_link fun q => State.settle_link q _ s)).keepsStep
  | runningSecond => exact State.answer_rel (R := s.KeepsStep) h hself (State.second_linksStand s).keepsStep
  | minuteAdvance => exact State.answer_ite_rel (R := s.KeepsStep) h hself fun _ => (State.second_linksStand s).keepsStep
  | holdoverExpiry => exact hiff h fun q => by rw [State.settleAttention_link, State.enterHoldover_link]
  | predictionStale run =>
    refine hlink h fun q => ?_
    split
    · split <;> simp
    · rfl
  | speakTimeout cue =>
    refine hlink h fun q => ?_
    split
    · split <;> simp
    · rfl
  | gapEnd zone => exact hiff h fun q => State.settleAttention_link _ q
  | noticeExpiry number => exact hiff h fun q => State.removeNotice_link q number s
  | dwellExpiry =>
    refine hlink h fun q => ?_
    split <;> simp
  | panelFrameEnd ms =>
    refine hlink h fun q => ?_
    split <;> rfl
  | panelReplyReceived ms octets =>
    refine hlink h fun q => ?_
    split <;> simp
  | replyWindowClose ms =>
    refine hlink h fun q => ?_
    split
    · split <;> simp
    · rfl
  | keepaliveDue ms addr => exact hiff h fun q => State.dispatch_link q (s.atMs ms)
  | probeDue ms addr => exact hiff h fun q => State.dispatch_link q (s.atMs ms)
  | intervalEnd ms => exact hiff h fun q => State.endInterval_link q (s.atMs ms)
  | passTrigger ms =>
    refine hiff h fun q => ?_
    dsimp only
    split <;> simp
  | lightConversionComplete ms value =>
    refine hlink h fun q => ?_
    split <;> simp
  | lineCheckRequest ms line =>
    refine hlink h fun q => ?_
    dsimp only
    split <;> rfl
  | lineCheckComplete ms value =>
    refine hlink h fun q => ?_
    split <;> rfl
  | nextImpulseTime ms line =>
    refine hlink h fun q => ?_
    dsimp only
    split <;> rfl
  | impulseEnd ms line =>
    refine hlink h fun q => ?_
    dsimp only
    split <;> simp

theorem State.portsOk_iff (s : State) :
    s.PortsOk ↔ (∀ p, (s.port p).notices.length ≤ 16) ∧ ∀ p, (s.port p).InStep := by
  constructor
  · rintro ⟨hp, hs, ha⟩
    exact ⟨fun p => by cases p; exacts [hp.1, hs.1, ha.1], fun p => by cases p; exacts [hp.2, hs.2, ha.2]⟩
  · rintro ⟨hnotices, hstep⟩
    exact ⟨⟨hnotices .planning, hstep .planning⟩, ⟨hnotices .signalling, hstep .signalling⟩,
      ⟨hnotices .announcement, hstep .announcement⟩⟩

theorem exec_portsOk {i : Instr} {s t : State} (h : exec i s = .next t) (hs : s.PortsOk) : t.PortsOk := by
  obtain ⟨hnotices, hstep⟩ := (State.portsOk_iff s).1 hs
  exact (State.portsOk_iff t).2 ⟨fun p => exec_notices h p (hnotices p), exec_keepsStep h hstep⟩

/-- Settles O59: the panels, the levels and the bus by how each command ends; the sensing unit, the lines and the ports by
what each command does to them. -/
theorem panelsSensorsLinesAndPortsStayWhole : Obligations.PanelsSensorsLinesAndPortsStayWhole := by
  intro s t h
  obtain rfl | ⟨i, rest, h⟩ := step_cases h
  · exact ⟨fun _ => id, id, id, id, id, fun _ _ => id⟩
  · have hsound := exec_sound h
    have hsense := exec_senseOk h
    have hlines := exec_linesOk h
    have hports := exec_portsOk h
    exact ⟨hsound.panels, hsound.bus, hsense, hlines, hports, hsound.levels⟩

end Sys2Proof.Machine
end

section
/-! The wall under every command (R117, R121, R122, R126), and what a current picture shows (R79, R111 to R115, R121). -/
namespace Sys2Proof.Machine

open Sys2Proof

/-! ## The rotation list formed afresh -/

/-- The notices in order of priority are the posted ones. -/
theorem posted_perm (l : List Posted) (h : ∀ n ∈ l, n.priority ≤ 3) :
    (l.filter (·.priority = 0) ++ l.filter (·.priority = 1) ++ l.filter (·.priority = 2) ++ l.filter (·.priority = 3)).Perm
      l := by
  induction l with
  | nil => exact .refl []
  | cons n l ih =>
    have hrest := ih fun m hm => h m (List.mem_cons_of_mem n hm)
    have hn := h n List.mem_cons_self
    obtain hp | hp | hp | hp : n.priority = 0 ∨ n.priority = 1 ∨ n.priority = 2 ∨ n.priority = 3 := by omega
    all_goals simp only [List.filter_cons, hp, decide_true, decide_false, if_true, if_false, Bool.false_eq_true,
      Nat.reduceEqDiff, OfNat.ofNat_ne_zero, OfNat.zero_ne_ofNat, one_ne_zero, zero_ne_one, List.cons_append]
    · exact hrest.cons n
    all_goals
      simp only [List.append_assoc, List.cons_append] at hrest ⊢
    · exact List.perm_middle.trans (hrest.cons n)
    · rw [← List.append_assoc]
      refine List.perm_middle.trans ?_
      rw [List.append_assoc]
      exact hrest.cons n
    · rw [← List.append_assoc, ← List.append_assoc]
      refine List.perm_middle.trans ?_
      rw [List.append_assoc, List.append_assoc]
      exact hrest.cons n

/-- The delay items of the rotation (R121). -/
def State.delayItems (s : State) : List Entry :=
  s.displayed.filter fun e => e.awaiting && s.inForce.delayThreshold ≤ e.dd

theorem State.delayItems_sublist (s : State) : s.delayItems.Sublist s.table.entries :=
  List.filter_sublist.trans List.filter_sublist

theorem State.freshItems_perm {s : State} (h : s.WallOk) :
    s.freshItems.Perm ((s.wall.posted.map fun n => Item.note n.number) ++ s.delayItems.map fun e => Item.delay e.run) := by
  obtain ⟨-, -, hposted, -⟩ := h
  have hnotes := (posted_perm s.wall.posted fun n hn => (hposted n hn).2.2.1).map fun n => Item.note n.number
  simp only [List.map_append] at hnotes
  exact hnotes.append_right _

theorem State.freshItems_ok {s : State} (h : s.WallOk) (ht : s.Tabled) :
    s.freshItems.Nodup ∧ s.freshItems.length ≤ 108 := by
  have hperm := State.freshItems_perm h
  obtain ⟨hlen, hnodup, -⟩ := h
  obtain ⟨⟨-, hruns, hentries, -⟩, -⟩ := ht
  have hsub := State.delayItems_sublist s
  refine ⟨hperm.nodup_iff.2 (List.nodup_append.2 ⟨?_, ?_, ?_⟩), ?_⟩
  · have := hnodup.map (f := Item.note) fun a b hab => by injection hab
    rwa [List.map_map] at this
  · have := (hruns.sublist (hsub.map (·.run))).map (f := Item.delay) fun a b hab => by injection hab
    rwa [List.map_map] at this
  · intro a ha b hb hab
    obtain ⟨n, -, rfl⟩ := List.mem_map.1 ha
    obtain ⟨e, -, rfl⟩ := List.mem_map.1 hb
    cases hab
  · rw [hperm.length_eq, List.length_append, List.length_map, List.length_map]
    have := hsub.length_le
    omega

theorem State.rotate_ok {s : State} (hw : s.WallOk) (hfresh : s.freshItems.Nodup ∧ s.freshItems.length ≤ 108) :
    s.rotate.WallOk := by
  obtain ⟨hlen, hnodup, hposted, hmode, -, -, -, -, hdwell⟩ := hw
  have hwith : ∀ {w : Wall}, w.posted = s.wall.posted → w.mode = s.wall.mode → w.items = s.freshItems →
      (∀ c ∈ w.current, c ∈ s.freshItems) → (w.current = none ↔ s.freshItems = []) → (w.current = none ↔ w.dwell = none) →
      w.Ok := fun hp hm hi hc hn hd => by
    unfold Wall.Ok
    rw [hp, hm, hi]
    exact ⟨hlen, hnodup, hposted, hmode, hfresh.1, hfresh.2, hc, hn, hd⟩
  rw [State.wallOk_iff]
  unfold State.rotate
  dsimp only
  split
  · next hc hi =>
    refine hwith rfl rfl rfl (fun c hm => ?_) (iff_of_true hc hi) hdwell
    rw [show s.wall.current = none from hc] at hm
    cases hm
  · next i l hc hi =>
    refine hwith rfl rfl rfl (fun c hm => ?_) (by rw [hi]; exact iff_of_false nofun nofun) (iff_of_false nofun nofun)
    cases hm
    rw [hi]
    exact List.mem_cons_self
  · next hc hi => exact hwith rfl rfl rfl (fun c hm => by cases hm) (iff_of_true rfl hi) (iff_of_true rfl rfl)
  · next c i l hc hi =>
    have hne : s.freshItems ≠ [] := by rw [hi]; nofun
    have hcurrent : s.wall.current ≠ none := by rw [hc]; nofun
    split
    · next hcontains =>
      have hmem : c ∈ s.freshItems := List.contains_iff_mem.1 hcontains
      have hall : ∀ x ∈ s.wall.current, x ∈ s.freshItems := fun x hx => by
        rw [hc] at hx
        cases hx
        exact hmem
      split
      · exact hwith rfl rfl rfl hall (iff_of_false hcurrent hne) hdwell
      · exact hwith rfl rfl rfl hall (iff_of_false hcurrent hne) hdwell
    · refine hwith rfl rfl rfl (fun x hx => ?_) (iff_of_false nofun hne) (iff_of_false nofun nofun)
      cases hx
      exact successor_mem _ _ c i (by rw [hi]; exact List.mem_cons_self)

theorem State.compose_ok {s : State} (hw : s.WallOk) (ht : s.Tabled) : s.compose.WallOk := by
  have hremap : s.remap.WallOk := hw
  exact State.rotate_ok hremap (State.freshItems_ok hremap ht)

/-! ## The wall under the moves -/

theorem State.cueEnded_wall (run : Nat) (s : State) : (s.cueEnded run).wall = s.wall := by
  unfold State.cueEnded
  split <;> rfl

theorem State.voidRecord_wall (run : Nat) (s : State) : (s.voidRecord run).wall = s.wall := by
  unfold State.voidRecord
  split
  · show (State.post ..).wall = _
    rw [State.post_wall]
    rfl
  · rfl

theorem State.takeOff_wall (run : Nat) (s : State) : (s.takeOff run).wall = s.wall := by
  unfold State.takeOff
  show (State.voidRecord ..).wall = _
  rw [State.voidRecord_wall]
  split <;> rfl

theorem State.WallOk.of_wall {s t : State} (h : s.WallOk) (hw : t.wall = s.wall) : t.WallOk := by
  rw [State.wallOk_iff, hw]
  exact h

theorem State.Move.wallOk {out join : Option Nat} {s t : State} (h : State.Move out join s t) (ht : s.Tabled)
    (hs : s.WallOk) : t.WallOk := by
  cases h with
  | aside h => exact hs.of_wall h.wall
  | compose => exact State.compose_ok hs ht
  | wall w h => exact h hs
  | takeOff run => exact hs.of_wall (State.takeOff_wall run s)
  | cueEnded run => exact hs.of_wall (State.cueEnded_wall run s)
  | endCue c => exact hs.of_wall (State.cueEnded_wall c.run _)
  | voidRecord run => exact hs.of_wall (State.voidRecord_wall run s)
  | informAll => exact hs.of_wall (State.informAll_wall s)
  | _ => exact hs

theorem State.Moved.wallOk {out join : Option Nat} {s t : State} (h : State.Moved out join s t) (ht : s.Tabled)
    (hs : s.WallOk) : t.WallOk := by
  induction h with
  | refl => exact hs
  | tail hchain hstep ih => exact hstep.wallOk (State.Moved.tabled hchain ht) ih

theorem EntriesOk.nil (confirm : Nat) : EntriesOk confirm [] :=
  ⟨List.Pairwise.nil, List.nodup_nil, Nat.zero_le _, fun _ h => absurd h List.not_mem_nil⟩

theorem Wall.Ok.cleared {w : Wall} (hp : w.posted = []) (hm : w.mode = .normal) (hi : w.items = []) (hc : w.current = none)
    (hd : w.dwell = none) : w.Ok := by
  unfold Wall.Ok
  rw [hp, hm, hi, hc, hd]
  exact ⟨Nat.zero_le _, List.nodup_nil, nofun, nofun, List.nodup_nil, Nat.zero_le _, nofun, iff_of_true rfl rfl,
    iff_of_true rfl rfl⟩

theorem State.resetPicture_wallOk {s : State} (h : s.ConfigOk) : s.resetPicture.WallOk := by
  obtain ⟨u, v, hv, heq, hin, hentries, hwall⟩ : ∃ u v : State,
      v = (u.writeLevels fun _ => true).post [.planning, .signalling, .announcement] .restarted (.port .planning) ∧
        s.resetPicture = v.settle v ∧ u.inForce = s.inForce.withStructural s.pendingCfg ∧ u.table.entries = [] ∧
          u.wall.Ok := ⟨_, _, rfl, rfl, rfl, rfl, Wall.Ok.cleared rfl rfl rfl rfl rfl⟩
  have hv1 : v.Tabled := by
    unfold State.Tabled
    rw [hv, State.post_table, State.post_inForce]
    show EntriesOk _ u.table.entries ∧ 1 ≤ u.inForce.confirm
    rw [hentries, hin]
    exact ⟨EntriesOk.nil _, (h.1.withStructural h.2.1).one_le_confirm⟩
  have hv2 : v.WallOk := by
    rw [State.wallOk_iff, hv, State.post_wall]
    exact hwall
  rw [heq]
  exact (State.settle_moved (out := none) (join := none) v v).wallOk hv1 hv2

theorem State.restart_wallOk {store : Store} (h : store.configuration.contents.Ok) (pending : List Instr) :
    (State.restart store pending).WallOk := by
  obtain ⟨u, heq, hin, hentries, hwall⟩ : ∃ u : State,
      State.restart store pending = u.recompose.dispatch.settleAttention ∧
        u.inForce = loadParams store.configuration ∧ u.table.entries = [] ∧ u.wall.Ok :=
    ⟨_, rfl, rfl, rfl, Wall.Ok.cleared rfl rfl rfl rfl rfl⟩
  have hu : u.Tabled := by
    unfold State.Tabled
    rw [hentries, hin]
    exact ⟨EntriesOk.nil _, (loadParams_ok h).one_le_confirm⟩
  rw [heq]
  refine State.WallOk.of_wall ?_ (State.settleAttention_wall _)
  refine State.WallOk.of_wall ?_ (State.dispatch_wall _)
  exact (State.recompose_moved (out := none) (join := none) u).wallOk hu hwall

/-- Every command keeps the wall (R117, R121, R122, R126). -/
theorem exec_wallOk {i : Instr} {s t : State} (h : exec i s = .next t) (hconf : s.ConfigOk) (htab : s.TableOk)
    (hs : s.WallOk) : t.WallOk := by
  by_cases hi : resetsPicture i = false
  · obtain ⟨out, join, hmoved, -, -⟩ := exec_carried h hi
    exact hmoved.wallOk (hconf.tabled htab) hs
  cases i with
  | powerOn => exact execPowerOn_rel (R := State.WallOk) h hs (State.restart_wallOk hconf.2.2 _)
  | resetPin => exact State.answer_rel (R := State.WallOk) h hs (State.restart_wallOk hconf.2.2 _)
  | powerLoss cut => exact State.answer_rel (R := State.WallOk) h hs (Wall.Ok.cleared rfl rfl rfl rfl rfl)
  | rset p =>
    exact State.takeTel_rel (R := State.WallOk) (owner := fun _ u => (u.resetPicture, Answer.accept .none)) h hs
      (fun _ _ _ hu => hu) fun _ => State.resetPicture_wallOk hconf
  | _ => exact absurd rfl hi

end Sys2Proof.Machine
end

section
/-! What a current picture shows: the rows, the gates, the rotation and every panel's desired tag (R79, R111 to R115,
R121). -/
namespace Sys2Proof.Machine

open Sys2Proof

/-! ## The row map -/

/-- The key of an ACTIVE row panel. -/
def Panel.rowKey (p : Panel) : Option (Nat × Nat) :=
  match p.role, p.state with
  | .row i, .active => some (i, p.addr)
  | _, _ => none

theorem Panel.rowKey_iff {p : Panel} {i a : Nat} :
    p.rowKey = some (i, a) ↔ p.role = .row i ∧ p.state = .active ∧ p.addr = a := by
  unfold Panel.rowKey
  cases p.role <;> cases p.state <;> simp

theorem State.activeRows_eq (s : State) :
    s.activeRows = ((s.bus.panels.filterMap Panel.rowKey).foldr insertRow []).map (·.2) := rfl

theorem insertRow_perm (k : Nat × Nat) (l : List (Nat × Nat)) : (insertRow k l).Perm (k :: l) := by
  induction l with
  | nil => exact .refl _
  | cons x l ih =>
    unfold insertRow
    split
    · exact .refl _
    · exact (ih.cons x).trans (.swap k x l)

theorem sortRows_perm (l : List (Nat × Nat)) : (l.foldr insertRow []).Perm l := by
  induction l with
  | nil => exact .refl _
  | cons x l ih => exact (insertRow_perm x _).trans (ih.cons x)

/-- The order of the row map: row index, then address (R112). -/
def RowLt (a b : Nat × Nat) : Prop := a.1 < b.1 ∨ (a.1 = b.1 ∧ a.2 < b.2)

theorem rowKeyLt_iff {a b : Nat × Nat} : rowKeyLt a b = true ↔ RowLt a b := by
  simp [rowKeyLt, RowLt]

theorem RowLt.trans {a b c : Nat × Nat} (h : RowLt a b) (k : RowLt b c) : RowLt a c := by
  unfold RowLt at *
  omega

theorem RowLt.of_not {a b : Nat × Nat} (h : ¬ RowLt a b) (hne : a ≠ b) : RowLt b a := by
  have hne : a.1 ≠ b.1 ∨ a.2 ≠ b.2 := by
    by_contra hc
    push Not at hc
    exact hne (Prod.ext hc.1 hc.2)
  unfold RowLt at *
  omega

theorem insertRow_sorted {k : Nat × Nat} {l : List (Nat × Nat)} (h : l.Pairwise RowLt) (hk : k ∉ l) :
    (insertRow k l).Pairwise RowLt := by
  induction l with
  | nil => exact List.pairwise_singleton _ _
  | cons x l ih =>
    obtain ⟨hx, hl⟩ := List.pairwise_cons.1 h
    unfold insertRow
    split
    · next hlt =>
      have hlt := rowKeyLt_iff.1 hlt
      refine List.pairwise_cons.2 ⟨fun y hy => ?_, h⟩
      obtain rfl | hy := List.mem_cons.1 hy
      · exact hlt
      · exact hlt.trans (hx y hy)
    · next hlt =>
      have hxk : RowLt x k := RowLt.of_not (fun hc => hlt (rowKeyLt_iff.2 hc)) fun hc => hk (hc ▸ List.mem_cons_self)
      refine List.pairwise_cons.2 ⟨fun y hy => ?_, ih hl fun hc => hk (List.mem_cons_of_mem x hc)⟩
      obtain rfl | hy := List.mem_cons.1 ((insertRow_perm k l).subset hy)
      · exact hxk
      · exact hx y hy

theorem sortRows_sorted {l : List (Nat × Nat)} (h : l.Nodup) : (l.foldr insertRow []).Pairwise RowLt := by
  induction l with
  | nil => exact List.Pairwise.nil
  | cons x l ih =>
    obtain ⟨hx, hl⟩ := List.nodup_cons.1 h
    exact insertRow_sorted (ih hl) fun hc => hx ((sortRows_perm l).subset hc)

theorem RowLt.nodup {l : List (Nat × Nat)} (h : l.Pairwise RowLt) : l.Nodup :=
  h.imp fun {a b} hab heq => by
    rw [heq] at hab
    unfold RowLt at hab
    omega

/-- A list in order is the sorted form of any list of the same members. -/
theorem sortRows_unique {l rows : List (Nat × Nat)} (hl : l.Nodup) (hrows : rows.Pairwise RowLt)
    (hmem : ∀ x, x ∈ rows ↔ x ∈ l) : l.foldr insertRow [] = rows := by
  have hperm : (l.foldr insertRow []).Perm rows :=
    (sortRows_perm l).trans ((List.perm_ext_iff_of_nodup hl (RowLt.nodup hrows)).2 fun x => (hmem x).symm)
  refine hperm.eq_of_pairwise (fun a b _ _ hab hba => ?_) (sortRows_sorted hl) hrows
  exact absurd (hab.trans hba) (by unfold RowLt; omega)

/-! ## Lists by their keys -/

/-- What a partial map keeps of the keys of a list stands in it as before. -/
theorem filterMap_map_sublist {α β γ : Type} {f : α → Option β} {g : β → γ} {k : α → γ}
    (h : ∀ a b, f a = some b → g b = k a) (l : List α) : ((l.filterMap f).map g).Sublist (l.map k) := by
  induction l with
  | nil => exact List.Sublist.refl _
  | cons a l ih =>
    rw [List.filterMap_cons]
    split
    · exact ih.cons _
    · next b hb =>
      rw [List.map_cons, List.map_cons, h a b hb]
      exact ih.cons_cons _

theorem zip_keys_sublist {α β : Type} (l : List α) (r : List β) : ((l.zip r).map (·.1)).Sublist l := by
  induction l generalizing r with
  | nil => simp
  | cons a l ih =>
    cases r with
    | nil => simp
    | cons b r =>
      rw [List.zip_cons_cons, List.map_cons]
      exact (ih r).cons_cons a

/-- In a list that holds a key once a search for the key finds the member of it. -/
theorem find_of_key {β : Type} {l : List (Nat × β)} (h : (l.map (·.1)).Nodup) {a : Nat} {b : β} (hm : (a, b) ∈ l) :
    l.find? (·.1 = a) = some (a, b) := by
  cases hf : l.find? (·.1 = a) with
  | none => exact absurd (List.find?_eq_none.1 hf (a, b) hm) (by simp)
  | some x =>
    have hx : x.1 = a := by simpa using List.find?_some hf
    rw [List.inj_on_of_nodup_map h (List.mem_of_find?_eq_some hf) hm hx]

section shown

variable {s : State}

theorem State.rowKeys_nodup (h : s.PanelsOk) : ((s.bus.panels.filterMap Panel.rowKey).map (·.2)).Nodup := by
  refine h.nodup.sublist (filterMap_map_sublist (fun p x hx => ?_) _)
  obtain ⟨i, a⟩ := x
  exact ((Panel.rowKey_iff.1 hx).2.2).symm

/-- The row map holds the first displayable entries on the ACTIVE row panels in ascending row index (R112). -/
theorem State.activeRows_of_order (h : s.PanelsOk) {rows : List (Nat × Nat)} (hrows : rows.Pairwise RowLt)
    (hmem : ∀ i a, (i, a) ∈ rows ↔ ∃ q ∈ s.bus.panels, q.role = .row i ∧ q.state = .active ∧ q.addr = a) :
    s.activeRows = rows.map (·.2) := by
  rw [State.activeRows_eq, sortRows_unique (State.rowKeys_nodup h).of_map hrows fun x => ?_]
  obtain ⟨i, a⟩ := x
  rw [hmem, List.mem_filterMap]
  exact exists_congr fun p => and_congr_right fun _ => Panel.rowKey_iff.symm

theorem State.rowMap_keys (h : s.PanelsOk) : (s.freshRowMap.map (·.1)).Nodup := by
  refine List.Nodup.sublist (zip_keys_sublist _ _) ?_
  rw [State.activeRows_eq]
  exact (((sortRows_perm _).map _).nodup_iff).2 (State.rowKeys_nodup h)

/-! ## The gates -/

theorem State.divertedFrom_iff {p : Nat} {e : Entry} : s.divertedFrom p e = true ↔ s.SendsFrom p e := by
  simp only [State.divertedFrom, State.SendsFrom, ChangeRec.live, Diverted.holds, Bool.and_eq_true, Bool.or_eq_true,
    decide_eq_true_eq, List.any_eq_true, Bool.not_eq_true', Option.isSome_iff_ne_none, and_assoc]

/-- The entry leaves from platform `p`. -/
def Entry.leaves (p : Nat) (e : Entry) : Bool := e.inService && e.displayed = some p

theorem Entry.leaves_iff {p : Nat} {e : Entry} : e.leaves p = true ↔ e.LeavesFrom p := by
  simp [Entry.leaves, Entry.LeavesFrom]

theorem Entry.stays_iff {p : Nat} {e : Entry} : (!e.leaves p) = true ↔ ¬ e.LeavesFrom p := by
  rw [← Entry.leaves_iff, Bool.not_eq_true', Bool.not_eq_true]

theorem State.diversionEntry_eq (s : State) (p : Nat) :
    s.diversionEntry p = (s.table.entries.takeWhile fun e => !e.leaves p).find? (s.divertedFrom p) := rfl

theorem State.nextAtPlatform_eq (s : State) (p : Nat) : s.nextAtPlatform p = s.table.entries.find? (Entry.leaves p) := rfl

/-- The gate tag is that of the first entry that leaves from the platform or sends passengers from it (R79, R115). -/
theorem State.gateTag_shows (s : State) (p : Nat) : s.GateShows p (s.gateTag p) := by
  refine ⟨fun before e after heq hbefore => ?_, fun hnone => ?_⟩
  · have hstay : ∀ b ∈ before, (!b.leaves p) = true := fun b hb => Entry.stays_iff.2 (hbefore b hb).1
    have hunsent : before.find? (s.divertedFrom p) = none :=
      List.find?_eq_none.2 fun b hb => by rw [State.divertedFrom_iff]; exact (hbefore b hb).2
    refine ⟨fun hsends => ?_, fun hleaves => ?_⟩
    · have hestay : (!e.leaves p) = true := Entry.stays_iff.2 fun hl => hsends.2.2.1 hl.2
      have hentry : s.diversionEntry p = some e := by
        rw [State.diversionEntry_eq, heq, List.takeWhile_append_of_pos hstay,
          List.takeWhile_cons_of_pos (p := fun e => !Entry.leaves p e) hestay, List.find?_append, hunsent, Option.none_or,
          List.find?_cons_of_pos (State.divertedFrom_iff.2 hsends)]
      unfold State.gateTag
      rw [hentry]
    · have hestop : ¬ (!e.leaves p) = true := fun hs => Entry.stays_iff.1 hs hleaves
      have hentry : s.diversionEntry p = none := by
        rw [State.diversionEntry_eq, heq, List.takeWhile_append_of_pos hstay,
          List.takeWhile_cons_of_neg (p := fun e => !Entry.leaves p e) hestop, List.append_nil, hunsent]
      have hnext : s.nextAtPlatform p = some e := by
        rw [State.nextAtPlatform_eq, heq, List.find?_append, List.find?_eq_none.2 fun b hb => by
          rw [Entry.leaves_iff]; exact (hbefore b hb).1, Option.none_or,
          List.find?_cons_of_pos (Entry.leaves_iff.2 hleaves)]
      unfold State.gateTag
      rw [hentry, hnext]
  · have hentry : s.diversionEntry p = none := by
      rw [State.diversionEntry_eq]
      refine List.find?_eq_none.2 fun b hb => ?_
      rw [State.divertedFrom_iff]
      exact (hnone b ((List.takeWhile_sublist _).subset hb)).2
    have hnext : s.nextAtPlatform p = none := by
      rw [State.nextAtPlatform_eq]
      refine List.find?_eq_none.2 fun b hb => ?_
      rw [Entry.leaves_iff]
      exact (hnone b hb).1
    unfold State.gateTag
    rw [hentry, hnext]

theorem State.mem_freshGates {q : Panel} {g : Nat} (hq : q ∈ s.bus.panels) (hrole : q.role = .gate g) :
    (q.addr, s.gateTag g) ∈ s.freshGates :=
  List.mem_filterMap.2 ⟨q, hq, by simp [hrole]⟩

theorem State.freshGates_keys (h : s.PanelsOk) : (s.freshGates.map (·.1)).Nodup := by
  refine h.nodup.sublist (filterMap_map_sublist (fun p x hx => ?_) _)
  split at hx
  · cases hx
    rfl
  · cases hx

/-! ## The notice shown -/

/-- The lower-numbered of the notice found so far and the next. -/
def lowerNumbered (best : Option Posted) (n : Posted) : Option Posted :=
  match best with
  | none => some n
  | some b => if n.number < b.number then some n else best

theorem Wall.shown_eq (w : Wall) : w.shown = (w.posted.filter (·.priority = 0)).foldl lowerNumbered none := rfl

/-- The search of R111 for the lowest-numbered notice finds one no higher than any. -/
theorem foldl_lowest (l : List Posted) : ∀ b : Option Posted,
    ∃ r, r = l.foldl lowerNumbered b ∧
      (∀ x, x ∈ l ∨ b = some x → ∃ n, r = some n ∧ n.number ≤ x.number) ∧ ∀ n, r = some n → n ∈ l ∨ b = some n := by
  induction l with
  | nil => exact fun b => ⟨b, rfl, fun x hx => ⟨x, hx.resolve_left List.not_mem_nil, le_refl _⟩, fun n hn => .inr hn⟩
  | cons m l ih =>
    intro b
    obtain ⟨c, hc, hlow, hmem⟩ : ∃ c : Option Posted,
        c = lowerNumbered b m ∧
        (∀ x, x = m ∨ b = some x → ∃ n, c = some n ∧ n.number ≤ x.number) ∧ ∀ n, c = some n → n = m ∨ b = some n := by
      cases b with
      | none =>
        refine ⟨_, rfl, fun x hx => ?_, fun n hn => .inl (Option.some.inj hn).symm⟩
        obtain rfl | hx := hx
        · exact ⟨x, rfl, le_refl _⟩
        · cases hx
      | some b =>
        unfold lowerNumbered
        refine ⟨_, rfl, fun x hx => ?_, fun n hn => ?_⟩
        · dsimp only
          split
          · next hlt =>
            obtain rfl | hx := hx
            · exact ⟨x, rfl, le_refl _⟩
            · cases hx
              exact ⟨m, rfl, hlt.le⟩
          · next hlt =>
            obtain rfl | hx := hx
            · exact ⟨b, rfl, not_lt.1 hlt⟩
            · cases hx
              exact ⟨b, rfl, le_refl _⟩
        · dsimp only at hn
          split at hn
          · exact .inl (Option.some.inj hn).symm
          · exact .inr hn
    obtain ⟨r, hr, hrlow, hrmem⟩ := ih c
    refine ⟨r, by rw [hr, hc]; rfl, fun x hx => ?_, fun n hn => ?_⟩
    · have hx : (x = m ∨ b = some x) ∨ x ∈ l := by
        obtain hx | hx := hx
        · exact (List.mem_cons.1 hx).imp_left .inl
        · exact .inl (.inr hx)
      obtain hx | hx := hx
      · obtain ⟨n, hn, hnx⟩ := hlow x hx
        obtain ⟨k, hk, hkn⟩ := hrlow n (.inr hn)
        exact ⟨k, hk, hkn.trans hnx⟩
      · exact hrlow x (.inl hx)
    · obtain hn | hn := hrmem n hn
      · exact .inl (List.mem_cons_of_mem m hn)
      · obtain rfl | hn := hmem n hn
        · exact .inl List.mem_cons_self
        · exact .inr hn

/-- The NOTICE mode shows the lowest-numbered notice of priority 0 (R111). -/
theorem Wall.shown_of_lowest {w : Wall} (h : (w.posted.map (·.number)).Nodup) {n : Posted} (hn : n ∈ w.posted)
    (hp : n.priority = 0) (hlow : ∀ m ∈ w.posted, m.priority = 0 → n.number ≤ m.number) : w.shown = some n := by
  obtain ⟨r, hr, hrlow, hrmem⟩ := foldl_lowest (w.posted.filter (·.priority = 0)) none
  obtain ⟨k, hk, hkn⟩ := hrlow n (.inl (List.mem_filter.2 ⟨hn, by simpa using hp⟩))
  have hkmem := (hrmem k hk).resolve_right nofun
  obtain ⟨hkin, hkp⟩ := List.mem_filter.1 hkmem
  have heq : k.number = n.number := le_antisymm hkn (hlow k hkin (by simpa using hkp))
  rw [Wall.shown_eq, ← hr, hk, List.inj_on_of_nodup_map h hkin hn heq]

/-! ## The picture shown -/

theorem State.freshItems_shown (s : State) :
    s.freshItems =
      ([0, 1, 2, 3].flatMap fun k => (s.wall.posted.filter (·.priority = k)).map fun n => Item.note n.number) ++
        ((s.displayed.filter fun e =>
          decide ((e.state = .listed ∨ e.state = .boarding) ∧ s.inForce.delayThreshold ≤ e.dd)).map
            fun e => Item.delay e.run) := by
  have hfilter : (fun e : Entry => e.awaiting && decide (s.inForce.delayThreshold ≤ e.dd)) =
      fun e => decide ((e.state = .listed ∨ e.state = .boarding) ∧ s.inForce.delayThreshold ≤ e.dd) := by
    funext e
    simp [Entry.awaiting]
  unfold State.freshItems State.postedAt
  rw [hfilter]
  simp only [List.flatMap_cons, List.flatMap_nil, List.append_nil, List.append_assoc]

/-- A current picture shows what the rules name (R111 to R113, R115, R121). -/
theorem State.Current.shown (h : s.Current) (hpanels : s.PanelsOk) (hwall : s.WallOk) : s.PictureShown := by
  obtain ⟨hdesired, hmap, hgates, hitems, -⟩ := h
  refine ⟨fun rows hrows hmem => ?_, fun q hq g hg => ⟨s.gateTag g, hgates ▸ State.mem_freshGates hq hg,
    State.gateTag_shows s g⟩, hitems.trans (State.freshItems_shown s), fun q hq => ⟨fun hrole => ?_, fun hrole hmode => ?_,
    fun hrole hmode n hn hp hlow => ?_, fun hmode => ⟨fun i hi => ⟨fun run e hrun he => ?_, fun hnone => ?_⟩,
      fun g hg => ⟨s.gateTag g, ?_, State.gateTag_shows s g⟩, fun hb => ⟨fun i hi => ?_, fun hc => ?_⟩⟩⟩⟩
  · rw [hmap, State.freshRowMap, State.activeRows_of_order hpanels hrows hmem]
  all_goals
    rw [hdesired q hq]
    unfold State.desiredTag
  · rw [if_neg (by simp [Panel.configured, hrole])]
  · rw [if_pos (by simp [Panel.configured, hrole]), hmode]
  · rw [if_pos (by simp [Panel.configured, hrole]), hmode, Wall.shown_of_lowest hwall.2.1 hn hp hlow]
  all_goals
    rw [if_pos (by simp [Panel.configured, *]), hmode]
    unfold State.normalTag
  · have hfind : s.wall.rowMap.find? (·.1 = q.addr) = some (q.addr, run) :=
      find_of_key (by rw [hmap]; exact State.rowMap_keys hpanels) hrun
    have hrunEq : e.run = run := by simpa using List.find?_some he
    simp [hi, hfind, he, hrunEq]
  · have hfind : s.wall.rowMap.find? (·.1 = q.addr) = none :=
      List.find?_eq_none.2 fun x hx hxa => hnone x.2 (by
        have hxa : x.1 = q.addr := by simpa using hxa
        rw [← hxa]
        exact hx)
    simp [hi, hfind]
  · have hfind : s.wall.gateChoice.find? (·.1 = q.addr) = some (q.addr, s.gateTag g) :=
      find_of_key (by rw [hgates]; exact State.freshGates_keys hpanels) (hgates ▸ State.mem_freshGates hq hg)
    simp [hg, hfind]
  · simp [hb, hi]
  · simp [hb, hc]

end shown

/-- Settles O58: the picture current by how each command ends, what it then shows, the attention lines and the wall. -/
theorem thePictureStaysCurrent : Obligations.ThePictureStaysCurrent := by
  intro s t hconf htab htime h
  obtain rfl | ⟨i, rest, h⟩ := step_cases h
  · exact ⟨fun hc => ⟨hc.1, hc.2, fun hp hw => State.Current.shown hc hp hw⟩, id, id⟩
  · have hsound := exec_sound h
    have hwall := exec_wallOk h
    have hwall : s.WallOk → t.WallOk := hwall hconf htab
    refine ⟨fun hc => ?_, hsound.attention ⟨hconf, htab, htime⟩, hwall⟩
    have hcurrent : t.Current := hsound.current ⟨hconf, htab, htime⟩ hc
    exact ⟨hcurrent.1, hcurrent.2, fun hp hw => hcurrent.shown (hsound.panels hconf hp) (hwall hw)⟩

end Sys2Proof.Machine
end

section
/-! PROOF. Telegrams taken: what its owner does with one whose fields fit (R182), the first failing check, and the
telegrams POLL, ZONE, READ and CSTA (R22, R81, R98, R186). -/
namespace Sys2Proof.Machine

open Sys2Proof

/-! ## A telegram handed to its owner -/

/-- What the owner of a telegram taken on port `p` makes of the state, and what it answers (R182). -/
def Telegram.handled (p : PortId) (s : State) : Telegram → State × Answer
  | .plan f => planOwner f s
  | .amnd f => amndOwner f s
  | .dlay f => dlayOwner f s
  | .canc f => cancOwner f s
  | .rins run => rinsOwner run s
  | .plat f => platOwner f s
  | .pred f => predOwner f s
  | .rdys run => rdysOwner run s
  | .dept run => deptOwner run s
  | .csta run => cstaOwner run s
  | .note f => noteOwner f s
  | .nclr number => nclrOwner number s
  | .wall mode => wallOwner mode s
  | .time seconds =>
    ((timeOwner p seconds s).1, completeTime (timeOwner p seconds s).1 (timeOwner p seconds s).2)
  | .dial f => dialOwner f s
  | .conf f => confOwner f s
  | .csav => (s.saveConfiguration, Answer.accept .none)
  | .rset => (s.resetPicture, Answer.accept .none)
  | .read f => readOwner f s
  | .poll => pollOwner p s
  | .take => takeOwner s
  | .spkn f => spknOwner f s
  | .zone f => zoneOwner f s

/-- A telegram taken on a port that accepts it is answered as its owner says. -/
theorem exec_taking {s : State} {p : PortId} {seq : Octet} {tg : Telegram} (h : s.Taking p seq tg) :
    exec (tg.kind.command p) s =
      .next ((tg.handled p s).1.answerTel p (tg.tel seq) (tg.handled p s).2) := by
  obtain ⟨hserve, hport, hfits⟩ := h
  have hread := readTelegram_body tg hfits
  cases tg with
  | csav =>
    exact State.takeTel_owner p .csav readNothing (fun _ u => (u.saveConfiguration, Answer.accept .none)) s _
      hserve rfl hport () rfl
  | rset =>
    exact State.takeTel_owner p .rset readNothing (fun _ u => (u.resetPicture, Answer.accept .none)) s _
      hserve rfl hport () rfl
  | poll => exact State.takeTel_owner p .poll readNothing (fun _ => pollOwner p) s _ hserve rfl hport () rfl
  | take => exact State.takeTel_owner p .take readNothing (fun _ => takeOwner) s _ hserve rfl hport () rfl
  | time n =>
    simp only [readTelegram, Telegram.kind, Option.map_eq_some_iff] at hread
    obtain ⟨f, hf, hfn⟩ := hread
    cases hfn
    exact State.takeWith_owner completeTime p .time readTime (timeOwner p) s _ hserve rfl hport _ hf
  | _ =>
    simp only [readTelegram, Telegram.kind, Option.map_eq_some_iff] at hread
    obtain ⟨f, hf, hfn⟩ := hread
    cases hfn
    exact State.takeTel_owner p _ _ _ s _ hserve rfl hport _ hf

theorem State.Taking.powered {s : State} {p : PortId} {seq : Octet} {tg : Telegram} (h : s.Taking p seq tg) :
    s.powered = true := h.1.1

/-- An owner that refuses with no effect leaves the reply alone (R183). -/
theorem exec_taking_refused {s : State} {p : PortId} {seq : Octet} {tg : Telegram} (h : s.Taking p seq tg) {a : Answer}
    (ha : tg.handled p s = (s, a)) : exec (tg.kind.command p) s = .next (s.answerTel p (tg.tel seq) a) := by
  rw [exec_taking h, ha]

/-- The state after a telegram whose owner keeps the links, and its reply (R182). -/
theorem exec_taking_answered {s u : State} {p : PortId} {seq : Octet} {tg : Telegram} (h : s.Taking p seq tg) {a : Answer}
    (ha : tg.handled p s = (u, a)) (hlink : ∀ q, u.link q = s.link q) :
    exec (tg.kind.command p) s = .next (u.answerTel p (tg.tel seq) a) ∧
      s.Answered (u.answerTel p (tg.tel seq) a) p seq tg a := by
  rw [exec_taking h, ha]
  exact ⟨rfl, State.answered_of_link s u p seq tg a hlink⟩

/-! ## The first check that fails -/

@[simp] theorem firstBad_nil : firstBad [] = none := rfl

@[simp] theorem firstBad_cons (i : Nat) (ok : Bool) (rest : List (Nat × Bool)) :
    firstBad ((i, ok) :: rest) = if ok = true then firstBad rest else some i := by
  cases ok <;> rfl

/-! ## Attention lines settled -/

@[simp] theorem State.settleAttention_port (s : State) (q : PortId) :
    s.settleAttention.port q = { s.port q with attention := s.wantsAttention q } := by
  cases q <;> rfl

theorem State.settleAttention_notices (s : State) (q : PortId) :
    (s.settleAttention.port q).notices = (s.port q).notices := by
  rw [State.settleAttention_port]

/-- A notice posted stands at the end of the lists of the ports named, and moves no other (R185). -/
theorem State.post_port {names : List PortId} (h : names.Nodup) (k : NoticeKind) (x : Subject) (s : State) (q : PortId) :
    (s.post names k x).port q = if q ∈ names then (s.port q).post ⟨k, x, s.time.clock⟩ else s.port q := by
  have hfold : ∀ (l : List PortId) (u : State), l.Nodup →
      (l.foldl (fun t p => t.updPort p (Port.post ⟨k, x, s.time.clock⟩)) u).port q =
        if q ∈ l then (u.port q).post ⟨k, x, s.time.clock⟩ else u.port q := by
    intro l
    induction l with
    | nil => exact fun u _ => rfl
    | cons p l ih =>
      intro u hl
      obtain ⟨hp, hl⟩ := List.nodup_cons.1 hl
      rw [List.foldl_cons, ih _ hl, State.port_updPort]
      by_cases hq : q = p
      · subst hq
        simp [hp]
      · simp [hq]
  exact hfold names s h

/-- A reply begun moves neither a notice list nor a cue (R187). -/
theorem State.answerTel_wantsAttention (p : PortId) (tel : Tel) (a : Answer) (s : State) (q : PortId) :
    (s.answerTel p tel a).wantsAttention q = s.wantsAttention q := by
  cases p <;> cases q <;> rfl

theorem State.settleAttention_wantsAttention (s : State) (q : PortId) :
    s.settleAttention.wantsAttention q = s.wantsAttention q := by
  cases q <;> rfl

@[simp] theorem State.answerTel_notices (p q : PortId) (tel : Tel) (a : Answer) (s : State) :
    ((s.answerTel p tel a).port q).notices = (s.port q).notices := by
  rw [State.answerTel_port]
  split
  · next h => rw [h]
  · rfl

/-! ## POLL -/

/-- Settles O15. -/
theorem pollFetchesTheOldest : Obligations.PollFetchesTheOldest := by
  intro s p seq h
  refine ⟨_, exec_taking h, ⟨?_, ?_⟩, ?_⟩
  · cases p <;> rfl
  · intro q hq
    have hkeep : (s.updPort p Port.polled).link q = s.link q := by
      rw [State.link, State.port_updPort, if_neg hq]
      rfl
    rw [State.answerTel_link, if_neg hq]
    exact (State.settleAttention_link _ q).trans hkeep
  · have hport (q : PortId) : (Telegram.handled p s .poll).1.port q =
        { (if q = p then (s.port p).polled else s.port q) with
          attention := (s.updPort p Port.polled).wantsAttention q } := by
      rw [← State.port_updPort]
      exact State.settleAttention_port _ q
    refine ⟨?_, ?_, fun q hq => ?_, ?_, rfl⟩
    · rw [State.answerTel_notices, hport, if_pos rfl]
      rfl
    · rw [State.answerTel_port, hport, if_pos rfl, if_pos rfl]
      rfl
    · rw [State.answerTel_port, if_neg hq, hport, if_neg hq]
    · rw [State.answerTel_wantsAttention, State.answerTel_port, if_pos rfl, hport]
      exact (State.settleAttention_wantsAttention _ p).symm

end Sys2Proof.Machine
end

section
/-! PROOF. ZONE and the end of a gap (R97, R98), READ (R22, R23), CSTA (R81), and the checks of TIME (R49, R54). -/
namespace Sys2Proof.Machine

open Sys2Proof

/-! ## ZONE -/

/-- Nothing but zone records, and the attention lines with them, moves (R98). -/
theorem State.withZones_port (zones : List Zone) (s : State) (q : PortId) :
    (State.settleAttention { s with cues := { s.cues with zones := zones } }).port q =
      { s.port q with
        attention := ({ s with cues := { s.cues with zones := zones } } : State).wantsAttention q } :=
  State.settleAttention_port _ q

theorem State.holdZones_zones (held : Bool) (zones : List Nat) (s : State) :
    (s.holdZones held zones).cues.zones =
      s.cues.zones.map fun z => if z.no ∈ zones then { z with held := held } else z := by
  simp [State.holdZones, updWhere]

theorem zoneChecks_first {p : Params} {f : ZoneFields} (h : 1 < f.action) : firstBad (zoneChecks p f) = some 1 := by
  simp [zoneChecks, Nat.not_le.2 h]

/-- The zone list of a ZONE: not empty, at most 25 long, each zone in 0..P and 0..24 (R98). -/
theorem zoneChecks_second {p : Params} {f : ZoneFields} (h : f.action ≤ 1) :
    firstBad (zoneChecks p f) =
      if f.zones ≠ [] ∧ f.zones.length ≤ 25 ∧ ∀ z ∈ f.zones, z ≤ 24 ∧ z ≤ p.platforms then none else some 2 := by
  simp [zoneChecks, h, and_assoc]

theorem zoneOwner_refused {s : State} {f : ZoneFields} {i : Nat} (h : firstBad (zoneChecks s.inForce f) = some i) :
    zoneOwner f s = (s, Answer.badField i) := by
  rw [zoneOwner, h]

theorem zoneOwner_accepted {s : State} {f : ZoneFields} (h : firstBad (zoneChecks s.inForce f) = none) :
    zoneOwner f s =
      ((s.holdZones (f.action = 0) f.zones).settleAttention,
        Answer.accept (.zones (s.holdZones (f.action = 0) f.zones).heldZones)) := by
  rw [zoneOwner, h]
  rfl

theorem execGapEnd_reached {s : State} {number : Nat} (hp : s.powered = true)
    (h : ∃ z ∈ s.cues.zones, z.no = number ∧ ∃ g, z.gapEnd = some g ∧ g ≤ s.time.runSec) :
    exec (.gapEnd number) s =
      .next (State.settleAttention
        { s with cues := { s.cues with zones := updWhere (·.no = number) Zone.endGap s.cues.zones } }) := by
  obtain ⟨z, hz, hno, g, hg, hle⟩ := h
  have hany : (s.cues.zones.any fun z => z.no = number && z.gapEnd.any (· ≤ s.time.runSec)) = true :=
    List.any_eq_true.2 ⟨z, hz, by simp [hno, hg, hle]⟩
  simp [exec, execGapEnd, hany, State.answer, hp]

theorem execGapEnd_early {s : State} {number : Nat}
    (h : ∀ z ∈ s.cues.zones, z.no = number → ∀ g, z.gapEnd = some g → s.time.runSec < g) :
    exec (.gapEnd number) s = .next s := by
  have hnone : ¬(s.cues.zones.any fun z => z.no = number && z.gapEnd.any (· ≤ s.time.runSec)) = true := by
    intro hany
    obtain ⟨z, hz, hpick⟩ := List.any_eq_true.1 hany
    simp only [Bool.and_eq_true, decide_eq_true_eq, Option.any_eq_true] at hpick
    obtain ⟨hno, g, hg, hle⟩ := hpick
    exact Nat.not_le.2 (h z hz hno g hg) hle
  rw [show exec (.gapEnd number) s = s.answer _ from rfl, if_neg hnone, State.answer_self]

/-- Settles O41. -/
theorem zonesAreHeldAndFreed : Obligations.ZonesAreHeldAndFreed := by
  refine ⟨fun s p seq f h => ⟨fun hact => ?_, fun hact hbad => ?_, fun hact hne hlen hall => ?_⟩,
    fun s number hp => ⟨fun hgap => ?_, execGapEnd_early⟩⟩
  · exact exec_taking_refused h (zoneOwner_refused (zoneChecks_first hact))
  · refine exec_taking_refused h (zoneOwner_refused ?_)
    rw [zoneChecks_second hact, if_neg]
    rintro ⟨hne, hlen, hall⟩
    obtain hnil | hlong | ⟨z, hz, hout⟩ := hbad
    · exact hne hnil
    · omega
    · have := hall z hz
      omega
  · have hok : firstBad (zoneChecks s.inForce f) = none := by rw [zoneChecks_second hact, if_pos ⟨hne, hlen, hall⟩]
    obtain ⟨hexec, hanswered⟩ := exec_taking_answered h (zoneOwner_accepted hok)
      fun q => State.settleAttention_link _ q
    refine ⟨_, hexec, rfl, State.holdZones_zones _ _ s, hanswered, fun q => ?_⟩
    rw [State.answerTel_notices, State.settleAttention_port]
    rfl
  · refine ⟨_, execGapEnd_reached hp hgap, rfl, ?_, fun q => ?_⟩
    · exact List.map_congr_left fun z _ => if_congr (by simp) rfl rfl
    · rw [State.withZones_port]

/-! ## READ -/

theorem readChecks_fail {f : ReadFields} {i : Nat} {s : State} (h : firstBad (readChecks f) = some i) :
    readOwner f s = (s, Answer.badField i) := by
  rw [readOwner, h]

/-- The summaries of the table, each with its order position (R23). -/
theorem State.summaries_getElem? (s : State) (k : Nat) :
    (s.table.entries.zipIdx.map fun (e, i) => s.summary e (i + 1))[k]? =
      (s.table.entries[k]?).map fun e => s.summary e (k + 1) := by
  simp [List.getElem?_map, List.getElem?_zipIdx, Function.comp_def]

/-- What READ returns from order position `i + 1` on: its length, and each summary of it (R22, R23). -/
theorem State.readSummaries_spec {s : State} {f : ReadFields} {i : Nat} (hi : s.readStart f = i) (hdir : f.direction ≤ 2) :
    (s.readSummaries f).length =
        (if s.table.entries.length ≤ i then 0
        else if f.direction = 0 then min f.count (s.table.entries.length - i)
        else if f.direction = 1 then min f.count (i + 1)
        else 1) ∧
      ∀ j, j < (s.readSummaries f).length →
        (s.readSummaries f)[j]? =
          (s.table.entries[if f.direction = 1 then i - j else i + j]?).map fun e =>
            s.summary e ((if f.direction = 1 then i - j else i + j) + 1) := by
  have hall := s.summaries_getElem?
  have hlen : (s.table.entries.zipIdx.map fun (e, i) => s.summary e (i + 1)).length = s.table.entries.length := by simp
  rw [State.readSummaries, hi]
  dsimp only
  generalize (s.table.entries.zipIdx.map fun (e, i) => s.summary e (i + 1)) = all at hall hlen
  rw [hlen]
  by_cases hpast : s.table.entries.length ≤ i
  · simp [hpast]
  · have hlt : i < s.table.entries.length := Nat.not_le.1 hpast
    obtain h | h | h : f.direction = 0 ∨ f.direction = 1 ∨ f.direction = 2 := by omega
    · simp only [hpast, h, if_true, if_false, List.length_take, List.length_drop, hlen, true_and, Nat.zero_ne_one]
      intro j hj
      rw [List.getElem?_take_of_lt (by omega), List.getElem?_drop, hall]
    · simp only [hpast, h, if_true, if_false, List.length_take, List.length_reverse, hlen, Nat.one_ne_zero]
      refine ⟨by omega, fun j hj => ?_⟩
      rw [List.getElem?_take_of_lt (by omega), List.getElem?_reverse (by simp; omega), List.length_take, hlen,
        Nat.min_eq_left (by omega), List.getElem?_take_of_lt (by omega), hall]
      simp
    · have h0 : f.direction ≠ 0 := by omega
      have h1 : f.direction ≠ 1 := by omega
      simp only [hpast, h0, h1, if_false, List.length_take, List.length_drop, hlen]
      refine ⟨by omega, fun j hj => ?_⟩
      rw [List.getElem?_take_of_lt (by omega), List.getElem?_drop, hall]

/-- Settles O31. -/
theorem readSummarisesTheTable : Obligations.ReadSummarisesTheTable := by
  intro s p seq f h
  refine ⟨(readOwner f s).2, ?_, ?_, ?_, ?_, fun hstart => ⟨?_, fun hdir => ⟨?_, fun hone hfour => ?_⟩⟩⟩
  · exact exec_taking_refused h (Prod.ext (readOwner_state f s) rfl)
  · intro hk
    rw [readChecks_fail (i := 1) (by simp [readChecks, Nat.not_le.2 hk])]
  · intro hk hbad
    rw [readChecks_fail (i := 2) (by simp [readChecks, hk]; omega)]
  · intro hk hbad
    rw [readChecks_fail (i := 2) (by simp [readChecks, hk, hbad])]
  · intro hdir
    have hk : f.startKind ≤ 1 := by omega
    rw [readChecks_fail (i := 3)]
    simp only [readChecks, firstBad_cons, firstBad_nil]
    grind
  · intro hcount
    rw [readChecks_fail (i := 4)]
    simp only [readChecks, firstBad_cons, firstBad_nil]
    grind
  · have hok : firstBad (readChecks f) = none := by
      simp only [readChecks, firstBad_cons, firstBad_nil]
      grind
    refine ⟨s.readSummaries f, by rw [readOwner, hok], fun i hi => State.readSummaries_spec ?_ (by omega)⟩
    rw [State.readStart]
    grind

end Sys2Proof.Machine
end

section
/-! PROOF. CSTA (R81), and the checks of TIME (R49, R54). -/
namespace Sys2Proof.Machine

open Sys2Proof

/-! ## CSTA -/

/-- The OPEN record of a run is the one found (R65). -/
theorem State.openRecord?_eq_some {s : State} (h : s.TrackerOk) {r : ChangeRec} (hr : r ∈ s.tracker.records)
    (hopen : r.isOpen = true) : s.openRecord? r.run = some r := by
  cases hx : s.openRecord? r.run with
  | none => exact absurd hopen (by simpa using List.find?_eq_none.1 hx r hr)
  | some x =>
    have hpick := List.find?_some hx
    simp only [Bool.and_eq_true, decide_eq_true_eq] at hpick
    rw [((State.trackerOk_iff s).1 h).open_unique (List.mem_of_find?_eq_some hx) hr hpick.2 hopen hpick.1]

/-- The record of a slot number (R64). -/
theorem Tracker.Ok.find_no {k : Tracker} (h : k.Ok) {r : ChangeRec} (hr : r ∈ k.records) :
    k.records.find? (·.no = r.no) = some r := by
  cases hx : k.records.find? (·.no = r.no) with
  | none => simpa using List.find?_eq_none.1 hx r hr
  | some x =>
    rw [h.record_unique (List.mem_of_find?_eq_some hx) hr (by simpa using List.find?_some hx)]

/-- Without an OPEN record the one latest in the closed list is the newest of its run (R81). -/
theorem State.newestRecord_closed {s : State} {run n : Nat} {r : ChangeRec} {before after : List Nat} (h : s.TrackerOk)
    (hnone : s.openRecord? run = none) (hsplit : s.tracker.closed = before ++ n :: after) (hr : r ∈ s.tracker.records)
    (hno : r.no = n) (hrun : r.run = run)
    (hafter : ∀ m ∈ after, ∀ q ∈ s.tracker.records, q.no = m → q.run ≠ run) : s.newestRecord run = some r := by
  have hfind : s.tracker.records.find? (·.no = n) = some r := hno ▸ ((State.trackerOk_iff s).1 h).find_no hr
  rw [State.newestRecord, hnone]
  dsimp only
  rw [hsplit, List.find?_filterMap]
  have hlast : (before ++ n :: after).reverse.find?
      (fun m => (s.tracker.records.find? (·.no = m)).any (·.run = run)) = some n := by
    rw [List.find?_eq_some_iff_append]
    refine ⟨by simp [hfind, hrun], after.reverse, before.reverse, by simp, fun m hm => ?_⟩
    simp only [Bool.not_eq_true', Option.any_eq_false, decide_eq_false_iff_not]
    intro q hq
    exact hafter m (List.mem_reverse.1 hm) q (List.mem_of_find?_eq_some hq) (by simpa using List.find?_some hq)
  rw [hlast]
  exact hfind

theorem State.newestRecord_none {s : State} {run : Nat} (h : ∀ r ∈ s.tracker.records, r.run ≠ run) :
    s.newestRecord run = none := by
  have hnone : s.openRecord? run = none := List.find?_eq_none.2 fun r hr => by simp [h r hr]
  rw [State.newestRecord, hnone]
  refine List.find?_eq_none.2 fun r hr => ?_
  obtain ⟨n, -, hn⟩ := List.mem_filterMap.1 hr
  simpa using h r (List.mem_of_find?_eq_some hn)

theorem cstaOwner_found {s : State} {run : Nat} (hrun : run ≠ 0) {r : ChangeRec} (h : s.newestRecord run = some r) :
    (cstaOwner run s).2 = Answer.accept (.record r ((s.entry? run).map (·.rev))) := by
  simp [cstaOwner, runOk, hrun, h]

/-- Settles O32. -/
theorem cstaReportsTheNewestRecord : Obligations.CstaReportsTheNewestRecord := by
  intro s p seq run h hk
  refine ⟨(cstaOwner run s).2, exec_taking_refused h (Prod.ext (cstaOwner_state run s) rfl), ?_, fun hrun =>
    ⟨fun r hr hown hopen => cstaOwner_found hrun ?_, fun hclosed => ⟨fun before n after r hsplit hr hno hown hafter =>
      cstaOwner_found hrun ?_, fun hnone => ?_⟩⟩⟩
  · rintro rfl
    rfl
  · rw [State.newestRecord, ← hown, State.openRecord?_eq_some hk hr hopen]
  · have hnone : s.openRecord? run = none := List.find?_eq_none.2 fun q hq => by
      simpa using hclosed q hq
    exact State.newestRecord_closed hk hnone hsplit hr hno hown hafter
  · simp [cstaOwner, runOk, hrun, State.newestRecord_none hnone]

/-! ## The checks of TIME -/

theorem timeOffset_spec {received clock : Nat} (hr : received < 86400) :
    -43200 ≤ timeOffset received clock ∧ timeOffset received clock < 43200 ∧
      ((clock : Int) + timeOffset received clock) % 86400 = received := by
  simp only [timeOffset]
  split <;> omega

theorem State.notTimeSource_iff (s : State) (p : PortId) :
    s.notTimeSource p = true ↔
      p ≠ s.inForce.timePort ∧ (s.port s.inForce.timePort).live = true ∧ s.time.state ≠ .holdover := by
  simp [State.notTimeSource, and_assoc]

theorem State.timeSource_iff (s : State) (p : PortId) :
    s.notTimeSource p = false ↔
      p = s.inForce.timePort ∨ (s.port s.inForce.timePort).live = false ∨ s.time.state = .holdover := by
  rw [← Bool.not_eq_true, State.notTimeSource_iff]
  grind

/-- A TIME whose offset is refused (R54). -/
theorem timeOwner_offset {s : State} {p : PortId} {v : Nat} {d : Int} {c : Code} (hv : v ≤ 86399)
    (hsource : s.notTimeSource p = false) (hset : s.time.state ≠ .unset) (hd : d = timeOffset v s.time.clock)
    (hc : s.offsetRefusal d = some c) :
    timeOwner p v s = (s, { Answer.refuse c with result := s.clockResult (some d) }) := by
  subst hd
  simp [timeOwner, Nat.not_lt.2 hv, hsource, hset, hc]

/-- Settles O34. -/
theorem timeIsCheckedInOrder : Obligations.TimeIsCheckedInOrder := by
  refine ⟨fun received clock hr _ => timeOffset_spec hr, fun s p seq v h d a hd hcase => ?_⟩
  refine exec_taking_refused h (?_ : ((timeOwner p v s).1, completeTime (timeOwner p v s).1 (timeOwner p v s).2) = _)
  obtain ⟨hv, rfl⟩ | ⟨hv, hp, hlive, hstate, rfl⟩ | ⟨hv, hsource, hset, hoff⟩ := hcase
  · have howner : timeOwner p v s = (s, Answer.badField 1) := by rw [timeOwner, if_pos hv]
    rw [howner]
    rfl
  · have howner : timeOwner p v s = (s, Answer.refuse .notTimeSource) := by
      rw [timeOwner, if_neg (by omega), if_pos ((s.notTimeSource_iff p).2 ⟨hp, hlive, hstate⟩)]
    rw [howner]
    rfl
  · have hsrc := (s.timeSource_iff p).2 hsource
    obtain ⟨hfar, rfl⟩ | ⟨hlo, hback, helapsed, rfl⟩ := hoff
    · have hc : s.offsetRefusal d = some .timeRange := by rw [State.offsetRefusal, if_pos (by omega)]
      rw [timeOwner_offset hv hsrc hset hd hc]
      rfl
    · have hc : s.offsetRefusal d = some .acrossDayStart := by
        rw [State.offsetRefusal, if_neg (by omega), if_pos ⟨hback, helapsed⟩]
      rw [timeOwner_offset hv hsrc hset hd hc]
      rfl

end Sys2Proof.Machine
end

section
/-! PROOF. A change of the departure picture leaves the other blocks alone, and so the wall mode (R111, R126). -/
namespace Sys2Proof.Machine

open Sys2Proof

variable {s t u : State}

/-! ## Beside the departure picture -/

theorem State.Beside.refl (s : State) : s.Beside s := ⟨rfl, rfl, rfl, rfl⟩

theorem State.Beside.trans (h : s.Beside t) (k : t.Beside u) : s.Beside u :=
  ⟨k.1.trans h.1, k.2.1.trans h.2.1, k.2.2.1.trans h.2.2.1, k.2.2.2.trans h.2.2.2⟩

theorem State.Steady.beside (h : s.Steady t) (hsrc : t.sources = s.sources) : s.Beside t :=
  ⟨hsrc, h.board, h.records, h.zones⟩

theorem State.Beside.mode (h : s.Beside t) : t.wall.mode = s.wall.mode :=
  congrArg (fun b : List Posted × WallMode × Count16 => b.2.1) h.2.1

theorem State.settle_beside (s old : State) : s.Beside (s.settle old) :=
  ⟨State.settle_sources s old, State.settle_board s old, State.settle_records s old,
    congrArg Cues.zones (State.settle_cues s old)⟩

theorem State.finish_beside (s old : State) : s.Beside (s.finish old) :=
  ⟨State.finish_sources s old, congrArg Wall.board (State.finish_wall s old), State.finish_records s old,
    congrArg Cues.zones (State.finish_cues s old)⟩

theorem State.changeEntry_beside (old new : Entry) (s : State) : s.Beside (s.changeEntry old new).1 :=
  (State.changeEntry_steady old new s).beside (State.changeEntry_sources old new s)

theorem State.amendEntry_beside (old new : Entry) (s : State) : s.Beside (s.amendEntry old new).1 := by
  unfold State.amendEntry
  split
  · exact .refl s
  · dsimp only
    split
    · exact State.changeEntry_beside ..
    · exact (State.changeEntry_beside ..).trans (State.settle_beside ..)

theorem State.createEntry_beside (e : Entry) (s : State) : s.Beside (s.createEntry e) := by
  refine State.Beside.trans ?_ (State.settle_beside _ s)
  refine State.Beside.trans ?_ ((State.cueHandover_steady ..).beside (State.cueHandover_sources ..))
  exact ⟨rfl, rfl, rfl, rfl⟩

theorem State.appendUrgent_beside (run : Nat) (platform : Option Nat) (s : State) :
    s.Beside (s.appendUrgent run platform) := ⟨rfl, rfl, rfl, rfl⟩

theorem State.trigger_beside (kind : CueKind) (run : Nat) (zones : List Nat) (due : Int) (s : State) :
    s.Beside (s.trigger kind run zones due) := (State.trigger_steady ..).beside (State.trigger_sources ..)

theorem State.withdrawWhere_beside (p : Cue → Bool) (s : State) : s.Beside (s.withdrawWhere p) := ⟨rfl, rfl, rfl, rfl⟩

theorem State.voidRecord_beside (run : Nat) (s : State) : s.Beside (s.voidRecord run) :=
  (State.voidRecord_steady ..).beside (State.voidRecord_sources ..)

theorem State.cancelEntry_beside (e : Entry) (reason : Option Text) (s : State) : s.Beside (s.cancelEntry e reason) :=
  ((((((State.changeEntry_beside e (e.cancel s.now reason) s).trans (State.voidRecord_beside e.run _)).trans
    (State.withdrawWhere_beside _ _)).trans (State.trigger_beside ..)).trans
      (State.appendUrgent_beside e.run e.displayed _)).trans (State.settle_beside _ s))

theorem State.reinstate_beside (e : Entry) (s : State) : s.Beside (s.reinstate e) :=
  ((State.withdrawWhere_beside _ s).trans (State.changeEntry_beside e _ _)).trans (State.settle_beside _ s)

theorem State.departEntry_beside (e : Entry) (s : State) : s.Beside (s.departEntry e) :=
  ((State.changeEntry_beside e _ s).trans (State.voidRecord_beside e.run _)).trans (State.settle_beside _ s)

theorem State.refilter_beside (e : Entry) (g : Filter) (runs : Bool) (s : State) : s.Beside (s.refilter e g runs) := by
  unfold State.refilter
  dsimp only
  split
  · exact State.amendEntry_beside ..
  · exact ⟨rfl, rfl, rfl, rfl⟩

theorem State.predict_beside (e : Entry) (n : Int) (s : State) : s.Beside (s.predict e n) := State.refilter_beside ..

theorem State.clearFilter_beside (run : Nat) (s : State) : s.Beside (s.clearFilter run) :=
  (State.clearFilter_steady run s).beside (State.clearFilter_sources run s)

theorem State.fallSilent_beside (p : PortId) (s : State) : s.Beside (s.fallSilent p) :=
  (State.fallSilent_steady p s).beside (State.fallSilent_sources p s)

/-! ## The telegrams of the departure table -/

/-- A telegram that names a run keeps what every act on its entry keeps. -/
theorem State.onEntry_beside {checks : List (Nat × Bool)} {run : Nat} {allowed : Entry → Bool}
    {act : Entry → State × Answer} (h : ∀ e, s.Beside (act e).1) : s.Beside (s.onEntry checks run allowed act).1 :=
  State.onEntry_rel (R := s.Beside) (.refl s) fun e _ _ _ => h e

theorem planOwner_beside (f : PlanFields) (s : State) : s.Beside (planOwner f s).1 := by
  unfold planOwner
  split
  · exact .refl s
  · split
    · exact .refl s
    · exact State.createEntry_beside _ s

theorem amndOwner_beside (f : AmndFields) (s : State) : s.Beside (amndOwner f s).1 := by
  refine State.onEntry_beside fun e => ?_
  dsimp only
  split
  · exact .refl s
  · exact State.amendEntry_beside ..

theorem dlayOwner_beside (f : DlayFields) (s : State) : s.Beside (dlayOwner f s).1 :=
  State.onEntry_beside fun _ => State.amendEntry_beside ..

theorem cancOwner_beside (f : CancFields) (s : State) : s.Beside (cancOwner f s).1 := by
  refine State.onEntry_beside fun e => ?_
  change s.Beside (if e.state = .cancelled then _ else _)
  split
  · exact State.amendEntry_beside ..
  · exact State.cancelEntry_beside ..

theorem rinsOwner_beside (run : Nat) (s : State) : s.Beside (rinsOwner run s).1 := by
  refine State.onEntry_beside fun e => ?_
  change s.Beside (if e.state = .cancelled then _ else _)
  split
  · exact State.reinstate_beside ..
  · exact .refl s

theorem platOwner_beside (f : PlatFields) (s : State) : s.Beside (platOwner f s).1 :=
  State.onEntry_beside fun _ => State.amendEntry_beside ..

theorem predOwner_beside (f : PredFields) (s : State) : s.Beside (predOwner f s).1 := by
  refine State.onEntry_beside fun e => ?_
  split
  · exact State.refilter_beside ..
  · exact State.predict_beside ..

theorem rdysOwner_beside (run : Nat) (s : State) : s.Beside (rdysOwner run s).1 :=
  State.onEntry_beside fun _ => State.amendEntry_beside ..

theorem deptOwner_beside (run : Nat) (s : State) : s.Beside (deptOwner run s).1 := by
  refine State.onEntry_beside fun e => ?_
  change s.Beside (if e.state = .departed then _ else _)
  split
  · exact .refl s
  · exact State.departEntry_beside ..

end Sys2Proof.Machine
end

section
/-! PROOF. The wall mode moves with NOTE, NCLR, WALL, RSET and the resets alone, and a dial with DIAL, an impulse end and
the resets alone (R126, R173, R174). -/
namespace Sys2Proof.Machine

open Sys2Proof

variable {s t u : State}

/-! ## The wall mode -/

/-- The wall mode stands. -/
def State.ModeKept (s t : State) : Prop := t.wall.mode = s.wall.mode

theorem State.ModeKept.refl (s : State) : s.ModeKept s := rfl

theorem State.ModeKept.trans (h : s.ModeKept t) (k : t.ModeKept u) : s.ModeKept u := Eq.trans k h

theorem State.ModeKept.of_board (h : t.wall.board = s.wall.board) : s.ModeKept t :=
  congrArg (fun b : List Posted × WallMode × Count16 => b.2.1) h

theorem State.ModeKept.of_wall (h : t.wall = s.wall) : s.ModeKept t := .of_board (by rw [h])

theorem State.Steady.mode (h : s.Steady t) : s.ModeKept t := .of_board h.board

theorem State.ModeKept.foldl {α : Type} {f : State → α → State} (h : ∀ (s : State) (a : α), s.ModeKept (f s a))
    (l : List α) (s : State) : s.ModeKept (l.foldl f s) := by
  induction l generalizing s with
  | nil => exact .refl s
  | cons a l ih => exact (h s a).trans (ih _)

theorem State.settle_mode (s old : State) : s.ModeKept (s.settle old) := .of_board (State.settle_board s old)

theorem State.finish_mode (s old : State) : s.ModeKept (s.finish old) := .of_wall (State.finish_wall s old)

theorem State.failPanel_mode (addr : Nat) (s : State) : s.ModeKept (s.failPanel addr) :=
  (((State.ModeKept.refl (s.updPanel addr fun p => { p with state := .failed, ec := 0, goodRun := 0 })).trans
    (State.waiveRows_steady addr _).mode).trans (State.recompose_steady _).mode).trans (State.post_steady ..).mode

theorem State.takeStatus_mode (addr : Nat) (overtemp : Bool) (s : State) : s.ModeKept (s.takeStatus addr overtemp) := by
  unfold State.takeStatus
  split
  · split <;> exact .refl s
  · exact .refl s

theorem State.probeOutcome_mode (x : Exchange) (o : Outcome) (s : State) : s.ModeKept (s.probeOutcome x o) := by
  unfold State.probeOutcome
  cases o with
  | good overtemp =>
    refine (State.takeStatus_mode x.addr overtemp s).trans ?_
    dsimp only
    split
    · refine State.ModeKept.trans ?_ (State.post_steady ..).mode
      refine State.ModeKept.trans ?_ (State.recompose_steady _).mode
      exact .of_wall rfl
    · exact .of_wall rfl
  | refused | failed => exact .of_wall rfl

theorem State.actOn_mode (x : Exchange) (o : Outcome) (s : State) : s.ModeKept (s.actOn x o) := by
  unfold State.actOn
  cases x.startState with
  | active =>
    cases o with
    | good overtemp => exact State.takeStatus_mode x.addr overtemp _
    | refused | failed => exact .refl s
  | probing =>
    cases o with
    | good overtemp => exact State.takeStatus_mode x.addr overtemp _
    | refused | failed => exact State.failPanel_mode x.addr _
  | failed => exact State.probeOutcome_mode x o s
  | absent => exact .refl s

theorem State.endExchange_mode (x : Exchange) (o : Outcome) (s : State) : s.ModeKept (s.endExchange x o) := by
  rw [State.endExchange_eq]
  have hacted : s.ModeKept ((s.exchangeEnded x o).outcomeActed x o) := by
    unfold State.outcomeActed
    split
    · exact .refl s
    · refine (State.actOn_mode x o (s.exchangeEnded x o)).trans ?_
      unfold State.reappendUrgent
      split
      · exact .refl _
      · split <;> exact .refl _
      · exact .refl _
  exact (hacted.trans (State.recompose_steady _).mode).trans (.of_wall (State.dispatch_wall _))

theorem State.endInterval_mode (s : State) : s.ModeKept s.endInterval := by
  have hmonitor : ∀ (v : State) (q : Panel), v.ModeKept (v.monitor q) := by
    intro v q
    unfold State.monitor
    split
    · dsimp only
      split
      · exact State.failPanel_mode q.addr v
      · exact .refl v
    · exact .refl v
  have hall := State.ModeKept.foldl hmonitor s.bus.panels s
  exact hall.trans (State.finish_mode ((s.bus.panels.foldl State.monitor s).clearIntervalFlags.nextInterval) s)

theorem State.beginPass_wall (s : State) : s.beginPass.wall = s.wall := by
  unfold State.beginPass
  dsimp only
  split
  · exact State.endPass_wall s
  · split <;> rfl

theorem State.takeReading_wall (channel value : Nat) (s : State) : (s.takeReading channel value).wall = s.wall := by
  unfold State.takeReading
  dsimp only
  split
  · rfl
  · exact State.endPass_wall _

theorem State.startGap_wall (zones : List Nat) (s : State) : (s.startGap zones).wall = s.wall := by
  unfold State.startGap
  split <;> rfl

theorem State.spokenOut_beside (done : Bool) (c : Cue) (t : Taken) (s : State) :
    (s.startGap t.content.zones).Beside (s.spokenOut done c t).1 := by
  unfold State.spokenOut
  split
  · refine ((State.spokenFacts_steady ..).trans (State.fateOfDone_steady ..)).beside ?_
    rw [State.fateOfDone_sources, State.spokenFacts_sources]
  · refine State.Steady.beside (State.Steady.trans ?_ (State.fateOfAbort_steady ..)) ?_
    · split
      · exact .of_blocks rfl rfl rfl
      · exact .refl _
    · rw [State.fateOfAbort_sources]
      split <;> rfl

/-- What is done of a spoken or abandoned cue, past the gap, moves the departure picture alone (R101). -/
theorem State.speak_beside (done : Bool) (c : Cue) (t : Taken) (s : State) :
    (s.startGap t.content.zones).Beside (s.speak done c t).1 := by
  rw [State.speak_eq]
  refine ((State.spokenOut_beside done c t s).trans ?_).trans (State.settle_beside _ s)
  exact (State.cueEnded_steady ..).beside (State.cueEnded_sources ..)

theorem State.speak_mode (done : Bool) (c : Cue) (t : Taken) (s : State) : s.ModeKept (s.speak done c t).1 :=
  (State.ModeKept.of_wall (State.startGap_wall t.content.zones s)).trans (State.speak_beside done c t s).mode

theorem State.judgeLimits_mode (s : State) : s.ModeKept s.judgeLimits := by
  have hport : ∀ (v : State) (p : PortId), v.ModeKept (v.judgePort p) := by
    intro v p
    unfold State.judgePort
    split
    · exact (State.fallSilent_steady p v).mode
    · exact .refl v
  unfold State.judgeLimits
  refine State.ModeKept.trans ?_ (((hport _ .planning).trans (hport _ .signalling)).trans (hport _ .announcement))
  split
  · exact (State.post_steady ..).mode
  · exact .refl s

theorem State.second_mode (s : State) : s.ModeKept s.second := by
  have hcount (x : TimeBase) : s.ModeKept { s.judgeLimits.countSecond with time := x } :=
    (State.judgeLimits_mode s).trans (.refl _)
  unfold State.second
  dsimp only
  split
  · exact ((hcount _).trans (State.minuteAdvanced_steady _).mode).trans (State.settle_mode _ s)
  · split
    · exact hcount _
    · exact (hcount _).trans (State.settle_mode _ s)

theorem timeOwner_mode (p : PortId) (n : Nat) (s : State) : s.ModeKept (timeOwner p n s).1 := by
  have hstep (d : Int) : s.ModeKept (s.stepClock n d p) := by
    have hroll (c : Bool) (v : State) : v.ModeKept (if c then v.rollover else v) := by
      split
      · exact (State.rollover_steady v).mode
      · exact .refl v
    unfold State.stepClock
    dsimp only
    refine State.ModeKept.trans ?_ (State.finish_mode _ s)
    refine State.ModeKept.trans ?_ (State.post_steady ..).mode
    refine State.ModeKept.trans ?_ (State.recompose_steady _).mode
    refine State.ModeKept.trans ?_ (State.announceTime_steady false _).mode
    exact State.ModeKept.trans (.of_wall rfl) (hroll _ _)
  unfold timeOwner
  dsimp only
  repeat' split
  · exact .refl s
  · exact .refl s
  · exact .refl s
  · exact .refl s
  · exact .refl s
  · exact hstep _

theorem State.failAbove_mode (s : State) : s.ModeKept s.failAbove :=
  State.ModeKept.foldl (fun v (q : Panel) => State.failPanel_mode q.addr v) _ s

theorem State.afterConf_mode (n : Nat) (s old : State) : s.ModeKept (s.afterConf n old) := by
  unfold State.afterConf
  repeat' split
  · exact .refl s
  · exact (State.settle_mode _ old : (s.reclass old.inForce.lateness).ModeKept _)
  · exact .refl s
  · exact (State.settle_mode _ old : s.testHolds.ModeKept _)
  · exact .refl s
  · exact .refl s
  · exact State.settle_mode s old
  · exact (State.failAbove_mode s).trans (State.finish_mode _ old)
  · exact .refl s

theorem confOwner_mode (f : ConfFields) (s : State) : s.ModeKept (confOwner f s).1 := by
  have hset (n v : Nat) (b : Bool) : s.ModeKept (s.setParameter n v b) := by
    unfold State.setParameter
    dsimp only
    split <;> exact .refl s
  unfold confOwner
  split
  · exact .refl s
  · dsimp only
    split
    · exact hset ..
    · exact (hset ..).trans (State.afterConf_mode ..)

theorem takeOwner_mode (s : State) : s.ModeKept (takeOwner s).1 := by
  unfold takeOwner State.giveCue
  repeat' split
  all_goals exact .refl s

theorem spknOwner_mode (f : SpknFields) (s : State) : s.ModeKept (spknOwner f s).1 := by
  unfold spknOwner
  split
  · exact .refl s
  · split
    · exact .refl s
    · next c t _ => exact State.speak_mode (f.outcome = 0) c t s

theorem State.takeDial_wall (n : Fin 4) (d : PendingDial) (s : State) : (s.takeDial n d).wall = s.wall := by
  unfold State.takeDial
  split <;> rfl

theorem State.endImpulse_wall (l : Line) (i : Impulse) (s : State) : (s.endImpulse l i).wall = s.wall := by
  unfold State.endImpulse
  dsimp only
  repeat' split
  all_goals simp

/-- The commands that may move the wall mode (R111, R118 to R120, R125, R191, R192). -/
def movesMode : Instr → Bool
  | .powerOn | .resetPin | .powerLoss _ | .rset _ | .wall _ | .note _ | .nclr _ | .noticeExpiry _ => true
  | _ => false

theorem State.ModeKept.takeWith {α : Type} {finish : State → Answer → Answer} {p : PortId} {k : Kind}
    {read : List Octet → Option α} {owner : α → State → State × Answer} (h : s.takeWith finish p k read owner = .next t)
    (howner : ∀ f, s.ModeKept (owner f s).1) : s.ModeKept t :=
  State.takeWith_rel (R := s.ModeKept) h (.refl s) (fun _ _ _ hu => hu) howner

theorem State.ModeKept.takeTel {α : Type} {p : PortId} {k : Kind}
    {read : List Octet → Option α} {owner : α → State → State × Answer} (h : s.takeTel p k read owner = .next t)
    (howner : ∀ f, s.ModeKept (owner f s).1) : s.ModeKept t := State.ModeKept.takeWith h howner

theorem State.ModeKept.answer (h : s.answer u = .next t) (hu : s.ModeKept u) : s.ModeKept t :=
  State.answer_rel (R := s.ModeKept) h (.refl s) hu

theorem State.ModeKept.answer_ite {c : Prop} [Decidable c] (h : s.answer (if c then u else s) = .next t)
    (hu : s.ModeKept u) : s.ModeKept t := State.answer_ite_rel (R := s.ModeKept) h (.refl s) fun _ => hu

theorem exec_mode {i : Instr} (h : exec i s = .next t) (hi : movesMode i = false) : s.ModeKept t := by
  have hself := State.ModeKept.refl s
  cases i with
  | powerOn | resetPin | powerLoss cut | rset p | wall p | note p | nclr p | noticeExpiry number => cases hi
  | plan p => exact .takeTel h fun f => (planOwner_beside f s).mode
  | amnd p => exact .takeTel h fun f => (amndOwner_beside f s).mode
  | dlay p => exact .takeTel h fun f => (dlayOwner_beside f s).mode
  | canc p => exact .takeTel h fun f => (cancOwner_beside f s).mode
  | rins p => exact .takeTel h fun f => (rinsOwner_beside f s).mode
  | plat p => exact .takeTel h fun f => (platOwner_beside f s).mode
  | pred p => exact .takeTel h fun f => (predOwner_beside f s).mode
  | rdys p => exact .takeTel h fun f => (rdysOwner_beside f s).mode
  | dept p => exact .takeTel h fun f => (deptOwner_beside f s).mode
  | read p => exact .takeTel h fun f => (readOwner_state f s).symm ▸ hself
  | csta p => exact .takeTel h fun f => (cstaOwner_state f s).symm ▸ hself
  | time p => exact .takeWith h fun n => timeOwner_mode p n s
  | take p => exact .takeTel (owner := fun _ => takeOwner) h fun _ => takeOwner_mode s
  | spkn p => exact .takeTel h fun f => spknOwner_mode f s
  | zone p =>
    refine .takeTel h fun f => ?_
    unfold zoneOwner
    split <;> exact hself
  | dial p =>
    refine .takeTel h fun f => ?_
    unfold dialOwner
    split
    · exact hself
    · exact .of_wall (State.takeDial_wall _ _ s)
  | conf p => exact .takeTel h fun f => confOwner_mode f s
  | csav p => exact .takeTel (owner := fun _ u => (u.saveConfiguration, Answer.accept .none)) h fun _ => hself
  | poll p => exact .takeTel (owner := fun _ => pollOwner p) h fun _ => hself
  | telegramFrameEnd p ms octets | panelFrameEnd ms | lineCheckComplete ms value =>
    refine .answer h ?_
    split <;> exact hself
  | abortSequence p | strayPanelOctets octets => exact .answer h hself
  | replySent p ms | gapEnd zone => exact .answer_ite h hself
  | unknown p =>
    refine .answer h ?_
    split
    · split <;> exact hself
    · exact hself
  | silenceExpiry p => exact .answer_ite h ((State.fallSilent_steady p s).mode.trans (State.settle_mode _ s))
  | runningSecond => exact .answer h (State.second_mode s)
  | minuteAdvance => exact .answer_ite h (State.second_mode s)
  | holdoverExpiry => exact .answer_ite h (State.post_steady ..).mode
  | predictionStale run =>
    refine .answer h ?_
    split
    · split
      · exact (State.clearFilter_steady run s).mode.trans (State.finish_mode _ s)
      · exact hself
    · exact hself
  | speakTimeout cue =>
    refine .answer h ?_
    split
    · split
      · exact (State.post_steady ..).mode.trans (State.speak_mode ..)
      · exact hself
    · exact hself
  | dwellExpiry =>
    refine .answer h ?_
    split
    · next i _ _ => exact State.settle_mode (s.showItem i) s
    · exact hself
  | panelReplyReceived ms octets =>
    refine .answer h ?_
    split
    · exact State.endExchange_mode _ _ (s.atMs ms)
    · exact hself
  | replyWindowClose ms =>
    refine .answer h ?_
    split
    · split
      · exact State.endExchange_mode _ _ (s.atMs ms)
      · exact hself
    · exact hself
  | keepaliveDue ms addr | probeDue ms addr => exact .answer_ite h (.of_wall (State.dispatch_wall (s.atMs ms)))
  | intervalEnd ms => exact .answer_ite h (State.endInterval_mode (s.atMs ms))
  | passTrigger ms =>
    refine .answer_ite h ?_
    dsimp only
    split
    · exact hself
    · exact State.ModeKept.trans (.of_wall (State.beginPass_wall (s.atMs ms).restartScan)) (State.finish_mode _ s)
  | lightConversionComplete ms value =>
    refine .answer h ?_
    split
    · exact State.ModeKept.trans (.of_wall (State.takeReading_wall _ _ (s.atMs ms))) (State.finish_mode _ s)
    · exact hself
  | lineCheckRequest ms line | nextImpulseTime ms line =>
    refine .answer h ?_
    dsimp only
    split <;> exact hself
  | impulseEnd ms line =>
    refine .answer h ?_
    dsimp only
    split
    · exact .of_wall (State.endImpulse_wall _ _ (s.atMs ms))
    · exact hself

end Sys2Proof.Machine
end

section
/-! PROOF. The dials stand but under DIAL, an impulse end and the resets; and only the commands named move the clock, the
dials, the configuration and the store. -/
namespace Sys2Proof.Machine

open Sys2Proof

variable {s t u : State}

/-! ## The dials -/

/-- What a line record holds of its clock: its number, dial, polarity, missed count and in-use flag (R165). -/
def Line.face (l : Line) : Fin 4 × Nat × Polarity × Nat × Bool := (l.no, l.dial, l.polarity, l.missed, l.inUse)

theorem Line.decide_face (p : Params) (unset : Bool) (clock now : Nat) (minute : Bool) (w : DecisionTime) (l : Line) :
    (l.decide p unset clock now minute w).face = l.face := by
  unfold Line.decide Line.advance
  dsimp only
  repeat' split
  all_goals rfl

theorem Line.announce_face (p : Params) (unset : Bool) (clock now : Nat) (minute : Bool) (l : Line) :
    (l.announce p unset clock now minute).face = l.face := by
  unfold Line.announce
  split
  · rfl
  · split
    · rfl
    · exact Line.decide_face ..

/-- No dial, polarity, missed count or in-use flag has moved, nor the dial part of the store. -/
def State.DialsKept (s t : State) : Prop := t.lines.map Line.face = s.lines.map Line.face ∧ t.store.dials = s.store.dials

theorem State.DialsKept.refl (s : State) : s.DialsKept s := ⟨rfl, rfl⟩

theorem State.DialsKept.of_eq (hl : t.lines = s.lines) (hs : t.store = s.store) : s.DialsKept t := by
  rw [State.DialsKept, hl, hs]
  exact ⟨rfl, rfl⟩

theorem State.DialsKept.of_sources (h : t.sources = s.sources) : s.DialsKept t :=
  .of_eq (State.lines_of_sources h) (State.store_of_sources h)

theorem State.DialsKept.announced {p : Params} {x : TimeBase} {minute : Bool}
    (hl : t.lines = announcedLines p x minute s.lines) (hs : t.store = s.store) : s.DialsKept t := by
  refine ⟨?_, by rw [hs]⟩
  rw [hl, announcedLines, List.map_map]
  exact List.map_congr_left fun l _ => Line.announce_face ..

theorem State.DialsKept.updLine (n : Fin 4) {f : Line → Line} (hf : ∀ l, (f l).face = l.face) (s : State) :
    s.DialsKept (s.updLine n f) := ⟨map_updWhere Line.face _ f hf s.lines, rfl⟩

theorem State.DialsKept.answer (h : s.answer u = .next t) (hu : s.DialsKept u) : s.DialsKept t :=
  State.answer_rel (R := s.DialsKept) h (.refl s) hu

theorem State.DialsKept.takeTel {α : Type} {p : PortId} {k : Kind}
    {read : List Octet → Option α} {owner : α → State → State × Answer} (h : s.takeTel p k read owner = .next t)
    (howner : ∀ f, s.DialsKept (owner f s).1) : s.DialsKept t :=
  State.takeTel_rel (R := s.DialsKept) h (.refl s) (fun _ _ _ hu => hu) howner

theorem State.second_dials (s : State) : s.DialsKept s.second := by
  have hl := congrArg Sources.lines (State.second_sources s)
  have hs : s.second.store = s.store := congrArg Sources.store (State.second_sources s)
  dsimp only at hl
  split at hl
  · exact .announced hl hs
  · exact .of_eq hl hs

/-- The commands that may move a dial (R173 to R176, R191). -/
def movesDials : Instr → Bool
  | .powerOn | .resetPin | .powerLoss _ | .dial _ | .impulseEnd .. => true
  | _ => false

theorem exec_dials {i : Instr} (h : exec i s = .next t) (hi : movesDials i = false) : s.DialsKept t := by
  by_cases hsrc : movesSources i = false
  · obtain ⟨ms, hs⟩ := exec_sources h hsrc
    exact State.DialsKept.of_sources (s := s.atMs ms) hs
  have hself := State.DialsKept.refl s
  cases i with
  | powerOn | resetPin | powerLoss cut | dial p | impulseEnd ms line => cases hi
  | time p =>
    refine State.takeWith_rel (R := s.DialsKept) h hself (fun _ _ _ hu => hu) fun n => ?_
    obtain ⟨hl | ⟨x, hl⟩, hst⟩ := timeOwner_lines p n s
    · exact .of_eq hl hst
    · exact .announced hl hst
  | conf p => exact .takeTel h fun f => .of_eq (confOwner_lines f s).1 (confOwner_lines f s).2
  | csav p => exact .takeTel (owner := fun _ u => (u.saveConfiguration, Answer.accept .none)) h fun _ => hself
  | rset p =>
    exact .takeTel (owner := fun _ u => (u.resetPicture, Answer.accept .none)) h fun _ =>
      .of_eq (State.resetPicture_lines s) (State.resetPicture_store s)
  | runningSecond => exact .answer h (State.second_dials s)
  | minuteAdvance => exact State.answer_ite_rel (R := s.DialsKept) h hself fun _ => State.second_dials s
  | holdoverExpiry =>
    exact State.answer_ite_rel (R := s.DialsKept) h hself fun _ =>
      .of_eq (congrArg Sources.lines (State.enterHoldover_sources s)) (congrArg Sources.store (State.enterHoldover_sources s))
  | passTrigger ms =>
    refine State.answer_ite_rel (R := s.DialsKept) h hself fun _ => ?_
    dsimp only
    split
    · exact hself
    · obtain ⟨hl, hst⟩ := State.finish_lines (s.atMs ms).restartScan.beginPass s
      obtain ⟨hl', hst'⟩ := State.beginPass_lines (s.atMs ms).restartScan
      exact .of_eq (hl.trans hl') (hst.trans hst')
  | lightConversionComplete ms value =>
    refine .answer h ?_
    split
    · next c _ =>
      obtain ⟨hl, hst⟩ := State.finish_lines ((s.atMs ms).takeReading c value.toNat) s
      obtain ⟨hl', hst'⟩ := State.takeReading_lines c value.toNat (s.atMs ms)
      exact .of_eq (hl.trans hl') (hst.trans hst')
    · exact hself
  | lineCheckRequest ms line =>
    refine .answer h ?_
    dsimp only
    split
    · exact State.DialsKept.updLine (f := Line.asked) line (fun _ => rfl) s
    · exact hself
  | lineCheckComplete ms value =>
    refine .answer h ?_
    split
    · refine State.DialsKept.updLine _ (fun l => ?_) s
      unfold Line.takeResult
      split <;> rfl
    · exact hself
  | nextImpulseTime ms line =>
    refine .answer h ?_
    dsimp only
    split
    · exact State.DialsKept.updLine (f := Line.begin s.inForce (s.atMs ms).runTime) line (fun _ => rfl) s
    · exact hself
  | _ => exact absurd rfl hsrc

/-! ## The stored configuration -/

/-- Only CSAV, and a loss of power that cuts it short, moves the stored configuration (R190, R191). -/
theorem exec_stored {i : Instr} (h : exec i s = .next t) (hi : movesDials i = false ∨ movesConfiguration i = false)
    (hsave : ∀ p, i ≠ .csav p) : t.store.configuration = s.store.configuration := by
  by_cases hc : movesConfiguration i = false
  · exact congrArg Configuration.stored (exec_configuration h hc)
  cases i with
  | conf p =>
    exact State.takeTel_rel (R := fun t => t.store.configuration = s.store.configuration) h rfl (fun _ _ _ hu => hu)
      fun f => by rw [(confOwner_lines f s).2]
  | rset p =>
    exact State.takeTel_rel (R := fun t => t.store.configuration = s.store.configuration)
      (owner := fun _ u => (u.resetPicture, Answer.accept .none)) h rfl (fun _ _ _ hu => hu)
      fun _ => by rw [State.resetPicture_store]
  | csav p => exact absurd rfl (hsave p)
  | powerOn | resetPin | powerLoss cut => simp [movesDials, movesConfiguration] at hi
  | _ => exact absurd rfl hc

/-! ## The runs of the table -/

/-- No command but PLAN brings a run into the table (R14). -/
theorem exec_runs {i : Instr} (h : exec i s = .next t) (hplan : ∀ p, i ≠ .plan p) :
    ∀ x ∈ t.table.entries, ∃ e ∈ s.table.entries, x.run = e.run := by
  refine exec_keepsPicture (P := fun t => ∀ x ∈ t.table.entries, ∃ e ∈ s.table.entries, x.run = e.run) h ?_ ?_
  · rintro ⟨out, join, hmoved, -, hjoin⟩ x hx
    obtain hin | hnew := hmoved.runsFrom x hx
    · exact hin
    · obtain ⟨hi, -⟩ := hjoin (by rw [hnew]; exact nofun)
      cases i with
      | plan p => exact absurd rfl (hplan p)
      | _ => exact hi.elim
  · intro hb x hx
    rw [hb.entries] at hx
    exact absurd hx List.not_mem_nil

/-! ## What moves the clock, the dials, the configuration and the store -/

/-- Settles O54, each part by its own walk over the commands. -/
theorem onlyTheseCommandsMove : Obligations.OnlyTheseCommandsMove := by
  intro i s t h hon hpin hloss
  refine ⟨fun htime hsec hmin => ?_, fun hdial hend => ?_, fun hconf hrset => ?_, fun hsave => ?_,
    fun hwall hnote hnclr hexp hrset => exec_mode h ?_, exec_runs h⟩
  · have hi : movesClock i = false := by
      unfold movesClock
      split <;> simp_all
    obtain ⟨hclock, hrun, hslew, -⟩ := exec_stands h hi
    exact ⟨hclock, hrun, hslew⟩
  · refine exec_dials h ?_
    unfold movesDials
    split <;> simp_all
  · by_cases hsave : ∃ p, i = .csav p
    · obtain ⟨p, rfl⟩ := hsave
      exact State.takeTel_rel (R := fun t => t.inForce = s.inForce ∧ t.pendingCfg = s.pendingCfg)
        (owner := fun _ u => (u.saveConfiguration, Answer.accept .none)) h ⟨rfl, rfl⟩ (fun _ _ _ hu => hu)
        fun _ => ⟨rfl, rfl⟩
    · have hi : movesConfiguration i = false := by
        unfold movesConfiguration
        split <;> simp_all
      have hcfg := exec_configuration h hi
      exact ⟨congrArg Configuration.inForce hcfg, congrArg Configuration.pendingCfg hcfg⟩
  · refine exec_stored h ?_ hsave
    unfold movesDials movesConfiguration
    split <;> simp_all
  · unfold movesMode
    split <;> simp_all

end Sys2Proof.Machine
end

section
/-! PROOF. What a dispatch decision does (R139 to R143), the classes of a reply (R134), and the events of the panel bus. -/
namespace Sys2Proof.Machine

open Sys2Proof

variable {s t u : State}

/-! ## The classes of a reply -/

theorem checkCrc_eq_some {l body : List Octet} (h : checkCrc l = some body) : l = body ++ crcOctets body := by
  simp only [checkCrc, Option.ite_none_right_eq_some, Option.some.injEq] at h
  obtain ⟨⟨-, hcrc⟩, rfl⟩ := h
  conv_lhs => rw [← List.take_append_drop (l.length - 2) l, hcrc]

/-- The three octets of a well formed reply read (R134). -/
theorem classifyReply_of_wellFormed (x : Exchange) {octets : List Octet} {a n status : Octet}
    (h : unescape octets = some ([a, n, status] ++ crcOctets [a, n, status])) :
    classifyReply x octets =
      if a.toNat = x.addr ∧ n = x.seq then
        if status = 0 then .good false
        else if status = 2 then .good true
        else if status = 1 then .refused
        else .failed
      else .failed := by
  have hcrc := checkCrc_append_crcOctets [a, n, status]
  have hlen : ([a, n, status] ++ crcOctets [a, n, status]).length = 5 := rfl
  simp only [classifyReply, h, Option.bind_some, hlen, if_true, hcrc]

theorem classifyReply_wellFormed {x : Exchange} {octets : List Octet} (h : classifyReply x octets ≠ .failed) :
    ∃ a n status : Octet, unescape octets = some ([a, n, status] ++ crcOctets [a, n, status]) ∧
      a.toNat = x.addr ∧ n = x.seq ∧ status.toNat ≤ 2 := by
  unfold classifyReply at h
  split at h
  · next a n status hread =>
    obtain ⟨l, hl, hcheck⟩ := Option.bind_eq_some_iff.1 hread
    rw [Option.ite_none_right_eq_some] at hcheck
    have hform := checkCrc_eq_some hcheck.2
    split at h
    · next hown =>
      refine ⟨a, n, status, by rw [hl, hform], hown.1, hown.2, ?_⟩
      split at h
      · next hs => simp [hs]
      · split at h
        · next hs => simp [hs]
        · split at h
          · next hs => simp [hs]
          · exact absurd rfl h
    · exact absurd rfl h
  · exact absurd rfl h

/-- Settles O45. -/
theorem repliesAreClassed : Obligations.RepliesAreClassed := by
  refine fun x octets => ⟨fun a n status h => ?_, classifyReply_wellFormed⟩
  rw [classifyReply_of_wellFormed x (h ▸ unescape_escape _)]
  by_cases hown : a.toNat = x.addr ∧ n = x.seq
  · simp [hown]
  · have hno (c : Prop) : ¬(a.toNat = x.addr ∧ n = x.seq ∧ c) := fun hc => hown ⟨hc.1, hc.2.1⟩
    simp [hown, hno]

/-! ## The urgent list -/

theorem Panel.wantsFrame_iff (q : Panel) :
    q.wantsFrame = true ↔
      (q.state = .active ∨ q.state = .probing) ∧ (q.desired ≠ q.acked ∨ q.ackedLevel ≠ some q.desiredLevel) := by
  simp [Panel.wantsFrame, Panel.stale, Panel.tagStale, Panel.levelStale]

theorem Panel.tagStale_iff (q : Panel) : q.tagStale = true ↔ q.desired ≠ q.acked := by simp [Panel.tagStale]

/-- The first entry of the urgent list whose panel wants a frame is picked, those before it leaving (R141). -/
theorem urgentPick_first {panels : List Panel} {before after : List Urgent} {v : Urgent} {p : Panel}
    (hbefore : ∀ b ∈ before, ∀ r, panels.find? (·.addr = b.addr) = some r → r.wantsFrame = false)
    (hp : panels.find? (·.addr = v.addr) = some p) (hwants : p.wantsFrame = true) :
    urgentPick panels (before ++ v :: after) = (some (v, p), after) := by
  induction before with
  | nil => simp [urgentPick, hp, hwants]
  | cons b rest ih =>
    have hrest := ih fun c hc => hbefore c (List.mem_cons_of_mem b hc)
    rw [List.cons_append, urgentPick]
    split
    · next r hr =>
      rw [if_neg (by rw [hbefore b List.mem_cons_self r hr]; exact Bool.false_ne_true), hrest]
    · exact hrest

theorem urgentPick_none {panels : List Panel} {l : List Urgent}
    (h : ∀ b ∈ l, ∀ r, panels.find? (·.addr = b.addr) = some r → r.wantsFrame = false) :
    urgentPick panels l = (none, []) := by
  induction l with
  | nil => rfl
  | cons b rest ih =>
    have hrest := ih fun c hc => h c (List.mem_cons_of_mem b hc)
    rw [urgentPick]
    split
    · next r hr =>
      rw [if_neg (by rw [h b List.mem_cons_self r hr]; exact Bool.false_ne_true), hrest]
    · exact hrest

/-! ## The refresh cycle -/

/-- The place of an address in the refresh cycle that begins at the pointer (R142). -/
def cyclePlace (pointer addr : Nat) : Nat := if pointer ≤ addr then addr else addr + 60

theorem State.mem_cycleOrder (s : State) (q : Panel) : q ∈ s.cycleOrder ↔ q ∈ s.bus.panels := by
  simp only [State.cycleOrder, List.mem_append, List.mem_filter, decide_eq_true_eq]
  constructor
  · rintro (h | h) <;> exact h.1
  · intro h
    by_cases hp : s.bus.pointer ≤ q.addr
    · exact .inl ⟨h, hp⟩
    · exact .inr ⟨h, by omega⟩

theorem State.PanelsOk.sorted (h : s.PanelsOk) : s.bus.panels.Pairwise fun a b => a.addr < b.addr := by
  rw [← List.pairwise_map (f := Panel.addr) (R := (· < ·)), h.1, List.pairwise_map]
  exact List.pairwise_lt_range.imp (by omega)

theorem State.PanelsOk.addr_range (h : s.PanelsOk) {q : Panel} (hq : q ∈ s.bus.panels) : 1 ≤ q.addr ∧ q.addr ≤ 60 := by
  have hmem : q.addr ∈ s.bus.panels.map (·.addr) := List.mem_map_of_mem hq
  rw [h.1] at hmem
  obtain ⟨i, hi, hadd⟩ := List.mem_map.1 hmem
  rw [List.mem_range] at hi
  omega

theorem State.cycleOrder_sorted (h : s.PanelsOk) :
    s.cycleOrder.Pairwise fun a b => cyclePlace s.bus.pointer a.addr < cyclePlace s.bus.pointer b.addr := by
  refine List.pairwise_append.2 ⟨?_, ?_, fun a ha b hb => ?_⟩
  · refine (h.sorted.filter _).imp_of_mem fun ha hb hlt => ?_
    simp only [List.mem_filter, decide_eq_true_eq] at ha hb
    simp only [cyclePlace, ha.2, hb.2, if_true]
    exact hlt
  · refine (h.sorted.filter _).imp_of_mem fun ha hb hlt => ?_
    simp only [List.mem_filter, decide_eq_true_eq] at ha hb
    simp only [cyclePlace, Nat.not_le.2 ha.2, Nat.not_le.2 hb.2, if_false]
    omega
  · simp only [List.mem_filter, decide_eq_true_eq] at ha hb
    simp only [cyclePlace, ha.2, Nat.not_le.2 hb.2, if_true, if_false]
    have := (h.addr_range ha.1).2
    have := (h.addr_range hb.1).1
    omega

/-- In a list sorted by a key the first member that `p` picks has the least key of those it picks. -/
theorem find?_le_of_sorted {α : Type} {f : α → Nat} {l : List α} (h : l.Pairwise fun a b => f a < f b) {p : α → Bool}
    {a b : α} (ha : l.find? p = some a) (hb : b ∈ l) (hpb : p b = true) : f a ≤ f b := by
  obtain ⟨-, before, after, rfl, hbefore⟩ := List.find?_eq_some_iff_append.1 ha
  obtain hin | hin := List.mem_append.1 hb
  · exact absurd hpb (by simpa using hbefore b hin)
  · obtain rfl | hin := List.mem_cons.1 hin
    · exact le_rfl
    · exact ((List.pairwise_cons.1 (List.pairwise_append.1 h).2.1).1 b hin).le

theorem find?_of_le {α : Type} {f : α → Nat} {l : List α} (h : l.Pairwise fun a b => f a < f b) {p : α → Bool} {a : α}
    (ha : a ∈ l) (hpa : p a = true) (hle : ∀ b ∈ l, p b = true → f a ≤ f b) : l.find? p = some a := by
  obtain ⟨before, after, rfl⟩ := List.append_of_mem ha
  refine List.find?_eq_some_iff_append.2 ⟨hpa, before, after, rfl, fun b hb => ?_⟩
  have hlt : f b < f a := (List.pairwise_append.1 h).2.2 b hb a List.mem_cons_self
  cases hpb : p b with
  | false => rfl
  | true => exact absurd (hle b (List.mem_append_left _ hb) hpb) (Nat.not_le.2 hlt)

/-! ## A dispatch decision -/

theorem State.dispatch_busy (h : s.bus.exchange ≠ none) : s.dispatch = s := by
  rw [State.dispatch, if_pos (Option.isSome_iff_ne_none.2 h)]

/-- The urgent list is taken first (R141). -/
theorem State.dispatch_urgent {v : Urgent} {p : Panel} {rest : List Urgent} (h : s.bus.exchange = none)
    (hpick : urgentPick s.bus.panels s.bus.urgent = (some (v, p), rest)) :
    s.dispatch = State.startExchange p (some v.retries) { s with bus := { s.bus with urgent := rest } } := by
  simp [State.dispatch, h, hpick]

/-- Then the refresh cycle (R142). -/
theorem State.dispatch_cycle {p : Panel} (h : s.bus.exchange = none)
    (hpick : urgentPick s.bus.panels s.bus.urgent = (none, [])) (hfind : s.cycleOrder.find? s.needsService = some p) :
    s.dispatch =
      State.startExchange p none
        { s with bus := { s.bus with urgent := [], pointer := if p.addr ≥ 60 then 1 else p.addr + 1 } } := by
  rw [State.dispatch, if_neg (by simp [h]), hpick]
  dsimp only
  split
  · next q hq => rw [Option.some.inj (hq.symm.trans hfind)]
  · next hq => exact absurd (hq.symm.trans hfind) nofun

theorem State.dispatch_none (h : s.bus.exchange = none)
    (hpick : urgentPick s.bus.panels s.bus.urgent = (none, [])) (hfind : s.cycleOrder.find? s.needsService = none) :
    s.dispatch = { s with bus := { s.bus with urgent := [] } } := by
  rw [State.dispatch, if_neg (by simp [h]), hpick]
  dsimp only
  split
  · next q hq => exact absurd (hq.symm.trans hfind) nofun
  · rfl

/-! ## The events of the panel bus -/

theorem Panel.waited_iff (now period : Nat) (q : Panel) :
    q.waited now period = true ↔ ∀ n, q.lastServed = some n → n + 1000 * period ≤ now := by
  unfold Panel.waited
  cases q.lastServed <;> simp

theorem State.keepaliveIsDue_iff (s : State) (q : Panel) :
    s.keepaliveIsDue q = true ↔
      q.state = .active ∧ ∀ n, q.lastServed = some n → n + 1000 * s.inForce.keepalive ≤ s.runTime := by
  simp [State.keepaliveIsDue, Panel.waited_iff]

theorem State.probeIsDue_iff (s : State) (q : Panel) :
    s.probeIsDue q = true ↔
      q.state = .failed ∧ ∀ n, q.lastServed = some n → n + 1000 * s.inForce.probe ≤ s.runTime := by
  simp [State.probeIsDue, Panel.waited_iff]

/-- A level frame records the level alone (R132). -/
theorem State.frameFor_of_quiet {p : Panel} (h : p.wantsFrame = false) (s : State) : s.frameFor p = .polf := by
  simp [State.frameFor, h]

/-- On a settled IDLE bus a due keepalive or probe is served with a level frame, the panel nearest the refresh pointer
first (R139, R142, R143). -/
theorem State.dispatch_due (hp : s.PanelsOk) (hb : s.BusOk) (hidle : s.bus.exchange = none) {q : Panel}
    (hq : q ∈ s.bus.panels) (hdue : s.keepaliveIsDue q = true ∨ s.probeIsDue q = true) :
    ∃ r x, r ∈ s.bus.panels ∧ (s.keepaliveIsDue r = true ∨ s.probeIsDue r = true) ∧
      s.dispatch.bus.exchange = some x ∧ x.addr = r.addr ∧
      x.seq = s.bus.seq + 1 ∧ x.content = .polf ∧ x.urgent = none ∧ x.startState = r.state ∧
      x.rset = false ∧ x.phase = .sending ∧ s.dispatch.bus.seq = s.bus.seq + 1 ∧
      s.dispatch.bus.pointer = (if r.addr ≥ 60 then 1 else r.addr + 1) ∧
      (∀ b ∈ s.bus.panels, s.keepaliveIsDue b = true ∨ s.probeIsDue b = true →
        cyclePlace s.bus.pointer r.addr ≤ cyclePlace s.bus.pointer b.addr) ∧
      s.dispatch = { s with bus := s.dispatch.bus } := by
  obtain ⟨hurgent, hquiet⟩ := hb.1 hidle
  have hneeds (b : Panel) (hbp : b ∈ s.bus.panels) :
      s.needsService b = true ↔ s.keepaliveIsDue b = true ∨ s.probeIsDue b = true := by
    simp [State.needsService, hquiet b hbp]
  have hpick : urgentPick s.bus.panels s.bus.urgent = (none, []) := by rw [hurgent]; rfl
  cases hfind : s.cycleOrder.find? s.needsService with
  | none =>
    have hno := List.find?_eq_none.1 hfind q ((s.mem_cycleOrder q).2 hq)
    exact absurd ((hneeds q hq).2 hdue) hno
  | some r =>
    have hr : r ∈ s.bus.panels := (s.mem_cycleOrder r).1 (List.mem_of_find?_eq_some hfind)
    rw [State.dispatch_cycle hidle hpick hfind]
    refine ⟨r, _, hr, (hneeds r hr).1 (List.find?_some hfind), rfl, rfl, rfl, State.frameFor_of_quiet (hquiet r hr) _, rfl,
      rfl, rfl, rfl, rfl, rfl, fun b hbp hbd => ?_, rfl⟩
    exact find?_le_of_sorted (State.cycleOrder_sorted hp) hfind ((s.mem_cycleOrder b).2 hbp) ((hneeds b hbp).2 hbd)

theorem Bus.sending_none {b : Bus} (h : ∀ x, b.exchange = some x → x.phase ≠ .sending) : b.sending = none := by
  cases hx : b.exchange with
  | none => simp [Bus.sending, hx]
  | some x => simp [Bus.sending, hx, Option.filter, h x hx]

theorem Bus.sending_some {b : Bus} {x : Exchange} (h : b.exchange = some x) (hp : x.phase = .sending) :
    b.sending = some x := by
  simp [Bus.sending, h, Option.filter, hp]

theorem Bus.awaiting_none {b : Bus} (h : ∀ x w, b.exchange = some x → x.phase ≠ .window w) : b.awaiting = none := by
  cases hx : b.exchange with
  | none => simp [Bus.awaiting, hx]
  | some x =>
    cases hp : x.phase with
    | sending => simp [Bus.awaiting, hx, hp]
    | window w => exact absurd hp (h x w hx)

theorem Bus.awaiting_some {b : Bus} {x : Exchange} {w : Nat} (h : b.exchange = some x) (hp : x.phase = .window w) :
    b.awaiting = some (x, w) := by
  simp [Bus.awaiting, h, hp]

/-- Settles O44. -/
theorem framesWindowsAndDueTimes : Obligations.FramesWindowsAndDueTimes := by
  refine ⟨fun s ms x hp hx hphase => ?_, fun s ms hno => ?_, fun s ms octets hno => ?_, fun s ms x w hx hphase hearly => ?_,
    fun s ms addr i state period due hp hpanels hbus hi hdue => ?_⟩
  · refine ⟨(s.atMs ms).withExchange (some { x with phase := .window (s.atMs ms).runTime }), ?_, rfl, rfl⟩
    simp [exec, execPanelFrameEnd, Bus.sending_some hx hphase, State.answer, hp]
  · simp [exec, execPanelFrameEnd, Bus.sending_none hno, State.answer_self]
  · simp [exec, execPanelReplyReceived, execReplyWindowClose, Bus.awaiting_none hno, State.answer_self]
  · have hlate : ¬w + 5 ≤ (s.atMs ms).runTime := Nat.not_le.2 hearly
    simp [exec, execReplyWindowClose, Bus.awaiting_some hx hphase, hlate, State.answer_self]
  · have hdue' (q : Panel) : due q ↔ (s.atMs ms).keepaliveIsDue q = true ∨ (s.atMs ms).probeIsDue q = true := by
      rw [hdue, State.keepaliveIsDue_iff, State.probeIsDue_iff]
      rfl
    have hpick : ∃ pick : Panel → Bool, (∀ q : Panel, pick q = true ↔ q.state = state ∧ due q) ∧
        exec i s = s.answer (if (s.panel? addr).any pick then (s.atMs ms).dispatch else s) := by
      obtain ⟨rfl, rfl, -⟩ | ⟨rfl, rfl, -⟩ := hi
      · refine ⟨(s.atMs ms).keepaliveIsDue, fun q => ?_, rfl⟩
        rw [hdue', State.keepaliveIsDue_iff, State.probeIsDue_iff]
        grind
      · refine ⟨(s.atMs ms).probeIsDue, fun q => ?_, rfl⟩
        rw [hdue', State.keepaliveIsDue_iff, State.probeIsDue_iff]
        grind
    obtain ⟨pick, hpick, hexec⟩ := hpick
    refine ⟨fun q hq hstate hqdue => ?_, fun hnone => ?_⟩
    · have hany : (s.panel? addr).any pick = true := by simp [hq, (hpick q).2 ⟨hstate, hqdue⟩]
      rw [hany, if_pos rfl, State.answer, if_pos hp] at hexec
      refine ⟨fun hbusy => ?_, fun hidle => ?_⟩
      · rw [hexec, State.dispatch_busy (s := s.atMs ms) hbusy]
      · obtain ⟨r, x, hr, hrdue, hx, h1, h2, h3, h4, h5, h6, h7, h8, h9, hleast, hframe⟩ :=
          State.dispatch_due (s := s.atMs ms) hpanels hbus hidle (State.panel?_some hq).1 ((hdue' q).1 hqdue)
        refine ⟨_, r, x, hexec, hr, (hdue' r).2 hrdue, hx, h1, h2, h3, h4, h5, h6, h7, h8, h9,
          fun b hb hbd => hleast b hb ((hdue' b).1 hbd), ?_⟩
        rw [hframe]
        rfl
    · have hany : (s.panel? addr).any pick = false := by
        rw [Option.any_eq_false]
        intro q hq
        rw [← Bool.not_eq_true, hpick]
        exact fun h => hnone q hq h.1 h.2
      rw [hexec, hany, if_neg Bool.false_ne_true, State.answer_self]

end Sys2Proof.Machine
end

section
/-! PROOF. How a decision at the clock places an impulse line (R167 to R170), and DIAL (R174 to R176). -/
namespace Sys2Proof.Machine

open Sys2Proof

variable {s t u : State}

/-! ## A line record read after a change -/

theorem State.line?_updLine {n : Fin 4} {f : Line → Line} (hf : ∀ l, (f l).no = l.no) (k : Fin 4) (s : State) :
    (s.updLine n f).line? k = if k = n then (s.line? n).map f else s.line? k := by
  have hfind : ∀ l : List Line, (updWhere (·.no = n) f l).find? (·.no = k) =
      if k = n then (l.find? (·.no = n)).map f else l.find? (·.no = k) := by
    intro l
    induction l with
    | nil => simp [updWhere]
    | cons a l ih =>
      simp only [updWhere, List.map_cons, List.find?_cons] at ih ⊢
      by_cases ha : a.no = n
      · by_cases hk : k = n
        · subst hk
          simp [ha, hf]
        · have hnk : ¬n = k := fun h => hk h.symm
          simpa [ha, hf, hk, hnk] using ih
      · by_cases hk : k = n
        · subst hk
          simpa [ha] using ih
        · by_cases hak : a.no = k
          · simp [hak, hk]
          · simpa [ha, hak, hk] using ih
  exact hfind s.lines

theorem State.line?_updLine_same {n : Fin 4} {f : Line → Line} (hf : ∀ l, (f l).no = l.no) {l : Line}
    (h : s.line? n = some l) : (s.updLine n f).line? n = some (f l) := by
  rw [State.line?_updLine hf, if_pos rfl, h, Option.map_some]

theorem State.line?_updLine_other {n k : Fin 4} {f : Line → Line} (hf : ∀ l, (f l).no = l.no) (h : k ≠ n) (s : State) :
    (s.updLine n f).line? k = s.line? k := by
  rw [State.line?_updLine hf, if_neg h]

theorem State.LinesOk.line (h : s.LinesOk) {n : Fin 4} {l : Line} (hl : s.line? n = some l) : l.Ok :=
  h.2.2 l (State.line?_mem hl).1

/-! ## A decision -/

theorem Line.diff_eq {clock d : Nat} {l : Line} (hd : d < 720) (h : (l.dial + d) % 720 = clock / 60 % 720) :
    l.diff clock = d := by
  simp only [Line.diff, dialTarget]
  omega

section decision

variable {p : Params} {clock now : Nat} {minute : Bool} {w : DecisionTime} {l : Line}

theorem Line.decide_unset : l.decide p true clock now minute w = { l with state := .paused, nextAt := none } := rfl

theorem Line.decide_zero (h : l.diff clock = 0) :
    l.decide p false clock now minute w = { l with state := .run, nextAt := none } := by simp [Line.decide, h]

theorem Line.decide_minute (h : l.diff clock = 1) (hrun : l.state = .run) :
    l.decide p false clock now true w = Line.begin p now { l with state := .run } := by simp [Line.decide, h, hrun]

theorem Line.decide_advance (h0 : l.diff clock ≠ 0) (h1 : ¬(l.diff clock = 1 ∧ l.state = .run ∧ minute = true))
    (hle : l.diff clock ≤ p.advanceLimit) : l.decide p false clock now minute w = l.advance p now w := by
  simp only [Line.decide, Bool.false_eq_true, if_false, h0]
  rw [if_neg h1, if_pos hle]

theorem Line.decide_hold (h0 : l.diff clock ≠ 0) (h1 : ¬(l.diff clock = 1 ∧ l.state = .run ∧ minute = true))
    (hlt : p.advanceLimit < l.diff clock) :
    l.decide p false clock now minute w = { l with state := .hold, nextAt := none } := by
  simp only [Line.decide, Bool.false_eq_true, if_false, h0]
  rw [if_neg h1, if_neg (Nat.not_le.2 hlt)]

/-- A decision between impulses (R168, R170). -/
theorem Line.decide_placedBy (hidle : l.impulse = none) {d : Nat} (hd : l.diff clock = d) :
    l.PlacedBy p now minute (l.decide p false clock now minute .between) d := by
  subst hd
  refine ⟨fun h0 => ?_, fun h1 hrun hminute => ?_, fun hpos hcase => ⟨fun hle => ?_, fun hlt => ?_⟩⟩
  · rw [Line.decide_zero h0]
    exact ⟨rfl, hidle, rfl⟩
  · rw [hminute, Line.decide_minute h1 hrun]
    exact ⟨rfl, rfl, rfl⟩
  · rw [Line.decide_advance (Nat.ne_of_gt hpos) hcase hle, Line.advance]
    split
    · next hwait =>
      refine ⟨hwait.1, fun _ _ => ⟨hidle, rfl⟩, fun hno => ?_⟩
      obtain hno | hno := hno
      · exact absurd hwait.1 hno
      · simp [hno] at hwait
    · next hwait =>
      refine ⟨rfl, fun hstate hnext => absurd ⟨hstate, Option.isSome_iff_ne_none.2 hnext⟩ hwait, fun _ => ⟨rfl, rfl⟩⟩
  · rw [Line.decide_hold (Nat.ne_of_gt hpos) hcase hlt]
    exact ⟨rfl, hidle, rfl⟩

end decision

/-! ## DIAL -/

theorem dialOwner_refused {f : DialFields} {i : Nat} (h : firstBad (dialChecks f) = some i) :
    dialOwner f s = (s, Answer.badField i) := by
  rw [dialOwner, h]

theorem dialOwner_accepted {f : DialFields} (h : firstBad (dialChecks f) = none) {n : Fin 4} (hn : f.line = n.val) :
    dialOwner f s = (s.takeDial n f.dial, Answer.accept ((s.takeDial n f.dial).lineResult n)) := by
  have hline : lineOf f.line = n := by
    rw [hn]
    exact Fin.ext (Nat.mod_eq_of_lt n.isLt)
  rw [dialOwner, h, hline]

theorem State.takeDial_ports (n : Fin 4) (d : PendingDial) (s : State) :
    s.takeDial n d = { s with lines := (s.takeDial n d).lines, store := (s.takeDial n d).store } ∧
      (s.takeDial n d).store.configuration = s.store.configuration := by
  unfold State.takeDial
  split <;> exact ⟨rfl, rfl⟩

/-- A DIAL during an impulse is held pending (R175). -/
theorem State.takeDial_held {n : Fin 4} {l : Line} (h : s.line? n = some l) (hi : l.impulse ≠ none) (d : PendingDial) :
    s.takeDial n d = s.updLine n fun l => { l with pendingDial := some d } := by
  rw [State.takeDial, if_pos (by simp [h, Option.isSome_iff_ne_none.2 hi])]

/-- A DIAL between impulses acts at once (R174). -/
theorem State.takeDial_acts {n : Fin 4} {l : Line} (h : s.line? n = some l) (hi : l.impulse = none) (d : PendingDial) :
    s.takeDial n d = s.applyDial n .between d := by
  rw [State.takeDial, if_neg (by simp [h, hi])]

/-- Where the line stands after a DIAL, its record as it was before (R174, R175). -/
def dialed (s : State) (d : PendingDial) (l : Line) : Line :=
  if l.impulse.isSome then { l with pendingDial := some d }
  else l.applyDial s.inForce (s.time.state = .unset) s.time.clock s.runTime .between d

theorem State.takeDial_line? {n : Fin 4} {l : Line} (h : s.line? n = some l) (d : PendingDial) :
    (s.takeDial n d).line? n = some (dialed s d l) ∧ ∀ k, k ≠ n → (s.takeDial n d).line? k = s.line? k := by
  by_cases hi : l.impulse = none
  · have hno (x : Line) := Line.applyDial_no s.inForce (s.time.state = .unset) s.time.clock s.runTime .between d x
    rw [State.takeDial_acts h hi, dialed, if_neg (by simp [hi])]
    exact ⟨State.line?_updLine_same hno h, fun k hk => State.line?_updLine_other hno hk s⟩
  · rw [State.takeDial_held h hi, dialed, if_pos (Option.isSome_iff_ne_none.2 hi)]
    have hno : ∀ x : Line, ({ x with pendingDial := some d } : Line).no = x.no := fun _ => rfl
    exact ⟨State.line?_updLine_same hno h, fun k hk => State.line?_updLine_other hno hk s⟩

theorem State.lineResult_of_line? {n : Fin 4} {l : Line} (h : s.line? n = some l) :
    s.lineResult n = .line l.state l.dial l.polarity l.missed (decide (l.pendingDial ≠ none)) := by
  rw [State.lineResult, h]
  cases hp : l.pendingDial <;> simp [hp]

/-- A SET between impulses (R174): the dial, and the line decided at once. -/
theorem dialed_set {l : Line} (hidle : l.impulse = none) (position : Nat) (polarity : Polarity) :
    (dialed s (.set position polarity) l).dial = position ∧ (dialed s (.set position polarity) l).polarity = polarity ∧
      (dialed s (.set position polarity) l).missed = 0 ∧ (dialed s (.set position polarity) l).inUse = true ∧
      (s.time.state = .unset →
        (dialed s (.set position polarity) l).state = .paused ∧ (dialed s (.set position polarity) l).impulse = none ∧
          (dialed s (.set position polarity) l).nextAt = none) ∧
      (s.time.state ≠ .unset → ∀ d, d < 720 → (position + d) % 720 = s.time.clock / 60 % 720 →
        Line.PlacedBy s.inForce s.runTime false
          { l with polarity := polarity, nextAt := if Config.dialKeepsNext then l.nextAt else none }
          (dialed s (.set position polarity) l) d) := by
  rw [dialed, if_neg (by simp [hidle]), Line.applyDial]
  have hface := Line.decide_face s.inForce (s.time.state = .unset) s.time.clock s.runTime false .between
    { l with
      dial := position, polarity := polarity, missed := 0, inUse := true
      nextAt := if Config.dialKeepsNext then l.nextAt else none }
  simp only [Line.face, Prod.mk.injEq] at hface
  obtain ⟨-, hdial, hpol, hmissed, huse⟩ := hface
  refine ⟨hdial, hpol, hmissed, huse, fun hunset => ?_, fun hset d hd hdiff => ?_⟩
  · simp only [hunset, decide_true, Line.decide_unset]
    exact ⟨trivial, hidle, trivial⟩
  · simp only [hset, decide_false]
    exact Line.decide_placedBy (l := { l with
      dial := position, polarity := polarity, missed := 0, inUse := true
      nextAt := if Config.dialKeepsNext then l.nextAt else none }) hidle (Line.diff_eq hd hdiff)

/-- Settles O52. -/
theorem dialSetsTheLine : Obligations.DialSetsTheLine := by
  intro s p seq f h hlines
  refine ⟨fun hline => ?_, fun hline hact => ?_, fun position polarity hline hact hset => ⟨fun hpos => ?_, fun hpos hpol => ?_⟩,
    fun n l hn hact hl hrange => ?_⟩
  · exact exec_taking_refused h (dialOwner_refused (by simp [dialChecks, Nat.not_le.2 hline]))
  · exact exec_taking_refused h (dialOwner_refused (by simp [dialChecks, hline, Nat.not_le.2 hact]))
  · exact exec_taking_refused h (dialOwner_refused (by simp [dialChecks, hline, hact, hset, Nat.not_le.2 hpos]))
  · exact exec_taking_refused h (dialOwner_refused (by simp [dialChecks, hline, hact, hset, hpos, Nat.not_le.2 hpol]))
  · have hok : firstBad (dialChecks f) = none := by
      have hline : f.line ≤ 3 := by have := n.isLt; omega
      have hpos : f.setting.all (·.1 ≤ 719) = true := by
        simp only [Option.all_eq_true, decide_eq_true_eq]
        exact fun x hx => (hrange x.1 x.2 hx).1
      have hpol : f.setting.all (·.2 ≤ 1) = true := by
        simp only [Option.all_eq_true, decide_eq_true_eq]
        exact fun x hx => (hrange x.1 x.2 hx).2
      simp [dialChecks, hline, hact, hpos, hpol]
    obtain ⟨hframe, hstore⟩ := State.takeDial_ports n f.dial s
    have hports : (s.takeDial n f.dial).ports = s.ports := by rw [hframe]
    obtain ⟨hexec, hanswered⟩ := exec_taking_answered h (dialOwner_accepted hok hn) (State.link_of_ports hports)
    obtain ⟨hown, hothers⟩ := State.takeDial_line? hl f.dial
    refine ⟨_, dialed s f.dial l, hexec, hown, hothers, State.lineResult_of_line? hown ▸ hanswered, ?_, fun q => ?_, hstore,
      fun hi => ⟨?_, ?_⟩, fun hi => ⟨?_, fun hnone => ?_, fun position polarity hset => ?_⟩⟩
    · rw [hframe]
      rfl
    · rw [State.answerTel_notices, State.port, hports]
      rfl
    · show (s.takeDial n f.dial).store = s.store
      rw [State.takeDial_held hl hi]
      rfl
    · rw [dialed, if_pos (Option.isSome_iff_ne_none.2 hi)]
      rfl
    · show (s.takeDial n f.dial).DialsStored
      rw [State.takeDial_acts hl hi]
      rfl
    · rw [dialed, if_neg (by simp [hi]), DialFields.dial, hnone]
      rfl
    · have hd : f.dial = .set position (if polarity = 0 then .pos else .neg) := by rw [DialFields.dial, hset]
      rw [hd]
      obtain ⟨h1, h2, h3, h4, h5, h6⟩ := dialed_set (s := s) hi position (if polarity = 0 then .pos else .neg)
      exact ⟨h1, h2, h3, h4, h5, fun hs d hlt hdiff => by rw [h2]; exact h6 hs d hlt hdiff⟩

end Sys2Proof.Machine
end

section
/-! PROOF. The next impulse time and the end of an impulse (R170, R172, R173, R175). -/
namespace Sys2Proof.Machine

open Sys2Proof

variable {s t u : State}

/-! ## A decision at the end of an impulse -/

/-- Where a decision at the end of an impulse leaves a line that has none then: a fast impulse follows no sooner than the
fast period and the rest (R168, R170, R173). -/
theorem Line.decide_atEnd {p : Params} {clock now start stop d : Nat} {minute : Bool} {l : Line} (hidle : l.impulse = none)
    (hd : l.diff clock = d) :
    (d = 0 → (l.decide p false clock now minute (.atEnd start stop)).state = .run ∧
        (l.decide p false clock now minute (.atEnd start stop)).impulse = none ∧
        (l.decide p false clock now minute (.atEnd start stop)).nextAt = none) ∧
      (d = 1 → l.state = .run → minute = true →
        (l.decide p false clock now minute (.atEnd start stop)).state = .run ∧
          (l.decide p false clock now minute (.atEnd start stop)).impulse =
            some ((l.decide p false clock now minute (.atEnd start stop)).nextImpulse p now) ∧
          (l.decide p false clock now minute (.atEnd start stop)).nextAt = none) ∧
      (1 ≤ d → d ≤ p.advanceLimit → ¬(d = 1 ∧ l.state = .run ∧ minute = true) →
        (l.decide p false clock now minute (.atEnd start stop)).state = .advance ∧
          (l.decide p false clock now minute (.atEnd start stop)).impulse = none ∧
          (l.decide p false clock now minute (.atEnd start stop)).nextAt =
            some (max (start + 1000 * p.fastPeriod) (stop + 100))) ∧
      (p.advanceLimit < d → ¬(d = 1 ∧ l.state = .run ∧ minute = true) →
        (l.decide p false clock now minute (.atEnd start stop)).state = .hold ∧
          (l.decide p false clock now minute (.atEnd start stop)).impulse = none ∧
          (l.decide p false clock now minute (.atEnd start stop)).nextAt = none) := by
  subst hd
  refine ⟨fun h0 => ?_, fun h1 hrun hminute => ?_, fun hpos hle hcase => ?_, fun hlt hcase => ?_⟩
  · rw [Line.decide_zero h0]
    exact ⟨rfl, hidle, rfl⟩
  · rw [hminute, Line.decide_minute h1 hrun]
    exact ⟨rfl, rfl, rfl⟩
  · rw [Line.decide_advance (Nat.ne_of_gt hpos) hcase hle]
    exact ⟨rfl, hidle, rfl⟩
  · rw [Line.decide_hold (by omega) hcase hlt]
    exact ⟨rfl, hidle, rfl⟩

/-- A decision leaves no check result, and neither the deferral nor the pending DIAL moves (R168). -/
theorem Line.decide_cleared (p : Params) (unset : Bool) (clock now : Nat) (minute : Bool) (w : DecisionTime) {l : Line}
    (h : l.result = none) :
    (l.decide p unset clock now minute w).result = none ∧
      (l.decide p unset clock now minute w).pendingDial = l.pendingDial ∧
      (l.decide p unset clock now minute w).deferred = l.deferred := by
  unfold Line.decide Line.advance
  dsimp only
  repeat' split
  all_goals exact ⟨by simp [Line.begin, h], rfl, rfl⟩

/-! ## The end of an impulse -/

/-- The outcome of an impulse for its line, the pending DIAL and the decision apart (R173). -/
def Line.outcome (l : Line) : Line := if l.result = some true then l.delivered else l.missedOne

/-- Where a line stands after the end of its impulse `i` (R173, R175). -/
def Line.ended (p : Params) (unset : Bool) (clock now : Nat) (i : Impulse) (l : Line) : Line :=
  match l.pendingDial with
  | some d => l.clearImpulse.applyDial p unset clock now (.atEnd i.start (i.start + i.width)) d
  | none => Line.decideAtEnd p unset clock now i l l.outcome.clearImpulse

theorem Line.outcome_no (l : Line) : l.outcome.no = l.no := by
  unfold Line.outcome Line.missedOne
  repeat' split
  all_goals rfl

theorem State.writeDials_line? (s : State) (k : Fin 4) : s.writeDials.line? k = s.line? k := rfl

theorem State.post_line? (names : List PortId) (kind : NoticeKind) (x : Subject) (s : State) (k : Fin 4) :
    (s.post names kind x).line? k = s.line? k := by
  rw [State.line?, State.line?, State.post_lines]

theorem State.endImpulse_line? {n : Fin 4} {l : Line} (h : s.line? n = some l) (i : Impulse) :
    (s.endImpulse l i).line? n = some (l.ended s.inForce (s.time.state = .unset) s.time.clock s.runTime i) ∧
      ∀ k, k ≠ n → (s.endImpulse l i).line? k = s.line? k := by
  have hno : l.no = n := (State.line?_mem h).2
  simp only [State.endImpulse, Line.ended, hno]
  cases hp : l.pendingDial with
  | some d =>
    have happly (x : Line) := Line.applyDial_no s.inForce (s.time.state = .unset) s.time.clock s.runTime
      (.atEnd i.start (i.start + i.width)) d x
    have hclear : (s.updLine n Line.clearImpulse).line? n = some l.clearImpulse := State.line?_updLine_same (f := Line.clearImpulse) (fun _ => rfl) h
    refine ⟨State.line?_updLine_same happly hclear, fun k hk => ?_⟩
    exact (State.line?_updLine_other happly hk _).trans (State.line?_updLine_other (f := Line.clearImpulse) (fun _ => rfl) hk s)
  | none =>
    have hdecide (x : Line) := Line.decideAtEnd_no s.inForce (s.time.state = .unset) s.time.clock s.runTime i l x
    dsimp only
    by_cases hr : l.result = some true
    · rw [if_pos hr, Line.outcome, if_pos hr]
      have hfno (x : Line) : (Line.decideAtEnd s.inForce (s.time.state = .unset) s.time.clock s.runTime i l
          x.clearImpulse).no = x.no := hdecide x.clearImpulse
      have hdel : (s.updLine n fun x => x.delivered).writeDials.line? n = some l.delivered :=
        State.line?_updLine_same (f := Line.delivered) (fun _ => rfl) h
      refine ⟨State.line?_updLine_same hfno hdel, fun k hk => ?_⟩
      exact (State.line?_updLine_other hfno hk _).trans (State.line?_updLine_other (f := Line.delivered) (fun _ => rfl) hk s)
    · rw [if_neg hr, Line.outcome, if_neg hr]
      have hfno (x : Line) : (Line.decideAtEnd s.inForce (s.time.state = .unset) s.time.clock s.runTime i l
          x.missedOne.clearImpulse).no = x.no := by
        refine (hdecide x.missedOne.clearImpulse).trans ?_
        unfold Line.missedOne
        split <;> rfl
      split
      · refine ⟨(State.post_line? ..).trans (State.line?_updLine_same hfno h), fun k hk => ?_⟩
        exact (State.post_line? ..).trans (State.line?_updLine_other hfno hk s)
      · exact ⟨State.line?_updLine_same hfno h, fun k hk => State.line?_updLine_other hfno hk s⟩

/-- The end of an impulse moves the lines, the dial part of the store and the notices alone. -/
theorem State.endImpulse_frame (l : Line) (i : Impulse) (s : State) :
    s.endImpulse l i =
        { s with
          ports := (s.endImpulse l i).ports, lines := (s.endImpulse l i).lines, store := (s.endImpulse l i).store } ∧
      (s.endImpulse l i).store.configuration = s.store.configuration ∧ ∀ q, (s.endImpulse l i).link q = s.link q := by
  unfold State.endImpulse
  dsimp only
  split
  · exact ⟨rfl, rfl, fun _ => rfl⟩
  · split
    · exact ⟨rfl, rfl, fun _ => rfl⟩
    · split
      · exact ⟨rfl, rfl, fun q => State.post_link q ..⟩
      · exact ⟨rfl, rfl, fun _ => rfl⟩

/-- The dial part stands as the line records give it. -/
def Line.stored (l : Line) : DialEntry := { dial := l.dial, polarity := l.polarity, inUse := l.inUse }

theorem Line.stored_of_face {l x : Line} (h : x.face = l.face) : x.stored = l.stored := by
  simp only [Line.face, Prod.mk.injEq] at h
  obtain ⟨-, hdial, hpol, -, huse⟩ := h
  rw [Line.stored, Line.stored, hdial, hpol, huse]

theorem Line.decideAtEnd_face (p : Params) (unset : Bool) (clock now : Nat) (i : Impulse) (before x : Line) :
    (Line.decideAtEnd p unset clock now i before x).face = x.face := by
  unfold Line.decideAtEnd
  split
  · exact Line.decide_face ..
  · rfl

theorem State.endImpulse_dial {l : Line} {i : Impulse} {d : PendingDial} (h : l.pendingDial = some d) (s : State) :
    s.endImpulse l i =
      (s.updLine l.no Line.clearImpulse).applyDial l.no (.atEnd i.start (i.start + i.width)) d := by
  rw [State.endImpulse, h]

theorem State.endImpulse_delivered {l : Line} {i : Impulse} (h : l.pendingDial = none) (hr : l.result = some true)
    (s : State) : (s.endImpulse l i).DialsStored ∧ (s.endImpulse l i).ports = s.ports := by
  have heq : s.endImpulse l i =
      (s.updLine l.no Line.delivered).writeDials.updLine l.no fun x =>
        Line.decideAtEnd s.inForce (s.time.state = .unset) s.time.clock s.runTime i l x.clearImpulse := by
    rw [State.endImpulse, h]
    dsimp only
    rw [if_pos hr]
  rw [heq]
  refine ⟨?_, rfl⟩
  have hmap := map_updWhere Line.stored (·.no = l.no)
    (fun x : Line => Line.decideAtEnd s.inForce (s.time.state = .unset) s.time.clock s.runTime i l x.clearImpulse)
    (fun x => Line.stored_of_face (Line.decideAtEnd_face _ _ _ _ _ _ x.clearImpulse)) (s.updLine l.no Line.delivered).lines
  exact congrArg (fun c => ({ contents := c, good := true } : StoredPart (List DialEntry))) hmap.symm

theorem State.endImpulse_missed {l : Line} {i : Impulse} (h : l.pendingDial = none) (hr : l.result ≠ some true)
    (s : State) :
    (s.endImpulse l i).store = s.store ∧
      (s.endImpulse l i).ports =
        if l.missed + 1 ≥ 3 then (s.post [.planning] .clockFault (.line l.no)).ports else s.ports := by
  rw [State.endImpulse, h]
  dsimp only
  rw [if_neg hr]
  split <;> exact ⟨rfl, rfl⟩

/-- A line whose impulse ends: an outcome without a pending DIAL (R173). -/
theorem Line.outcome_of_missed {l : Line} (hr : l.result ≠ some true) :
    l.outcome.dial = l.dial ∧ l.outcome.polarity = l.polarity ∧ (l.missed ≤ 3 → l.outcome.missed = min 3 (l.missed + 1)) ∧
      (2 ≤ l.missed → l.outcome.state = .fault ∧ l.outcome.nextAt = none) := by
  rw [Line.outcome, if_neg hr, Line.missedOne]
  split
  · exact ⟨rfl, rfl, fun _ => by dsimp only; omega, fun _ => ⟨rfl, rfl⟩⟩
  · exact ⟨rfl, rfl, fun _ => by dsimp only; omega, fun _ => by omega⟩

/-- The third miss in a row apart, an outcome leaves the state alone (R173). -/
theorem Line.outcome_state (l : Line) : l.outcome.state = .fault ∨ l.outcome.state = l.state := by
  unfold Line.outcome Line.missedOne
  repeat' split
  · exact .inr rfl
  · exact .inl rfl
  · exact .inr rfl

theorem Line.outcome_nextAt {l : Line} (h : l.nextAt = none) : l.outcome.nextAt = none := by
  unfold Line.outcome Line.missedOne
  repeat' split
  · exact h
  · rfl
  · exact h

/-- Without a pending DIAL a line in ADVANCE, or with a deferred decision, is decided at the end of its impulse, another is
not (R173). -/
theorem Line.ended_eq {p : Params} {unset : Bool} {clock now : Nat} {i : Impulse} {l : Line} (h : l.pendingDial = none)
    (hoff : l.state ≠ .off) :
    l.ended p unset clock now i =
      if l.outcome.state ≠ .fault ∧ (l.state = .advance ∨ l.deferred = true) then
        l.outcome.clearImpulse.decide p unset clock now l.deferredMinute (.atEnd i.start (i.start + i.width))
      else l.outcome.clearImpulse := by
  rw [Line.ended, h]
  dsimp only
  rw [Line.decideAtEnd]
  have hstate : l.outcome.clearImpulse.state = l.outcome.state := rfl
  rw [hstate]
  obtain hs | hs := l.outcome_state
  · simp [hs]
  · simp [hs, hoff]

/-! ## The next impulse time -/

theorem execNextImpulseTime_reached {n : Fin 4} {l : Line} {ms at' : Nat} (hp : s.powered = true) (hl : s.line? n = some l)
    (hadvance : l.state = .advance ∧ l.impulse = none) (hat : l.nextAt = some at') (hle : at' ≤ (s.atMs ms).runTime) :
    exec (.nextImpulseTime ms n) s = .next ((s.atMs ms).updLine n (Line.begin s.inForce (s.atMs ms).runTime)) := by
  have hany : ((s.atMs ms).line? n).any (Line.nextIsDue (s.atMs ms).runTime) = true := by
    rw [show (s.atMs ms).line? n = some l from hl]
    simp [Line.nextIsDue, hadvance, hat, hle]
  simp only [exec, execNextImpulseTime, hany, if_true, State.answer, hp]
  rfl

theorem execNextImpulseTime_early {n : Fin 4} {l : Line} {ms : Nat} (hl : s.line? n = some l)
    (h : l.nextAt = none ∨ ∃ at', l.nextAt = some at' ∧ (s.atMs ms).runTime < at') :
    exec (.nextImpulseTime ms n) s = .next s := by
  have hany : ((s.atMs ms).line? n).any (Line.nextIsDue (s.atMs ms).runTime) = false := by
    rw [show (s.atMs ms).line? n = some l from hl]
    obtain h | ⟨at', h, hlt⟩ := h
    · simp [Line.nextIsDue, h]
    · simp [Line.nextIsDue, h, hlt]
  simp [exec, execNextImpulseTime, hany, State.answer_self]

theorem execImpulseEnd_reached {n : Fin 4} {l : Line} {ms : Nat} {m : Impulse} (hp : s.powered = true)
    (hl : s.line? n = some l) (hm : l.impulse = some m) (hle : m.start + m.width ≤ (s.atMs ms).runTime) :
    exec (.impulseEnd ms n) s = .next (((s.atMs ms).endImpulse l m).settleAttention) := by
  have hend : ((s.atMs ms).line? n).bind (Line.ending (s.atMs ms).runTime) = some (l, m) := by
    rw [show (s.atMs ms).line? n = some l from hl]
    simp [Line.ending, hm, Option.filter, hle]
  simp [exec, execImpulseEnd, hend, State.answer, hp]

theorem execImpulseEnd_early {n : Fin 4} {l : Line} {ms : Nat} (hl : s.line? n = some l)
    (h : ∀ m, l.impulse = some m → (s.atMs ms).runTime < m.start + m.width) :
    exec (.impulseEnd ms n) s = .next s := by
  have hend : ((s.atMs ms).line? n).bind (Line.ending (s.atMs ms).runTime) = none := by
    rw [show (s.atMs ms).line? n = some l from hl]
    cases hm : l.impulse with
    | none => simp [Line.ending, hm]
    | some m => simp [Line.ending, hm, Option.filter, h m hm]
  simp [exec, execImpulseEnd, hend, State.answer_self]

end Sys2Proof.Machine
end

section
/-! PROOF. O53: impulses and the dial. -/
namespace Sys2Proof.Machine

open Sys2Proof

variable {s t u : State}

/-- A DIAL held pending is applied at the end of the impulse and the line decided (R174, R175). -/
theorem Line.ended_set {p : Params} {unset : Bool} {clock now : Nat} {i : Impulse} {l : Line} {position : Nat}
    {polarity : Polarity} (h : l.pendingDial = some (.set position polarity)) :
    l.ended p unset clock now i =
      Line.decide p unset clock now false (.atEnd i.start (i.start + i.width))
        { l.clearImpulse with
          dial := position, polarity := polarity, missed := 0, inUse := true
          nextAt := if Config.dialKeepsNext then l.nextAt else none } := by
  rw [Line.ended, h]
  rfl

theorem Line.ended_off {p : Params} {unset : Bool} {clock now : Nat} {i : Impulse} {l : Line}
    (h : l.pendingDial = some .off) :
    l.ended p unset clock now i = { l.clearImpulse with inUse := false, state := .off, nextAt := none } := by
  rw [Line.ended, h]
  rfl

theorem Line.face_fields {l x : Line} (h : x.face = l.face) :
    x.no = l.no ∧ x.dial = l.dial ∧ x.polarity = l.polarity ∧ x.missed = l.missed ∧ x.inUse = l.inUse := by
  simpa only [Line.face, Prod.mk.injEq] using h

/-- Without a pending DIAL the dial, the polarity and the missed count are those of the outcome (R173). -/
theorem Line.ended_face {p : Params} {unset : Bool} {clock now : Nat} {i : Impulse} {l : Line} (h : l.pendingDial = none) :
    (l.ended p unset clock now i).face = l.outcome.face := by
  rw [Line.ended, h]
  exact Line.decideAtEnd_face ..

/-- The impulse is over: no check result, no pending DIAL and no deferral is left (R173). -/
theorem Line.ended_cleared (p : Params) (unset : Bool) (clock now : Nat) (i : Impulse) (l : Line) :
    (l.ended p unset clock now i).result = none ∧ (l.ended p unset clock now i).pendingDial = none ∧
      (l.ended p unset clock now i).deferred = false := by
  unfold Line.ended
  split
  · next d _ =>
    cases d with
    | set position polarity => exact Line.decide_cleared _ _ _ _ _ _ rfl
    | off => exact ⟨rfl, rfl, rfl⟩
  · unfold Line.decideAtEnd
    split
    · exact Line.decide_cleared _ _ _ _ _ _ rfl
    · exact ⟨rfl, rfl, rfl⟩

theorem Line.delivered_polarity (l : Line) : l.delivered.polarity = if l.polarity = .pos then .neg else .pos := by
  rw [Line.delivered]
  cases l.polarity <;> rfl

section ended

variable {p : Params} {unset : Bool} {clock now : Nat} {m : Impulse} {l l' : Line}
  (hl' : l' = l.ended p unset clock now m)

include hl'

/-- Found current: the dial moves one minute and the polarity reverses (R173). -/
theorem Line.ended_delivered (h : l.pendingDial = none) (hr : l.result = some true) :
    l'.dial = (l.dial + 1) % 720 ∧ l'.polarity = (if l.polarity = .pos then .neg else .pos) ∧ l'.missed = 0 := by
  have hface := Line.ended_face (p := p) (unset := unset) (clock := clock) (now := now) (i := m) h
  rw [← hl', Line.outcome, if_pos hr] at hface
  obtain ⟨-, hdial, hpol, hmissed, -⟩ := Line.face_fields hface
  exact ⟨hdial, hpol.trans l.delivered_polarity, hmissed⟩

/-- Found none: a miss is counted, and the third in a row puts the line into FAULT (R173). -/
theorem Line.ended_missed (h : l.pendingDial = none) (hr : l.result ≠ some true) (hoff : l.state ≠ .off)
    (hmax : l.missed ≤ 3) :
    l'.dial = l.dial ∧ l'.polarity = l.polarity ∧ l'.missed = min 3 (l.missed + 1) ∧
      (2 ≤ l.missed → l'.state = .fault ∧ l'.impulse = none ∧ l'.nextAt = none) := by
  have hface := Line.ended_face (p := p) (unset := unset) (clock := clock) (now := now) (i := m) h
  rw [← hl'] at hface
  obtain ⟨-, h1, h2, h3, -⟩ := Line.face_fields hface
  obtain ⟨hd, hpol, hcount, hthird⟩ := Line.outcome_of_missed hr
  refine ⟨h1.trans hd, h2.trans hpol, h3.trans (hcount hmax), fun htwo => ?_⟩
  obtain ⟨hfault, hnext⟩ := hthird htwo
  rw [hl', Line.ended_eq h hoff, if_neg fun hc => hc.1 hfault]
  exact ⟨hfault, rfl, hnext⟩

/-- A RUN line with no decision deferred stays in RUN (R173). -/
theorem Line.ended_undecided (h : l.pendingDial = none) (hlive : l'.state ≠ .fault) (hrun : l.state = .run)
    (hdef : l.deferred = false) (hnext : l.nextAt = none) : l'.state = .run ∧ l'.impulse = none ∧ l'.nextAt = none := by
  have hcase : ¬(l.state = .advance ∨ l.deferred = true) := by simp [hrun, hdef]
  rw [hl', Line.ended_eq h (by simp [hrun]), if_neg fun hc => hcase hc.2] at hlive ⊢
  exact ⟨(l.outcome_state.resolve_left hlive).trans hrun, rfl, Line.outcome_nextAt hnext⟩

/-- After a pending SET, in ADVANCE and after a deferred decision the line is decided; a minute advance counts only where
no DIAL was pending (R173, R175). -/
theorem Line.ended_decided (hoff : l.state ≠ .off)
    (hcase : (∃ position polarity, l.pendingDial = some (.set position polarity)) ∨
      (l.pendingDial = none ∧ (l.state = .advance ∨ l.deferred = true) ∧ l'.state ≠ .fault)) :
    ∃ (x : Line) (minute : Bool), l' = x.decide p unset clock now minute (.atEnd m.start (m.start + m.width)) ∧
      x.impulse = none ∧ x.state = l.state ∧ x.dial = l'.dial ∧
      (minute = true ↔ l.deferredMinute = true ∧ l.pendingDial = none) := by
  have hdial {x : Line} {minute : Bool} {w : DecisionTime} (h : l' = x.decide p unset clock now minute w) :
      x.dial = l'.dial := by
    obtain ⟨-, hd, -⟩ := Line.face_fields (Line.decide_face p unset clock now minute w x)
    rw [h, hd]
  obtain ⟨position, polarity, hset⟩ | ⟨hnone, hdecides, hlive⟩ := hcase
  · have heq := hl'.trans (Line.ended_set hset)
    exact ⟨_, false, heq, rfl, rfl, hdial heq, by simp [hset]⟩
  · have hout : l.outcome.state ≠ .fault := by
      intro hf
      rw [hl', Line.ended_eq hnone hoff, if_neg fun hc => hc.1 hf] at hlive
      exact hlive hf
    have heq := hl'.trans (Line.ended_eq hnone hoff)
    rw [if_pos ⟨hout, hdecides⟩] at heq
    exact ⟨_, l.deferredMinute, heq, rfl, l.outcome_state.resolve_left hout, hdial heq, by simp [hnone]⟩

end ended

/-- Settles O53. -/
theorem impulsesMoveTheDial : Obligations.ImpulsesMoveTheDial := by
  intro s ms n l now hp hlines hl hnow
  have hok := hlines.line hl
  subst hnow
  refine ⟨execNextImpulseTime_early hl, fun at' hat hle => ?_, execImpulseEnd_early hl, fun m hm hle => ?_⟩
  · have hadvance : l.state = .advance ∧ l.impulse = none := hok.2.2.1 (by simp [hat])
    refine ⟨_, execNextImpulseTime_reached hp hl hadvance hat hle, rfl, ?_, fun k hk => ?_⟩
    · have hres : l.result = none := (hok.2.2.2.2.2.2.1 hadvance.2).1
      have hbegin := State.line?_updLine_same (s := s.atMs ms) (f := Line.begin s.inForce (s.atMs ms).runTime)
        (fun _ => rfl) hl
      rw [hbegin, Line.begin, ← hres]
      rfl
    · exact State.line?_updLine_other (f := Line.begin s.inForce (s.atMs ms).runTime) (fun _ => rfl) hk (s.atMs ms)
  · obtain ⟨huse, hrun, hnext⟩ := hok.of_impulse hm
    have hoff : l.state ≠ .off := by rcases hrun with h | h <;> simp [h]
    have hno : l.no = n := (State.line?_mem hl).2
    obtain ⟨hown, hothers⟩ := State.endImpulse_line? (s := s.atMs ms) hl m
    obtain ⟨hframe, hstore, hlink⟩ := State.endImpulse_frame l m (s.atMs ms)
    obtain ⟨l', hl'⟩ : ∃ x, x = l.ended s.inForce (s.time.state = .unset) s.time.clock (s.atMs ms).runTime m := ⟨_, rfl⟩
    have hcleared := Line.ended_cleared s.inForce (s.time.state = .unset) s.time.clock (s.atMs ms).runTime m l
    rw [← hl'] at hcleared
    obtain ⟨hresult, hpending, hdeferred⟩ := hcleared
    have hquiet {q : PortId} (h : ((s.atMs ms).endImpulse l m).ports = s.ports) :
        ((((s.atMs ms).endImpulse l m).settleAttention).port q).notices = (s.port q).notices := by
      rw [State.settleAttention_port, State.port, h]
      rfl
    have hstored {d : PendingDial} (hd : l.pendingDial = some d) :
        ((s.atMs ms).endImpulse l m).settleAttention.DialsStored := by
      show ((s.atMs ms).endImpulse l m).DialsStored
      rw [State.endImpulse_dial hd]
      rfl
    refine ⟨_, l', execImpulseEnd_reached hp hl hm hle, hl' ▸ hown, hothers, ?_, hstore, fun q => ?_, hresult, hpending,
      hdeferred, fun hdial hr => ?_, fun hdial hr => ?_, fun hdial => ?_, fun position polarity hdial => ?_,
      fun hdial hlive hstate hdef => Line.ended_undecided hl' hdial hlive hstate hdef hnext, fun hcase => ?_⟩
    · rw [hframe]
      rfl
    · exact (State.settleAttention_link _ q).trans (hlink q)
    · obtain ⟨h1, h2, h3⟩ := Line.ended_delivered hl' hdial hr
      obtain ⟨hst, hports⟩ := State.endImpulse_delivered (i := m) hdial hr (s.atMs ms)
      exact ⟨h1, h2, h3, hst, fun q => hquiet hports⟩
    · obtain ⟨h1, h2, h3, hthird⟩ := Line.ended_missed hl' hdial hr hoff hok.2.1
      obtain ⟨hst, hports⟩ := State.endImpulse_missed (i := m) hdial hr (s.atMs ms)
      refine ⟨h1, h2, h3, hst, fun htwo => ?_, fun htwo q => hquiet ?_⟩
      · obtain ⟨hfault, himpulse, hnextAt⟩ := hthird htwo
        refine ⟨hfault, himpulse, hnextAt, ?_⟩
        rw [State.Noticed, State.settleAttention_notices, State.port, State.port, hports, if_pos (by omega), hno]
        exact List.prefix_rfl
      · rw [hports, if_neg (by omega)]
        rfl
    · rw [hl', Line.ended_off hdial]
      exact ⟨hstored hdial, rfl, rfl, rfl, rfl, rfl, rfl, rfl⟩
    · obtain ⟨-, h1, h2, h3, h4⟩ := Line.face_fields ((congrArg Line.face (hl'.trans (Line.ended_set hdial))).trans
        (Line.decide_face ..))
      exact ⟨hstored hdial, h1, h2, h3, h4⟩
    · obtain ⟨x, minute, heq, hidle, hstate, hdial, hminute⟩ := Line.ended_decided hl' hoff hcase
      refine ⟨fun hunset => ?_, fun hset d hd hdiff => ?_⟩
      · rw [heq, hunset]
        exact ⟨rfl, hidle, rfl⟩
      · have hfresh : decide (s.time.state = .unset) = false := decide_eq_false hset
        rw [hfresh] at heq
        have hplaced := Line.decide_atEnd (p := s.inForce) (now := (s.atMs ms).runTime) (start := m.start)
          (stop := m.start + m.width) (minute := minute) hidle (Line.diff_eq hd (by rw [hdial]; exact hdiff))
        rw [← heq, hstate, hminute] at hplaced
        obtain ⟨h0, h1, h2, h3⟩ := hplaced
        exact ⟨h0, fun hone hst hmin hnone => h1 hone hst ⟨hmin, hnone⟩, fun hpos hlim hnot => h2 hpos hlim hnot,
          fun hlim hnot => h3 hlim hnot⟩

end Sys2Proof.Machine
end

section
/-! PROOF. What a pass does: the readings taken, the channels classed, the zones moved by one step (R153 to R160). -/
namespace Sys2Proof.Machine

open Sys2Proof

variable {s t u : State}

/-! ## What a dispatch decision and a pass leave alone -/

theorem State.dispatch_frame (s : State) : s.dispatch = { s with bus := s.dispatch.bus } := by
  unfold State.dispatch
  split
  · rfl
  · split
    · rfl
    · dsimp only
      split <;> rfl

theorem State.serve_frame (s old : State) : s.serve old = { s with bus := (s.serve old).bus } := by
  unfold State.serve
  split
  · exact State.dispatch_frame s
  · rfl

/-- The end of a command that leaves the picture alone moves the bus and the attention lines. -/
theorem State.finish_frame (s old : State) :
    s.finish old = { s with bus := (s.finish old).bus, ports := (s.finish old).ports } := by
  have h := State.serve_frame s old
  unfold State.finish
  generalize s.serve old = v at h
  rw [h]
  rfl

theorem State.finish_notices (s old : State) (q : PortId) : ((s.finish old).port q).notices = (s.port q).notices := by
  have hports : (s.serve old).ports = s.ports := by rw [State.serve_frame]
  rw [State.finish, State.settleAttention_notices, State.port, hports]
  rfl

/-- A change of the sensing unit, the bus and the notices, the links apart. -/
structure State.Sensed (s t : State) : Prop where
  frame : t = { s with bus := t.bus, ports := t.ports, sense := t.sense }
  link : ∀ q, t.link q = s.link q

theorem State.Sensed.refl (s : State) : s.Sensed s := ⟨rfl, fun _ => rfl⟩

theorem State.Sensed.trans (h : s.Sensed t) (k : t.Sensed u) : s.Sensed u := by
  refine ⟨?_, fun q => (k.link q).trans (h.link q)⟩
  rw [k.frame, h.frame]

theorem State.Sensed.finish (s old : State) : s.Sensed (s.finish old) := by
  refine ⟨?_, fun q => State.finish_link q s old⟩
  have hsense : (s.finish old).sense = s.sense := State.sense_of_sources (State.finish_sources s old)
  rw [hsense]
  exact State.finish_frame s old

theorem State.classifyChannels_sensed (s : State) : s.Sensed s.classifyChannels := by
  have hfold : ∀ (l : List Nat) (v : State),
      v.Sensed (l.foldl (fun t n => t.post [.planning] .sensorFault (.light n)) v) := by
    intro l
    induction l with
    | nil => exact State.Sensed.refl
    | cons n l ih =>
      intro v
      exact State.Sensed.trans ⟨rfl, fun q => State.post_link q ..⟩ (ih _)
  exact State.Sensed.trans (t := s.withSense { s.sense with channels := s.sense.channels.map LightChannel.classify })
    ⟨rfl, fun _ => rfl⟩ (hfold _ _)

theorem State.endPass_sensed (s : State) : s.Sensed s.endPass :=
  (State.classifyChannels_sensed s).trans ⟨rfl, fun _ => rfl⟩

theorem State.beginPass_sensed (s : State) : s.Sensed s.beginPass := by
  unfold State.beginPass
  dsimp only
  split
  · exact State.endPass_sensed s
  · split <;> exact ⟨rfl, fun _ => rfl⟩

theorem State.takeReading_sensed (channel value : Nat) (s : State) : s.Sensed (s.takeReading channel value) := by
  unfold State.takeReading
  dsimp only
  split
  · exact ⟨rfl, fun _ => rfl⟩
  · refine State.Sensed.trans (State.Sensed.trans ?_ (State.endPass_sensed _)) ⟨rfl, fun _ => rfl⟩
    exact ⟨rfl, fun _ => rfl⟩

/-- The facts, the cues, the lines, the store and the board stand under a change of the sensing unit. -/
theorem State.Sensed.others (h : s.Sensed t) :
    t.facts = s.facts ∧ t.cues = s.cues ∧ t.lines = s.lines ∧ t.store = s.store ∧ t.wall.board = s.wall.board ∧
      ∀ p, t.link p = s.link p :=
  ⟨(congrArg State.facts h.frame :), (congrArg State.cues h.frame :), (congrArg State.lines h.frame :),
    (congrArg State.store h.frame :), (congrArg (fun v : State => v.wall.board) h.frame :), h.link⟩

/-! ## The next used channel -/

theorem Sense.nextUsed_none {v : Sense} {lowest : Nat} (h : ∀ c ∈ v.channels, lowest ≤ c.no → c.zone = 0) :
    v.nextUsed lowest = none := by
  rw [Sense.nextUsed, List.find?_eq_none.2, Option.map_none]
  intro c hc hpick
  simp only [Bool.and_eq_true, decide_eq_true_eq] at hpick
  exact hpick.1 (h c hc hpick.2)

theorem Sense.nextUsed_some {v : Sense} {lowest : Nat} {before after : List LightChannel} {c : LightChannel}
    (h : v.channels = before ++ c :: after) (hc : c.zone ≠ 0) (hno : lowest ≤ c.no)
    (hbefore : ∀ b ∈ before, b.no < lowest ∨ b.zone = 0) : v.nextUsed lowest = some c.no := by
  have hfind : v.channels.find? (fun c => c.zone ≠ 0 && lowest ≤ c.no) = some c := by
    rw [h]
    refine List.find?_eq_some_iff_append.2 ⟨by simp [hc, hno], before, after, rfl, fun b hb => ?_⟩
    obtain hlow | hzero := hbefore b hb
    · simp [Nat.not_le.2 hlow]
    · simp [hzero]
  rw [Sense.nextUsed, hfind, Option.map_some]

/-! ## Channels classed -/

theorem goodReading_iff (r : Nat) : goodReading r = true ↔ 3 ≤ r ∧ r ≤ 1020 := by simp [goodReading]

/-- A channel that is not used, or was not read, keeps its runs and its flag (R155). -/
theorem LightChannel.classify_unread {c : LightChannel} (h : c.zone = 0 ∨ c.reading = none) : c.classify = c := by
  obtain ⟨no, zone, faulty, good, fault, reading⟩ := c
  obtain rfl | rfl := h
  · rfl
  · cases zone <;> rfl

theorem LightChannel.classify_read {c : LightChannel} {r : Nat} (hz : c.zone ≠ 0) (hr : c.reading = some r) :
    c.classify =
      if 3 ≤ r ∧ r ≤ 1020 then
        { c with goodRun := min 4 (c.goodRun + 1), faultyRun := 0, fault := c.fault && decide (c.goodRun < 3) }
      else
        { c with faultyRun := min 4 (c.faultyRun + 1), goodRun := 0, fault := c.fault || decide (3 ≤ c.faultyRun) } := by
  have hgood : decide (min 4 (c.goodRun + 1) ≠ 4) = decide (c.goodRun < 3) := decide_eq_decide.2 (by omega)
  have hfaulty : decide (min 4 (c.faultyRun + 1) = 4) = decide (3 ≤ c.faultyRun) := decide_eq_decide.2 (by omega)
  rw [← hgood, ← hfaulty, ← if_congr (goodReading_iff r) rfl rfl]
  obtain ⟨no, zone, faulty, good, fault, reading⟩ := c
  cases hr
  cases zone with
  | zero => exact absurd rfl hz
  | succ zone => rfl

theorem LightChannel.classify_good {c : LightChannel} {r : Nat} (hz : c.zone ≠ 0) (hr : c.reading = some r)
    (hgood : 3 ≤ r ∧ r ≤ 1020) :
    c.classify =
      { c with goodRun := min 4 (c.goodRun + 1), faultyRun := 0, fault := c.fault && decide (c.goodRun < 3) } := by
  rw [LightChannel.classify_read hz hr, if_pos hgood]

theorem LightChannel.classify_faulty {c : LightChannel} {r : Nat} (hz : c.zone ≠ 0) (hr : c.reading = some r)
    (hbad : r ≤ 2 ∨ 1021 ≤ r) :
    c.classify =
      { c with faultyRun := min 4 (c.faultyRun + 1), goodRun := 0, fault := c.fault || decide (3 ≤ c.faultyRun) } := by
  rw [LightChannel.classify_read hz hr, if_neg (by omega)]

/-! ## Zones moved -/

theorem stepToward_spec (level goal : Nat) :
    (level < goal → stepToward level goal = level + 1) ∧ (goal < level → stepToward level goal + 1 = level) ∧
      (level = goal → stepToward level goal = level) := by
  unfold stepToward
  split
  · omega
  · split <;> omega

/-- The band of an average with the hysteresis of both directions (R158). -/
theorem newTarget_spec (target a : Nat) :
    (target < a / 64 → 64 * (a / 64) + 8 ≤ a → newTarget target a = a / 64) ∧
      (a / 64 < target → a + 9 ≤ 64 * target → newTarget target a = a / 64) ∧
      (¬(target < a / 64 ∧ 64 * (a / 64) + 8 ≤ a) → ¬(a / 64 < target ∧ a + 9 ≤ 64 * target) →
        newTarget target a = target) := by
  unfold newTarget
  dsimp only
  split
  · omega
  · split <;> omega

/-- A zone at the end of a pass (R158, R159). -/
theorem LightZone.afterPass_spec (p : Params) (usable : List Nat) (z : LightZone) :
    (usable = [] → (z.afterPass p usable).target = z.target) ∧
    (usable ≠ [] → (z.afterPass p usable).target = newTarget z.target (usable.sum / usable.length)) ∧
    (usable = [] → min p.floor p.ceiling ≤ z.level → z.level ≤ p.ceiling → (z.afterPass p usable).level = z.level) ∧
    (usable ≠ [] ∨ z.level < min p.floor p.ceiling ∨ p.ceiling < z.level →
      (z.afterPass p usable).level = stepToward z.level (desiredLevel p (z.afterPass p usable).target)) := by
  unfold LightZone.afterPass
  by_cases hu : usable = []
  · rw [if_pos hu]
    split
    · next hout => exact ⟨fun _ => rfl, fun h => absurd hu h, fun _ hlo hhi => by omega, fun _ => rfl⟩
    · next hin => exact ⟨fun _ => rfl, fun h => absurd hu h, fun _ _ _ => rfl, fun h => by
        obtain h | h := h
        · exact absurd hu h
        · omega⟩
  · rw [if_neg hu]
    exact ⟨fun h => absurd h hu, fun _ => rfl, fun h => absurd h hu, fun _ => rfl⟩

/-- The zones whose level the end of a pass has moved (R160). -/
def movedZones (p : Params) (v : Sense) : List Nat :=
  (v.zones.zip (v.zones.map fun z => z.afterPass p (v.usable z.no))).filterMap fun (a, b) =>
    if a.level = b.level then none else some b.no

theorem zip_map_self {α β : Type} (f : α → β) (l : List α) : l.zip (l.map f) = l.map fun a => (a, f a) := by
  induction l with
  | nil => rfl
  | cons a l ih => rw [List.map_cons, List.zip_cons_cons, ih, List.map_cons]

theorem mem_movedZones {p : Params} {v : Sense} (h : (v.zones.map (·.no)).Nodup) {z : LightZone} (hz : z ∈ v.zones) :
    z.no ∈ movedZones p v ↔ (z.afterPass p (v.usable z.no)).level ≠ z.level := by
  simp only [movedZones, zip_map_self, List.filterMap_map, List.mem_filterMap, Function.comp_apply,
    Option.ite_none_left_eq_some, Option.some.injEq, LightZone.afterPass_no]
  constructor
  · rintro ⟨x, hx, hlevel, hno⟩
    rw [List.inj_on_of_nodup_map h hx hz hno] at hlevel
    exact fun heq => hlevel heq.symm
  · exact fun hne => ⟨z, hz, fun heq => hne heq.symm, rfl⟩

theorem State.endPass_zones (s : State) :
    s.endPass.sense.zones =
      s.sense.zones.map fun z => z.afterPass s.inForce (s.classifyChannels.sense.usable z.no) := by
  rw [State.endPass_sense, State.computeZones_sense, State.classifyChannels_inForce, State.classifyChannels_sense]

/-- A panel at the end of a pass: that of a zone whose level moved takes it (R160). -/
def State.passedPanel (s : State) (q : Panel) : Panel :=
  if q.configured && (movedZones s.inForce s.classifyChannels.sense).contains q.zone then
    { q with desiredLevel := s.endPass.panelLevel q }
  else q

theorem State.endPass_panels (s : State) : s.endPass.bus.panels = s.bus.panels.map s.passedPanel := by
  have hbus : s.classifyChannels.bus = s.bus := State.classifyChannels_bus s
  have hin : s.classifyChannels.inForce = s.inForce := State.classifyChannels_inForce s
  rw [← hbus]
  unfold State.passedPanel
  rw [← hin]
  rfl

/-- The level of a zone at the end of a pass (R158). -/
theorem State.endPass_zoneLevel (h : (s.sense.zones.map (·.no)).Nodup) {z : LightZone} (hz : z ∈ s.sense.zones) :
    s.endPass.zoneLevel z.no = (z.afterPass s.inForce (s.classifyChannels.sense.usable z.no)).level := by
  have hmap : s.endPass.sense.zones.map (·.no) = s.sense.zones.map (·.no) := by
    rw [State.endPass_zones, List.map_map]
    exact List.map_congr_left fun z _ => LightZone.afterPass_no _ _ z
  have hmem : z.afterPass s.inForce (s.classifyChannels.sense.usable z.no) ∈ s.endPass.sense.zones := by
    rw [State.endPass_zones]
    exact List.mem_map_of_mem hz
  have hfind : s.endPass.sense.zones.find? (·.no = z.no) =
      some (z.afterPass s.inForce (s.classifyChannels.sense.usable z.no)) := by
    cases hf : s.endPass.sense.zones.find? (·.no = z.no) with
    | none =>
      have := List.find?_eq_none.1 hf _ hmem
      simp [LightZone.afterPass_no] at this
    | some y =>
      have hy : y.no = z.no := by simpa using List.find?_some hf
      rw [List.inj_on_of_nodup_map (hmap ▸ h) (List.mem_of_find?_eq_some hf) hmem
        (hy.trans (LightZone.afterPass_no _ _ z).symm)]
  rw [State.zoneLevel, hfind, Option.map_some, Option.getD_some]

theorem State.passedPanel_spec (h : (s.sense.zones.map (·.no)).Nodup) {z : LightZone} (hz : z ∈ s.sense.zones) {q : Panel}
    (hrole : q.role ≠ .none) (hzone : q.zone = z.no) :
    (s.passedPanel q).addr = q.addr ∧
      (s.passedPanel q).desiredLevel =
        if (z.afterPass s.inForce (s.classifyChannels.sense.usable z.no)).level = z.level then q.desiredLevel
        else min (z.afterPass s.inForce (s.classifyChannels.sense.usable z.no)).level (if q.overtemp then 6 else 15) := by
  have hzones : s.classifyChannels.sense.zones = s.sense.zones := by rw [State.classifyChannels_sense]
  have hmoved := mem_movedZones (p := s.inForce) (v := s.classifyChannels.sense) (hzones ▸ h) (hzones ▸ hz)
  have hpick : (q.configured && (movedZones s.inForce s.classifyChannels.sense).contains q.zone) = true ↔
      (z.afterPass s.inForce (s.classifyChannels.sense.usable z.no)).level ≠ z.level := by
    rw [← hmoved, hzone]
    simp [Panel.configured, hrole]
  unfold State.passedPanel
  by_cases heq : (z.afterPass s.inForce (s.classifyChannels.sense.usable z.no)).level = z.level
  · rw [if_neg (fun hc => hpick.1 hc heq), if_pos heq]
    exact ⟨rfl, rfl⟩
  · rw [if_pos (hpick.2 heq), if_neg heq]
    refine ⟨rfl, ?_⟩
    show min (s.endPass.zoneLevel q.zone) _ = _
    rw [hzone, State.endPass_zoneLevel h hz]

/-- A zone at the end of a pass, and the levels of its panels (R158 to R160), the unit and the panels read of any state that
has them so. -/
theorem State.endPass_zonePassed (h : (s.sense.zones.map (·.no)).Nodup) {z : LightZone} (hz : z ∈ s.sense.zones)
    (hzones : t.sense.zones = s.endPass.sense.zones) (hrecords : t.records = s.endPass.records) :
    s.ZonePassed t z (s.classifyChannels.sense.usable z.no) := by
  obtain ⟨usable, hu⟩ : ∃ l, l = s.classifyChannels.sense.usable z.no := ⟨_, rfl⟩
  obtain ⟨hkeep, hband, hrest, hstep⟩ := LightZone.afterPass_spec s.inForce usable z
  refine ⟨z.afterPass s.inForce usable, ?_, LightZone.afterPass_no _ _ z, hu ▸ hkeep, fun hne a ha => ?_,
    fun goal hgoal => ⟨hu ▸ hrest, fun hcase => ?_, fun q hq hrole hzone => ?_⟩⟩
  · rw [hzones, State.endPass_zones, hu]
    exact List.mem_map_of_mem hz
  · rw [← hu] at hne ha
    rw [hband hne, ← ha]
    exact newTarget_spec z.target a
  · rw [hstep (hu ▸ hcase), hgoal]
    exact stepToward_spec z.level _
  · have hmem : s.passedPanel q ∈ s.endPass.bus.panels := by
      rw [State.endPass_panels]
      exact List.mem_map_of_mem hq
    have hrec : (s.passedPanel q).record ∈ t.records := by
      rw [hrecords]
      exact List.mem_map_of_mem hmem
    obtain ⟨q', hq', heq⟩ := List.mem_map.1 hrec
    have haddr : q'.addr = (s.passedPanel q).addr := (congrArg (fun p : Panel => p.addr) heq :)
    have hlevel : q'.desiredLevel = (s.passedPanel q).desiredLevel := (congrArg (fun p : Panel => p.desiredLevel) heq :)
    obtain ⟨hown, hgiven⟩ := State.passedPanel_spec h hz hrole hzone
    exact ⟨q', hq', haddr.trans hown, hlevel.trans (hu ▸ hgiven)⟩

end Sys2Proof.Machine
end

section
/-! PROOF. Passes (R153, R154), their end (R155 to R160) and the line checks (R156, R157). -/
namespace Sys2Proof.Machine

open Sys2Proof

variable {s t u : State}

/-! ## A notice in a list, or the overflow flag -/

/-- The list of a port holds a notice, or has overflowed (R185). -/
def Port.Holds (n : Notice) (r : Port) : Prop := n ∈ r.notices ∨ r.overflow = true

theorem Port.holds_post (n : Notice) (r : Port) : (r.post n).Holds n := by
  unfold Port.post
  split
  · exact .inl (List.mem_append_right _ List.mem_cons_self)
  · exact .inr rfl

theorem Port.Holds.post {n : Notice} {r : Port} (h : r.Holds n) (m : Notice) : (r.post m).Holds n := by
  unfold Port.post
  split
  · exact h.imp (List.mem_append_left _) id
  · exact .inr rfl

theorem State.holds_post {names : List PortId} {q : PortId} (hq : q ∈ names) (k : NoticeKind) (x : Subject)
    (h : names.Nodup) (s : State) : ((s.post names k x).port q).Holds ⟨k, x, s.time.clock⟩ := by
  rw [State.post_port h, if_pos hq]
  exact Port.holds_post _ _

theorem State.Holds.post {n : Notice} {q : PortId} (hs : (s.port q).Holds n) {names : List PortId} (h : names.Nodup)
    (k : NoticeKind) (x : Subject) : ((s.post names k x).port q).Holds n := by
  rw [State.post_port h]
  split
  · exact Port.Holds.post hs _
  · exact hs

theorem State.finish_port (s old : State) (q : PortId) :
    (s.finish old).port q = { s.port q with attention := (s.serve old).wantsAttention q } := by
  have hports : (s.serve old).ports = s.ports := by rw [State.serve_frame]
  rw [State.finish, State.settleAttention_port, State.port, hports]
  rfl

/-! ## Channels classed, with their notices -/

/-- The channels whose fault flag a pass sets, in channel order (R155). -/
def faultedChannels (l : List LightChannel) : List Nat :=
  l.filterMap fun c => if c.classify.fault && !c.fault then some c.classify.no else none

theorem State.classifyChannels_eq (s : State) :
    s.classifyChannels =
      (faultedChannels s.sense.channels).foldl (fun t n => t.post [.planning] .sensorFault (.light n))
        (s.withSense { s.sense with channels := s.sense.channels.map LightChannel.classify }) := by
  rw [State.classifyChannels, zip_map_self, List.filterMap_map]
  rfl

/-- Each of them is posted (R155). -/
theorem State.holds_sensorFaults (l : List Nat) (s : State) (n : Nat)
    (h : n ∈ l ∨ (s.port .planning).Holds ⟨.sensorFault, .light n, s.time.clock⟩) :
    ((l.foldl (fun t n => t.post [.planning] .sensorFault (.light n)) s).port .planning).Holds
      ⟨.sensorFault, .light n, s.time.clock⟩ := by
  induction l generalizing s with
  | nil => exact h.resolve_left List.not_mem_nil
  | cons m l ih =>
    have hclock : (s.post [.planning] .sensorFault (.light m)).time.clock = s.time.clock := rfl
    rw [List.foldl_cons, ← hclock]
    refine ih _ ?_
    rw [hclock]
    obtain h | h := h
    · obtain rfl | h := List.mem_cons.1 h
      · exact .inr (State.holds_post (by simp) _ _ (by simp) s)
      · exact .inl h
    · exact .inr (State.Holds.post h (by simp) _ _)

theorem State.endPass_port (s : State) (q : PortId) : s.endPass.port q = s.classifyChannels.port q := rfl

theorem State.endPass_channels (s : State) :
    s.endPass.sense.channels = s.sense.channels.map fun c => { c.classify with reading := none } := by
  rw [State.endPass_sense, State.computeZones_sense, State.classifyChannels_sense]
  exact List.map_map ..

/-- A pass that classes no channel posts nothing. -/
theorem State.endPass_quiet (h : ∀ c ∈ s.sense.channels, c.classify = c) (q : PortId) : s.endPass.port q = s.port q := by
  have hnone : faultedChannels s.sense.channels = [] := by
    refine List.filterMap_eq_nil_iff.2 fun c hc => ?_
    rw [h c hc]
    simp
  rw [State.endPass_port, State.classifyChannels_eq, hnone]
  rfl

/-! ## The converter in step -/

theorem State.SenseOk.light (h : s.SenseOk) {c : Nat} (hc : s.sense.converter = .light c) :
    s.sense.queue = [] ∧ s.sense.position = some c := by
  obtain ⟨-, -, -, -, hstep⟩ := h
  simpa [Sense.converterInStep, hc] using hstep

theorem State.SenseOk.idle (h : s.SenseOk) (hc : s.sense.converter = .idle) :
    s.sense.queue = [] ∧ s.sense.position = none := by
  obtain ⟨-, -, -, -, hstep⟩ := h
  simpa [Sense.converterInStep, hc] using hstep

theorem State.SenseOk.check (h : s.SenseOk) {n : Fin 4} {threshold : Nat} (hc : s.sense.converter = .check n threshold) :
    s.sense.queue.head? = some n := by
  obtain ⟨-, -, -, -, hstep⟩ := h
  simpa [Sense.converterInStep, hc] using hstep

theorem State.SenseOk.zones_nodup (h : s.SenseOk) : (s.sense.zones.map (·.no)).Nodup := by
  rw [h.2.1]
  decide

theorem State.SenseOk.zone_pos (h : s.SenseOk) {z : LightZone} (hz : z ∈ s.sense.zones) : z.no ≠ 0 := by
  have hmem : z.no ∈ s.sense.zones.map (·.no) := List.mem_map_of_mem hz
  rw [h.2.1] at hmem
  intro h0
  rw [h0] at hmem
  exact absurd hmem (by decide)

/-- The channels stand in ascending order of their number (R151). -/
theorem State.SenseOk.channels_sorted (h : s.SenseOk) : s.sense.channels.Pairwise fun a b => a.no < b.no := by
  rw [← List.pairwise_map (f := LightChannel.no) (R := (· < ·)), h.1]
  exact List.pairwise_lt_range

/-! ## The beginning of a pass -/

theorem State.beginPass_unused (h : ∀ c ∈ s.sense.channels, c.zone = 0) : s.beginPass = s.endPass := by
  have hnext : ({ s.sense with channels := s.sense.channels.map fun c => { c with reading := none } } : Sense).nextUsed 0 =
      none := by
    refine Sense.nextUsed_none fun c hc _ => ?_
    obtain ⟨x, hx, rfl⟩ := List.mem_map.1 hc
    exact h x hx
  unfold State.beginPass
  dsimp only
  rw [hnext]

theorem State.beginPass_used (hok : s.SenseOk) {before after : List LightChannel} {c : LightChannel}
    (h : s.sense.channels = before ++ c :: after) (hc : c.zone ≠ 0) (hbefore : ∀ b ∈ before, b.zone = 0) :
    s.beginPass.sense =
      { s.sense with
        channels := s.sense.channels.map fun c => { c with reading := none }
        position := some c.no
        converter := if s.sense.converter = .idle then .light c.no else s.sense.converter } := by
  have hnext : ({ s.sense with channels := s.sense.channels.map fun c => { c with reading := none } } : Sense).nextUsed 0 =
      some c.no := by
    refine Sense.nextUsed_some (before := before.map fun c => { c with reading := none })
      (after := after.map fun c => { c with reading := none }) (c := { c with reading := none }) ?_ hc (Nat.zero_le _)
      fun b hb => ?_
    · simp [h]
    · obtain ⟨x, hx, rfl⟩ := List.mem_map.1 hb
      exact .inr (hbefore x hx)
  unfold State.beginPass
  dsimp only
  rw [hnext]
  dsimp only
  split
  · next hidle =>
    have hidle' : s.sense.converter = .idle := hidle
    obtain ⟨hqueue, -⟩ := hok.idle hidle'
    rw [if_pos hidle']
    simp [State.chooseConversion, State.withSense, Sense.choose, hqueue]
  · next hbusy =>
    have hbusy' : ¬s.sense.converter = .idle := hbusy
    rw [if_neg hbusy']
    rfl

/-! ## A conversion taken -/

theorem State.takeReading_next (hok : s.SenseOk) {c value : Nat} (hc : s.sense.converter = .light c)
    {before between after : List LightChannel} {k n : LightChannel}
    (h : s.sense.channels = before ++ k :: between ++ n :: after) (hk : k.no = c) (hbetween : ∀ b ∈ between, b.zone = 0)
    (hn : n.zone ≠ 0) :
    (s.takeReading c value).sense =
      { s.sense with
        channels := before ++ { k with reading := some value } :: between ++ n :: after
        position := some n.no, converter := .light n.no } := by
  have hsorted := hok.channels_sorted
  rw [h, List.append_assoc, List.cons_append] at hsorted
  obtain ⟨-, hright, hcross⟩ := List.pairwise_append.1 hsorted
  obtain ⟨hkafter, hright⟩ := List.pairwise_cons.1 hright
  have hlow : ∀ b ∈ before, b.no ≠ c := fun b hb => by
    have := hcross b hb k List.mem_cons_self
    omega
  have hhigh : ∀ b ∈ between ++ n :: after, b.no ≠ c := fun b hb => by
    have := hkafter b hb
    omega
  have hupd : updWhere (·.no = c) (fun c => { c with reading := some value }) s.sense.channels =
      before ++ { k with reading := some value } :: (between ++ n :: after) := by
    rw [h, List.append_assoc, List.cons_append]
    exact updWhere_split (by simp [hk]) (fun b hb => by simp [hlow b hb]) fun b hb => by simp [hhigh b hb]
  have hnext : ({ s.sense with
      channels := updWhere (·.no = c) (fun c => { c with reading := some value }) s.sense.channels } : Sense).nextUsed
        (c + 1) = some n.no := by
    refine Sense.nextUsed_some (before := before ++ { k with reading := some value } :: between) (after := after)
      (c := n) (by simp [hupd]) hn ?_ fun b hb => ?_
    · have := hkafter n (List.mem_append_right _ List.mem_cons_self)
      omega
    · obtain hb | hb := List.mem_append.1 hb
      · have := hcross b hb k List.mem_cons_self
        exact .inl (by omega)
      · obtain rfl | hb := List.mem_cons.1 hb
        · exact .inl (by dsimp only; omega)
        · exact .inr (hbetween b hb)
  obtain ⟨hqueue, -⟩ := hok.light hc
  unfold State.takeReading
  dsimp only
  rw [hnext]
  simp [State.chooseConversion, State.withSense, Sense.choose, hqueue, hupd]

/-- The state in which the last reading of a pass has been taken (R154). -/
def State.lastRead (c value : Nat) (s : State) : State :=
  s.withSense
    { s.sense with channels := updWhere (·.no = c) (fun c => { c with reading := some value }) s.sense.channels }

theorem State.takeReading_last {c value : Nat} (hafter : ∀ k ∈ s.sense.channels, c < k.no → k.zone = 0) :
    s.takeReading c value = (s.lastRead c value).endPass.chooseConversion := by
  have hnext : (s.lastRead c value).sense.nextUsed (c + 1) = none := by
    refine Sense.nextUsed_none fun k hk hno => ?_
    obtain ⟨x, hx, rfl⟩ := List.mem_map.1 hk
    have hxno : (if decide (x.no = c) = true then { x with reading := some value } else x).no = x.no := by split <;> rfl
    have hxz : (if decide (x.no = c) = true then { x with reading := some value } else x).zone = x.zone := by split <;> rfl
    rw [hxz]
    rw [hxno] at hno
    exact hafter x hx hno
  unfold State.takeReading
  dsimp only
  split
  · next n hn => exact absurd (hn.symm.trans hnext) nofun
  · rfl

end Sys2Proof.Machine
end

section
/-! PROOF. Light scans: the scan timer, the beginning and the end of a pass (R153 to R160). -/
namespace Sys2Proof.Machine

open Sys2Proof

variable {s t : State}

/-! ## The scan timer -/

theorem State.answer_powered (h : s.powered = true) : s.answer t = .next t := by rw [State.answer, if_pos h]

theorem execPassTrigger_late {ms : Nat} (hp : s.powered = true) (hdue : s.sense.scanDue ≤ (s.atMs ms).runTime) :
    exec (.passTrigger ms) s =
      .next
        (if s.sense.position.isSome then (s.atMs ms).restartScan else (s.atMs ms).restartScan.beginPass.finish s) := by
  show s.answer (if s.sense.scanDue ≤ (s.atMs ms).runTime then _ else s) = _
  rw [State.answer_powered hp, if_pos hdue]
  rfl

/-- The zones and the notices after a pass with no channel used (R153, R158 to R160). -/
theorem State.endPass_unused (hok : s.SenseOk) (h : ∀ c ∈ s.sense.channels, c.zone = 0) (old : State) :
    (∀ z ∈ s.sense.zones, s.ZonePassed (s.endPass.finish old) z []) ∧
      ∀ q, ((s.endPass.finish old).port q).notices = (s.port q).notices := by
  have hclass : ∀ c ∈ s.sense.channels, c.classify = c := fun c hc => LightChannel.classify_unread (.inl (h c hc))
  refine ⟨fun z hz => ?_, fun q => by rw [State.finish_notices, State.endPass_quiet hclass]⟩
  have hnone : s.classifyChannels.sense.usable z.no = [] := by
    rw [State.classifyChannels_sense, Sense.usable, List.filterMap_eq_nil_iff]
    intro c hc
    obtain ⟨x, hx, rfl⟩ := List.mem_map.1 hc
    have hne : ¬0 = z.no := fun h => hok.zone_pos hz h.symm
    simp [hclass x hx, h x hx, hne]
  rw [← hnone]
  exact State.endPass_zonePassed hok.zones_nodup hz
    (congrArg Sense.zones (State.sense_of_sources (State.finish_sources s.endPass old)))
    (State.finish_records s.endPass old)

theorem State.endPass_unread (h : ∀ c ∈ s.sense.channels, c.zone = 0) :
    s.endPass.sense.channels = s.sense.channels.map fun c => { c with reading := none } := by
  rw [State.endPass_channels]
  exact List.map_congr_left fun c hc => by rw [LightChannel.classify_unread (.inl (h c hc))]

theorem State.atMs_restartScan_sense (ms : Nat) (s : State) :
    (s.atMs ms).restartScan.sense = { s.sense with scanDue := s.sense.scanDue + s.inForce.scanPeriod } := rfl

theorem State.endPass_scanDue (s : State) : s.endPass.sense.scanDue = s.sense.scanDue := by
  rw [State.endPass_sense, State.computeZones_sense, State.classifyChannels_sense]

/-- The lowest-numbered used channel, or none used. -/
theorem exists_used_or_unused (l : List LightChannel) :
    (∀ c ∈ l, c.zone = 0) ∨
      ∃ before c after, l = before ++ c :: after ∧ c.zone ≠ 0 ∧ ∀ b ∈ before, b.zone = 0 := by
  cases h : l.find? fun c => c.zone ≠ 0 with
  | none => exact .inl (by simpa using h)
  | some c =>
    obtain ⟨hc, before, after, hl, hb⟩ := List.find?_eq_some_iff_append.1 h
    exact .inr ⟨before, c, after, hl, by simpa using hc, by simpa using hb⟩

/-- What the beginning of a pass keeps whether a channel is used or not (R153). -/
theorem State.beginPass_keeps (hok : s.SenseOk) :
    s.beginPass.sense.scanDue = s.sense.scanDue ∧ s.beginPass.sense.queue = s.sense.queue ∧
      s.beginPass.sense.channels = s.sense.channels.map fun c => { c with reading := none } := by
  obtain hnone | ⟨before, c, after, hch, hc, hb⟩ := exists_used_or_unused s.sense.channels
  · rw [State.beginPass_unused hnone]
    exact ⟨s.endPass_scanDue, s.endPass_rest.1, State.endPass_unread hnone⟩
  · rw [State.beginPass_used hok hch hc hb]
    exact ⟨rfl, rfl, rfl⟩

/-- Settles O49, by the pass begun on the restarted timer and by the reading taken. -/
theorem passesReadTheUsedChannels : Obligations.PassesReadTheUsedChannels := by
  refine ⟨fun s ms now hp hok hnow => ⟨fun hearly => ?_, fun hdue => ?_⟩,
    fun s ms value c before between after k n hp hok hc hch hk hbetween hn => ?_, fun s ms value hno => ?_⟩
  · have hearly' : ¬s.sense.scanDue ≤ (s.atMs ms).runTime := Nat.not_le.2 (lt_of_eq_of_lt hnow.symm hearly)
    show s.answer (if s.sense.scanDue ≤ (s.atMs ms).runTime then _ else s) = _
    rw [if_neg hearly', State.answer_self]
  · have hexec := execPassTrigger_late hp (hdue.trans_eq hnow : s.sense.scanDue ≤ (s.atMs ms).runTime)
    by_cases hpos : s.sense.position = none
    · rw [hpos, Option.isSome_none, if_neg Bool.false_ne_true] at hexec
      have hok' : (s.atMs ms).restartScan.SenseOk := hok
      have hsensed := ((s.atMs ms).restartScan.beginPass_sensed).trans (.finish _ s)
      obtain ⟨hfacts, hcues, hlines, hstore, hboard, hlink⟩ := hsensed.others
      have hsense := State.finish_sense (s.atMs ms).restartScan.beginPass s
      obtain ⟨hdue', hqueue, hchannels⟩ := State.beginPass_keeps hok'
      have htime := (congrArg State.time hsensed.frame :)
      refine ⟨_, hexec, ?_, htime, ?_, fun h => absurd hpos h, fun _ => ⟨?_, fun hnone => ?_, fun before after c hch hc hb => ?_⟩,
        hfacts, hcues, hlines, hstore, hboard, hlink⟩
      · rw [hsense, hdue']
        rfl
      · rw [hsense, hqueue]
        rfl
      · rw [hsense, hchannels]
        rfl
      · obtain ⟨-, hconv, hposition⟩ := (s.atMs ms).restartScan.endPass_rest
        have hunused : (s.atMs ms).restartScan.beginPass = (s.atMs ms).restartScan.endPass := State.beginPass_unused hnone
        obtain ⟨hzones, hnotices⟩ := State.endPass_unused (s := (s.atMs ms).restartScan) hok' hnone s
        rw [hsense, hunused]
        exact ⟨hposition, hconv, hzones, hnotices⟩
      · rw [hsense, State.beginPass_used (s := (s.atMs ms).restartScan) hok' hch hc hb]
        exact ⟨rfl, rfl, rfl⟩
    · rw [Option.isSome_iff_ne_none.2 hpos, if_pos rfl] at hexec
      exact ⟨_, hexec, rfl, rfl, rfl, fun _ => rfl, fun h => absurd h hpos, rfl, rfl, rfl, rfl, rfl, fun _ => rfl⟩
  · have hsensed := ((s.atMs ms).takeReading_sensed c value.toNat).trans (.finish _ s)
    refine ⟨_, ?_, ?_, hsensed.others⟩
    · simp only [exec, execLightConversionComplete, hc, State.answer_powered hp]
    · rw [State.finish_sense]
      exact State.takeReading_next (s := s.atMs ms) hok hc hch hk hbetween hn
  · cases hc : s.sense.converter with
    | light c => exact absurd hc (hno c)
    | check n threshold => simp only [exec, execLightConversionComplete, hc, State.answer_self]
    | idle => simp only [exec, execLightConversionComplete, hc, State.answer_self]

end Sys2Proof.Machine
end

section
/-! PROOF. The end of a pass: its last reading, the channels classed, the zones and their panels (R154 to R160). -/
namespace Sys2Proof.Machine

open Sys2Proof

variable {s t : State}

/-! ## The last reading -/

/-- A channel with this reading held. -/
def LightChannel.read (r : Option Nat) (k : LightChannel) : LightChannel := { k with reading := r }

theorem State.lastRead_channels {c value : Nat} {reading : LightChannel → Option Nat}
    (h : ∀ k, reading k = if k.no = c then some value else k.reading) :
    (s.lastRead c value).sense.channels = s.sense.channels.map fun k => k.read (reading k) := by
  refine List.map_congr_left fun k _ => ?_
  rw [h]
  by_cases hk : k.no = c
  · rw [if_pos (decide_eq_true hk), if_pos hk]
    rfl
  · rw [if_neg (by simpa using hk), if_neg hk]
    rfl

/-- The converter after the last conversion of a pass, no check waiting (R152, R154). -/
theorem State.chooseConversion_rest (hq : s.sense.queue = []) (hpos : s.sense.position = none) :
    s.chooseConversion = s.withSense { s.sense with converter := .idle } := by
  simp only [State.chooseConversion, Sense.choose, hq, hpos]

/-! ## The readings that a zone uses -/

theorem LightChannel.classify_zone (k : LightChannel) : k.classify.zone = k.zone := by
  obtain ⟨no, zone, faulty, good, fault, reading⟩ := k
  cases zone with
  | zero => rfl
  | succ zone =>
    cases reading with
    | none => rfl
    | some r =>
      simp only [LightChannel.classify]
      split <;> rfl

/-- What one channel gives the zone `z` at the end of a pass (R155, R158). -/
theorem LightChannel.usable_iff {z : Nat} (hz : z ≠ 0) (k : LightChannel) (r : Option Nat) :
    (if (k.read r).classify.zone = z && !(k.read r).classify.fault then
        (k.read r).classify.reading.bind fun v => if goodReading v then some v else none
      else none) =
      if k.zone = z ∧ ¬(k.fault = true ∧ k.goodRun < 3) then r.filter fun v => 3 ≤ v ∧ v ≤ 1020 else none := by
  rw [LightChannel.classify_zone]
  by_cases hk : k.zone = z
  · have hzone : (k.read r).zone ≠ 0 := fun h => hz (hk ▸ h)
    cases r with
    | none => rw [LightChannel.classify_unread (.inr rfl)]; simp [LightChannel.read]
    | some v =>
      by_cases hv : 3 ≤ v ∧ v ≤ 1020
      · rw [LightChannel.classify_good hzone rfl hv]
        cases hf : k.fault <;> simp [LightChannel.read, goodReading, hk, hv, hf, Option.filter]
      · rw [LightChannel.classify_faulty hzone rfl (by omega)]
        simp [LightChannel.read, goodReading, hv, Option.filter]
  · simp [LightChannel.read, hk]

theorem State.classifyChannels_usable {reading : LightChannel → Option Nat} {l : List LightChannel}
    (h : s.sense.channels = l.map fun k => k.read (reading k)) {z : Nat} (hz : z ≠ 0) :
    s.classifyChannels.sense.usable z =
      l.filterMap fun k =>
        if k.zone = z ∧ ¬(k.fault = true ∧ k.goodRun < 3) then (reading k).filter fun r => 3 ≤ r ∧ r ≤ 1020
        else none := by
  rw [State.classifyChannels_sense, Sense.usable, h, List.filterMap_map, List.filterMap_map]
  exact List.filterMap_congr fun k _ => k.usable_iff hz (reading k)

/-! ## The channels -/

/-- The notice of a flag that the pass sets (R155). -/
theorem State.endPass_holds {k : LightChannel} (hk : k ∈ s.sense.channels) (hset : k.classify.fault = true)
    (hclear : k.fault = false) :
    (s.endPass.port .planning).Holds ⟨.sensorFault, .light k.no, s.time.clock⟩ := by
  have hmem : k.no ∈ faultedChannels s.sense.channels :=
    List.mem_filterMap.2 ⟨k, hk, by simp [hset, hclear, LightChannel.classify_no]⟩
  rw [State.endPass_port, State.classifyChannels_eq]
  exact State.holds_sensorFaults _ (s.withSense _) k.no (.inl hmem)

/-- Settles O50, by the readings taken, each channel classed by its own, and the zones moved by `afterPass`. -/
theorem passEndsSetTheLevels : Obligations.PassEndsSetTheLevels := by
  intro s ms value c hp hok hpanels hc hused hafter reading hreading
  obtain ⟨hqueue, -⟩ := hok.light hc
  have hchannels : ((s.atMs ms).lastRead c value.toNat).sense.channels =
      s.sense.channels.map fun k => k.read (reading k) := State.lastRead_channels (s := s.atMs ms) hreading
  obtain ⟨hq, hconv, hpos⟩ := ((s.atMs ms).lastRead c value.toNat).endPass_rest
  have hlast := State.takeReading_last (s := s.atMs ms) (value := value.toNat) hafter
  rw [State.chooseConversion_rest (hq.trans hqueue) hpos] at hlast
  have hsensed := ((s.atMs ms).takeReading_sensed c value.toNat).trans (.finish _ s)
  have hsense := State.finish_sense ((s.atMs ms).takeReading c value.toNat) s
  have hport := State.finish_port ((s.atMs ms).takeReading c value.toNat) s .planning
  have hrecords := State.finish_records ((s.atMs ms).takeReading c value.toNat) s
  rw [hlast] at hsense hport hrecords
  refine ⟨((s.atMs ms).takeReading c value.toNat).finish s, ?_, ?_, ?_, ?_, ?_, fun k hk => ?_, fun z hz => ?_, hsensed.others⟩
  · simp only [exec, execLightConversionComplete, hc, State.answer_powered hp]
  · rw [hlast, hsense]; exact hpos
  · rw [hlast, hsense]; rfl
  · rw [hlast, hsense]; exact hq.trans hqueue
  · rw [hlast, hsense]; exact State.endPass_scanDue _
  · have hmem : k.read (reading k) ∈ ((s.atMs ms).lastRead c value.toNat).sense.channels := by
      rw [hchannels]
      exact List.mem_map_of_mem hk
    refine ⟨{ (k.read (reading k)).classify with reading := none }, ?_, LightChannel.classify_no _,
      LightChannel.classify_zone _, rfl, fun hun => ?_, fun r hz hr => ⟨fun hbad => ?_, fun hlow hhigh => ?_⟩⟩
    · rw [hlast, hsense]
      show _ ∈ ((s.atMs ms).lastRead c value.toNat).endPass.sense.channels
      rw [State.endPass_channels]
      exact List.mem_map_of_mem hmem
    · rw [LightChannel.classify_unread hun]
      exact ⟨rfl, rfl, rfl⟩
    · have hclass := LightChannel.classify_faulty (c := k.read (reading k)) hz hr hbad
      refine ⟨by rw [hclass]; rfl, by rw [hclass], by rw [hclass, Bool.or_eq_true, decide_eq_true_iff]; rfl, fun hclear hrun => ?_⟩
      have hholds := State.endPass_holds hmem (by rw [hclass]; simp [LightChannel.read, hrun]) hclear
      rw [hlast, hport]
      exact hholds
    · have hclass := LightChannel.classify_good (c := k.read (reading k)) hz hr ⟨hlow, hhigh⟩
      exact ⟨by rw [hclass]; rfl, by rw [hclass], by rw [hclass, Bool.and_eq_true, decide_eq_true_iff]; rfl⟩
  · rw [hlast, ← State.classifyChannels_usable hchannels (hok.zone_pos hz)]
    exact State.endPass_zonePassed (s := (s.atMs ms).lastRead c value.toNat) hok.zones_nodup hz
      (congrArg Sense.zones hsense :) hrecords

end Sys2Proof.Machine
end

section
/-! PROOF. Line checks: their request, and their result (R152, R156, R157, R172). -/
namespace Sys2Proof.Machine

open Sys2Proof

variable {s t : State}

theorem Line.asked_of_impulse {l : Line} {m : Impulse} (h : l.impulse = some m) :
    l.asked = { l with impulse := some { m with asked := true } } := by
  rw [Line.asked, h, Option.map_some]

theorem Impulse.atMidpoint_iff (now : Nat) (m : Impulse) :
    m.atMidpoint now = true ↔ m.asked = false ∧ 2 * m.start + m.width ≤ 2 * now := by
  simp [Impulse.atMidpoint]

theorem Sense.request_queued {v : Sense} {n : Fin 4} (h : n ∈ v.queue) (threshold : Nat) : v.request threshold n = v := by
  rw [Sense.request, if_pos (List.contains_iff_mem.2 h)]

theorem Sense.request_new {v : Sense} {n : Fin 4} (h : n ∉ v.queue) (hstep : v.converterInStep = true) (threshold : Nat) :
    v.request threshold n =
      { v with
        queue := v.queue ++ [n]
        converter := if v.queue = [] then .check n threshold else v.converter } := by
  have hcontains : ¬v.queue.contains n = true := fun hc => h (List.contains_iff_mem.1 hc)
  rw [Sense.request, if_neg hcontains]
  cases hconv : v.converter with
  | check m old =>
    have hhead : v.queue.head? = some m := by simpa [Sense.converterInStep, hconv] using hstep
    have hne : v.queue ≠ [] := fun hnil => by simp [hnil] at hhead
    rw [if_neg hne]
  | light c =>
    have hnil : v.queue = [] := (by simpa [Sense.converterInStep, hconv] using hstep : v.queue = [] ∧ _).1
    simp [hnil, Sense.choose]
  | idle =>
    have hnil : v.queue = [] := (by simpa [Sense.converterInStep, hconv] using hstep : v.queue = [] ∧ _).1
    simp [hnil, Sense.choose]

theorem Line.takeResult_eq (present : Bool) (l : Line) :
    l.takeResult present = if l.impulse = none then l else { l with result := some present } := by
  cases h : l.impulse <;> simp [Line.takeResult, h]

theorem Sense.choose_eq (threshold : Nat) (v : Sense) :
    v.choose threshold =
      { v with
        converter := match v.queue, v.position with
          | m :: _, _ => .check m threshold
          | [], some c => .light c
          | [], none => .idle } := by
  rw [Sense.choose]
  split <;> simp [*]

/-- Settles O51. -/
theorem lineChecksGoFirst : Obligations.LineChecksGoFirst := by
  refine ⟨fun s ms n hp hok hlines l hl => ⟨fun m hm hasked hmid => ?_, fun hnot => ?_⟩,
    fun s ms value n threshold hp hok hlines hc => ?_, fun s ms value hno => ?_⟩
  · have hany : ((s.atMs ms).line? n).any (fun l => l.impulse.any (Impulse.atMidpoint (s.atMs ms).runTime)) = true := by
      have hl' : (s.atMs ms).line? n = some l := hl
      rw [hl', Option.any_some, hm, Option.any_some, Impulse.atMidpoint_iff]
      exact ⟨hasked, hmid⟩
    have hno : ∀ l, (Line.asked l).no = l.no := fun _ => rfl
    refine ⟨((s.atMs ms).updLine n Line.asked).withSense
        ((s.atMs ms).sense.request (s.atMs ms).inForce.lineThreshold n), ?_, rfl, ?_, fun k hk => ?_, fun hq => ?_, fun hq => ?_⟩
    · show s.answer (if _ then _ else s) = _
      rw [State.answer_powered hp, if_pos hany]
    · rw [← Line.asked_of_impulse hm]
      exact State.line?_updLine_same (s := s.atMs ms) hno hl
    · exact State.line?_updLine_other hno hk (s.atMs ms)
    · exact Sense.request_queued hq _
    · exact Sense.request_new hq hok.2.2.2.2 _
  · have hany : ¬((s.atMs ms).line? n).any (fun l => l.impulse.any (Impulse.atMidpoint (s.atMs ms).runTime)) = true := by
      have hl' : (s.atMs ms).line? n = some l := hl
      rw [hl', Option.any_some, Option.any_eq_true]
      rintro ⟨m, hm, hmid⟩
      obtain ⟨hasked, hreached⟩ := (Impulse.atMidpoint_iff _ _).1 hmid
      obtain h | h := hnot m hm
      · exact absurd (hasked.symm.trans h) nofun
      · exact absurd hreached (Nat.not_le.2 h)
    show s.answer (if _ then _ else s) = _
    rw [if_neg hany, State.answer_self]
  · have hno : ∀ l, (Line.takeResult (decide (threshold ≤ value.toNat)) l).no = l.no := fun l => by
      rw [Line.takeResult]; split <;> rfl
    refine ⟨_, by simp only [exec, execLineCheckComplete, hc, State.answer_powered hp]; rfl, rfl, ?_, fun k hk => ?_, fun l hl => ?_⟩
    · exact Sense.choose_eq _ _
    · exact State.line?_updLine_other hno hk (s.atMs ms)
    · rw [← Line.takeResult_eq]
      exact State.line?_updLine_same (s := s.atMs ms) hno hl
  · cases hc : s.sense.converter with
    | check n threshold => exact absurd hc (hno n threshold)
    | light c => simp only [exec, execLineCheckComplete, hc, State.answer_self]
    | idle => simp only [exec, execLineCheckComplete, hc, State.answer_self]

end Sys2Proof.Machine
end

section
/-! PROOF. The telegrams of the departure table: their refusals, the transitions, the delay stages (R6, R7, R13 to R21,
R35 to R39). -/
namespace Sys2Proof.Machine

open Sys2Proof

variable {s t : State}

/-! ## Field ranges -/

/-- The indices of the fields that fail their checks, in the order of the checks. -/
def faultsOf (checks : List (Nat × Bool)) : List Nat := checks.flatMap fun c => outOf c.1 (!c.2)

theorem firstBad_eq_head? (checks : List (Nat × Bool)) : firstBad checks = (faultsOf checks).head? := by
  induction checks with
  | nil => rfl
  | cons c checks ih =>
    obtain ⟨i, ok⟩ := c
    cases ok with
    | false => rfl
    | true => exact ih

theorem all_ne_nil_iff (l : List Text) : (l.all (· ≠ [])) = !decide ([] ∈ l) := by
  rw [Bool.eq_iff_iff]
  simp only [List.all_eq_true, decide_eq_true_eq, Bool.not_eq_true', decide_eq_false_iff_not]
  exact ⟨fun h hmem => h [] hmem rfl, fun h x hx hnil => h (hnil ▸ hx)⟩

theorem planChecks_faults (p : Params) (f : PlanFields) : faultsOf (planChecks p f) = f.faults p := by
  simp only [faultsOf, planChecks, PlanFields.faults, List.flatMap_cons, List.flatMap_nil, List.append_nil,
    List.append_assoc, runOk, all_ne_nil_iff, ← decide_not, not_not, ne_eq, Nat.not_le]

/-- A field of AMND that need not stand passes its check when it stands within its range (R15, R195). -/
theorem not_all_eq {α : Type} (o : Option α) (ok : α → Bool) (bad : α → Prop) [DecidablePred bad]
    (h : ∀ x, ok x = true ↔ ¬bad x) : (!o.all ok) = decide (∃ x ∈ o, bad x) := by
  rw [Bool.eq_iff_iff, Bool.not_eq_true', ← Bool.not_eq_true, decide_eq_true_iff]
  cases o with
  | none => simp
  | some x => simp [h]

/-- A field and its partner stand together, and it is in range (R15). -/
theorem not_paired_eq {α β : Type} (o : Option α) (m : Option β) (ok : α → Bool) (bad : α → Prop) [DecidablePred bad]
    (h : ∀ x, ok x = true ↔ ¬bad x) :
    (!(o.all ok && (o.isSome || m.isNone))) = decide ((∃ x ∈ o, bad x) ∨ (o = none ∧ m ≠ none)) := by
  rw [Bool.eq_iff_iff, Bool.not_eq_true', ← Bool.not_eq_true, decide_eq_true_iff]
  cases o with
  | none => simp
  | some x => simp [h]

theorem amndChecks_faults (p : Params) (f : AmndFields) : faultsOf (amndChecks p f) = f.faults p := by
  simp only [faultsOf, amndChecks, AmndFields.faults, List.flatMap_cons, List.flatMap_nil, List.append_nil,
    List.append_assoc]
  rw [not_paired_eq f.clock f.day _ (fun c => 23 < c.1) fun c => by simp,
    not_paired_eq f.day f.clock _ (fun d => 1 < d) fun d => by simp,
    not_all_eq f.clock _ (fun c => 59 < c.2) fun c => by simp,
    not_all_eq f.platform _ (fun n => p.platforms < n) fun n => by simp,
    not_all_eq f.calls _ (fun l => [] ∈ l.take 12) fun l => by rw [all_ne_nil_iff]; simp]
  simp only [runOk, ← decide_not, not_not, ne_eq, Nat.not_lt]

/-! ## A telegram that names a run -/

section
variable {checks : List (Nat × Bool)} {run : Nat} {allowed : Entry → Bool} {act : Entry → State × Answer}

theorem State.onEntry_badField {i : Nat} (h : firstBad checks = some i) :
    s.onEntry checks run allowed act = (s, .badField i) := by
  rw [State.onEntry, h]

theorem State.onEntry_noEntry (h : firstBad checks = none) (hs : s.entry? run = none) :
    s.onEntry checks run allowed act = (s, .refuse .noEntry) := by
  simp only [State.onEntry, h, hs]

theorem State.onEntry_found (h : firstBad checks = none) {e : Entry} (hs : s.entry? run = some e) :
    s.onEntry checks run allowed act = if allowed e then act e else (s, .refuse .wrongState) := by
  simp only [State.onEntry, h, hs]

end

theorem Entry.inService_iff (e : Entry) :
    e.inService = true ↔ e.state ∈ [EntryState.listed, .boarding, .closed] := by
  cases h : e.state <;> simp [Entry.inService, h]

theorem Entry.cancellable_iff (e : Entry) :
    (decide (e.state ≠ .departed) && decide (e.state ≠ .retiring)) = true ↔
      e.state ∈ [EntryState.listed, .boarding, .closed, .cancelled] := by
  cases h : e.state <;> simp

theorem Entry.departable_iff (e : Entry) :
    (decide (e.state ≠ .cancelled) && decide (e.state ≠ .retiring)) = true ↔
      e.state ∈ [EntryState.listed, .boarding, .closed, .departed] := by
  cases h : e.state <;> simp

theorem runOk_faults (run : Nat) : faultsOf [(1, runOk run)] = outOf 1 (run = 0) := by
  simp only [faultsOf, List.flatMap_cons, List.flatMap_nil, List.append_nil, runOk, ne_eq, ← decide_not, not_not]

theorem runOk_limit_faults (run n limit : Nat) :
    faultsOf [(1, runOk run), (2, n ≤ limit)] = outOf 1 (run = 0) ++ outOf 2 (limit < n) := by
  simp only [faultsOf, List.flatMap_cons, List.flatMap_nil, List.append_nil, runOk, ne_eq, ← decide_not, not_not,
    Nat.not_le]

/-- Such a telegram is handled on the entry of its run, its checks the ranges of its fields, in the states it names
(R13). -/
theorem Telegram.handled_onEntry {tg : Telegram} {run : Nat} {states : List EntryState}
    (h : tg.named? = some (run, states)) (p : PortId) (s : State) :
    ∃ checks allowed act, tg.handled p s = s.onEntry checks run allowed act ∧
      faultsOf checks = tg.faults s.inForce ∧ ∀ e : Entry, allowed e = true ↔ e.state ∈ states := by
  cases tg with
  | amnd f => cases h; exact ⟨_, _, _, rfl, amndChecks_faults _ f, Entry.inService_iff⟩
  | dlay f => cases h; exact ⟨_, _, _, rfl, runOk_limit_faults f.run f.mode 2, Entry.inService_iff⟩
  | canc f => cases h; exact ⟨_, _, _, rfl, runOk_faults f.run, Entry.cancellable_iff⟩
  | rins run => cases h; exact ⟨_, _, _, rfl, runOk_faults run, Entry.cancellable_iff⟩
  | plat f =>
    cases h; exact ⟨_, _, _, rfl, runOk_limit_faults f.run f.platform s.inForce.platforms, Entry.inService_iff⟩
  | pred f => cases h; exact ⟨_, _, _, rfl, runOk_limit_faults f.run f.mode 1, Entry.inService_iff⟩
  | rdys run => cases h; exact ⟨_, _, _, rfl, runOk_faults run, Entry.inService_iff⟩
  | dept run => cases h; exact ⟨_, _, _, rfl, runOk_faults run, Entry.departable_iff⟩
  | _ => cases h

/-- Settles O19, by the checks that every telegram naming a run passes through. -/
theorem runTelegramsAreRefused : Obligations.RunTelegramsAreRefused := by
  intro s p seq tg run states htaking hnamed
  obtain ⟨checks, allowed, act, hhandled, hfaults, hallowed⟩ := tg.handled_onEntry hnamed p s
  have hfirst := firstBad_eq_head? checks
  rw [hfaults] at hfirst
  refine ⟨fun i rest hi => ?_, fun hrange hs => ?_, fun e hrange hs hstate => ?_⟩
  · rw [hi] at hfirst
    exact exec_taking_refused htaking (hhandled.trans (State.onEntry_badField hfirst))
  · rw [of_decide_eq_true hrange] at hfirst
    exact exec_taking_refused htaking (hhandled.trans (State.onEntry_noEntry hfirst hs))
  · rw [of_decide_eq_true hrange] at hfirst
    refine exec_taking_refused htaking (hhandled.trans ?_)
    rw [State.onEntry_found hfirst hs, if_neg fun h => hstate ((hallowed e).1 h)]

/-! ## PLAN refused -/

theorem planOwner_badField {f : PlanFields} {i : Nat} (h : firstBad (planChecks s.inForce f) = some i) :
    planOwner f s = (s, .badField i) := by
  rw [planOwner, h]

theorem planOwner_refused {f : PlanFields} {c : Code} (h : firstBad (planChecks s.inForce f) = none)
    (hc : s.planRefusal f = some c) : planOwner f s = (s, .refuse c) := by
  simp only [planOwner, h, hc]

theorem planOwner_accepted {f : PlanFields} (h : firstBad (planChecks s.inForce f) = none)
    (hc : s.planRefusal f = none) :
    planOwner f s =
      State.acceptRevision f.run (s.createEntry (newEntry s.inForce.dayStart f)) (clamped := planClamped f) := by
  simp only [planOwner, h, hc]

theorem schedMinute_eq {dayStart hh mm day : Nat} (h : day ≤ 1) :
    schedMinute dayStart hh mm day = ((hh * 60 + mm : Int) - dayStart) % 1440 + 1440 * day := by
  obtain rfl | rfl : day = 0 ∨ day = 1 := by omega
  · rfl
  · rfl

/-- A field in its range is not among the faults (R14). -/
theorem PlanFields.day_of_faults {p : Params} {f : PlanFields} (h : f.faults p = []) : f.day ≤ 1 := by
  simp only [PlanFields.faults, List.append_eq_nil_iff] at h
  obtain ⟨⟨-, hday⟩, -⟩ := h
  by_contra hbad
  rw [outOf, decide_eq_true (Nat.lt_of_not_le hbad)] at hday
  exact absurd hday nofun

/-- Settles O18. -/
theorem planIsRefusedInOrder : Obligations.PlanIsRefusedInOrder := by
  intro s p seq f htaking
  have hfirst := firstBad_eq_head? (planChecks s.inForce f)
  rw [planChecks_faults] at hfirst
  refine ⟨fun i rest hi => ?_, fun hnone sched hsched code hcode => ?_⟩
  · rw [hi] at hfirst
    exact exec_taking_refused htaking (planOwner_badField hfirst)
  · rw [hnone] at hfirst
    rw [← schedMinute_eq (PlanFields.day_of_faults hnone)] at hsched
    have hrefusal : s.planRefusal f = some code := by
      unfold State.planRefusal
      obtain ⟨hunset, rfl⟩ | ⟨hset, hrun, rfl⟩ | ⟨hset, hrun, hfull, rfl⟩ | ⟨hset, hrun, hroom, hpast, rfl⟩ := hcode
      · rw [if_pos hunset]
      · rw [if_neg hset, if_pos hrun]
      · rw [if_neg hset, hrun, if_neg (by simp), if_pos hfull]
      · rw [if_neg hset, hrun, if_neg (by simp), if_neg (by omega), if_pos (hsched ▸ hpast)]
    exact exec_taking_refused htaking (planOwner_refused hfirst hrefusal)

/-! ## Transitions -/

/-- The transition of an entry that the clock has reached, or not, by its state (R6, R7, R9). -/
theorem Entry.transition_state (p : Params) (now : Int) (e : Entry) :
    (e.state = .listed ∨ e.state = .boarding → e.exp ≤ now → (e.transition p now).state = .closed) ∧
      (e.state = .listed → now < e.exp → e.displayed ≠ none → e.exp - p.boarding ≤ now →
        (e.transition p now).state = .boarding) ∧
      (e.state = .listed → now < e.exp → (e.displayed = none ∨ now < e.exp - p.boarding) →
        (e.transition p now).state = .listed) ∧
      (e.state = .boarding → now < e.exp → e.displayed = none → (e.transition p now).state = .listed) ∧
      (e.state = .boarding → now < e.exp → e.displayed ≠ none → (e.transition p now).state = .boarding) ∧
      (e.state ≠ .listed → e.state ≠ .boarding → (e.transition p now).state = e.state) := by
  refine ⟨fun hs hnow => ?_, fun hs hnow hd hb => ?_, fun hs hnow hd => ?_, fun hs hnow hd => ?_, fun hs hnow hd => ?_,
    fun hl hb => ?_⟩
  · have haw : e.awaiting = true := by simpa [Entry.awaiting] using hs
    simp [Entry.transition, haw, hnow]
  · simp [Entry.transition, hs, Int.not_le.2 hnow, Option.isSome_iff_ne_none.2 hd, hb]
  · have hstay : ¬(e.displayed.isSome = true ∧ e.exp - p.boarding ≤ now) := by
      rintro ⟨hsome, hle⟩
      obtain hd | hd := hd
      · simp [hd] at hsome
      · omega
    simp only [Entry.transition, hs, Int.not_le.2 hnow]
    grind
  · simp [Entry.transition, hs, Int.not_le.2 hnow, hd]
  · simp [Entry.transition, hs, Int.not_le.2 hnow, hd]
  · simp [Entry.transition, Entry.awaiting, hl, hb]

/-- Settles O20. -/
theorem transitionsFollowTheClock : Obligations.TransitionsFollowTheClock := by
  intro s old new
  refine ⟨?_, fun hsame => by rw [State.retest, if_pos hsame], fun hmoved => ?_⟩
  · unfold State.retest
    split
    · rfl
    · exact Entry.transition_eq ..
  · rw [State.retest, if_neg hmoved]
    exact Entry.transition_state ..

/-! ## The delay stages -/

/-- Stage 3 where the minutes of the operator are not fixed: the greater of the two sources (R35). -/
theorem Entry.rawDelay_greatest {e : Entry} {raw : Nat} (hfix : ∀ o, e.opDelay = some o → o.fix = false)
    (hop : ∀ o, e.opDelay = some o → o.minutes ≤ raw) (hdp : ∀ m, e.filter.dp = some m → m ≤ raw)
    (hraw : raw = 0 ∨ (∃ o, e.opDelay = some o ∧ o.minutes = raw) ∨ e.filter.dp = some raw) :
    e.rawDelay = raw ∧ e.fixed = false := by
  unfold Entry.rawDelay Entry.fixed
  cases ho : e.opDelay with
  | none =>
    cases hf : e.filter.dp with
    | none => simp_all
    | some m =>
      have := hdp m hf
      simp_all
      omega
  | some o =>
    rw [ho] at hfix hop hraw
    simp only [hfix o rfl]
    have := hop o rfl
    cases hf : e.filter.dp <;> simp_all <;> omega

theorem Entry.recompute_eq (h : Nat) (e : Entry) :
    e.recompute h =
      if e.newDelay h = e.dd then e else { e with dd := e.newDelay h, exp := e.sched + e.newDelay h } := rfl

/-- Settles O22. -/
theorem delayStagesFollowTheRules : Obligations.DelayStagesFollowTheRules := by
  intro h e
  refine ⟨e.newDelay h, ?_, fun hne => ?_, fun heq => ?_, fun o ho hfix => ?_, fun raw hfix hop hdp hraw => ?_⟩
  · rw [Entry.recompute_eq]
    split
    · next heq => rw [heq]
    · rfl
  · rw [Entry.recompute_eq, if_neg hne]
  · rw [Entry.recompute_eq, if_pos heq]
  · simp [Entry.newDelay, Entry.fixed, Entry.rawDelay, ho, hfix]
  · obtain ⟨hr, hfree⟩ := Entry.rawDelay_greatest hfix hop hdp hraw
    rw [Entry.newDelay, hr, hfree, if_neg Bool.false_ne_true]
    refine ⟨fun hlt => if_pos hlt, fun hle hdec => ?_, fun hle hdec => ?_⟩
    · rw [if_neg (Nat.not_lt.2 hle), if_pos hdec]
    · rw [if_neg (Nat.not_lt.2 hle), if_neg (Nat.not_le.2 hdec)]

end Sys2Proof.Machine
end

section
/-! PROOF. What a change of the picture leaves alone beside the entry it moves: the notices posted before, the cues being
spoken, and the revision of every run whose change nothing announces (R5, R75, R87, R185). -/
namespace Sys2Proof.Machine

open Sys2Proof

variable {s t u : State} {run : Nat}

/-- A notice list that has only grown, its overflow flag kept (R185). -/
def Port.Heard (r q : Port) : Prop := r.notices <+: q.notices ∧ (r.overflow = true → q.overflow = true)

theorem Port.Heard.refl (r : Port) : r.Heard r := ⟨List.prefix_rfl, id⟩

theorem Port.Heard.trans {r q v : Port} (h : r.Heard q) (k : q.Heard v) : r.Heard v := ⟨h.1.trans k.1, k.2 ∘ h.2⟩

theorem Port.heard_post (n : Notice) (r : Port) : r.Heard (r.post n) := by
  unfold Port.post
  split
  · exact ⟨List.prefix_append .., id⟩
  · exact ⟨List.prefix_rfl, fun _ => rfl⟩

theorem Port.Heard.holds {n : Notice} {r q : Port} (h : r.Heard q) (hn : r.Holds n) : q.Holds n :=
  hn.imp (fun hmem => h.1.subset hmem) h.2

/-- No OPEN record of the run is announced (R74). -/
def State.Unspoken (run : Nat) (s : State) : Prop :=
  ∀ r ∈ s.tracker.records, r.run = run → r.isOpen = true → r.announced = false

/-- The revision of the entry of a run. -/
def State.revOf (run : Nat) (s : State) : Option Count16 := (s.entry? run).map (·.rev)

theorem State.unspoken_of_none (h : s.openRecord? run = none) : s.Unspoken run := by
  intro r hr hrun hopen
  exact absurd (List.find?_eq_none.1 h r hr) (by simp [hrun, hopen])

theorem State.Unspoken.of_tracker (h : s.Unspoken run) (htracker : t.tracker = s.tracker) : t.Unspoken run := by
  rw [State.Unspoken, htracker]
  exact h

theorem State.CuesOk.of_cues (h : s.CuesOk) (hcues : t.cues = s.cues) : t.CuesOk := by
  rw [State.CuesOk, hcues]
  exact h

/-- A change that leaves the lists of notices but for new ones, the cues being spoken, and the revision of every run whose
OPEN records are not announced. -/
structure State.Calm (s t : State) : Prop where
  heard : ∀ q, (s.port q).Heard (t.port q)
  cuesOk : s.CuesOk → t.CuesOk
  speaking : s.CuesOk → t.speaking = s.speaking
  unspoken : ∀ run, s.Unspoken run → t.Unspoken run
  rev : ∀ run, s.Unspoken run → t.revOf run = s.revOf run

theorem State.Calm.refl (s : State) : s.Calm s := ⟨fun _ => .refl _, id, fun _ => rfl, fun _ => id, fun _ _ => rfl⟩

theorem State.Calm.trans (h : s.Calm t) (k : t.Calm u) : s.Calm u :=
  ⟨fun q => (h.heard q).trans (k.heard q), k.cuesOk ∘ h.cuesOk,
    fun hs => (k.speaking (h.cuesOk hs)).trans (h.speaking hs), fun r hr => k.unspoken r (h.unspoken r hr),
    fun r hr => (k.rev r (h.unspoken r hr)).trans (h.rev r hr)⟩

theorem State.Calm.ite {c : Prop} [Decidable c] (ht : s.Calm t) (hu : s.Calm u) : s.Calm (if c then t else u) := by
  split
  · exact ht
  · exact hu

theorem State.Calm.of_blocks (hports : t.ports = s.ports) (hcues : t.cues = s.cues) (htracker : t.tracker = s.tracker)
    (htable : t.table = s.table) : s.Calm t := by
  refine ⟨fun q => ?_, fun h => ?_, fun _ => ?_, fun run h => ?_, fun run _ => ?_⟩
  · rw [State.port, State.port, hports]
    exact .refl _
  · exact State.CuesOk.of_cues h hcues
  · rw [State.speaking, State.speaking, hcues]
  · exact h.of_tracker htracker
  · rw [State.revOf, State.revOf, State.entry?, State.entry?, htable]

/-! ## Notices and cues -/

/-- A change of nothing but the notices and the cues. -/
theorem State.Calm.of_cues (hports : ∀ q, (s.port q).Heard (t.port q)) (htracker : t.tracker = s.tracker)
    (htable : t.table = s.table) (hok : s.CuesOk → t.CuesOk) (hspeaking : s.CuesOk → t.speaking = s.speaking) : s.Calm t := by
  refine ⟨hports, hok, hspeaking, fun run h => h.of_tracker htracker, fun run _ => ?_⟩
  rw [State.revOf, State.revOf, State.entry?, State.entry?, htable]

theorem State.post_heard {names : List PortId} (h : names.Nodup) (k : NoticeKind) (x : Subject) (s : State) (q : PortId) :
    (s.port q).Heard ((s.post names k x).port q) := by
  rw [State.post_port h]
  split
  · exact Port.heard_post ..
  · exact .refl _

theorem State.post_calm {names : List PortId} (h : names.Nodup) (k : NoticeKind) (x : Subject) (s : State) :
    s.Calm (s.post names k x) :=
  .of_cues (State.post_heard h k x s) (State.post_tracker ..) (State.post_table ..)
    (fun hs => by rw [State.CuesOk, State.post_cues]; exact hs)
    fun _ => by rw [State.speaking, State.speaking, State.post_cues]

theorem State.postDropped_calm (run : Nat) (s : State) : s.Calm (s.postDropped run) := State.post_calm (by decide) ..

/-- The TAKEN cues, but for their pending flags, of a list of cues. -/
def spoken (l : List Cue) : List Cue := (l.filter (·.isTaken)).map fun c => { c with pendRev := false, pendDrop := false }

theorem State.speaking_eq (s : State) : s.speaking = spoken s.cues.list := rfl

/-- A change of each cue that leaves what is spoken of it. -/
theorem spoken_map {f : Cue → Cue} (htaken : ∀ c, (f c).isTaken = c.isTaken)
    (h : ∀ c : Cue, c.isTaken = true →
      ({ f c with pendRev := false, pendDrop := false } : Cue) = { c with pendRev := false, pendDrop := false })
    (l : List Cue) : spoken (l.map f) = spoken l := by
  have hfilter : (l.map f).filter (·.isTaken) = (l.filter (·.isTaken)).map f := by
    rw [List.filter_map]
    congr 1
    exact List.filter_congr fun c _ => htaken c
  rw [spoken, hfilter, List.map_map, spoken]
  exact List.map_congr_left fun c hc => h c (List.mem_filter.1 hc).2

/-- Cues that are not TAKEN leave the list. -/
theorem spoken_filter {p : Cue → Bool} {l : List Cue} (h : ∀ c ∈ l, c.isTaken = true → p c = true) :
    spoken (l.filter p) = spoken l := by
  rw [spoken, List.filter_filter, spoken]
  congr 1
  refine List.filter_congr fun c hc => ?_
  by_cases ht : c.isTaken = true
  · simp [ht, h c hc ht]
  · simp [ht]

theorem spoken_append {c : Cue} (h : c.isTaken = false) (l : List Cue) : spoken (l ++ [c]) = spoken l := by
  rw [spoken, List.filter_append, List.filter_cons, if_neg (by simp [h]), List.filter_nil, List.append_nil, spoken]

theorem Cue.revise_spoken (now : Int) (zones : List Nat) (due : Int) (c : Cue) :
    (c.revise now zones due).isTaken = c.isTaken ∧
      (c.isTaken = true →
        ({ c.revise now zones due with pendRev := false, pendDrop := false } : Cue) =
          { c with pendRev := false, pendDrop := false }) := by
  obtain ⟨number, kind, r, z, d, state, attempts, rev, drop⟩ := c
  cases state with
  | waiting =>
    refine ⟨?_, nofun⟩
    simp only [Cue.revise, Cue.test]
    split <;> rfl
  | due => exact ⟨rfl, nofun⟩
  | taken k => exact ⟨rfl, fun _ => rfl⟩

theorem State.appendCue_calm {kind : CueKind} {run : Nat} (zones : List Nat) (due : Int) (hnew : s.cue? kind run = none)
    (hroom : s.cues.list.length < 32) : s.Calm (s.appendCue kind run zones due) := by
  refine .of_cues (fun q => .refl _) rfl rfl (fun h => State.appendCue_cuesIn h hnew hroom) fun _ => ?_
  rw [State.speaking_eq, State.appendCue_list, spoken_append (newCue_isTaken ..)]
  rfl

theorem State.withCues_calm {l : List Cue} (hok : s.CuesOk → CuesIn s.cues.last l)
    (hspoken : s.CuesOk → spoken l = spoken s.cues.list) : s.Calm (s.withCues l) :=
  .of_cues (fun _ => .refl _) rfl rfl hok hspoken

/-- A cue gives its place to a new one (R94). -/
theorem State.replace_calm {kind : CueKind} {run : Nat} {d : Cue} (zones : List Nat) (due : Int)
    (hnew : s.cue? kind run = none) (hd : d ∈ s.cues.list) (hstate : d.isTaken = false) :
    s.Calm ((s.withCues (s.cues.list.filter (·.number ≠ d.number))).appendCue kind run zones due) := by
  refine .of_cues (fun q => .refl _) rfl rfl (fun h => ?_) fun h => ?_
  · have hless : CuesIn s.cues.last (s.cues.list.filter (·.number ≠ d.number)) := CuesIn.sublist h List.filter_sublist
    exact State.appendCue_cuesIn (s := s.withCues (s.cues.list.filter (·.number ≠ d.number))) hless
      (State.replace_new hnew) (State.replace_room h.1 hd)
  · rw [State.speaking_eq, State.appendCue_list, spoken_append (newCue_isTaken ..)]
    refine spoken_filter fun c hc ht => decide_eq_true (p := c.number ≠ d.number) fun hnum => ?_
    obtain rfl := List.inj_on_of_nodup_map h.2.1 hc hd hnum
    exact absurd (ht.symm.trans hstate) nofun

theorem State.trigger_calm (kind : CueKind) (run : Nat) (zones : List Nat) (due : Int) (s : State) :
    s.Calm (s.trigger kind run zones due) := by
  unfold State.trigger
  split
  · have hf := Cue.revise_fields s.now zones due
    have hs := Cue.revise_spoken s.now zones due
    refine State.withCues_calm (fun h => CuesIn.updWhere h fun c => ⟨(hf c).1, (hf c).2.1, (hf c).2.2.1, ?_⟩) fun _ => ?_
    · rw [(hf c).2.2.2.1]
      exact id
    · refine spoken_map (fun c => ?_) (fun c hc => ?_) _
      · split
        · exact (hs c).1
        · rfl
      · split
        · exact (hs c).2 hc
        · rfl
  · next hnone =>
    have hnew : s.cue? kind run = none := Option.not_isSome_iff_eq_none.1 hnone
    split
    · next hroom => exact State.appendCue_calm zones due hnew hroom
    · split
      · next d hd =>
        obtain ⟨hmem, hwaiting, -⟩ := displaced_mem hd
        rw [State.postDropped_appendCue]
        exact (State.replace_calm zones due hnew hmem (Cue.isTaken_of_waiting hwaiting)).trans (State.postDropped_calm ..)
      · exact State.postDropped_calm ..

theorem State.withdrawWhere_calm (p : Cue → Bool) (s : State) : s.Calm (s.withdrawWhere p) := by
  refine State.withCues_calm (fun h => CuesIn.withdrawWhere h p) fun _ => ?_
  rw [spoken_map (f := fun c => if p c then { c with pendDrop := true } else c),
    spoken_filter fun c _ ht => by simp [ht]]
  · intro c
    split <;> rfl
  · intro c _
    split <;> rfl

/-- What the due test and a moved due leave of a cue: all but its due and state, and of a TAKEN one those too. -/
structure Cue.SameBut (c d : Cue) : Prop where
  number : d.number = c.number
  kind : d.kind = c.kind
  run : d.run = c.run
  zones : d.zones = c.zones
  attempts : d.attempts = c.attempts
  pendRev : d.pendRev = c.pendRev
  pendDrop : d.pendDrop = c.pendDrop
  isTaken : d.isTaken = c.isTaken
  taken : c.isTaken = true → d = c

theorem Cue.SameBut.refl (c : Cue) : c.SameBut c := ⟨rfl, rfl, rfl, rfl, rfl, rfl, rfl, rfl, fun _ => rfl⟩

theorem Cue.sameBut_waiting {c : Cue} (h : c.state = .waiting) (now due : Int) :
    c.SameBut (Cue.test now { c with due := due }) := by
  have ht : c.isTaken = false := Cue.isTaken_of_waiting h
  simp only [Cue.test, h]
  split
  · exact ⟨rfl, rfl, rfl, rfl, rfl, rfl, rfl, ht.symm, fun hc => absurd (hc.symm.trans ht) nofun⟩
  · exact ⟨rfl, rfl, rfl, rfl, rfl, rfl, rfl, ht.symm, fun hc => absurd (hc.symm.trans ht) nofun⟩

theorem Cue.follow_sameBut (p : Params) (now exp : Int) (c : Cue) : c.SameBut (c.follow p now exp) := by
  unfold Cue.follow
  split
  · next h _ => exact Cue.sameBut_waiting h now _
  · next h _ => exact Cue.sameBut_waiting h now _
  · exact .refl c

theorem State.follow_calm (e : Entry) (s : State) :
    s.Calm (s.withCues (updWhere (·.run = e.run) (Cue.follow s.inForce s.now e.exp) s.cues.list)) := by
  have hf := Cue.follow_sameBut s.inForce s.now e.exp
  refine State.withCues_calm (fun h => CuesIn.updWhere h fun c => ?_) fun _ => ?_
  · exact ⟨(hf c).number, (hf c).kind, (hf c).run, by rw [(hf c).attempts]; exact id⟩
  · refine spoken_map (fun c => ?_) (fun c hc => ?_) _
    · split
      · exact (hf c).isTaken
      · rfl
    · split
      · rw [(hf c).taken hc]
      · rfl

theorem State.handoverFinal_calm (old : Option Entry) (e : Entry) (s : State) : s.Calm (s.handoverFinal old e) := by
  unfold State.handoverFinal
  exact .ite (State.trigger_calm ..) (.ite (State.trigger_calm ..) (.refl s))

theorem State.cueHandover_calm (old : Option Entry) (e : Entry) (s : State) : s.Calm (s.cueHandover old e) := by
  unfold State.cueHandover
  dsimp only
  refine State.Calm.trans ?_ (State.handoverFinal_calm ..)
  refine State.Calm.trans ?_ (.ite (State.trigger_calm ..) (.refl _))
  refine State.Calm.trans ?_ (.ite (State.trigger_calm ..) (.refl _))
  exact (State.withdrawWhere_calm ..).trans (State.follow_calm ..)

theorem State.handStanding_calm (e : Entry) (st : EntryState) (s : State) : s.Calm (s.handStanding e st) :=
  State.cueHandover_calm ..

/-! ## Change records -/

theorem State.updEntry_rev {f : Entry → Entry} (hf : ∀ e, (f e).run = e.run ∧ (f e).rev = e.rev) (n run : Nat) (s : State) :
    (s.updEntry n f).revOf run = s.revOf run := by
  have h := entryIn_updWhere n run f (fun e => (hf e).1) s.table.entries
  rw [State.revOf, State.entry?_eq, State.revOf, State.entry?_eq]
  rw [show (s.updEntry n f).table.entries = updWhere (·.run = n) f s.table.entries from rfl, h]
  split
  · rw [Option.map_map]
    exact Option.map_congr fun e _ => (hf e).2
  · rfl

/-- Each record keeps its run, and is not opened nor announced. -/
theorem State.Unspoken.map (h : s.Unspoken run) {f : ChangeRec → ChangeRec}
    (hf : ∀ r : ChangeRec, (f r).run = r.run ∧ ((f r).isOpen = true → r.isOpen = true ∧ (r.announced = false → (f r).announced = false)))
    (hrecords : t.tracker.records = s.tracker.records.map f) : t.Unspoken run := by
  intro r hr hrun hopen
  rw [hrecords] at hr
  obtain ⟨x, hx, rfl⟩ := List.mem_map.1 hr
  obtain ⟨hxrun, hxopen⟩ := hf x
  obtain ⟨hxo, hxa⟩ := hxopen hopen
  exact hxa (h x hx (hxrun.symm.trans hrun) hxo)

/-- A change of the records and of nothing the rest speaks of. -/
theorem State.Calm.of_records {f : ChangeRec → ChangeRec} (hports : t.ports = s.ports) (hcues : t.cues = s.cues)
    (hrev : ∀ run, t.revOf run = s.revOf run)
    (hf : ∀ r : ChangeRec, (f r).run = r.run ∧ ((f r).isOpen = true → r.isOpen = true ∧ (r.announced = false → (f r).announced = false)))
    (hrecords : t.tracker.records = s.tracker.records.map f) : s.Calm t := by
  refine ⟨fun q => ?_, fun h => h.of_cues hcues, fun _ => ?_, fun run h => h.map hf hrecords, fun run _ => hrev run⟩
  · rw [State.port, State.port, hports]
    exact .refl _
  · rw [State.speaking, State.speaking, hcues]

theorem State.updRecords_calm {p : ChangeRec → Bool} {f : ChangeRec → ChangeRec}
    (hf : ∀ r : ChangeRec, (f r).run = r.run ∧ ((f r).isOpen = true → r.isOpen = true ∧ (r.announced = false → (f r).announced = false)))
    (s : State) : s.Calm (s.updRecords p f) := by
  refine .of_records (f := fun r => if p r then f r else r) rfl rfl (fun _ => rfl) (fun r => ?_) rfl
  split
  · exact hf r
  · exact ⟨rfl, fun h => ⟨h, id⟩⟩

theorem State.voidRecord_calm (run : Nat) (s : State) : s.Calm (s.voidRecord run) := by
  unfold State.voidRecord
  refine .ite ?_ (.refl s)
  refine State.Calm.trans ?_ (State.withdrawWhere_calm ..)
  refine State.Calm.trans ?_ (State.post_calm (by decide) ..)
  refine .of_records (f := fun r => if r.run = run && r.isOpen then { r with state := .void } else r) rfl rfl
    (fun m => ?_) (fun r => ?_) rfl
  · exact (State.updEntry_rev (f := fun e => { e with openRec := none }) (fun _ => ⟨rfl, rfl⟩) run m _).trans rfl
  · split
    · exact ⟨rfl, nofun⟩
    · exact ⟨rfl, fun h => ⟨h, id⟩⟩

theorem State.inform_heard (r : ChangeRec) (s : State) (q : PortId) : (s.port q).Heard ((s.inform r).port q) :=
  State.post_heard (names := [.signalling]) (by decide) .changeInformed (.run r.run) _ q

/-- An entry whose highlight an INFORMED passage ends, with one revision (R75). -/
def Entry.informed (e : Entry) : Entry := { e with openRec := none, rev := e.rev + 1 }

theorem State.inform_informed (r : ChangeRec) (s : State) :
    (s.inform r).table.entries = updWhere (·.run = r.run) Entry.informed s.table.entries := State.inform_entries r s

/-- The passage of a record to INFORMED leaves the records and the revisions of other runs (R75). -/
theorem State.inform_other {r : ChangeRec} (h : r.run ≠ run) (s : State) :
    (s.Unspoken run → (s.inform r).Unspoken run) ∧ (s.inform r).revOf run = s.revOf run := by
  refine ⟨fun hs => hs.map (f := ChangeRec.informed r.no) (fun x => ?_) (congrArg Tracker.records (State.inform_tracker r s)), ?_⟩
  · unfold ChangeRec.informed
    split
    · exact ⟨rfl, nofun⟩
    · exact ⟨rfl, fun h => ⟨h, id⟩⟩
  · rw [State.revOf, State.entry?_eq, State.inform_informed, entryIn_updWhere r.run run Entry.informed fun _ => rfl,
      if_neg (Ne.symm h)]
    rfl

theorem State.informs_other {l : List ChangeRec} (h : ∀ r ∈ l, r.run ≠ run) (s : State) :
    (s.Unspoken run → (l.foldl (fun t r => t.inform r) s).Unspoken run) ∧
      (l.foldl (fun t r => t.inform r) s).revOf run = s.revOf run := by
  induction l generalizing s with
  | nil => exact ⟨id, rfl⟩
  | cons r l ih =>
    obtain ⟨hr, hl⟩ := List.forall_mem_cons.1 h
    obtain ⟨hunspoken, hrev⟩ := State.inform_other hr s
    obtain ⟨kunspoken, krev⟩ := ih hl (s.inform r)
    exact ⟨kunspoken ∘ hunspoken, krev.trans hrev⟩

theorem State.informAll_calm (s : State) : s.Calm s.informAll := by
  have hheard : ∀ (l : List ChangeRec) (v : State) (q : PortId),
      (v.port q).Heard ((l.foldl (fun t r => t.inform r) v).port q) := by
    intro l
    induction l with
    | nil => exact fun _ _ => .refl _
    | cons r l ih => exact fun v q => (State.inform_heard r v q).trans (ih _ q)
  have hnone : ∀ run, s.Unspoken run → ∀ r ∈ s.tracker.records.filter (fun r => r.isOpen && r.displayed && r.announced),
      r.run ≠ run := by
    intro run h r hr hrun
    obtain ⟨hmem, hp⟩ := List.mem_filter.1 hr
    simp only [Bool.and_eq_true] at hp
    exact absurd (hp.2.symm.trans (h r hmem hrun hp.1.1)) nofun
  exact ⟨hheard _ s, fun h => h.of_cues (State.informAll_cues s), fun _ => by rw [State.speaking, State.speaking, State.informAll_cues],
    fun run h => (State.informs_other (hnone run h) s).1 h, fun run h => (State.informs_other (hnone run h) s).2⟩

theorem State.evaluate_calm (s : State) : s.Calm s.evaluate := by
  unfold State.evaluate
  exact .ite ((State.updRecords_calm (f := s.evaluated) (fun r => ⟨rfl, fun h => ⟨h, id⟩⟩) s).trans
    (State.informAll_calm _)) (.refl s)

theorem State.compose_calm (s : State) : s.Calm s.compose :=
  .of_blocks (State.compose_ports s) (State.compose_cues s) (State.compose_tracker s) (State.compose_table s)

theorem State.recompose_calm (s : State) : s.Calm s.recompose :=
  ((State.compose_calm s).trans (State.evaluate_calm _)).trans (State.compose_calm _)

theorem State.finish_calm (s old : State) : s.Calm (s.finish old) := by
  refine .of_cues (fun q => ?_) (State.finish_tracker s old) (State.finish_table s old)
    (fun h => h.of_cues (State.finish_cues s old)) fun _ => by rw [State.speaking, State.speaking, State.finish_cues]
  rw [State.finish_port]
  exact ⟨List.prefix_rfl, id⟩

theorem State.settle_calm (s old : State) : s.Calm (s.settle old) := (State.recompose_calm s).trans (State.finish_calm _ old)

/-! ## A platform change -/

theorem Tracker.takeSlot_sublist {k k' : Tracker} {n : Nat} (h : k.takeSlot = some (n, k')) :
    k'.records.Sublist k.records := by
  unfold Tracker.takeSlot at h
  split at h
  · cases h
    exact List.Sublist.refl _
  · split at h
    · cases h
      exact List.filter_sublist
    · cases h

theorem State.supersede_calm (run : Nat) (s : State) : s.Calm (s.supersede run) := by
  refine .of_records (f := ChangeRec.superseded run) rfl rfl (fun _ => rfl) (fun r => ?_)
    (congrArg Tracker.records (State.supersede_tracker run s))
  unfold ChangeRec.superseded
  split
  · exact ⟨rfl, nofun⟩
  · exact ⟨rfl, fun h => ⟨h, id⟩⟩

theorem State.enterRecord_calm {r : ChangeRec} {n : Nat} {k : Tracker} (hr : r.announced = false)
    (hslot : (s.supersede r.run).tracker.takeSlot = some (n, k)) : s.Calm (s.enterRecord r n k) := by
  refine (State.supersede_calm r.run s).trans ⟨fun _ => .refl _, id, fun _ => rfl, fun m h => ?_, fun m _ => ?_⟩
  · intro x hx hrun hopen
    obtain hx | hx := List.mem_append.1 hx
    · exact h x ((Tracker.takeSlot_sublist hslot).subset hx) hrun hopen
    · obtain rfl := List.mem_singleton.1 hx
      exact hr
  · exact (State.updEntry_rev (f := fun e => { e with openRec := some n }) (fun _ => ⟨rfl, rfl⟩) r.run m _).trans rfl

theorem State.appendUrgent_calm (run : Nat) (platform : Option Nat) (s : State) : s.Calm (s.appendUrgent run platform) :=
  .of_blocks rfl rfl rfl rfl

theorem State.callChange_calm (run src dst n : Nat) (s : State) : s.Calm (s.callChange run src dst n) := by
  unfold State.callChange
  dsimp only
  refine State.Calm.trans ?_ (State.appendUrgent_calm ..)
  refine State.Calm.trans ?_ (State.withdrawWhere_calm ..)
  exact (State.trigger_calm .change run [0, src, dst] s.now s).trans (State.updRecords_calm
    (f := fun x => { x with cue := ((s.trigger .change run [0, src, dst] s.now).cue? .change run).map (·.number) })
    (fun r => ⟨rfl, fun h => ⟨h, id⟩⟩) _)

theorem State.openRecord_calm (run src dst : Nat) (r : Count16) (s : State) : s.Calm (s.openRecord run src dst r).1 := by
  cases hslot : (s.supersede run).tracker.takeSlot with
  | none =>
    rw [State.openRecord_untracked hslot]
    exact (State.supersede_calm run s).trans (State.post_calm (by decide) ..)
  | some slot =>
    rw [State.openRecord_tracked hslot]
    exact (State.enterRecord_calm (r := s.newRecord run src dst slot.1 r) rfl hslot).trans (State.callChange_calm ..)

theorem State.platformChanged_calm (e : Entry) (st : EntryState) (old : Option Nat) (s : State) :
    s.Calm (s.platformChanged e st old).1 := by
  unfold State.platformChanged
  split
  · exact .ite ((State.voidRecord_calm ..).trans (State.handStanding_calm ..)) (.refl s)
  · split
    · exact (State.openRecord_calm ..).trans (State.handStanding_calm ..)
    · exact .refl s
  · exact .refl s

theorem State.handPlatform_calm (old e : Entry) (s : State) : s.Calm (s.handPlatform old e).1 := by
  unfold State.handPlatform
  exact (State.platformChanged_calm ..).trans (State.cueHandover_calm ..)

/-! ## A change of one entry -/

theorem State.putEntry_blocks (old e : Entry) (s : State) :
    (s.putEntry old e).ports = s.ports ∧ (s.putEntry old e).cues = s.cues ∧ (s.putEntry old e).tracker = s.tracker := by
  unfold State.putEntry
  dsimp only
  split <;> exact ⟨rfl, rfl, rfl⟩

/-- The handovers of a changed entry leave its counted revision, and all that a calm change leaves (R4, R38, R86). -/
theorem State.changeEntry_calm (old new : Entry) (s : State) :
    (s.putEntry old (old.counted new)).Calm (s.changeEntry old new).1 := by
  have hstate : ∀ (v : State) (e : Entry), v.Calm
      (if old.state = e.state then v else v.cueHandover (some (v.standing e old.state)) (v.standing e e.state)) := fun v e =>
    .ite (.refl v) (State.cueHandover_calm ..)
  have hdelay : ∀ (v : State) (e : Entry),
      v.Calm (if old.dd = e.dd ∧ old.exp = e.exp then v else v.handStanding e e.state) := fun v e =>
    .ite (.refl v) (State.handStanding_calm ..)
  unfold State.changeEntry
  dsimp only
  refine State.Calm.trans ?_ (hdelay _ _)
  refine State.Calm.trans ?_ (hstate _ _)
  split
  · exact .refl _
  · exact State.handPlatform_calm ..

end Sys2Proof.Machine
end

section
/-! PROOF. The end of an interval: the panels judged one by one, with the waivers of the first that fails (R73, R144 to
R146). -/
namespace Sys2Proof.Machine

open Sys2Proof

variable {s t : State}

/-! ## A panel record read after a change -/

/-- The element of a key, read after a change of the element of another key or its own. -/
theorem find?_updWhere_key {α κ : Type} [DecidableEq κ] {key : α → κ} {f : α → α} (hf : ∀ a, key (f a) = key a) (j k : κ)
    (l : List α) :
    (updWhere (fun a => key a = k) f l).find? (fun a => key a = j) =
      if j = k then (l.find? fun a => key a = k).map f else l.find? fun a => key a = j := by
  induction l with
  | nil => simp [updWhere]
  | cons a l ih =>
    simp only [updWhere, List.map_cons, List.find?_cons] at ih ⊢
    by_cases ha : key a = k
    · by_cases hj : j = k
      · subst hj
        simp [ha, hf]
      · have hkj : ¬k = j := fun h => hj h.symm
        simpa [ha, hf, hj, hkj] using ih
    · by_cases hj : j = k
      · subst hj
        simpa [ha] using ih
      · by_cases haj : key a = j
        · simp [haj, hj]
        · simpa [ha, haj, hj] using ih

theorem State.panel?_updPanel {a : Nat} {f : Panel → Panel} (hf : ∀ p, (f p).addr = p.addr) (b : Nat) (s : State) :
    (s.updPanel a f).panel? b = if b = a then (s.panel? a).map f else s.panel? b :=
  find?_updWhere_key (key := Panel.addr) hf b a s.bus.panels

theorem State.panel?_record (a : Nat) (s : State) :
    (s.panel? a).map Panel.record = s.records.find? (·.addr = a) := by
  rw [State.records, List.find?_map]
  rfl

theorem State.panel?_of_records (h : t.records = s.records) (a : Nat) :
    (t.panel? a).map Panel.record = (s.panel? a).map Panel.record := by
  rw [State.panel?_record, State.panel?_record, h]

/-! ## The monitor's judgement of one panel -/

/-- What the monitor makes of a panel's record at the end of an interval (R145, R146). -/
def Panel.judged (p : Params) (q : Panel) : Panel :=
  if q.state = .active ∧ q.addressed then
    if p.failThreshold ≤ q.counted p then { q with state := .failed, ec := 0, goodRun := 0 }
    else { q with ec := q.counted p }
  else q

/-- The panel goes FAILED at the end of the interval (R146). -/
def Panel.Fails (p : Params) (q : Panel) : Prop :=
  q.state = .active ∧ q.addressed = true ∧ p.failThreshold ≤ q.counted p

theorem State.waiveRows_bus (a : Nat) (s : State) : (s.waiveRows a).bus = s.bus := by
  unfold State.waiveRows
  split <;> rfl

theorem State.failPanel_records (a : Nat) (s : State) :
    (s.failPanel a).records = (s.updPanel a fun p => { p with state := .failed, ec := 0, goodRun := 0 }).records := by
  rw [State.failPanel, State.records_of_bus (State.post_bus ..), State.recompose_records]
  exact State.records_of_bus (State.waiveRows_bus ..)

theorem State.monitor_other {q : Panel} {a : Nat} (h : a ≠ q.addr) (s : State) :
    ((s.monitor q).panel? a).map Panel.record = (s.panel? a).map Panel.record := by
  unfold State.monitor
  dsimp only
  split_ifs
  · rw [State.panel?_of_records (State.failPanel_records ..),
      State.panel?_updPanel (f := fun p => { p with state := .failed, ec := 0, goodRun := 0 }) (fun _ => rfl), if_neg h]
  · rw [State.panel?_updPanel (f := fun p => { p with ec := q.counted s.inForce }) (fun _ => rfl), if_neg h]
  · rfl

theorem State.monitor_same {q : Panel} (h : (s.panel? q.addr).map Panel.record = some q.record) :
    ((s.monitor q).panel? q.addr).map Panel.record = some (q.judged s.inForce).record := by
  obtain ⟨r, hr, hrq⟩ := Option.map_eq_some_iff.1 h
  unfold State.monitor Panel.judged
  dsimp only
  split_ifs
  · rw [State.panel?_of_records (State.failPanel_records ..),
      State.panel?_updPanel (f := fun p => { p with state := .failed, ec := 0, goodRun := 0 }) (fun _ => rfl), if_pos rfl,
      hr, Option.map_some, Option.map_some]
    exact congrArg some (congrArg (fun p : Panel => { p with state := .failed, ec := 0, goodRun := 0 }) hrq :)
  · rw [State.panel?_updPanel (f := fun p => { p with ec := q.counted s.inForce }) (fun _ => rfl), if_pos rfl, hr,
      Option.map_some, Option.map_some]
    exact congrArg some (congrArg (fun p : Panel => { p with ec := q.counted s.inForce }) hrq :)
  · exact h

theorem State.monitorAll_other {l : List Panel} {a : Nat} (h : ∀ q ∈ l, q.addr ≠ a) (s : State) :
    ((l.foldl State.monitor s).panel? a).map Panel.record = (s.panel? a).map Panel.record := by
  induction l generalizing s with
  | nil => rfl
  | cons q l ih =>
    obtain ⟨hq, hl⟩ := List.forall_mem_cons.1 h
    rw [List.foldl_cons, ih hl, State.monitor_other (Ne.symm hq)]

theorem State.monitorAll_inForce (l : List Panel) (s : State) : (l.foldl State.monitor s).inForce = s.inForce :=
  foldl_keeps State.inForce State.monitor (fun u q => State.monitor_inForce q u) l s

/-- Each panel is judged once, on its own record (R145, R146). -/
theorem State.monitorAll_panel {l : List Panel} (hnodup : (l.map (·.addr)).Nodup) {q : Panel} (hq : q ∈ l)
    (h : (s.panel? q.addr).map Panel.record = some q.record) :
    ((l.foldl State.monitor s).panel? q.addr).map Panel.record = some (q.judged s.inForce).record := by
  obtain ⟨before, after, rfl⟩ := List.append_of_mem hq
  rw [List.map_append, List.map_cons, List.nodup_append] at hnodup
  obtain ⟨-, hright, hcross⟩ := hnodup
  obtain ⟨hnotin, -⟩ := List.nodup_cons.1 hright
  rw [List.foldl_append, List.foldl_cons,
    State.monitorAll_other (a := q.addr) fun x hx heq => hnotin (List.mem_map.2 ⟨x, hx, heq⟩)]
  have hbefore : ((before.foldl State.monitor s).panel? q.addr).map Panel.record = some q.record := by
    rw [State.monitorAll_other (a := q.addr) fun x hx heq => hcross _ (List.mem_map_of_mem hx) _ List.mem_cons_self heq]
    exact h
  rw [State.monitor_same hbefore, State.monitorAll_inForce]

/-! ## Notices -/

theorem State.failPanel_calm (a : Nat) (s : State) : s.Calm (s.failPanel a) := by
  unfold State.failPanel
  dsimp only
  refine State.Calm.trans ?_ (State.post_calm (by decide) ..)
  refine State.Calm.trans ?_ (State.recompose_calm _)
  refine State.Calm.trans (t := s.updPanel a fun p => { p with state := .failed, ec := 0, goodRun := 0 })
    (.of_blocks rfl rfl rfl rfl) ?_
  unfold State.waiveRows
  exact .ite (State.updRecords_calm (f := fun r => { r with rowPart := .waived, degraded := true })
    (fun r => ⟨rfl, fun h => ⟨h, id⟩⟩) _) (.refl _)

theorem State.monitor_calm (q : Panel) (s : State) : s.Calm (s.monitor q) := by
  unfold State.monitor
  exact .ite (.ite (State.failPanel_calm ..) (.of_blocks rfl rfl rfl rfl)) (.refl s)

theorem State.monitorAll_calm (l : List Panel) (s : State) : s.Calm (l.foldl State.monitor s) := by
  induction l generalizing s with
  | nil => exact .refl s
  | cons q l ih => exact (State.monitor_calm q s).trans (ih _)

theorem State.failPanel_clock (a : Nat) (s : State) : (s.failPanel a).time = s.time :=
  State.time_of_sources (State.failPanel_sources a s)

/-- A panel that fails is reported to the planning port (R146). -/
theorem State.failPanel_holds (a : Nat) (s : State) :
    ((s.failPanel a).port .planning).Holds ⟨.panelFailed, .panel a, s.time.clock⟩ := by
  have hpost := State.holds_post (names := [.planning]) (q := .planning) (by simp) .panelFailed (.panel a) (by simp)
    ((s.updPanel a fun p => { p with state := .failed, ec := 0, goodRun := 0 }).waiveRows a).recompose
  have htime : (((s.updPanel a fun p => { p with state := .failed, ec := 0, goodRun := 0 }).waiveRows a).recompose).time =
      s.time := State.time_of_sources (by simp)
  rw [htime] at hpost
  exact hpost

theorem State.monitorAll_holds {l : List Panel} {q : Panel} (hq : q ∈ l) (h : q.Fails s.inForce) :
    ((l.foldl State.monitor s).port .planning).Holds ⟨.panelFailed, .panel q.addr, s.time.clock⟩ := by
  obtain ⟨hactive, haddressed, hec⟩ := h
  obtain ⟨before, after, rfl⟩ := List.append_of_mem hq
  rw [List.foldl_append, List.foldl_cons]
  have hin := State.monitorAll_inForce before s
  have htime : (before.foldl State.monitor s).time = s.time :=
    foldl_keeps State.time State.monitor (fun v x => State.time_of_sources (State.monitor_sources x v)) before s
  have hfail : (before.foldl State.monitor s).monitor q = (before.foldl State.monitor s).failPanel q.addr := by
    simp only [State.monitor, hactive, haddressed, hin, and_self, if_true, if_pos hec]
  rw [hfail]
  rw [← htime]
  exact ((State.monitorAll_calm after _).heard .planning).holds (State.failPanel_holds ..)

/-! ## Waivers -/

/-- The waivers of the change records of `s` stand in those of `t`. -/
def State.WaiversKept (s t : State) : Prop :=
  ∀ r ∈ s.tracker.records, ∃ r' ∈ t.tracker.records, r'.no = r.no ∧ (r.rowPart = .waived → r'.rowPart = .waived) ∧
    (r.gatePart = .waived → r'.gatePart = .waived) ∧ (r.degraded = true → r'.degraded = true)

theorem State.WaiversKept.of_tracker (h : t.tracker = s.tracker) : s.WaiversKept t := fun r hr =>
  ⟨r, h ▸ hr, rfl, id, id, id⟩

theorem State.WaiversKept.trans {u : State} (h : s.WaiversKept t) (k : t.WaiversKept u) : s.WaiversKept u := by
  intro r hr
  obtain ⟨r', hr', hno, hrow, hgate, hdegraded⟩ := h r hr
  obtain ⟨x, hx, kno, krow, kgate, kdegraded⟩ := k r' hr'
  exact ⟨x, hx, kno.trans hno, krow ∘ hrow, kgate ∘ hgate, kdegraded ∘ hdegraded⟩

theorem State.WaiversKept.map {f : ChangeRec → ChangeRec} (h : t.tracker.records = s.tracker.records.map f)
    (hf : ∀ r : ChangeRec, (f r).no = r.no ∧ (r.rowPart = .waived → (f r).rowPart = .waived) ∧
      (r.gatePart = .waived → (f r).gatePart = .waived) ∧ (r.degraded = true → (f r).degraded = true)) :
    s.WaiversKept t := fun r hr => ⟨f r, h ▸ List.mem_map_of_mem hr, hf r⟩

theorem State.inform_waivers (r : ChangeRec) (s : State) : s.WaiversKept (s.inform r) := by
  refine .map (congrArg Tracker.records (State.inform_tracker r s)) fun x => ?_
  unfold ChangeRec.informed
  split <;> exact ⟨rfl, id, id, id⟩

theorem State.informAll_waivers (s : State) : s.WaiversKept s.informAll := by
  have hfold : ∀ (l : List ChangeRec) (v : State), v.WaiversKept (l.foldl (fun t r => t.inform r) v) := by
    intro l
    induction l with
    | nil => exact fun v => .of_tracker rfl
    | cons r l ih => exact fun v => (State.inform_waivers r v).trans (ih _)
  exact hfold _ s

theorem State.evaluated_waivers (s : State) (r : ChangeRec) :
    (s.evaluated r).no = r.no ∧ (r.rowPart = .waived → (s.evaluated r).rowPart = .waived) ∧
      (r.gatePart = .waived → (s.evaluated r).gatePart = .waived) ∧
      (r.degraded = true → (s.evaluated r).degraded = true) := by
  refine ⟨rfl, fun h => ?_, fun h => ?_, fun h => ?_⟩
  · simp [State.evaluated, State.rowPartOf, h]
  · simp [State.evaluated, State.gatePartOf, h]
  · simp [State.evaluated, h]

theorem State.evaluate_waivers (s : State) : s.WaiversKept s.evaluate := by
  unfold State.evaluate
  split
  · refine State.WaiversKept.trans (.map (f := fun r => if r.isOpen && !r.displayed then s.evaluated r else r) rfl
      fun r => ?_) (State.informAll_waivers _)
    split
    · exact s.evaluated_waivers r
    · exact ⟨rfl, id, id, id⟩
  · exact .of_tracker rfl

theorem State.recompose_waivers (s : State) : s.WaiversKept s.recompose :=
  ((State.WaiversKept.of_tracker s.compose_tracker).trans (State.evaluate_waivers _)).trans
    (.of_tracker (State.compose_tracker _))

theorem State.waiveRows_waivers (a : Nat) (s : State) : s.WaiversKept (s.waiveRows a) := by
  unfold State.waiveRows
  split
  · refine .map (f := fun r => if r.isOpen && r.rowPart = .pending && s.rowPanelOf r.run = some a then
      { r with rowPart := .waived, degraded := true } else r) rfl fun r => ?_
    split
    · exact ⟨rfl, fun _ => rfl, id, fun _ => rfl⟩
    · exact ⟨rfl, id, id, id⟩
  · exact .of_tracker rfl

theorem State.failPanel_waivers (a : Nat) (s : State) : s.WaiversKept (s.failPanel a) := by
  unfold State.failPanel
  dsimp only
  refine State.WaiversKept.trans ?_ (.of_tracker (State.post_tracker ..))
  refine State.WaiversKept.trans ?_ (State.recompose_waivers _)
  refine State.WaiversKept.trans ?_ (State.waiveRows_waivers a _)
  exact .of_tracker rfl

theorem State.monitorAll_waivers (l : List Panel) (s : State) : s.WaiversKept (l.foldl State.monitor s) := by
  induction l generalizing s with
  | nil => exact .of_tracker rfl
  | cons q l ih =>
    refine State.WaiversKept.trans ?_ (ih _)
    unfold State.monitor
    dsimp only
    split_ifs
    · exact State.failPanel_waivers q.addr s
    · exact .of_tracker rfl
    · exact .of_tracker rfl

theorem State.gatePartOf_down {r : ChangeRec} {a : Nat} {p : Panel} (hgate : r.gatePart = .pending)
    (hreq : r.gateReq = some a) (hp : s.panel? a = some p) (hdown : p.state ≠ .active) : s.gatePartOf r = .waived := by
  simp only [State.gatePartOf, hgate, hreq, Option.bind_some, hp, if_pos hdown]

/-- The evaluation of an OPEN record that waits for a gate panel which is not ACTIVE (R71, R73). -/
theorem State.recompose_waivesGate {a : Nat} {p : Panel} (hp : s.panel? a = some p) (hdown : p.state ≠ .active)
    (hmode : s.wall.mode = .normal) {r : ChangeRec} (hr : r ∈ s.tracker.records) (hopen : r.isOpen = true)
    (hdisplayed : r.displayed = false) (hgate : r.gatePart = .pending) (hreq : r.gateReq = some a) :
    ∃ r' ∈ s.recompose.tracker.records, r'.no = r.no ∧ r'.gatePart = .waived ∧ r'.degraded = true := by
  obtain ⟨p', hp', hrecord⟩ : ∃ p', s.compose.panel? a = some p' ∧ p'.record = p.record := by
    have hpanel := State.panel?_of_records s.compose_records a
    rw [hp, Option.map_some] at hpanel
    exact Option.map_eq_some_iff.1 hpanel
  have hdown' : p'.state ≠ .active := (congrArg Panel.state hrecord :).trans_ne hdown
  have hpart := State.gatePartOf_down hgate hreq hp' hdown'
  have hmode' : s.compose.wall.mode = .normal := (congrArg (·.2.1) s.compose_board :).trans hmode
  have hmem : s.compose.evaluated r ∈
      (s.compose.updRecords (fun r => r.isOpen && !r.displayed) s.compose.evaluated).tracker.records := by
    refine List.mem_map.2 ⟨r, by rw [State.compose_tracker]; exact hr, ?_⟩
    rw [if_pos (by simp [hopen, hdisplayed])]
  obtain ⟨r', hr', hno, -, hw, hd⟩ := State.informAll_waivers _ _ hmem
  refine ⟨r', ?_, hno, hw hpart, hd ?_⟩
  · rw [State.recompose, State.compose_tracker, State.evaluate, if_pos hmode']
    exact hr'
  · simp [State.evaluated, hgate, hpart]

/-- The failure of a panel waives the row part of a record whose entry it shows, and the gate part of one that waits for
it (R73). -/
theorem State.failPanel_waives {a : Nat} {q : Panel} (hq : s.panel? a = some q) (hmode : s.wall.mode = .normal)
    {r : ChangeRec} (hr : r ∈ s.tracker.records) (hopen : r.isOpen = true) (hdisplayed : r.displayed = false) :
    (r.rowPart = .pending → s.rowPanelOf r.run = some a →
        ∃ r' ∈ (s.failPanel a).tracker.records, r'.no = r.no ∧ r'.rowPart = .waived ∧ r'.degraded = true) ∧
      (r.gatePart = .pending → r.gateReq = some a →
        ∃ r' ∈ (s.failPanel a).tracker.records, r'.no = r.no ∧ r'.gatePart = .waived ∧ r'.degraded = true) := by
  have hfail : (s.failPanel a).tracker =
      ((s.updPanel a fun p => { p with state := .failed, ec := 0, goodRun := 0 }).waiveRows a).recompose.tracker := by
    rw [State.failPanel, State.post_tracker]
  have hwaive : (s.updPanel a fun p => { p with state := .failed, ec := 0, goodRun := 0 }).waiveRows a =
      (s.updPanel a fun p => { p with state := .failed, ec := 0, goodRun := 0 }).updRecords
        (fun r => r.isOpen && r.rowPart = .pending && s.rowPanelOf r.run = some a)
        fun r => { r with rowPart := .waived, degraded := true } := if_pos hmode
  rw [hfail]
  refine ⟨fun hrow hshown => ?_, fun hgate hreq => ?_⟩
  · have hmem : { r with rowPart := .waived, degraded := true } ∈
        ((s.updPanel a fun p => { p with state := .failed, ec := 0, goodRun := 0 }).waiveRows a).tracker.records := by
      rw [hwaive]
      exact List.mem_map.2 ⟨r, hr, if_pos (by simp [hopen, hrow, hshown])⟩
    obtain ⟨r', hr', hno, hw, -, hd⟩ := State.recompose_waivers _ _ hmem
    exact ⟨r', hr', hno, hw rfl, hd rfl⟩
  · have hpanel : ((s.updPanel a fun p => { p with state := .failed, ec := 0, goodRun := 0 }).waiveRows a).panel? a =
        some { q with state := .failed, ec := 0, goodRun := 0 } := by
      rw [hwaive]
      exact (State.panel?_updPanel (f := fun p => { p with state := .failed, ec := 0, goodRun := 0 }) (fun _ => rfl) a s).trans
        (by rw [if_pos rfl, hq, Option.map_some])
    have hwmode : ((s.updPanel a fun p => { p with state := .failed, ec := 0, goodRun := 0 }).waiveRows a).wall.mode =
        .normal := by
      rw [hwaive]
      exact hmode
    by_cases hrow : r.rowPart = .pending ∧ s.rowPanelOf r.run = some a
    · refine State.recompose_waivesGate (r := { r with rowPart := .waived, degraded := true }) hpanel nofun hwmode ?_
        hopen hdisplayed hgate hreq
      rw [hwaive]
      exact List.mem_map.2 ⟨r, hr, if_pos (by simp [hopen, hrow])⟩
    · refine State.recompose_waivesGate (r := r) hpanel nofun hwmode ?_ hopen hdisplayed hgate hreq
      rw [hwaive]
      refine List.mem_map.2 ⟨r, hr, if_neg ?_⟩
      simpa [hopen] using hrow

/-! ## The end of an interval -/

/-- Panels that do not fail leave the records and the wall (R145). -/
theorem State.monitorAll_quiet {l : List Panel} (h : ∀ q ∈ l, ¬q.Fails s.inForce) :
    (l.foldl State.monitor s).tracker = s.tracker ∧ (l.foldl State.monitor s).wall = s.wall := by
  induction l generalizing s with
  | nil => exact ⟨rfl, rfl⟩
  | cons q l ih =>
    obtain ⟨hq, hl⟩ := List.forall_mem_cons.1 h
    have hmonitor : (s.monitor q).tracker = s.tracker ∧ (s.monitor q).wall = s.wall := by
      unfold State.monitor
      dsimp only
      split_ifs with hjudged hfail
      · exact absurd ⟨hjudged.1, hjudged.2, hfail⟩ hq
      · exact ⟨rfl, rfl⟩
      · exact ⟨rfl, rfl⟩
    obtain ⟨htracker, hwall⟩ := ih (s := s.monitor q) (by rw [State.monitor_inForce]; exact hl)
    exact ⟨htracker.trans hmonitor.1, hwall.trans hmonitor.2⟩

/-- The panel of lowest address that fails makes its waivers against the picture as it stood (R73). -/
theorem State.monitorAll_waives (hsorted : s.bus.panels.Pairwise fun a b => a.addr < b.addr) {q : Panel}
    (hq : q ∈ s.bus.panels) (hfails : q.Fails s.inForce)
    (hfirst : ∀ b ∈ s.bus.panels, b.addr < q.addr → ¬b.Fails s.inForce) (hmode : s.wall.mode = .normal)
    {r : ChangeRec} (hr : r ∈ s.tracker.records) (hopen : r.isOpen = true) (hdisplayed : r.displayed = false) :
    (r.rowPart = .pending → s.rowPanelOf r.run = some q.addr →
        ∃ r' ∈ (s.bus.panels.foldl State.monitor s).tracker.records,
          r'.no = r.no ∧ r'.rowPart = .waived ∧ r'.degraded = true) ∧
      (r.gatePart = .pending → r.gateReq = some q.addr →
        ∃ r' ∈ (s.bus.panels.foldl State.monitor s).tracker.records,
          r'.no = r.no ∧ r'.gatePart = .waived ∧ r'.degraded = true) := by
  obtain ⟨before, after, hsplit⟩ := List.append_of_mem hq
  rw [hsplit] at hsorted hfirst
  obtain ⟨-, -, hcross⟩ := List.pairwise_append.1 hsorted
  obtain ⟨htracker, hwall⟩ := State.monitorAll_quiet (s := s) (l := before) fun b hb =>
    hfirst b (List.mem_append_left _ hb) (hcross b hb q List.mem_cons_self)
  have hnodup : ∀ b ∈ before, b.addr ≠ q.addr := fun b hb => (hcross b hb q List.mem_cons_self).ne
  have hpanel : ∃ q', (before.foldl State.monitor s).panel? q.addr = some q' := by
    obtain ⟨x, hx⟩ : ∃ x, s.panel? q.addr = some x := by
      rw [← Option.isSome_iff_exists]
      exact List.find?_isSome.2 ⟨q, hq, by simp⟩
    have hrecord := State.monitorAll_other hnodup s
    rw [hx, Option.map_some] at hrecord
    obtain ⟨q', hq', -⟩ := Option.map_eq_some_iff.1 hrecord
    exact ⟨q', hq'⟩
  obtain ⟨q', hq'⟩ := hpanel
  have hfail : (before.foldl State.monitor s).monitor q = (before.foldl State.monitor s).failPanel q.addr := by
    obtain ⟨hactive, haddressed, hec⟩ := hfails
    simp only [State.monitor, hactive, haddressed, State.monitorAll_inForce, and_self, if_true, if_pos hec]
  obtain ⟨hrow, hgate⟩ := State.failPanel_waives (s := before.foldl State.monitor s) hq' (by rw [hwall]; exact hmode)
    (r := r) (by rw [htracker]; exact hr) hopen hdisplayed
  rw [hsplit, List.foldl_append, List.foldl_cons, hfail]
  refine ⟨fun h1 h2 => ?_, fun h1 h2 => ?_⟩
  · obtain ⟨x, hx, hno, hw, hd⟩ := hrow h1 (by rw [State.rowPanelOf, hwall]; exact h2)
    obtain ⟨y, hy, kno, kw, -, kd⟩ := State.monitorAll_waivers after _ x hx
    exact ⟨y, hy, kno.trans hno, kw hw, kd hd⟩
  · obtain ⟨x, hx, hno, hw, hd⟩ := hgate h1 h2
    obtain ⟨y, hy, kno, -, kw, kd⟩ := State.monitorAll_waivers after _ x hx
    exact ⟨y, hy, kno.trans hno, kw hw, kd hd⟩

theorem State.clearIntervalFlags_panel? (a : Nat) (s : State) :
    s.clearIntervalFlags.panel? a = (s.panel? a).map Panel.clearFlags := by
  simp only [State.panel?, State.clearIntervalFlags, List.find?_map]
  rfl

/-- The panels at the end of the interval (R145, R146). -/
theorem State.endInterval_panel (hok : s.PanelsOk) {a : Nat} {q : Panel} (hq : s.panel? a = some q) :
    ∃ r, s.endInterval.panel? a = some r ∧ r.record = (q.judged s.inForce).clearFlags.record := by
  obtain ⟨hmem, rfl⟩ := State.panel?_some hq
  have hall := State.monitorAll_panel (s := s) hok.nodup hmem (by rw [hq, Option.map_some])
  obtain ⟨x, hx, hxrecord⟩ := Option.map_eq_some_iff.1 hall
  have hcleared : (s.bus.panels.foldl State.monitor s).clearIntervalFlags.nextInterval.panel? q.addr =
      some x.clearFlags := by
    have h := State.clearIntervalFlags_panel? q.addr (s.bus.panels.foldl State.monitor s)
    rw [hx] at h
    exact h
  have hfinish := State.panel?_of_records
    (State.finish_records (s.bus.panels.foldl State.monitor s).clearIntervalFlags.nextInterval s) q.addr
  rw [hcleared, Option.map_some] at hfinish
  obtain ⟨r, hr, hrecord⟩ := Option.map_eq_some_iff.1 hfinish
  exact ⟨r, hr, hrecord.trans (congrArg Panel.clearFlags hxrecord :)⟩

theorem State.endInterval_tracker (s : State) : s.endInterval.tracker = (s.bus.panels.foldl State.monitor s).tracker := by
  rw [State.endInterval, State.finish_tracker]
  rfl

/-! ## What a judgement of panels leaves -/

/-- The facts of the entries, the cues and the board stand. -/
structure State.Undisturbed (s t : State) : Prop where
  facts : t.facts = s.facts
  cues : t.cues = s.cues
  board : t.wall.board = s.wall.board

theorem State.Undisturbed.trans {u : State} (h : s.Undisturbed t) (k : t.Undisturbed u) : s.Undisturbed u :=
  ⟨k.facts.trans h.facts, k.cues.trans h.cues, k.board.trans h.board⟩

theorem State.Undisturbed.of_blocks (htable : t.table = s.table) (hcues : t.cues = s.cues) (hwall : t.wall = s.wall) :
    s.Undisturbed t := ⟨State.facts_of_table htable, hcues, by rw [hwall]⟩

theorem State.post_undisturbed (names : List PortId) (k : NoticeKind) (x : Subject) (s : State) :
    s.Undisturbed (s.post names k x) := .of_blocks (State.post_table ..) (State.post_cues ..) (State.post_wall ..)

theorem State.recompose_undisturbed (s : State) : s.Undisturbed s.recompose :=
  ⟨State.recompose_facts s, State.recompose_cues s, State.recompose_board s⟩

theorem State.finish_undisturbed (s old : State) : s.Undisturbed (s.finish old) :=
  .of_blocks (State.finish_table ..) (State.finish_cues ..) (State.finish_wall ..)

theorem State.failPanel_undisturbed (a : Nat) (s : State) : s.Undisturbed (s.failPanel a) := by
  unfold State.failPanel
  dsimp only
  refine State.Undisturbed.trans ?_ (State.post_undisturbed ..)
  refine State.Undisturbed.trans ?_ (State.recompose_undisturbed _)
  unfold State.waiveRows
  split <;> exact .of_blocks rfl rfl rfl

theorem State.monitor_undisturbed (q : Panel) (s : State) : s.Undisturbed (s.monitor q) := by
  unfold State.monitor
  dsimp only
  split_ifs
  · exact State.failPanel_undisturbed q.addr s
  · exact .of_blocks rfl rfl rfl
  · exact .of_blocks rfl rfl rfl

theorem State.endInterval_undisturbed (s : State) : s.Undisturbed s.endInterval := by
  have hfold : ∀ (l : List Panel) (v : State), v.Undisturbed (l.foldl State.monitor v) := by
    intro l
    induction l with
    | nil => exact fun v => .of_blocks rfl rfl rfl
    | cons q l ih => exact fun v => (State.monitor_undisturbed q v).trans (ih _)
  unfold State.endInterval
  refine State.Undisturbed.trans ?_ (State.finish_undisturbed ..)
  refine State.Undisturbed.trans (hfold s.bus.panels s) ?_
  exact .of_blocks rfl rfl rfl

theorem State.serve_intervalEnd (s old : State) : (s.serve old).bus.intervalEnd = s.bus.intervalEnd := by
  have hdispatch (v : State) : v.dispatch.bus.intervalEnd = v.bus.intervalEnd := by
    unfold State.dispatch
    split
    · rfl
    · split
      · rfl
      · dsimp only
        split <;> rfl
  unfold State.serve
  split
  · exact hdispatch s
  · rfl

theorem State.endInterval_next (s : State) :
    s.endInterval.bus.intervalEnd = s.bus.intervalEnd + 1000 * s.inForce.interval := by
  have hfold : (s.bus.panels.foldl State.monitor s).bus.line = s.bus.line :=
    (State.OnLine.foldl (fun v q => State.monitor_onLine q v) s.bus.panels s).line
  have hend : (s.bus.panels.foldl State.monitor s).bus.intervalEnd = s.bus.intervalEnd :=
    (congrArg Bus.intervalEnd hfold :)
  have hin := State.monitorAll_inForce s.bus.panels s
  have hfinish : s.endInterval.bus.intervalEnd =
      (s.bus.panels.foldl State.monitor s).clearIntervalFlags.nextInterval.bus.intervalEnd := by
    rw [State.endInterval, State.finish, State.settleAttention_bus, State.serve_intervalEnd]
  rw [hfinish, ← hend, ← hin]
  rfl

theorem State.recompose_tracker (h : s.wall.mode ≠ .normal) : s.recompose.tracker = s.tracker := by
  have hmode : ¬s.compose.wall.mode = .normal := fun hn => h ((congrArg (·.2.1) s.compose_board :).symm.trans hn)
  rw [State.recompose, State.compose_tracker, State.evaluate, if_neg hmode, State.compose_tracker]

/-- Outside NORMAL mode a panel's failure waives nothing (R72, R73). -/
theorem State.failPanel_tracker (a : Nat) (h : s.wall.mode ≠ .normal) : (s.failPanel a).tracker = s.tracker := by
  rw [State.failPanel, State.post_tracker]
  unfold State.waiveRows
  rw [if_neg (show ¬(s.updPanel a fun p => { p with state := .failed, ec := 0, goodRun := 0 }).wall.mode = .normal from h)]
  exact State.recompose_tracker (s := s.updPanel a _) h

theorem State.monitorAll_tracker (l : List Panel) (h : s.wall.mode ≠ .normal) :
    (l.foldl State.monitor s).tracker = s.tracker := by
  induction l generalizing s with
  | nil => rfl
  | cons q l ih =>
    have hmode : (s.monitor q).wall.mode = s.wall.mode := (congrArg (·.2.1) (State.monitor_undisturbed q s).board :)
    rw [List.foldl_cons, ih (by rw [hmode]; exact h)]
    unfold State.monitor
    dsimp only
    split_ifs
    · exact State.failPanel_tracker q.addr h
    · rfl
    · rfl

/-- Settles O48, by the fold of `monitor` over the panels, each judged on its own record. -/
theorem intervalEndsJudgeThePanels : Obligations.IntervalEndsJudgeThePanels := by
  intro s ms now hp hnow
  refine ⟨fun hearly => ?_, fun hdue hok => ?_⟩
  · have hearly' : ¬s.bus.intervalEnd ≤ (s.atMs ms).runTime := Nat.not_le.2 (lt_of_eq_of_lt hnow.symm hearly)
    show s.answer (if s.bus.intervalEnd ≤ (s.atMs ms).runTime then _ else s) = _
    rw [if_neg hearly', State.answer_self]
  · have hdue' : s.bus.intervalEnd ≤ (s.atMs ms).runTime := hdue.trans_eq hnow
    have hexec : exec (.intervalEnd ms) s = .next (s.atMs ms).endInterval := by
      show s.answer (if s.bus.intervalEnd ≤ (s.atMs ms).runTime then _ else s) = _
      rw [State.answer_powered hp, if_pos hdue']
    obtain ⟨hfacts, hcues, hboard⟩ := (s.atMs ms).endInterval_undisturbed
    have hsources := (s.atMs ms).endInterval_sources
    refine ⟨_, hexec, State.endInterval_next (s.atMs ms), fun a q hq => ?_, fun fails hfails a q hq hqf hfirst => ?_,
      fun hmode => ?_, State.time_of_sources hsources, hfacts, hcues, hboard, (congrArg Sources.lines hsources :),
      (congrArg Sources.sense hsources :), (congrArg Sources.store hsources :), (congrArg Sources.inForce hsources :),
      fun p => State.endInterval_link p (s.atMs ms)⟩
    · obtain ⟨r, hr, hrecord⟩ := State.endInterval_panel (s := s.atMs ms) hok hq
      refine ⟨r, hr, fun ec hec => ?_⟩
      have hec : ec = q.counted s.inForce := hec
      refine ⟨fun hactive haddressed hless => ?_, fun hactive haddressed hfail => ?_, fun hnot => ?_⟩
      · have hjudged : q.judged s.inForce = { q with ec := q.counted s.inForce } := by
          rw [Panel.judged, if_pos ⟨hactive, haddressed⟩, if_neg (Nat.not_le.2 (hec ▸ hless))]
        rw [hrecord, State.atMs_inForce, hjudged, hec]
        rfl
      · have hfail' : s.inForce.failThreshold ≤ q.counted s.inForce := hec ▸ hfail
        have hjudged : q.judged s.inForce = { q with state := .failed, ec := 0, goodRun := 0 } := by
          rw [Panel.judged, if_pos ⟨hactive, haddressed⟩, if_pos hfail']
        refine ⟨by rw [hrecord, State.atMs_inForce, hjudged]; rfl, ?_⟩
        obtain ⟨hmem, rfl⟩ := State.panel?_some hq
        have hholds := State.monitorAll_holds (s := s.atMs ms) hmem ⟨hactive, haddressed, hfail'⟩
        rw [State.endInterval, State.finish_port]
        exact hholds
      · have hjudged : q.judged s.inForce = q := by
          refine if_neg fun h => hnot.elim (fun hs => hs h.1) fun ha => ?_
          exact absurd (h.2.symm.trans ha) nofun
        rw [hrecord, State.atMs_inForce, hjudged]
        rfl
    · intro hmode _ r hr hopen hdisplayed
      obtain ⟨hmem, rfl⟩ := State.panel?_some hq
      have hiff (x : Panel) : fails x ↔ x.Fails s.inForce := hfails x
      obtain ⟨hrow, hgate⟩ := State.monitorAll_waives (s := s.atMs ms) hok.sorted hmem ((hiff q).1 hqf)
        (fun b hb hlt hfail => hfirst b hb hlt ((hiff b).2 hfail)) hmode hr hopen hdisplayed
      rw [State.endInterval_tracker]
      exact ⟨hrow, hgate⟩
    · rw [State.endInterval_tracker]
      exact State.monitorAll_tracker (s := s.atMs ms) _ hmode

end Sys2Proof.Machine
end

section
/-! PROOF. The scene that the change records are judged against: what a revision counted in it does not move (R70 to R73,
R112, R115). -/
namespace Sys2Proof.Machine

open Sys2Proof

variable {s t u : State}

/-! ## The scene -/

/-- A record but for what an evaluation moves: its run, whether it is OPEN or INFORMED, its diverted gates (R79). -/
def ChangeRec.scene (r : ChangeRec) : Nat × Bool × List Diverted := (r.run, r.live, r.diverted)

/-- The same picture but for the revisions: the panel records, the facts of the entries and what of them is displayable,
the diverted gates, the clock, the configuration and the wall mode. -/
structure State.SameScene (s t : State) : Prop where
  records : t.records = s.records
  facts : t.facts = s.facts
  displayable : t.table.displayable = s.table.displayable
  diverted : t.tracker.records.map ChangeRec.scene = s.tracker.records.map ChangeRec.scene
  sources : t.sources = s.sources
  board : t.wall.board = s.wall.board

theorem State.SameScene.refl (s : State) : s.SameScene s := ⟨rfl, rfl, rfl, rfl, rfl, rfl⟩

theorem State.SameScene.trans (h : s.SameScene t) (k : t.SameScene u) : s.SameScene u :=
  ⟨k.records.trans h.records, k.facts.trans h.facts, k.displayable.trans h.displayable, k.diverted.trans h.diverted,
    k.sources.trans h.sources, k.board.trans h.board⟩

theorem State.SameScene.mode (h : s.SameScene t) : t.wall.mode = s.wall.mode := (congrArg (·.2.1) h.board :)

theorem State.SameScene.of_blocks (hrecords : t.records = s.records) (htable : t.table = s.table)
    (htracker : t.tracker = s.tracker) (hsources : t.sources = s.sources) (hboard : t.wall.board = s.wall.board) :
    s.SameScene t :=
  ⟨hrecords, State.facts_of_table htable, by rw [htable], by rw [htracker], hsources, hboard⟩

theorem State.compose_scene (s : State) : s.SameScene s.compose :=
  .of_blocks (State.compose_records s) (State.compose_table s) (State.compose_tracker s) (State.compose_sources s)
    (State.compose_board s)

theorem State.post_scene (names : List PortId) (k : NoticeKind) (x : Subject) (s : State) : s.SameScene (s.post names k x) :=
  .of_blocks (State.records_of_bus (State.post_bus ..)) (State.post_table ..) (State.post_tracker ..)
    (State.post_sources ..) (by rw [State.post_wall])

theorem State.finish_scene (s old : State) : s.SameScene (s.finish old) :=
  .of_blocks (State.finish_records ..) (State.finish_table ..) (State.finish_tracker ..) (State.finish_sources ..)
    (by rw [State.finish_wall])

theorem State.dispatch_scene (s : State) : s.SameScene s.dispatch :=
  .of_blocks (State.dispatch_records s) (State.dispatch_table s) (State.dispatch_tracker s) (State.dispatch_sources s)
    (by rw [State.dispatch_wall])

theorem State.settleAttention_scene (s : State) : s.SameScene s.settleAttention :=
  .of_blocks rfl rfl rfl rfl rfl

/-! ## The passage of records to INFORMED -/

/-- A record after those of these slots have become INFORMED (R75). -/
def ChangeRec.informedOf (ns : List Nat) (r : ChangeRec) : ChangeRec := if r.no ∈ ns then { r with state := .informed } else r

/-- An entry after the records of these runs have become INFORMED (R75). -/
def Entry.informedOf (runs : List Nat) (e : Entry) : Entry := if e.run ∈ runs then e.informed else e

theorem ChangeRec.informedOf_fields (ns : List Nat) (r : ChangeRec) :
    (r.informedOf ns).no = r.no ∧ (r.informedOf ns).run = r.run := by
  unfold ChangeRec.informedOf
  split <;> exact ⟨rfl, rfl⟩

theorem Entry.informedOf_fields (runs : List Nat) (e : Entry) :
    (e.informedOf runs).run = e.run ∧ (e.informedOf runs).facts = e.facts := by
  unfold Entry.informedOf
  split <;> exact ⟨rfl, rfl⟩

theorem ChangeRec.informedOf_cons (n : Nat) (ns : List Nat) (r : ChangeRec) :
    (r.informed n).informedOf ns = r.informedOf (n :: ns) := by
  by_cases hn : r.no = n
  · by_cases hns : n ∈ ns <;> simp [ChangeRec.informed, ChangeRec.informedOf, hn, hns]
  · by_cases hns : r.no ∈ ns <;> simp [ChangeRec.informed, ChangeRec.informedOf, hn, hns]

theorem State.inform_table (r : ChangeRec) (s : State) :
    (s.inform r).table = { s.table with entries := updWhere (·.run = r.run) Entry.informed s.table.entries } := by
  simp only [State.inform, State.post_table]
  rfl

theorem State.informs_tracker (l : List ChangeRec) (s : State) :
    (l.foldl (fun t r => t.inform r) s).tracker =
      { records := s.tracker.records.map (ChangeRec.informedOf (l.map (·.no)))
        closed := s.tracker.closed ++ l.map (·.no) } := by
  induction l generalizing s with
  | nil =>
    have hid : ChangeRec.informedOf [] = id := funext fun r => if_neg List.not_mem_nil
    simp [hid]
  | cons r l ih =>
    rw [List.foldl_cons, ih, State.inform_tracker]
    simp only [List.map_map, List.map_cons, List.append_assoc, List.singleton_append, Tracker.mk.injEq, and_true]
    exact List.map_congr_left fun x _ => ChangeRec.informedOf_cons r.no _ x

theorem State.informs_table {l : List ChangeRec} (h : (l.map (·.run)).Nodup) (s : State) :
    (l.foldl (fun t r => t.inform r) s).table =
      { s.table with entries := s.table.entries.map (Entry.informedOf (l.map (·.run))) } := by
  induction l generalizing s with
  | nil =>
    have hid : Entry.informedOf [] = id := funext fun e => if_neg List.not_mem_nil
    simp [hid]
  | cons r l ih =>
    obtain ⟨hr, hl⟩ := List.nodup_cons.1 h
    rw [List.foldl_cons, ih hl, State.inform_table]
    simp only [updWhere, List.map_map, List.map_cons, Table.mk.injEq, and_true]
    refine List.map_congr_left fun e _ => ?_
    by_cases he : e.run = r.run
    · have hnot : ¬e.informed.run ∈ l.map (·.run) := by
        rw [show e.informed.run = r.run from he]
        exact hr
      simp only [Function.comp_apply, he, decide_true, if_true, Entry.informedOf, if_neg hnot, List.mem_cons, true_or]
    · simp only [Function.comp_apply, he, decide_false, Bool.false_eq_true, if_false, Entry.informedOf, List.mem_cons,
        false_or]

theorem State.informs_holds {l : List ChangeRec} {r : ChangeRec} (hr : r ∈ l) (s : State) :
    ((l.foldl (fun t r => t.inform r) s).port .signalling).Holds ⟨.changeInformed, .run r.run, s.time.clock⟩ := by
  have hheard : ∀ (l : List ChangeRec) (v : State) (q : PortId),
      (v.port q).Heard ((l.foldl (fun t r => t.inform r) v).port q) := by
    intro l
    induction l with
    | nil => exact fun _ _ => .refl _
    | cons r l ih => exact fun v q => (State.inform_heard r v q).trans (ih _ q)
  obtain ⟨before, after, rfl⟩ := List.append_of_mem hr
  rw [List.foldl_append, List.foldl_cons]
  have htime : (before.foldl (fun t r => t.inform r) s).time = s.time :=
    foldl_keeps State.time (fun t r => t.inform r) (fun v x => State.time_of_sources (State.inform_sources x v)) before s
  rw [← htime]
  exact (hheard after _ .signalling).holds (State.holds_post (names := [.signalling]) (by simp) .changeInformed (.run r.run)
    (by simp) _)

/-- The records that become INFORMED (R75). -/
def State.toInform (s : State) : List ChangeRec := s.tracker.records.filter fun r => r.isOpen && r.displayed && r.announced

theorem State.informAll_eq (s : State) : s.informAll = s.toInform.foldl (fun t r => t.inform r) s := rfl

theorem State.mem_toInform {r : ChangeRec} :
    r ∈ s.toInform ↔ r ∈ s.tracker.records ∧ r.isOpen = true ∧ r.displayed = true ∧ r.announced = true := by
  simp [State.toInform, and_assoc]

theorem State.toInform_runs (h : s.tracker.Ok) : (s.toInform.map (·.run)).Nodup := by
  have hsub : s.toInform = (s.tracker.records.filter (·.isOpen)).filter fun r => r.displayed && r.announced := by
    rw [State.toInform, List.filter_filter]
    exact List.filter_congr fun r _ => by cases r.isOpen <;> cases r.displayed <;> cases r.announced <;> rfl
  rw [hsub]
  exact h.2.2.2.2.2.sublist (List.filter_sublist.map _)

/-- The slot of a record that becomes INFORMED is that of no other (R65). -/
theorem State.mem_toInform_no (h : s.tracker.Ok) {r : ChangeRec} (hr : r ∈ s.tracker.records) :
    r.no ∈ s.toInform.map (·.no) ↔ r ∈ s.toInform := by
  refine ⟨fun hmem => ?_, fun hmem => List.mem_map_of_mem hmem⟩
  obtain ⟨x, hx, hno⟩ := List.mem_map.1 hmem
  rw [h.record_unique hr (State.mem_toInform.1 hx).1 hno.symm]
  exact hx

theorem ChangeRec.live_of_open {r : ChangeRec} (h : r.isOpen = true) : r.live = true := by
  have hs : r.state = .opened := of_decide_eq_true h
  simp [ChangeRec.live, hs]

theorem State.informAll_scene (h : s.tracker.Ok) : s.SameScene s.informAll := by
  refine ⟨State.records_of_bus (State.informAll_bus s), State.informAll_facts s, ?_, ?_, State.informAll_sources s,
    by rw [State.informAll_wall]⟩
  · rw [State.informAll_eq, State.informs_table (State.toInform_runs h)]
  · rw [State.informAll_eq, State.informs_tracker]
    simp only [List.map_map]
    refine List.map_congr_left fun r hr => ?_
    rw [Function.comp_apply, ChangeRec.informedOf]
    split
    · next hmem =>
      have hopen := (State.mem_toInform.1 ((State.mem_toInform_no h hr).1 hmem)).2.1
      simp [ChangeRec.scene, ChangeRec.live_of_open hopen]
      simp [ChangeRec.live]
    · rfl

theorem ChangeRec.keeps_evaluated (s : State) (r : ChangeRec) : r.Keeps (s.evaluated r) := ⟨rfl, rfl, rfl⟩

theorem State.evaluate_scene (h : s.tracker.Ok) : s.SameScene s.evaluate := by
  unfold State.evaluate
  split
  · have hupd : s.SameScene (s.updRecords (fun r => r.isOpen && !r.displayed) s.evaluated) := by
      refine ⟨rfl, rfl, rfl, ?_, rfl, rfl⟩
      show (s.tracker.records.map _).map _ = _
      rw [List.map_map]
      refine List.map_congr_left fun r _ => ?_
      rw [Function.comp_apply]
      split <;> rfl
    refine hupd.trans (State.informAll_scene (h.mapKeeps fun r => ?_))
    split
    · exact ChangeRec.keeps_evaluated s r
    · exact ChangeRec.Keeps.refl r
  · exact .refl s

theorem State.recompose_scene (h : s.tracker.Ok) : s.SameScene s.recompose := by
  have hk : s.compose.tracker.Ok := by rw [State.compose_tracker]; exact h
  exact ((State.compose_scene s).trans (State.evaluate_scene hk)).trans (State.compose_scene _)

/-! ## What a record sees of the wall -/

/-- The run that a tag sends passengers for. -/
def Tag.diverts : Tag → Option Nat
  | .diversion run _ => some run
  | _ => none

/-- What the display condition reads of a panel: its state, its acknowledged tag, the run its desired tag diverts. -/
def Panel.seen (p : Panel) : PanelState × Option Tag × Option Nat := (p.state, p.acked, p.desired.bind Tag.diverts)

/-- What the display condition reads of the wall stands. -/
structure State.Seen (s t : State) : Prop where
  rowMap : t.wall.rowMap = s.wall.rowMap
  panels : ∀ a, (t.panel? a).map Panel.seen = (s.panel? a).map Panel.seen

theorem State.Seen.trans (h : s.Seen t) (k : t.Seen u) : s.Seen u :=
  ⟨k.rowMap.trans h.rowMap, fun a => (k.panels a).trans (h.panels a)⟩

theorem State.Seen.of_blocks (hwall : t.wall = s.wall) (hbus : t.bus = s.bus) : s.Seen t :=
  ⟨by rw [hwall], fun a => by rw [State.panel?, State.panel?, hbus]⟩

theorem State.Seen.of_look (hrowMap : t.wall.rowMap = s.wall.rowMap)
    (hlook : t.bus.panels.map Panel.look = s.bus.panels.map Panel.look) (hrecords : t.records = s.records) : s.Seen t := by
  refine ⟨hrowMap, fun a => ?_⟩
  have hfind (v : State) : (v.panel? a).map Panel.look = (v.bus.panels.map Panel.look).find? (·.addr = a) := by
    rw [List.find?_map]
    rfl
  have h1 : (t.panel? a).map Panel.look = (s.panel? a).map Panel.look := by rw [hfind, hfind, hlook]
  have h2 := State.panel?_of_records hrecords a
  cases ht : t.panel? a with
  | none =>
    rw [ht] at h1
    rw [Option.map_eq_none_iff.1 h1.symm]
  | some p =>
    rw [ht, Option.map_some] at h1 h2
    obtain ⟨q, hq, hlook⟩ := Option.map_eq_some_iff.1 h1.symm
    rw [hq, Option.map_some, Option.some.injEq] at h2
    rw [hq, Option.map_some, Option.map_some]
    have hstate : p.state = q.state := (congrArg Panel.state h2 :)
    have hacked : p.acked = q.acked := (congrArg Panel.acked h2 :)
    have hdesired : p.desired = q.desired := (congrArg Panel.desired hlook :).symm
    rw [Panel.seen, Panel.seen, hstate, hacked, hdesired]

theorem State.dispatch_seen (s : State) : s.Seen s.dispatch :=
  .of_look (by rw [State.dispatch_wall]) s.dispatch_alike.panels s.dispatch_records

theorem State.finish_seen (s old : State) : s.Seen (s.finish old) :=
  .of_look (by rw [State.finish_wall]) (State.finish_alike s old).panels (State.finish_records s old)

theorem State.rowPartOf_look (s : State) (r : ChangeRec) :
    s.rowPartOf r =
      match r.rowPart with
      | .pending =>
        match s.rowPanelOf r.run with
        | none => .met
        | some a =>
          match ((s.panel? a).map Panel.seen).bind (·.2.1) with
          | some (.row run rev) => if run = r.run ∧ (rev - r.r).toNat < 32768 then .met else .pending
          | _ => .pending
      | p => p := by
  unfold State.rowPartOf
  cases r.rowPart with
  | pending =>
    cases s.rowPanelOf r.run with
    | none => rfl
    | some a =>
      cases hp : s.panel? a with
      | none => simp [hp]
      | some p => simp [hp, Panel.seen] <;> rfl
  | met => rfl
  | waived => rfl

theorem State.gatePartOf_look (s : State) (r : ChangeRec) :
    s.gatePartOf r =
      match r.gatePart with
      | .pending =>
        match r.gateReq.bind fun a => (s.panel? a).map Panel.seen with
        | none => .met
        | some p =>
          if p.1 ≠ .active then .waived
          else
            match p.2.2 with
            | some run =>
              if run ≠ r.run then .met
              else
                match p.2.1 with
                | some (.diversion run' rev) =>
                  if run' = r.run ∧ (rev - r.r).toNat < 32768 then .met else .pending
                | _ => .pending
            | none => .met
      | p => p := by
  unfold State.gatePartOf
  cases r.gatePart with
  | pending =>
    have hbind : (r.gateReq.bind fun a => (s.panel? a).map Panel.seen) = (r.gateReq.bind s.panel?).map Panel.seen := by
      cases r.gateReq <;> rfl
    rw [hbind]
    cases r.gateReq.bind s.panel? with
    | none => rfl
    | some p =>
      cases hd : p.desired with
      | none => simp [Panel.seen, hd]
      | some tag =>
        cases tag with
        | diversion run rev => simp [Panel.seen, Tag.diverts, hd] <;> rfl
        | _ => simp [Panel.seen, Tag.diverts, hd]
  | met => rfl
  | waived => rfl

theorem State.Seen.parts (h : s.Seen t) (r : ChangeRec) : t.rowPartOf r = s.rowPartOf r ∧ t.gatePartOf r = s.gatePartOf r := by
  rw [State.rowPartOf_look, State.rowPartOf_look, State.gatePartOf_look, State.gatePartOf_look]
  simp only [State.rowPanelOf, h.rowMap, h.panels, and_self]

theorem State.SameScene.now (h : s.SameScene t) : t.now = s.now := by
  have htime : t.time = s.time := State.time_of_sources h.sources
  have hin : t.inForce = s.inForce := State.inForce_of_sources h.sources
  rw [State.now, State.elapsed, State.now, State.elapsed, htime, hin]

theorem State.SameScene.diversionHold (h : s.SameScene t) : t.inForce.diversionHold = s.inForce.diversionHold := by
  rw [State.inForce_of_sources h.sources]

theorem State.SameScene.divertedFrom (h : s.SameScene t) (p : Nat) (e : Entry) :
    t.divertedFrom p e = s.divertedFrom p e := by
  have hany (v : State) (hold : Nat) (now : Int) :
      (v.tracker.records.any fun r => r.run = e.run && r.live && r.diverted.any fun d => d.platform = p && d.holds hold now) =
        (v.tracker.records.map ChangeRec.scene).any fun k =>
          k.1 = e.run && k.2.1 && k.2.2.any fun d => d.platform = p && d.holds hold now := by
    rw [List.any_map]
    rfl
  unfold State.divertedFrom
  rw [hany, hany, h.diverted, h.now, h.diversionHold]

/-- The diversion entry of a platform is the same, but for its revision (R79). -/
theorem State.SameScene.diversionEntry (h : s.SameScene t) (p : Nat) :
    (t.diversionEntry p).map Entry.facts = (s.diversionEntry p).map Entry.facts := by
  unfold State.diversionEntry
  exact find_map_congr (takeWhile_map_congr h.facts fun _ => rfl) (fun _ => rfl) (h.divertedFrom p)

theorem State.gateTag_diverts (s : State) (p : Nat) :
    (s.gateTag p).diverts = ((s.diversionEntry p).map Entry.facts).map (·.run) := by
  unfold State.gateTag
  cases s.diversionEntry p with
  | some e => rfl
  | none => cases s.nextAtPlatform p <;> rfl

theorem State.SameScene.gateTag (h : s.SameScene t) (p : Nat) : (t.gateTag p).diverts = (s.gateTag p).diverts := by
  rw [State.gateTag_diverts, State.gateTag_diverts, h.diversionEntry]

theorem filterMap_map_congr {α β : Type} {f : α → α} {l l' : List α} (h : l'.map f = l.map f) {g : α → Option β}
    (hg : ∀ a, g (f a) = g a) : l'.filterMap g = l.filterMap g := by
  have hgf : g ∘ f = g := funext hg
  have hl (k : List α) : k.filterMap g = (k.map f).filterMap g := by rw [List.filterMap_map, hgf]
  rw [hl l', hl l, h]

theorem State.SameScene.activeRows (h : s.SameScene t) : t.activeRows = s.activeRows :=
  congrArg (fun k => (k.foldr insertRow []).map (·.2)) (filterMap_map_congr h.records fun _ => rfl)

/-- The gate choices formed afresh are the same, but for the revisions (R115). -/
theorem State.SameScene.freshGates (h : s.SameScene t) :
    t.freshGates.map (fun m => (m.1, m.2.diverts)) = s.freshGates.map fun m => (m.1, m.2.diverts) := by
  have hmap (v : State) : v.freshGates.map (fun m => (m.1, m.2.diverts)) =
      v.records.filterMap fun p => (match p.role with
        | .gate g => some (p.addr, v.gateTag g)
        | _ => none).map fun m : Nat × Tag => (m.1, m.2.diverts) := by
    rw [State.freshGates, List.map_filterMap, State.records, List.filterMap_map]
    rfl
  rw [hmap, hmap, h.records]
  refine List.filterMap_congr fun p _ => ?_
  cases p.role with
  | gate g => exact congrArg (fun d => some (p.addr, d)) (h.gateTag g)
  | row _ => rfl
  | banner => rfl
  | none => rfl

theorem State.SameScene.freshRowMap (h : s.SameScene t) : t.freshRowMap = s.freshRowMap := by
  have hdisplayed : t.displayed.map Entry.facts = s.displayed.map Entry.facts := by
    unfold State.displayed
    rw [h.displayable]
    exact filter_map_congr h.facts (fun _ => rfl) fun _ => rfl
  have hruns : t.displayed.map (·.run) = s.displayed.map (·.run) :=
    map_map_congr (f := Entry.facts) hdisplayed fun _ => rfl
  rw [State.freshRowMap, State.freshRowMap, h.activeRows, hruns]

/-- The run for which a gate page chosen afresh sends passengers. -/
def State.gateRun (s : State) (a : Nat) : Option Nat := (s.freshGates.find? (·.1 = a)).bind (·.2.diverts)

theorem State.SameScene.gateRun (h : s.SameScene t) (a : Nat) : t.gateRun a = s.gateRun a := by
  have hfind (v : State) : v.gateRun a =
      ((v.freshGates.map fun m => (m.1, m.2.diverts)).find? (·.1 = a)).bind (·.2) := by
    rw [State.gateRun, List.find?_map, Option.bind_map]
    rfl
  rw [hfind, hfind, h.freshGates]

theorem State.compose_panel? (s : State) (a : Nat) :
    s.compose.panel? a = (s.panel? a).map fun p => { p with desired := s.remap.rotate.desiredTag p } := by
  have hbus : s.remap.rotate.bus = s.bus := by simp
  rw [State.compose, State.setDesired, State.panel?, State.panel?]
  dsimp only
  rw [hbus, List.find?_map]
  rfl

theorem State.compose_rowMap (s : State) : s.compose.wall.rowMap = s.freshRowMap := by
  rw [State.compose, State.setDesired_wall, (State.rotate_sameMap _).1]
  rfl

/-- The run that the desired tag of a panel diverts, in NORMAL mode (R111, R115). -/
theorem State.desiredTag_diverts (hmode : s.wall.mode = .normal) (p : Panel) :
    (s.remap.rotate.desiredTag p).bind Tag.diverts =
      match p.role with
      | .gate _ => s.gateRun p.addr
      | _ => none := by
  have hmode' : s.remap.rotate.wall.mode = .normal := (congrArg (·.2.1) (State.rotate_board s.remap) :).trans hmode
  have hgates : s.remap.rotate.wall.gateChoice = s.freshGates := (State.rotate_sameMap s.remap).2.1
  unfold State.desiredTag
  rw [hmode']
  cases hrole : p.role with
  | none => simp [Panel.configured, hrole]
  | row i =>
    simp only [Panel.configured, hrole, State.normalTag]
    split
    · rw [Option.bind_some]
      split <;> rfl
    · rfl
  | banner =>
    simp only [Panel.configured, hrole, State.normalTag]
    split
    · rw [Option.bind_some]
      split <;> rfl
    · rfl
  | gate g =>
    simp only [Panel.configured, hrole, State.normalTag, hgates, State.gateRun]
    cases s.freshGates.find? (·.1 = p.addr) <;> rfl

/-- Two compositions of the same scene are seen alike (R70, R71, R112, R115). -/
theorem State.SameScene.seen (h : s.SameScene t) (hmode : s.wall.mode = .normal) : s.compose.Seen t.compose := by
  refine ⟨by rw [State.compose_rowMap, State.compose_rowMap, h.freshRowMap], fun a => ?_⟩
  have hpanel := State.panel?_of_records h.records a
  rw [State.compose_panel?, State.compose_panel?, Option.map_map, Option.map_map]
  have hseen (v : State) (hv : v.wall.mode = .normal) (hrun : v.gateRun = s.gateRun) (p : Panel) :
      (Panel.seen ∘ fun p => { p with desired := v.remap.rotate.desiredTag p }) p =
        (p.record.state, p.record.acked, match p.record.role with
          | .gate _ => s.gateRun p.record.addr
          | _ => none) := by
    simp only [Function.comp_apply, Panel.seen, State.desiredTag_diverts hv, hrun]
    rfl
  rw [funext (hseen t (h.mode.trans hmode) (funext h.gateRun)), funext (hseen s hmode rfl)]
  cases ht : t.panel? a with
  | none =>
    rw [ht] at hpanel
    rw [Option.map_eq_none_iff.1 hpanel.symm]
  | some p =>
    rw [ht, Option.map_some] at hpanel
    obtain ⟨q, hq, hrecord⟩ := Option.map_eq_some_iff.1 hpanel.symm
    rw [hq, Option.map_some, Option.map_some, hrecord]

end Sys2Proof.Machine
end

section
/-! PROOF. The evaluation of the change records against the picture that follows (R70 to R73, R75). -/
namespace Sys2Proof.Machine

open Sys2Proof

variable {s t u : State} {r : ChangeRec}

/-! ## The parts of the display condition -/

theorem State.rowJudged (t : State) (r : ChangeRec) : t.RowJudged r (t.rowPartOf r) := by
  refine ⟨fun h => ?_, fun h => ⟨fun hnone => ?_, fun a q ha hq => ⟨fun ⟨rev, hacked, hcovered⟩ => ?_, fun hnot => ?_⟩⟩⟩
  · unfold State.rowPartOf
    cases hp : r.rowPart with
    | pending => exact absurd hp h
    | met => rfl
    | waived => rfl
  · simp only [State.rowPartOf, h, hnone]
  · simp only [State.rowPartOf, h, ha, hq, Option.bind_some, hacked, true_and,
      if_pos (show (rev - r.r).toNat < 32768 from hcovered)]
  · simp only [State.rowPartOf, h, ha, hq, Option.bind_some]
    cases hacked : q.acked with
    | none => rfl
    | some tag =>
      cases tag with
      | row run rev =>
        refine if_neg fun ⟨hrun, hcovered⟩ => ?_
        exact hnot rev (hrun ▸ hacked) hcovered
      | _ => rfl

theorem State.gateJudged (t : State) (r : ChangeRec) : t.GateJudged r (t.gatePartOf r) := by
  refine ⟨fun h => ?_, fun h => ⟨fun hnone => ?_, fun a q ha hq => ⟨fun hdown => State.gatePartOf_down h ha hq hdown,
    fun hactive hnot => ?_, fun hactive ⟨rev, hdesired⟩ => ⟨fun ⟨rev', hacked, hcovered⟩ => ?_, fun hnot => ?_⟩⟩⟩⟩
  · unfold State.gatePartOf
    cases hp : r.gatePart with
    | pending => exact absurd hp h
    | met => rfl
    | waived => rfl
  · simp only [State.gatePartOf, h, hnone, Option.bind_none]
  · simp only [State.gatePartOf, h, ha, hq, Option.bind_some, hactive, ne_eq, not_true_eq_false, if_false]
    cases hdesired : q.desired with
    | none => rfl
    | some tag =>
      cases tag with
      | diversion run rev => exact if_pos fun hrun : run = r.run => hnot rev (hrun ▸ hdesired)
      | _ => rfl
  · simp only [State.gatePartOf, h, ha, hq, Option.bind_some, hactive, ne_eq, not_true_eq_false, if_false, hdesired, hacked,
      true_and, if_pos (show (rev' - r.r).toNat < 32768 from hcovered)]
  · simp only [State.gatePartOf, h, ha, hq, Option.bind_some, hactive, ne_eq, not_true_eq_false, if_false, hdesired]
    cases hacked : q.acked with
    | none => rfl
    | some tag =>
      cases tag with
      | diversion run rev' =>
        refine if_neg fun ⟨hrun, hcovered⟩ => ?_
        exact hnot rev' (hrun ▸ hacked) hcovered
      | _ => rfl

/-! ## One evaluation -/

/-- The records after one evaluation, before the passages to INFORMED (R72). -/
def State.judged (s : State) : State := s.compose.updRecords (fun r => r.isOpen && !r.displayed) s.compose.evaluated

theorem State.recompose_eq (hmode : s.wall.mode = .normal) : s.recompose = s.judged.informAll.compose := by
  have hmode' : s.compose.wall.mode = .normal := (congrArg (·.2.1) s.compose_board :).trans hmode
  rw [State.recompose, State.evaluate, if_pos hmode']
  rfl

theorem State.judged_records (s : State) :
    s.judged.tracker.records = s.tracker.records.map fun r =>
      if r.isOpen && !r.displayed then s.compose.evaluated r else r := by
  show s.compose.tracker.records.map _ = _
  rw [State.compose_tracker]

theorem State.judged_trackerOk (h : s.tracker.Ok) : s.judged.tracker.Ok := by
  have hk : s.compose.tracker.Ok := by rw [State.compose_tracker]; exact h
  refine hk.mapKeeps fun r => ?_
  split
  · exact ChangeRec.keeps_evaluated s.compose r
  · exact ChangeRec.Keeps.refl r

theorem State.recompose_seen (h : s.tracker.Ok) (hmode : s.wall.mode = .normal) : s.compose.Seen s.recompose := by
  have hk : s.compose.tracker.Ok := by rw [State.compose_tracker]; exact h
  exact State.SameScene.seen ((State.compose_scene s).trans (State.evaluate_scene hk)) hmode

theorem State.recompose_clock (s : State) : s.recompose.time = s.time := State.time_of_sources (State.recompose_sources s)

/-- What one evaluation makes of an OPEN record that is not displayed (R72, R75). -/
theorem State.recompose_record (hk : s.tracker.Ok) (hmode : s.wall.mode = .normal) (hr : r ∈ s.tracker.records)
    (hopen : r.isOpen = true) (hdisplayed : r.displayed = false) :
    (¬((s.compose.evaluated r).displayed = true ∧ r.announced = true) →
        s.compose.evaluated r ∈ s.recompose.tracker.records) ∧
      ((s.compose.evaluated r).displayed = true ∧ r.announced = true →
        { s.compose.evaluated r with state := .informed } ∈ s.recompose.tracker.records ∧
          r.no ∈ s.recompose.tracker.closed ∧
          (s.recompose.port .signalling).Holds ⟨.changeInformed, .run r.run, s.time.clock⟩ ∧
          ∀ e, s.entry? r.run = some e → s.recompose.entry? r.run = some e.informed) := by
  have hok := State.judged_trackerOk hk
  have hmem : s.compose.evaluated r ∈ s.judged.tracker.records := by
    rw [State.judged_records]
    exact List.mem_map.2 ⟨r, hr, if_pos (by simp [hopen, hdisplayed])⟩
  have hinform : s.compose.evaluated r ∈ s.judged.toInform ↔
      (s.compose.evaluated r).displayed = true ∧ r.announced = true := by
    rw [State.mem_toInform]
    exact ⟨fun h => ⟨h.2.2.1, h.2.2.2⟩, fun h => ⟨hmem, hopen, h.1, h.2⟩⟩
  have htracker : s.recompose.tracker =
      { records := s.judged.tracker.records.map (ChangeRec.informedOf (s.judged.toInform.map (·.no)))
        closed := s.judged.tracker.closed ++ s.judged.toInform.map (·.no) } := by
    rw [State.recompose_eq hmode, State.compose_tracker, State.informAll_eq, State.informs_tracker]
  have himage : (s.compose.evaluated r).informedOf (s.judged.toInform.map (·.no)) ∈ s.recompose.tracker.records := by
    rw [htracker]
    exact List.mem_map_of_mem hmem
  have hno := State.mem_toInform_no hok hmem
  refine ⟨fun hnot => ?_, fun hyes => ⟨?_, ?_, ?_, fun e he => ?_⟩⟩
  · rwa [ChangeRec.informedOf, if_neg fun h => hnot (hinform.1 (hno.1 h))] at himage
  · rwa [ChangeRec.informedOf, if_pos (hno.2 (hinform.2 hyes))] at himage
  · rw [htracker]
    exact List.mem_append_right _ (hno.2 (hinform.2 hyes))
  · have hholds := State.informs_holds (hinform.2 hyes) s.judged
    have hclock : s.judged.time.clock = s.time.clock := congrArg TimeBase.clock (State.time_of_sources (State.compose_sources s))
    rw [hclock, ← State.informAll_eq] at hholds
    rw [State.recompose_eq hmode, State.port, State.compose_ports]
    exact hholds
  · have htable : s.recompose.table.entries = s.table.entries.map (Entry.informedOf (s.judged.toInform.map (·.run))) := by
      rw [State.recompose_eq hmode, State.compose_table, State.informAll_eq, State.informs_table (State.toInform_runs hok)]
      show s.compose.table.entries.map _ = _
      rw [State.compose_table]
    have hrun : r.run ∈ s.judged.toInform.map (·.run) := List.mem_map.2 ⟨_, hinform.2 hyes, rfl⟩
    rw [State.entry?, htable, List.find?_map]
    have hfun : (fun e : Entry => decide (e.run = r.run)) ∘ Entry.informedOf (s.judged.toInform.map (·.run)) =
        fun e => decide (e.run = r.run) :=
      funext fun e => by rw [Function.comp_apply, (Entry.informedOf_fields _ e).1]
    rw [hfun]
    rw [State.entry?] at he
    rw [he, Option.map_some, Entry.informedOf, if_pos (by rw [entryIn_run he]; exact hrun)]

/-- An OPEN record not yet displayed is judged against the picture that follows (R70 to R73, R75). -/
theorem State.record_judged (hk : u.tracker.Ok) (hmode : u.wall.mode = .normal) (hr : r ∈ u.tracker.records)
    (hopen : r.isOpen = true) (hdisplayed : r.displayed = false) (hclock : u.time.clock = s.time.clock)
    (hrev : u.revOf r.run = s.revOf r.run) (htracker : t.tracker = u.recompose.tracker)
    (htable : t.table = u.recompose.table) (hseen : u.recompose.Seen t)
    (hheard : ∀ q, (u.recompose.port q).Heard (t.port q)) :
    ∃ r' ∈ t.tracker.records, r'.no = r.no ∧ s.RecordJudged t r r' := by
  obtain ⟨hstays, hinformed⟩ := State.recompose_record hk hmode hr hopen hdisplayed
  obtain ⟨hrow, hgate⟩ := ((State.recompose_seen hk hmode).trans hseen).parts r
  have hrowJudged := t.rowJudged r
  have hgateJudged := t.gateJudged r
  rw [hrow] at hrowJudged
  rw [hgate] at hgateJudged
  have hshown : (u.compose.evaluated r).displayed = true ↔
      u.compose.rowPartOf r ≠ .pending ∧ u.compose.gatePartOf r ≠ .pending := by simp [State.evaluated]
  have hdegraded : (u.compose.evaluated r).degraded = true ↔
      r.degraded = true ∨ (r.gatePart = .pending ∧ u.compose.gatePartOf r = .waived) := by simp [State.evaluated]
  rw [htracker]
  by_cases hyes : (u.compose.evaluated r).displayed = true ∧ r.announced = true
  · obtain ⟨hmem, hclosed, hholds, hentry⟩ := hinformed hyes
    refine ⟨_, hmem, rfl, hrowJudged, hgateJudged, hshown, hdegraded, rfl, fun _ _ => ⟨rfl, htracker ▸ hclosed, ?_, fun e he => ?_⟩,
      fun hnot => absurd hyes hnot⟩
    · rw [← hclock]
      exact (hheard .signalling).holds hholds
    · rw [State.revOf, State.revOf, he, Option.map_some] at hrev
      obtain ⟨x, hx, hxrev⟩ := Option.map_eq_some_iff.1 hrev
      refine ⟨x.informed, ?_, rfl, congrArg (· + 1) hxrev⟩
      rw [State.entry?, htable]
      exact hentry x hx
  · refine ⟨_, hstays hyes, rfl, hrowJudged, hgateJudged, hshown, hdegraded, rfl, fun h1 h2 => absurd ⟨h1, h2⟩ hyes,
      fun _ => of_decide_eq_true hopen⟩

/-- Every OPEN record not yet displayed is judged, in NORMAL mode (R72). -/
theorem State.records_judged (hrecords : u.tracker = s.tracker) (hentries : u.table.entries = s.table.entries)
    (hclock : u.time.clock = s.time.clock) (hmode : u.wall.mode = s.wall.mode) (htracker : t.tracker = u.recompose.tracker)
    (htable : t.table = u.recompose.table) (hseen : u.recompose.Seen t)
    (hheard : ∀ q, (u.recompose.port q).Heard (t.port q)) : s.RecordsJudged t := by
  refine ⟨fun hn => ?_, fun hn hk r hr hopen hdisplayed _ => ?_⟩
  · rw [htracker, State.recompose_tracker (hmode ▸ hn), hrecords]
  · refine State.record_judged (by rw [hrecords]; exact hk) (hmode.trans hn) (by rw [hrecords]; exact hr) hopen hdisplayed
      hclock ?_ htracker htable hseen hheard
    rw [State.revOf, State.revOf, State.entry?, State.entry?, hentries]

/-! ## A second evaluation of the same scene -/

theorem State.rowPartOf_evaluated (s : State) (r : ChangeRec) : s.rowPartOf (s.evaluated r) = s.rowPartOf r := by
  by_cases hp : r.rowPart = .pending
  · cases h1 : s.rowPartOf r with
    | pending =>
      have hpending : (s.evaluated r).rowPart = .pending := h1
      rw [← h1]
      simp only [State.rowPartOf, hpending, hp]
      rfl
    | met => exact (s.rowJudged (s.evaluated r)).1 (h1.trans_ne nofun) |>.trans h1
    | waived => exact (s.rowJudged (s.evaluated r)).1 (h1.trans_ne nofun) |>.trans h1
  · have hstays := (s.rowJudged r).1 hp
    have hne : (s.evaluated r).rowPart ≠ .pending := hstays.trans_ne hp
    exact (s.rowJudged (s.evaluated r)).1 hne

theorem State.gatePartOf_evaluated (s : State) (r : ChangeRec) : s.gatePartOf (s.evaluated r) = s.gatePartOf r := by
  by_cases hp : r.gatePart = .pending
  · cases h1 : s.gatePartOf r with
    | pending =>
      have hpending : (s.evaluated r).gatePart = .pending := h1
      rw [← h1]
      simp only [State.gatePartOf, hpending, hp]
      rfl
    | met => exact (s.gateJudged (s.evaluated r)).1 (h1.trans_ne nofun) |>.trans h1
    | waived => exact (s.gateJudged (s.evaluated r)).1 (h1.trans_ne nofun) |>.trans h1
  · have hstays := (s.gateJudged r).1 hp
    have hne : (s.evaluated r).gatePart ≠ .pending := hstays.trans_ne hp
    exact (s.gateJudged (s.evaluated r)).1 hne

/-- An evaluation of what an evaluation against the same sight has left changes nothing (R72). -/
theorem State.Seen.evaluated_again (h : s.Seen t) (r : ChangeRec) : t.evaluated (s.evaluated r) = s.evaluated r := by
  obtain ⟨hrow, hgate⟩ := h.parts (s.evaluated r)
  rw [State.rowPartOf_evaluated] at hrow
  rw [State.gatePartOf_evaluated] at hgate
  rw [State.evaluated, hrow, hgate]
  have hpart : (s.evaluated r).gatePart = s.gatePartOf r := rfl
  have hdegraded : ((s.evaluated r).degraded ||
      (decide ((s.evaluated r).gatePart = .pending) && decide (s.gatePartOf r = .waived))) = (s.evaluated r).degraded := by
    rw [hpart]
    cases s.gatePartOf r <;> simp
  rw [hdegraded]
  rfl

/-- No OPEN record stands displayed and announced, and none would be judged otherwise (R72, R75). -/
def State.Settled (s : State) : Prop :=
  ∀ r ∈ s.tracker.records, r.isOpen = true →
    ¬(r.displayed = true ∧ r.announced = true) ∧ (r.displayed = false → s.compose.evaluated r = r)

theorem State.Settled.recompose (h : s.Settled) (hmode : s.wall.mode = .normal) :
    s.recompose.tracker = s.tracker ∧ s.recompose.table = s.table := by
  have hmap : s.judged.tracker.records = s.tracker.records := by
    rw [State.judged_records]
    refine (List.map_congr_left fun r hr => ?_).trans (List.map_id _)
    split
    · next hp =>
      obtain ⟨hopen, hdisplayed⟩ := Bool.and_eq_true_iff.1 hp
      exact (h r hr hopen).2 (by simpa using hdisplayed)
    · rfl
  have htracker : s.judged.tracker = s.tracker := by
    have hclosed : s.judged.tracker.closed = s.tracker.closed := (congrArg Tracker.closed s.compose_tracker :)
    exact congrArg₂ Tracker.mk hmap hclosed
  have hnone : s.judged.toInform = [] := by
    refine List.filter_eq_nil_iff.2 fun r hr hp => ?_
    rw [htracker] at hr
    simp only [Bool.and_eq_true] at hp
    exact (h r hr hp.1.1).1 ⟨hp.1.2, hp.2⟩
  have hinform : s.judged.informAll = s.judged := by rw [State.informAll_eq, hnone, List.foldl_nil]
  rw [State.recompose_eq hmode, hinform, State.compose_tracker, State.compose_table, htracker]
  exact ⟨rfl, s.compose_table⟩

/-- An evaluation leaves the records settled, and so does what keeps the scene (R72). -/
theorem State.recompose_settled (hk : s.tracker.Ok) (hmode : s.wall.mode = .normal) (h : s.recompose.SameScene t)
    (htracker : t.tracker = s.recompose.tracker) : t.Settled := by
  have hok := State.judged_trackerOk hk
  have hcomposed : s.compose.Seen t.compose := State.SameScene.seen ((State.recompose_scene hk).trans h) hmode
  have hrecords : t.tracker.records = s.judged.tracker.records.map
      (ChangeRec.informedOf (s.judged.toInform.map (·.no))) := by
    rw [htracker, State.recompose_eq hmode, State.compose_tracker, State.informAll_eq, State.informs_tracker]
  intro r hr hopen
  rw [hrecords] at hr
  obtain ⟨x, hx, rfl⟩ := List.mem_map.1 hr
  by_cases hmem : x ∈ s.judged.toInform
  · rw [ChangeRec.informedOf, if_pos ((State.mem_toInform_no hok hx).2 hmem)] at hopen
    exact absurd hopen nofun
  · have hsame : x.informedOf (s.judged.toInform.map (·.no)) = x := if_neg fun hno => hmem ((State.mem_toInform_no hok hx).1 hno)
    rw [hsame] at hopen ⊢
    refine ⟨fun hboth => hmem (State.mem_toInform.2 ⟨hx, hopen, hboth⟩), fun hdisplayed => ?_⟩
    rw [State.judged_records] at hx
    obtain ⟨y, -, rfl⟩ := List.mem_map.1 hx
    by_cases hy : (y.isOpen && !y.displayed) = true
    · rw [if_pos hy]
      exact hcomposed.evaluated_again y
    · rw [if_neg hy] at hopen hdisplayed
      exact absurd (by simp [hopen, hdisplayed]) hy

end Sys2Proof.Machine
end

section
/-! PROOF. The outcome of an exchange: what it makes of its panel and of the change records (R133 to R138, R141, R149). -/
namespace Sys2Proof.Machine

open Sys2Proof

variable {s t u : State}

/-! ## The panel of the exchange -/

/-- A good reply acknowledges what was sent (R135). -/
def Panel.acknowledged (x : Exchange) (p : Panel) : Panel :=
  { p with ackedLevel := p.sentLevel, acked := if x.content = .polf then p.acked else p.sent }

/-- The overtemperature flag takes a status, and a change of it the desired level of the zone's level (R149, R160). -/
def Panel.heated (level : Nat) (hot : Bool) (p : Panel) : Panel :=
  if p.overtemp = hot then p else { p with overtemp := hot, desiredLevel := min level (if hot then 6 else 15) }

/-- The panel at its third good probe running (R137). -/
def Panel.recovered (p : Panel) : Panel :=
  { p.clearFlags with
    state := .active, ec := 0, goodRun := 0, sent := none, acked := none, sentLevel := none, ackedLevel := none }

/-- One more good probe (R137). -/
def Panel.probedOnce (p : Panel) : Panel := { p with goodRun := p.goodRun + 1 }

/-- A FAILED panel after one more good probe (R137). -/
def Panel.probed (p : Panel) : Panel := if p.probedOnce.goodRun ≥ 3 then p.probedOnce.recovered else p.probedOnce

/-- What an outcome makes of the panel of its exchange, past the flags and the time (R135 to R137). -/
def Panel.acted (x : Exchange) (o : Outcome) (level : Nat) (p : Panel) : Panel :=
  match x.startState with
  | .active =>
    match o with
    | .good hot => (p.acknowledged x).heated level hot
    | _ => p
  | .probing =>
    match o with
    | .good hot => { ((p.acknowledged x).heated level hot).clearFlags with state := .active, ec := 0 }
    | _ => { p.clearFlags with state := .failed, ec := 0, goodRun := 0 }
  | .failed =>
    match o with
    | .good hot => (p.heated level hot).probed
    | _ => { p with goodRun := 0 }
  | .absent => p

/-- The panel of address `a` stands as `r`, and the others as they were in `s`, as far as records go. -/
def State.OnlyPanel (s : State) (a : Nat) (r : Panel) (t : State) : Prop :=
  ∀ b, (t.panel? b).map Panel.record = if b = a then some r.record else (s.panel? b).map Panel.record

theorem State.OnlyPanel.of_records {a : Nat} {r : Panel} (h : s.OnlyPanel a r t) (k : u.records = t.records) :
    s.OnlyPanel a r u := fun b => (State.panel?_of_records k b).trans (h b)

theorem State.OnlyPanel.trans {a : Nat} {q r : Panel} (h : s.OnlyPanel a q t) (k : t.OnlyPanel a r u) : s.OnlyPanel a r u :=
  fun b => by
    rw [k b]
    split
    · rfl
    · next hb => rw [h b, if_neg hb]

theorem State.OnlyPanel.same {a : Nat} {p : Panel} (h : s.panel? a = some p) : s.OnlyPanel a p s := fun b => by
  split
  · next hb => rw [hb, h]; rfl
  · rfl

/-- One panel written by a function that keeps its address. -/
theorem State.updPanel_only {a : Nat} {p : Panel} (h : s.panel? a = some p) (f : Panel → Panel) (hf : ∀ p, (f p).addr = p.addr) :
    s.OnlyPanel a (f p) (s.updPanel a f) := fun b => by
  rw [State.panel?_updPanel hf]
  split
  · rw [h]; rfl
  · rfl

theorem Panel.heated_eq (level : Nat) (hot : Bool) (p : Panel) :
    p.heated level hot =
      { p with
        overtemp := hot
        desiredLevel := if p.overtemp = hot then p.desiredLevel else min level (if hot then 6 else 15) } := by
  unfold Panel.heated
  split
  · next h => rw [← h]
  · rfl

/-- An outcome other than a good reply (R134). -/
def Outcome.Bad (o : Outcome) : Prop := ∀ hot, o ≠ .good hot

theorem Panel.acted_bad {x : Exchange} {o : Outcome} (ho : o.Bad) (level : Nat) (p : Panel) :
    p.acted x o level =
      match x.startState with
      | .probing => { p.clearFlags with state := .failed, ec := 0, goodRun := 0 }
      | .failed => { p with goodRun := 0 }
      | _ => p := by
  cases o with
  | good hot => exact absurd rfl (ho hot)
  | refused => unfold Panel.acted; cases x.startState <;> rfl
  | failed => unfold Panel.acted; cases x.startState <;> rfl

theorem Panel.endOfExchange_good (now : Nat) (hot : Bool) (p : Panel) :
    p.endOfExchange now (.good hot) = { p with addressed := true, lastServed := some now } := by
  simp [Panel.endOfExchange]

theorem Panel.endOfExchange_bad {o : Outcome} (ho : o.Bad) (now : Nat) (p : Panel) :
    p.endOfExchange now o = { p with addressed := true, errored := true, lastServed := some now } := by
  cases o with
  | good hot => exact absurd rfl (ho hot)
  | refused => simp [Panel.endOfExchange]
  | failed => simp [Panel.endOfExchange]

/-- The desired level moves with the overtemperature flag and with nothing else (R149, R160). -/
theorem Panel.acted_level (x : Exchange) (o : Outcome) (level : Nat) (p : Panel) :
    ((p.acted x o level).overtemp ≠ p.overtemp →
        (p.acted x o level).desiredLevel = min level (if (p.acted x o level).overtemp then 6 else 15)) ∧
      ((p.acted x o level).overtemp = p.overtemp → (p.acted x o level).desiredLevel = p.desiredLevel) := by
  by_cases ho : o.Bad
  · rw [Panel.acted_bad ho]
    cases x.startState <;> exact ⟨fun h => absurd rfl h, fun _ => rfl⟩
  · obtain ⟨hot, rfl⟩ : ∃ hot, o = .good hot := not_forall_not.1 ho
    have hheated (p : Panel) (a : Option Nat) (b : Option Tag) :
        ((({ p with ackedLevel := a, acked := b } : Panel).heated level hot).overtemp ≠ p.overtemp →
          (({ p with ackedLevel := a, acked := b } : Panel).heated level hot).desiredLevel =
            min level (if (({ p with ackedLevel := a, acked := b } : Panel).heated level hot).overtemp then 6 else 15)) ∧
        ((({ p with ackedLevel := a, acked := b } : Panel).heated level hot).overtemp = p.overtemp →
          (({ p with ackedLevel := a, acked := b } : Panel).heated level hot).desiredLevel = p.desiredLevel) := by
      rw [Panel.heated_eq]
      exact ⟨fun h => if_neg (Ne.symm h), fun h => if_pos h.symm⟩
    unfold Panel.acted
    cases x.startState with
    | absent => exact ⟨fun h => absurd rfl h, fun _ => rfl⟩
    | active => exact hheated ..
    | probing => exact hheated ..
    | failed =>
      dsimp only
      unfold Panel.probed
      split <;> exact hheated p p.ackedLevel p.acked

theorem State.panel?_writeLevels (pick : Panel → Bool) (a : Nat) (s : State) :
    (s.writeLevels pick).panel? a =
      (s.panel? a).map fun p => if p.configured && pick p then { p with desiredLevel := s.panelLevel p } else p := by
  simp only [State.panel?, State.writeLevels, updWhere, List.find?_map]
  congr 1
  refine congrArg (fun f => s.bus.panels.find? f) (funext fun p => ?_)
  rw [Function.comp_apply]
  split <;> rfl

theorem State.takeStatus_panel? {a : Nat} {p : Panel} (h : s.panel? a = some p) (hconf : p.role ≠ .none) (hot : Bool)
    (b : Nat) :
    (s.takeStatus a hot).panel? b = if b = a then some (p.heated (s.zoneLevel p.zone) hot) else s.panel? b := by
  have haddr : p.addr = a := (State.panel?_some h).2
  unfold State.takeStatus
  rw [h]
  dsimp only
  by_cases hsame : p.overtemp = hot
  · rw [if_pos hsame, Panel.heated, if_pos hsame]
    split
    · next hb => rw [hb, h]
    · rfl
  · rw [if_neg hsame, Panel.heated, if_neg hsame, State.panel?_writeLevels,
      State.panel?_updPanel (f := fun p => { p with overtemp := hot }) (fun _ => rfl)]
    split
    · rw [h, Option.map_some, Option.map_some, if_pos (by simp [Panel.configured, hconf, haddr])]
      rfl
    · next hb =>
      cases hq : s.panel? b with
      | none => rfl
      | some q =>
        have hq' : ¬q.addr = a := fun hqa => hb ((State.panel?_some hq).2.symm.trans hqa)
        rw [Option.map_some, if_neg (by simp [hq'])]

theorem State.acknowledge_panel? {x : Exchange} {p : Panel} (h : s.panel? x.addr = some p) (hconf : p.role ≠ .none)
    (hot : Bool) (b : Nat) :
    (s.acknowledge x hot).panel? b =
      if b = x.addr then some ((p.acknowledged x).heated (s.zoneLevel p.zone) hot) else s.panel? b := by
  have hack (b : Nat) := State.panel?_updPanel (a := x.addr) (f := Panel.acknowledged x) (fun _ => rfl) b s
  have hsame := hack x.addr
  rw [if_pos rfl, h, Option.map_some] at hsame
  refine (State.takeStatus_panel? (s := s.updPanel x.addr (Panel.acknowledged x)) hsame hconf hot b).trans ?_
  split
  · rfl
  · next hb => rw [hack, if_neg hb]

theorem State.acknowledge_only {x : Exchange} {p : Panel} (h : s.panel? x.addr = some p) (hconf : p.role ≠ .none)
    (hot : Bool) : s.OnlyPanel x.addr ((p.acknowledged x).heated (s.zoneLevel p.zone) hot) (s.acknowledge x hot) :=
  fun b => by
    rw [State.acknowledge_panel? h hconf]
    split <;> rfl

/-- R136. -/
theorem State.probingOutcome_only {x : Exchange} {p : Panel} (h : s.panel? x.addr = some p) (hconf : p.role ≠ .none)
    (hx : x.startState = .probing) (o : Outcome) :
    s.OnlyPanel x.addr (p.acted x o (s.zoneLevel p.zone)) (s.probingOutcome x o) := by
  have hfailed : s.OnlyPanel x.addr { p.clearFlags with state := .failed, ec := 0, goodRun := 0 }
      ((s.updPanel x.addr Panel.clearFlags).failPanel x.addr) := by
    have hcleared : (s.updPanel x.addr Panel.clearFlags).panel? x.addr = some p.clearFlags := by
      rw [State.panel?_updPanel (f := Panel.clearFlags) (fun _ => rfl), if_pos rfl, h, Option.map_some]
    exact (State.updPanel_only h Panel.clearFlags (fun _ => rfl)).trans
      ((State.updPanel_only hcleared (fun p => { p with state := .failed, ec := 0, goodRun := 0 })
        (fun _ => rfl)).of_records (State.failPanel_records ..))
  simp only [State.probingOutcome, Panel.acted, hx]
  cases o with
  | good hot =>
    have hack := (State.acknowledge_panel? h hconf hot x.addr).trans (if_pos rfl)
    exact (State.acknowledge_only h hconf hot).trans (State.updPanel_only hack _ (fun _ => rfl))
  | refused => exact hfailed
  | failed => exact hfailed

theorem State.probeOutcome_good (x : Exchange) (hot : Bool) (s : State) :
    s.probeOutcome x (.good hot) =
      if (((s.takeStatus x.addr hot).updPanel x.addr Panel.probedOnce).panel? x.addr).any (·.goodRun ≥ 3) then
        ((((s.takeStatus x.addr hot).updPanel x.addr Panel.probedOnce).updPanel x.addr Panel.recovered).recompose).post
          [.planning] .panelRecovered (.panel x.addr)
      else (s.takeStatus x.addr hot).updPanel x.addr Panel.probedOnce := rfl

/-- R137. -/
theorem State.probeOutcome_only {x : Exchange} {p : Panel} (h : s.panel? x.addr = some p) (hconf : p.role ≠ .none)
    (hx : x.startState = .failed) (o : Outcome) :
    s.OnlyPanel x.addr (p.acted x o (s.zoneLevel p.zone)) (s.probeOutcome x o) := by
  have hbad : s.OnlyPanel x.addr { p with goodRun := 0 } (s.updPanel x.addr fun p => { p with goodRun := 0 }) :=
    State.updPanel_only h (fun p => { p with goodRun := 0 }) (fun _ => rfl)
  simp only [Panel.acted, hx]
  cases o with
  | refused => exact hbad
  | failed => exact hbad
  | good hot =>
    have htaken := (State.takeStatus_panel? h hconf hot x.addr).trans (if_pos rfl)
    have hstatus : s.OnlyPanel x.addr (p.heated (s.zoneLevel p.zone) hot) (s.takeStatus x.addr hot) := fun b => by
      rw [State.takeStatus_panel? h hconf]
      split <;> rfl
    have hcounted := hstatus.trans (State.updPanel_only htaken Panel.probedOnce (fun _ => rfl))
    have hcount := (State.panel?_updPanel (a := x.addr) (f := Panel.probedOnce) (fun _ => rfl) x.addr
      (s.takeStatus x.addr hot)).trans (if_pos rfl)
    rw [htaken, Option.map_some] at hcount
    dsimp only
    rw [State.probeOutcome_good, hcount, Option.any_some, Panel.probed]
    by_cases hthree : (p.heated (s.zoneLevel p.zone) hot).probedOnce.goodRun ≥ 3
    · rw [if_pos (decide_eq_true hthree), if_pos hthree]
      refine (hcounted.trans (State.updPanel_only hcount Panel.recovered (fun _ => rfl))).of_records ?_
      exact (State.records_of_bus (State.post_bus ..)).trans (State.recompose_records _)
    · rw [if_neg (fun h => hthree (of_decide_eq_true h)), if_neg hthree]
      exact hcounted

/-- The record of the panel of the exchange after its outcome, and the records of the others (R135 to R137). -/
theorem State.actOn_only {x : Exchange} {p : Panel} (h : s.panel? x.addr = some p)
    (hconf : x.startState ≠ .absent → p.role ≠ .none) (o : Outcome) :
    s.OnlyPanel x.addr (p.acted x o (s.zoneLevel p.zone)) (s.actOn x o) := by
  unfold State.actOn
  cases hx : x.startState with
  | absent =>
    simp only [Panel.acted, hx]
    exact .same h
  | active =>
    simp only [Panel.acted, hx]
    cases o with
    | good hot => exact State.acknowledge_only h (hconf (hx.trans_ne nofun)) hot
    | refused => exact .same h
    | failed => exact .same h
  | probing => exact State.probingOutcome_only h (hconf (hx.trans_ne nofun)) hx o
  | failed => exact State.probeOutcome_only h (hconf (hx.trans_ne nofun)) hx o

/-- What the end of an exchange makes of its panel: the flags and the time, and what its outcome does where neither an RSET
nor a change of state came between (R134, R138). -/
def Panel.outcome (x : Exchange) (o : Outcome) (now level : Nat) (q : Panel) : Panel :=
  if x.rset = true ∨ q.state ≠ x.startState then q.endOfExchange now o else (q.endOfExchange now o).acted x o level

theorem State.exchangeEnded_panel? (x : Exchange) (o : Outcome) (s : State) (a : Nat) :
    (s.exchangeEnded x o).panel? a =
      if a = x.addr then (s.panel? x.addr).map (Panel.endOfExchange s.runTime o) else s.panel? a :=
  State.panel?_updPanel (s := { s with bus := { s.bus with exchange := none } }) (f := Panel.endOfExchange s.runTime o)
    (fun _ => rfl) a

theorem State.outcomeActed_discarded {x : Exchange} {p : Panel} (h : s.panel? x.addr = some p)
    (hx : x.rset = true ∨ p.state ≠ x.startState) (o : Outcome) : s.outcomeActed x o = s :=
  if_pos (by simpa [h] using hx)

theorem State.outcomeActed_taken {x : Exchange} {p : Panel} (h : s.panel? x.addr = some p)
    (hx : ¬(x.rset = true ∨ p.state ≠ x.startState)) (o : Outcome) :
    s.outcomeActed x o = (s.actOn x o).reappendUrgent x o :=
  if_neg (by simpa [h] using hx)

theorem State.reappendUrgent_urgent (x : Exchange) (o : Outcome) (s : State) :
    ∃ l, s.reappendUrgent x o = { s with bus := { s.bus with urgent := l } } := by
  unfold State.reappendUrgent
  split
  · exact ⟨_, rfl⟩
  · split
    · exact ⟨_, rfl⟩
    · exact ⟨_, rfl⟩
  · exact ⟨_, rfl⟩

theorem State.outcomeActed_only {x : Exchange} {q : Panel} (hok : s.PanelsOk) (h : s.panel? x.addr = some q) (o : Outcome) :
    s.OnlyPanel x.addr (q.outcome x o s.runTime (s.zoneLevel q.zone)) ((s.exchangeEnded x o).outcomeActed x o) := by
  have hended : (s.exchangeEnded x o).panel? x.addr = some (q.endOfExchange s.runTime o) := by
    rw [State.exchangeEnded_panel?, if_pos rfl, h, Option.map_some]
  have honly : s.OnlyPanel x.addr (q.endOfExchange s.runTime o) (s.exchangeEnded x o) := fun a => by
    rw [State.exchangeEnded_panel?]
    split
    · rw [h]; rfl
    · rfl
  unfold Panel.outcome
  by_cases hx : x.rset = true ∨ q.state ≠ x.startState
  · rw [if_pos hx, State.outcomeActed_discarded hended hx]
    exact honly
  · rw [if_neg hx, State.outcomeActed_taken hended hx]
    have hconf : x.startState ≠ .absent → (q.endOfExchange s.runTime o).role ≠ .none := fun ha => by
      obtain ⟨-, -, -, -, habsent⟩ := hok
      have hstate : q.state = x.startState := not_not.1 fun hs => hx (.inr hs)
      exact fun hrole => ha (hstate.symm.trans ((habsent q (State.panel?_some h).1).2 hrole))
    obtain ⟨l, hl⟩ := State.reappendUrgent_urgent x o ((s.exchangeEnded x o).actOn x o)
    rw [hl]
    exact (honly.trans (State.actOn_only hended hconf o)).of_records rfl

/-- The panel of an exchange after its end, and the records of the others (R134 to R138). -/
theorem State.endExchange_only {x : Exchange} {q : Panel} (hok : s.PanelsOk) (h : s.panel? x.addr = some q) (o : Outcome) :
    s.OnlyPanel x.addr (q.outcome x o s.runTime (s.zoneLevel q.zone)) (s.endExchange x o) :=
  (State.outcomeActed_only hok h o).of_records (by
    rw [State.endExchange_eq, State.records_of_bus (State.settleAttention_bus _), State.dispatch_records,
      State.recompose_records])

end Sys2Proof.Machine
end

section
/-! PROOF. The change records at the end of an exchange, and the statement on outcomes (R70 to R75, R133 to R141). -/
namespace Sys2Proof.Machine

open Sys2Proof

variable {s t u v : State}

/-! ## Two evaluations of one scene judge as the first does -/

/-- What an evaluation reads of the records, the entries and the wall has not moved. -/
structure State.AsBefore (s v : State) : Prop where
  tracker : v.tracker = s.tracker
  table : v.table = s.table
  clock : v.time.clock = s.time.clock
  wall : v.wall = s.wall
  cues : v.cues = s.cues
  ports : v.ports = s.ports

theorem State.AsBefore.refl (s : State) : s.AsBefore s := ⟨rfl, rfl, rfl, rfl, rfl, rfl⟩

theorem State.AsBefore.trans (h : s.AsBefore t) (k : t.AsBefore u) : s.AsBefore u :=
  ⟨k.tracker.trans h.tracker, k.table.trans h.table, k.clock.trans h.clock, k.wall.trans h.wall,
    k.cues.trans h.cues, k.ports.trans h.ports⟩

theorem State.AsBefore.undisturbed (h : s.AsBefore t) : s.Undisturbed t := .of_blocks h.table h.cues h.wall

/-- `u` keeps of an evaluation of `v` the scene, the records, the table and the notices. -/
structure State.After (v u : State) : Prop where
  scene : v.recompose.SameScene u
  tracker : u.tracker = v.recompose.tracker
  table : u.table = v.recompose.table
  heard : ∀ q, (v.recompose.port q).Heard (u.port q)

/-- Between `s` and `u` at most one evaluation was made, and before it nothing that it reads has moved. -/
inductive State.OnceAtMost (s u : State) : Prop
  | never (h : s.AsBefore u)
  | once (v : State) (h : s.AsBefore v) (k : v.After u)

theorem State.OnceAtMost.of_before (h : s.AsBefore t) (k : t.OnceAtMost u) : s.OnceAtMost u := by
  cases k with
  | never k => exact .never (h.trans k)
  | once v k hv => exact .once v (h.trans k) hv

/-- Of what the line has of its own only the urgent list moves. -/
theorem State.OnceAtMost.urgent (h : s.OnceAtMost t) (l : List Urgent) :
    s.OnceAtMost { t with bus := { t.bus with urgent := l } } := by
  cases h with
  | never h => exact .never (h.trans ⟨rfl, rfl, rfl, rfl, rfl, rfl⟩)
  | once v h k =>
    exact .once v h ⟨k.scene.trans (.of_blocks rfl rfl rfl rfl rfl), k.tracker, k.table, k.heard⟩

theorem State.Seen.symm (h : s.Seen t) : t.Seen s := ⟨h.rowMap.symm, fun a => (h.panels a).symm⟩

theorem State.recompose_trackerOk (h : s.tracker.Ok) : s.recompose.tracker.Ok :=
  (State.recompose_moved (out := none) (join := none) s).trackerOk h

/-- In NORMAL mode a second evaluation of a scene leaves the records and the entries as the first left them (R72). -/
theorem State.After.recompose (h : v.After u) (hk : v.tracker.Ok) (hmode : v.wall.mode = .normal) :
    u.recompose.tracker = v.recompose.tracker ∧ u.recompose.table = v.recompose.table ∧
      v.recompose.Seen u.recompose := by
  have hscene := (State.recompose_scene hk).trans h.scene
  have humode : u.wall.mode = .normal := hscene.mode.trans hmode
  have huk : u.tracker.Ok := by
    rw [h.tracker]
    exact State.recompose_trackerOk hk
  obtain ⟨htracker, htable⟩ := (State.recompose_settled hk hmode h.scene h.tracker).recompose humode
  refine ⟨htracker.trans h.tracker, htable.trans h.table, ?_⟩
  exact (State.recompose_seen hk hmode).symm.trans ((hscene.seen hmode).trans (State.recompose_seen huk humode))

theorem State.settleAttention_seen (s : State) : s.Seen s.settleAttention := .of_blocks rfl (State.settleAttention_bus s)

/-- What follows every evaluation on the bus leaves what it judged against. -/
theorem State.served_seen (s : State) : s.Seen s.dispatch.settleAttention :=
  (State.dispatch_seen s).trans (State.settleAttention_seen _)

theorem State.served_blocks (s : State) :
    s.dispatch.settleAttention.tracker = s.tracker ∧ s.dispatch.settleAttention.table = s.table ∧
      ∀ q, (s.port q).Heard (s.dispatch.settleAttention.port q) := by
  refine ⟨s.dispatch_tracker, s.dispatch_table, fun q => ?_⟩
  rw [State.settleAttention_port, State.port, State.port, State.dispatch_ports]
  exact ⟨List.prefix_rfl, id⟩

/-- The end of an exchange judges every OPEN record not yet displayed (R72). -/
theorem State.OnceAtMost.judged (h : s.OnceAtMost u) : s.RecordsJudged u.recompose.dispatch.settleAttention := by
  obtain ⟨htracker, htable, hheard⟩ := State.served_blocks u.recompose
  have hserved := State.served_seen u.recompose
  cases h with
  | never h =>
    exact State.records_judged h.tracker (by rw [h.table]) h.clock (by rw [h.wall]) htracker htable hserved hheard
  | once v h k =>
    have hvmode : v.wall.mode = s.wall.mode := by rw [h.wall]
    refine ⟨fun hn => ?_, fun hn hk => ?_⟩
    · have hv : v.wall.mode ≠ .normal := hvmode.trans_ne hn
      have hu : u.wall.mode ≠ .normal := fun hu => by
        have := k.scene.mode.symm.trans hu
        exact hv ((congrArg (·.2.1) v.recompose_board :).symm.trans this)
      rw [htracker, State.recompose_tracker hu, k.tracker, State.recompose_tracker hv, h.tracker]
    · have hvk : v.tracker.Ok := by rw [h.tracker]; exact hk
      obtain ⟨hutracker, hutable, huseen⟩ := k.recompose hvk (hvmode.trans hn)
      exact (State.records_judged h.tracker (by rw [h.table]) h.clock hvmode (htracker.trans hutracker)
        (htable.trans hutable) (huseen.trans hserved)
        fun q => (k.heard q).trans (((State.recompose_calm u).heard q).trans (hheard q))).2 hn hk

/-! ## What an outcome does before the evaluation -/

/-- No row panel of the wall is the one at `a`. -/
def State.OffWall (a : Nat) (s : State) : Prop := ∀ run, s.rowPanelOf run ≠ some a

theorem State.waiveRows_tracker {a : Nat} (h : s.OffWall a) : (s.waiveRows a).tracker = s.tracker := by
  unfold State.waiveRows
  split
  · have hsame : updWhere (fun r : ChangeRec => r.isOpen && r.rowPart = .pending && s.rowPanelOf r.run = some a)
        (fun r => { r with rowPart := .waived, degraded := true }) s.tracker.records = s.tracker.records := by
      refine (List.map_congr_left fun r _ => if_neg ?_).trans (List.map_id _)
      simp [h r.run]
    exact congrArg (fun l => { s.tracker with records := l }) hsame
  · rfl

theorem State.waiveRows_eq (a : Nat) (s : State) : s.waiveRows a = { s with tracker := (s.waiveRows a).tracker } := by
  unfold State.waiveRows
  split <;> rfl

theorem State.waiveRows_before {a : Nat} (h : s.OffWall a) : s.AsBefore (s.waiveRows a) := by
  rw [State.waiveRows_eq]
  exact ⟨State.waiveRows_tracker h, rfl, rfl, rfl, rfl, rfl⟩

theorem State.failPanel_once {a : Nat} (h : s.OffWall a) : s.OnceAtMost (s.failPanel a) := by
  have hput : s.AsBefore (s.updPanel a fun p => { p with state := .failed, ec := 0, goodRun := 0 }) :=
    ⟨rfl, rfl, rfl, rfl, rfl, rfl⟩
  refine .once _ (hput.trans (State.waiveRows_before h)) ⟨State.post_scene .., State.post_tracker .., State.post_table .., ?_⟩
  exact fun q => State.post_heard (by decide) ..

theorem State.takeStatus_before (a : Nat) (hot : Bool) (s : State) : s.AsBefore (s.takeStatus a hot) := by
  unfold State.takeStatus
  split
  · split
    · exact .refl s
    · exact ⟨rfl, rfl, rfl, rfl, rfl, rfl⟩
  · exact .refl s

theorem State.acknowledge_before (x : Exchange) (hot : Bool) (s : State) : s.AsBefore (s.acknowledge x hot) :=
  State.AsBefore.trans (t := s.updPanel x.addr (Panel.acknowledged x)) ⟨rfl, rfl, rfl, rfl, rfl, rfl⟩ (State.takeStatus_before ..)

/-- An outcome makes at most one evaluation of its own (R136, R137). -/
theorem State.actOn_once {x : Exchange} (h : x.startState = .probing → s.OffWall x.addr) (o : Outcome) :
    s.OnceAtMost (s.actOn x o) := by
  unfold State.actOn
  cases hx : x.startState with
  | absent => exact .never (.refl s)
  | active =>
    cases o with
    | good hot => exact .never (State.acknowledge_before ..)
    | refused => exact .never (.refl s)
    | failed => exact .never (.refl s)
  | probing =>
    have hoff := h hx
    have hfails : s.OnceAtMost ((s.updPanel x.addr Panel.clearFlags).failPanel x.addr) :=
      .of_before (t := s.updPanel x.addr Panel.clearFlags) ⟨rfl, rfl, rfl, rfl, rfl, rfl⟩ (State.failPanel_once hoff)
    cases o with
    | good hot => exact .never ((State.acknowledge_before x hot s).trans ⟨rfl, rfl, rfl, rfl, rfl, rfl⟩)
    | refused => exact hfails
    | failed => exact hfails
  | failed =>
    cases o with
    | good hot =>
      have hstatus := State.takeStatus_before x.addr hot s
      have hcounted := hstatus.trans (u := (s.takeStatus x.addr hot).updPanel x.addr Panel.probedOnce) ⟨rfl, rfl, rfl, rfl, rfl, rfl⟩
      dsimp only
      rw [State.probeOutcome_good]
      split
      · exact .once (((s.takeStatus x.addr hot).updPanel x.addr Panel.probedOnce).updPanel x.addr Panel.recovered)
          (hcounted.trans ⟨rfl, rfl, rfl, rfl, rfl, rfl⟩) ⟨State.post_scene .., State.post_tracker .., State.post_table ..,
            fun q => State.post_heard (by decide) ..⟩
      · exact .never hcounted
    | refused => exact .never ⟨rfl, rfl, rfl, rfl, rfl, rfl⟩
    | failed => exact .never ⟨rfl, rfl, rfl, rfl, rfl, rfl⟩

/-! ## What an outcome says to the planning port -/

/-- The passages to INFORMED speak to the signalling port alone (R75). -/
theorem State.recompose_port {q : PortId} (h : q ≠ .signalling) (s : State) : s.recompose.port q = s.port q := by
  have hinform (r : ChangeRec) (v : State) : (v.inform r).port q = v.port q := by
    rw [State.inform, State.post_port (by decide), if_neg (by simpa using h)]
    rfl
  have hcompose (v : State) : v.compose.port q = v.port q := by rw [State.port, State.port, State.compose_ports]
  have hall (v : State) : v.informAll.port q = v.port q :=
    foldl_keeps (fun u : State => u.port q) (fun u r => u.inform r) (fun u r => hinform r u) v.toInform v
  rw [State.recompose, hcompose, State.evaluate]
  split
  · rw [hall]
    exact hcompose s
  · exact hcompose s

/-- The first notice to the planning port since `s` is this one. -/
theorem State.noticed_after {names : List PortId} (hnames : PortId.planning ∈ names) (hnodup : names.Nodup) {k : NoticeKind}
    {x : Subject} (hport : t.port .planning = s.port .planning) (hclock : t.time.clock = s.time.clock) :
    s.Noticed (t.post names k x) .planning ⟨k, x, s.time.clock⟩ := by
  rw [State.Noticed, State.post_port hnodup, if_pos hnames, hport, hclock]

theorem State.failPanel_noticed (a : Nat) (s : State) :
    s.Noticed (s.failPanel a) .planning ⟨.panelFailed, .panel a, s.time.clock⟩ := by
  refine State.noticed_after (by simp) (by simp) ?_ ?_
  · rw [State.recompose_port (by decide), State.waiveRows_eq]
    rfl
  · rw [State.recompose_clock, State.waiveRows_eq]
    rfl

theorem State.actOn_failed {x : Exchange} {o : Outcome} (hx : x.startState = .probing) (ho : o.Bad) (s : State) :
    s.Noticed (s.actOn x o) .planning ⟨.panelFailed, .panel x.addr, s.time.clock⟩ := by
  have hfails := State.failPanel_noticed x.addr (s.updPanel x.addr Panel.clearFlags)
  simp only [State.actOn, hx, State.probingOutcome]
  cases o with
  | good hot => exact absurd rfl (ho hot)
  | refused => exact hfails
  | failed => exact hfails

theorem State.actOn_recovered {x : Exchange} {p : Panel} (hx : x.startState = .failed) (h : s.panel? x.addr = some p)
    (hconf : p.role ≠ .none) (hrun : p.goodRun = 2) (hot : Bool) :
    s.Noticed (s.actOn x (.good hot)) .planning ⟨.panelRecovered, .panel x.addr, s.time.clock⟩ := by
  have hthree : ((((s.takeStatus x.addr hot).updPanel x.addr Panel.probedOnce).panel? x.addr).any (·.goodRun ≥ 3)) = true := by
    rw [State.panel?_updPanel (f := Panel.probedOnce) (fun _ => rfl), if_pos rfl, State.takeStatus_panel? h hconf, if_pos rfl,
      Option.map_some, Option.any_some, Panel.heated_eq]
    exact decide_eq_true (by rw [Panel.probedOnce, hrun])
  simp only [State.actOn, hx]
  rw [State.probeOutcome_good, if_pos hthree]
  have hstatus := State.takeStatus_before x.addr hot s
  refine State.noticed_after (by simp) (by simp) ?_ ?_
  · rw [State.recompose_port (by decide), State.port, State.port, ← hstatus.ports]
    rfl
  · rw [State.recompose_clock, ← hstatus.clock]
    rfl

/-- What has been said when the outcome has been acted on is said at the end of the exchange. -/
theorem State.endExchange_noticed {x : Exchange} {o : Outcome} {q : Panel} (h : s.panel? x.addr = some q)
    (hx : ¬(x.rset = true ∨ q.state ≠ x.startState)) {n : Notice} {p : PortId}
    (hn : (s.exchangeEnded x o).Noticed ((s.exchangeEnded x o).actOn x o) p n) : s.Noticed (s.endExchange x o) p n := by
  have hended : (s.exchangeEnded x o).panel? x.addr = some (q.endOfExchange s.runTime o) := by
    rw [State.exchangeEnded_panel?, if_pos rfl, h, Option.map_some]
  obtain ⟨l, hl⟩ := State.reappendUrgent_urgent x o ((s.exchangeEnded x o).actOn x o)
  rw [State.endExchange_eq, State.outcomeActed_taken hended hx, hl]
  obtain ⟨-, -, hserved⟩ := State.served_blocks
    ({ (s.exchangeEnded x o).actOn x o with bus := { ((s.exchangeEnded x o).actOn x o).bus with urgent := l } } : State).recompose
  exact hn.trans ((((State.recompose_calm _).heard p).trans (hserved p)).1)

/-! ## The records at the end of an exchange -/

/-- Under a current picture no panel that is not ACTIVE stands in the row map (R112). -/
theorem State.PictureCurrent.offWall (h : s.PictureCurrent) (hok : s.PanelsOk) {a : Nat} {q : Panel} (hq : s.panel? a = some q)
    (hstate : q.state ≠ .active) : s.OffWall a := by
  intro run hrun
  obtain ⟨⟨b, n⟩, hm, rfl⟩ := Option.map_eq_some_iff.1 hrun
  have hmem : (b, n) ∈ s.freshRowMap := by
    obtain ⟨hrows, -⟩ := h
    rw [← hrows]
    exact List.mem_of_find?_eq_some hm
  obtain ⟨hb, -⟩ := List.of_mem_zip hmem
  rw [State.activeRows_eq] at hb
  obtain ⟨⟨i, c⟩, hc, rfl⟩ := List.mem_map.1 hb
  obtain ⟨p, hp, hkey⟩ := List.mem_filterMap.1 ((sortRows_perm _).mem_iff.1 hc)
  obtain ⟨-, hactive, haddr⟩ := Panel.rowKey_iff.1 hkey
  obtain ⟨hqm, hqa⟩ := State.panel?_some hq
  exact hstate (panel_unique hok.nodup hqm hp (hqa.trans haddr.symm) ▸ hactive)

theorem State.endExchange_judged {x : Exchange} {q : Panel} (hok : s.PanelsOk) (h : s.panel? x.addr = some q) (o : Outcome)
    (hcurrent : s.PictureCurrent) : s.RecordsJudged (s.endExchange x o) := by
  have hended : (s.exchangeEnded x o).panel? x.addr = some (q.endOfExchange s.runTime o) := by
    rw [State.exchangeEnded_panel?, if_pos rfl, h, Option.map_some]
  have hbefore : s.AsBefore (s.exchangeEnded x o) := ⟨rfl, rfl, rfl, rfl, rfl, rfl⟩
  rw [State.endExchange_eq]
  refine State.OnceAtMost.judged (.of_before hbefore ?_)
  by_cases hx : x.rset = true ∨ q.state ≠ x.startState
  · rw [State.outcomeActed_discarded hended hx]
    exact .never (.refl _)
  · obtain ⟨l, hl⟩ := State.reappendUrgent_urgent x o ((s.exchangeEnded x o).actOn x o)
    rw [State.outcomeActed_taken hended hx, hl]
    refine (State.actOn_once (fun hprobing => ?_) o).urgent l
    have hstate : q.state = .probing := (not_not.1 fun hs => hx (.inr hs)).trans hprobing
    exact State.PictureCurrent.offWall hcurrent hok h (hstate.trans_ne nofun)

/-! ## The urgent panel again -/

/-- Of the line an evaluation moves nothing, and of the urgent list nothing (R110). -/
theorem State.recompose_line (s : State) :
    s.recompose.bus.exchange = s.bus.exchange ∧ s.recompose.bus.urgent = s.bus.urgent := by
  have hcompose (v : State) : v.compose.bus.urgent = v.bus.urgent := by
    show v.remap.rotate.bus.urgent = v.bus.urgent
    rw [State.rotate_bus, State.remap_bus]
  refine ⟨(congrArg Bus.exchange (State.recompose_steady s).line :), ?_⟩
  rw [State.recompose, hcompose, State.evaluate_bus, hcompose]

theorem reappend_eq (a n : Nat) (l : List Urgent) :
    reappend a n l =
      if ∃ u ∈ l, u.addr = a then l.map fun u => if u.addr = a then { u with retries := max u.retries (n - 1) } else u
      else l ++ [⟨a, n - 1⟩] := by
  have hiff : (l.any (·.addr = a)) = true ↔ ∃ u ∈ l, u.addr = a := by simp
  rw [reappend]
  by_cases h : ∃ u ∈ l, u.addr = a
  · rw [if_pos (hiff.2 h), if_pos h, updWhere]
    exact List.map_congr_left fun u _ => by simp
  · rw [if_neg (mt hiff.1 h), if_neg h]

/-- R141. -/
theorem State.reappendUrgent_eq {x : Exchange} {q : Panel} (h : s.panel? x.addr = some q) (o : Outcome) :
    s.reappendUrgent x o =
      { s with
        bus :=
          { s.bus with
            urgent :=
              match x.urgent with
              | none => s.bus.urgent
              | some n =>
                if (∃ hot, o = .good hot) ∨ n = 0 ∨ ¬(q.state = .active ∨ q.state = .probing) then s.bus.urgent
                else if ∃ u ∈ s.bus.urgent, u.addr = x.addr then
                  s.bus.urgent.map fun u => if u.addr = x.addr then { u with retries := max u.retries (n - 1) } else u
                else s.bus.urgent ++ [⟨x.addr, n - 1⟩] } } := by
  unfold State.reappendUrgent
  cases x.urgent with
  | none => rfl
  | some n =>
    have hback (hgood : ¬∃ hot, o = .good hot) :
        (if 0 < n ∧ (s.panel? x.addr).any (fun p => p.state = .active || p.state = .probing) then
            ({ s with bus := { s.bus with urgent := reappend x.addr n s.bus.urgent } } : State)
          else s) =
          { s with
            bus :=
              { s.bus with
                urgent :=
                  if (∃ hot, o = .good hot) ∨ n = 0 ∨ ¬(q.state = .active ∨ q.state = .probing) then s.bus.urgent
                  else if ∃ u ∈ s.bus.urgent, u.addr = x.addr then
                    s.bus.urgent.map fun u => if u.addr = x.addr then { u with retries := max u.retries (n - 1) } else u
                  else s.bus.urgent ++ [⟨x.addr, n - 1⟩] } } := by
      rw [h, Option.any_some, reappend_eq]
      by_cases hready : 0 < n ∧ (q.state = .active ∨ q.state = .probing)
      · rw [if_pos (by simpa using hready), if_neg (c := (∃ hot, o = .good hot) ∨ _)]
        rintro (hg | hz | hnot)
        · exact hgood hg
        · exact hready.1.ne' hz
        · exact hnot hready.2
      · rw [if_neg (by simpa using hready), if_pos (c := (∃ hot, o = .good hot) ∨ _)]
        by_cases hz : n = 0
        · exact .inr (.inl hz)
        · exact .inr (.inr fun hs => hready ⟨Nat.pos_of_ne_zero hz, hs⟩)
    cases o with
    | good hot =>
      dsimp only
      rw [if_pos (.inl ⟨hot, rfl⟩)]
    | refused => exact hback nofun
    | failed => exact hback nofun

/-- A dispatch decision leaves every panel its record and its desired tag (R132). -/
theorem State.dispatch_panel {a : Nat} {r : Panel} (h : s.dispatch.panel? a = some r) :
    ∃ p, s.panel? a = some p ∧ r.record = p.record ∧ r.desired = p.desired := by
  have hfind (v : State) : (v.panel? a).map Panel.look = (v.bus.panels.map Panel.look).find? (·.addr = a) := by
    rw [List.find?_map]
    rfl
  have hlook : (s.dispatch.panel? a).map Panel.look = (s.panel? a).map Panel.look := by
    rw [hfind, hfind, s.dispatch_alike.panels]
  have hrecord := State.panel?_of_records s.dispatch_records a
  rw [h, Option.map_some] at hlook hrecord
  obtain ⟨p, hp, hlook⟩ := Option.map_eq_some_iff.1 hlook.symm
  rw [hp, Option.map_some, Option.some.injEq] at hrecord
  exact ⟨p, hp, hrecord, (Panel.look_fields hlook.symm).2.2⟩

/-- A refused or failed urgent exchange of an ACTIVE panel with a retry left, with nothing before it (R141). -/
theorem State.endExchange_retried {x : Exchange} {q r : Panel} (h : s.panel? x.addr = some q) {o : Outcome}
    {n : Nat} (hurgent : x.urgent = some (n + 1)) (hrset : x.rset = false) (hstart : x.startState = .active)
    (hstate : q.state = .active) (ho : o.Bad) (hnone : s.bus.urgent = []) (hr : (s.endExchange x o).panel? x.addr = some r)
    (hactive : r.state = .active)
    (hstale : r.desired ≠ r.acked ∨ r.ackedLevel ≠ some r.desiredLevel) :
    ∃ y, (s.endExchange x o).bus.exchange = some y ∧ y.addr = x.addr ∧ y.urgent = some n := by
  have hended : (s.exchangeEnded x o).panel? x.addr = some (q.endOfExchange s.runTime o) := by
    rw [State.exchangeEnded_panel?, if_pos rfl, h, Option.map_some]
  have hact : (s.exchangeEnded x o).actOn x o = s.exchangeEnded x o := by
    simp only [State.actOn, hstart]
    cases o with
    | good hot => exact absurd rfl (ho hot)
    | refused => rfl
    | failed => rfl
  have hu : (s.exchangeEnded x o).outcomeActed x o =
      { s.exchangeEnded x o with bus := { (s.exchangeEnded x o).bus with urgent := [⟨x.addr, n⟩] } } := by
    have hq : (q.endOfExchange s.runTime o).state = .active := hstate
    have hurgents : (s.exchangeEnded x o).bus.urgent = [] := hnone
    have hgood : ¬∃ hot, o = .good hot := fun ⟨hot, hh⟩ => ho hot hh
    rw [State.outcomeActed_taken hended (by simp [hrset, hq, hstart]), hact, State.reappendUrgent_eq hended]
    simp [hurgent, hgood, hq, hurgents]
  have heq := State.endExchange_eq x o s
  rw [hu] at heq
  obtain ⟨hidle, hlist⟩ := State.recompose_line
    { s.exchangeEnded x o with bus := { (s.exchangeEnded x o).bus with urgent := [⟨x.addr, n⟩] } }
  revert heq hidle hlist
  generalize ({ s.exchangeEnded x o with bus := { (s.exchangeEnded x o).bus with urgent := [⟨x.addr, n⟩] } } :
    State).recompose = w
  intro heq hidle hlist
  rw [heq] at hr ⊢
  have hsettled (v : State) (a : Nat) : v.settleAttention.panel? a = v.panel? a := by
    rw [State.panel?, State.panel?, State.settleAttention_bus]
  rw [hsettled] at hr
  obtain ⟨p, hp, hrecord, hdesired⟩ := State.dispatch_panel hr
  have hacked : r.acked = p.acked := (congrArg Panel.acked hrecord :)
  have hlevel : r.ackedLevel = p.ackedLevel := (congrArg Panel.ackedLevel hrecord :)
  have hwanted : r.desiredLevel = p.desiredLevel := (congrArg Panel.desiredLevel hrecord :)
  have hrstate : r.state = p.state := (congrArg Panel.state hrecord :)
  rw [hdesired, hacked, hlevel, hwanted] at hstale
  have hwants : p.wantsFrame = true := p.wantsFrame_iff.2 ⟨.inl (hrstate.symm.trans hactive), hstale⟩
  have hpick : urgentPick w.bus.panels w.bus.urgent = (some (⟨x.addr, n⟩, p), []) := by
    rw [hlist]
    exact urgentPick_first (before := []) nofun hp hwants
  rw [State.settleAttention_bus, State.dispatch_urgent (hidle.trans rfl) hpick]
  exact ⟨_, rfl, (State.panel?_some hp).2, rfl⟩

theorem State.actOn_undisturbed (x : Exchange) (o : Outcome) (s : State) : s.Undisturbed (s.actOn x o) := by
  have hfails : s.Undisturbed ((s.updPanel x.addr Panel.clearFlags).failPanel x.addr) :=
    State.Undisturbed.trans (t := s.updPanel x.addr Panel.clearFlags) (.of_blocks rfl rfl rfl)
      (State.failPanel_undisturbed ..)
  unfold State.actOn
  cases x.startState with
  | absent => exact .of_blocks rfl rfl rfl
  | active =>
    cases o with
    | good hot => exact (State.acknowledge_before x hot s).undisturbed
    | refused => exact .of_blocks rfl rfl rfl
    | failed => exact .of_blocks rfl rfl rfl
  | probing =>
    cases o with
    | good hot => exact (State.acknowledge_before x hot s).undisturbed.trans (.of_blocks rfl rfl rfl)
    | refused => exact hfails
    | failed => exact hfails
  | failed =>
    cases o with
    | good hot =>
      have hcounted := (State.takeStatus_before x.addr hot s).undisturbed.trans
        (u := (s.takeStatus x.addr hot).updPanel x.addr Panel.probedOnce) (.of_blocks rfl rfl rfl)
      dsimp only
      rw [State.probeOutcome_good]
      split
      · refine State.Undisturbed.trans ?_ (State.post_undisturbed ..)
        refine State.Undisturbed.trans ?_ (State.recompose_undisturbed _)
        exact hcounted.trans (.of_blocks rfl rfl rfl)
      · exact hcounted
    | refused => exact .of_blocks rfl rfl rfl
    | failed => exact .of_blocks rfl rfl rfl

theorem State.endExchange_undisturbed (x : Exchange) (o : Outcome) (s : State) : s.Undisturbed (s.endExchange x o) := by
  have hserved (v : State) : v.Undisturbed v.dispatch.settleAttention :=
    .of_blocks v.dispatch_table v.dispatch_cues v.dispatch_wall
  rw [State.endExchange_eq]
  refine State.Undisturbed.trans ?_ (hserved _)
  refine State.Undisturbed.trans ?_ (State.recompose_undisturbed _)
  refine State.Undisturbed.trans (t := s.exchangeEnded x o) (.of_blocks rfl rfl rfl) ?_
  unfold State.outcomeActed
  split
  · exact .of_blocks rfl rfl rfl
  · obtain ⟨l, hl⟩ := State.reappendUrgent_urgent x o ((s.exchangeEnded x o).actOn x o)
    rw [hl]
    exact (State.actOn_undisturbed x o _).trans (.of_blocks rfl rfl rfl)

/-- The record of the panel of an exchange after its end (R134 to R138). -/
theorem State.endExchange_panel {x : Exchange} {q : Panel} (hok : s.PanelsOk) (h : s.panel? x.addr = some q) (o : Outcome) :
    ∃ r, (s.endExchange x o).panel? x.addr = some r ∧
      r.record = (q.outcome x o s.runTime (s.zoneLevel q.zone)).record := by
  have honly := State.endExchange_only hok h o x.addr
  rw [if_pos rfl] at honly
  exact Option.map_eq_some_iff.1 honly

theorem Panel.outcome_discarded {x : Exchange} {q : Panel} (hx : x.rset = true ∨ q.state ≠ x.startState) (o : Outcome)
    (now level : Nat) :
    q.outcome x o now level =
      { q with addressed := true, errored := q.errored || decide (∀ b, o ≠ .good b), lastServed := some now } := by
  rw [Panel.outcome, if_pos hx]
  by_cases ho : o.Bad
  · rw [Panel.endOfExchange_bad ho, decide_eq_true (show ∀ b, o ≠ .good b from ho), Bool.or_true]
  · obtain ⟨hot, rfl⟩ : ∃ hot, o = .good hot := not_forall_not.1 ho
    rw [Panel.endOfExchange_good, decide_eq_false (show ¬∀ b, Outcome.good hot ≠ .good b from ho), Bool.or_false]

theorem Panel.outcome_good {x : Exchange} {q : Panel} (hrset : x.rset = false) (hstate : q.state = x.startState) (hot : Bool)
    (now level : Nat) :
    q.outcome x (.good hot) now level =
      ({ q with addressed := true, lastServed := some now } : Panel).acted x (.good hot) level := by
  rw [Panel.outcome, if_neg (by simp [hrset, hstate]), Panel.endOfExchange_good]

theorem Panel.outcome_bad {x : Exchange} {q : Panel} (hrset : x.rset = false) (hstate : q.state = x.startState)
    {o : Outcome} (ho : o.Bad) (now level : Nat) :
    q.outcome x o now level =
      ({ q with addressed := true, errored := true, lastServed := some now } : Panel).acted x o level := by
  rw [Panel.outcome, if_neg (by simp [hrset, hstate]), Panel.endOfExchange_bad ho]

theorem Panel.acted_served (x : Exchange) (o : Outcome) (level : Nat) (p : Panel) :
    (p.acted x o level).lastServed = p.lastServed := by
  by_cases ho : o.Bad
  · rw [Panel.acted_bad ho]
    cases x.startState <;> rfl
  · obtain ⟨hot, rfl⟩ : ∃ hot, o = .good hot := not_forall_not.1 ho
    have hheated (p : Panel) : (p.heated level hot).lastServed = p.lastServed := by rw [Panel.heated_eq]
    unfold Panel.acted
    cases x.startState with
    | absent => rfl
    | active => exact hheated _
    | probing => exact hheated _
    | failed =>
      dsimp only
      unfold Panel.probed
      split <;> exact hheated p

theorem Panel.outcome_served (x : Exchange) (o : Outcome) (now level : Nat) (q : Panel) :
    (q.outcome x o now level).lastServed = some now := by
  unfold Panel.outcome
  split
  · rfl
  · exact Panel.acted_served x o level _

theorem Panel.probed_overtemp (p : Panel) : p.probed.overtemp = p.overtemp := by
  unfold Panel.probed
  split <;> rfl

theorem Panel.probed_few {p : Panel} (h : p.goodRun < 2) : p.probed = p.probedOnce :=
  if_neg (Nat.not_le.2 (Nat.succ_lt_succ h))

theorem Panel.probed_third {p : Panel} (h : p.goodRun = 2) : p.probed = p.probedOnce.recovered :=
  if_pos (show p.goodRun + 1 ≥ 3 by rw [h])

/-- Settles O46, by the panel the outcome acts on and by the one evaluation at most that it makes of its own. -/
theorem outcomesMoveThePanel : Obligations.OutcomesMoveThePanel := by
  intro s i ms x w o q now hp hok hx hphase hq hnow hi
  have hexec : exec i s = .next ((s.atMs ms).endExchange x o) := by
    obtain ⟨octets, rfl, rfl⟩ | ⟨rfl, hlate, rfl⟩ := hi
    · simp [exec, execPanelReplyReceived, Bus.awaiting_some hx hphase, State.answer, hp]
    · have hlate' : w + 5 ≤ (s.atMs ms).runTime := hlate.trans_eq hnow
      simp [exec, execReplyWindowClose, Bus.awaiting_some hx hphase, hlate', State.answer, hp]
  have hnow' : (s.atMs ms).runTime = now := hnow.symm
  obtain ⟨r, hr, hrecord⟩ := State.endExchange_panel (s := s.atMs ms) hok hq o
  rw [hnow', show (s.atMs ms).zoneLevel q.zone = s.zoneLevel q.zone from rfl] at hrecord
  have hlevel : r.desiredLevel = (q.outcome x o now (s.zoneLevel q.zone)).desiredLevel :=
    (congrArg Panel.desiredLevel hrecord :)
  have hhot : r.overtemp = (q.outcome x o now (s.zoneLevel q.zone)).overtemp := (congrArg Panel.overtemp hrecord :)
  have hserved : r.lastServed = (q.outcome x o now (s.zoneLevel q.zone)).lastServed := (congrArg Panel.lastServed hrecord :)
  have hlevels : ((q.outcome x o now (s.zoneLevel q.zone)).overtemp ≠ q.overtemp →
        (q.outcome x o now (s.zoneLevel q.zone)).desiredLevel =
          min (s.zoneLevel q.zone) (if (q.outcome x o now (s.zoneLevel q.zone)).overtemp then 6 else 15)) ∧
      ((q.outcome x o now (s.zoneLevel q.zone)).overtemp = q.overtemp →
        (q.outcome x o now (s.zoneLevel q.zone)).desiredLevel = q.desiredLevel) := by
    unfold Panel.outcome
    split
    · exact ⟨fun h => absurd rfl h, fun _ => rfl⟩
    · exact Panel.acted_level x o _ (q.endOfExchange now o)
  have hundisturbed := (s.atMs ms).endExchange_undisturbed x o
  have hsources := State.endExchange_sources x o (s.atMs ms)
  refine ⟨_, r, hexec, hr, ?_, fun hx => ?_, fun hrset hstate => ⟨fun ha => ⟨fun hot ho => ?_, fun ho => ?_⟩,
    fun hpr => ⟨fun hot ho => ?_, fun ho => ⟨?_, ?_⟩⟩, fun hf => ⟨fun hot ho => ⟨?_, fun hless => ?_, fun htwo => ?_⟩, fun ho => ?_⟩⟩,
    State.endExchange_judged (s := s.atMs ms) hok hq o, fun l => ?_, fun n hn hrset hstart ha ho hnone hstale => ?_, ?_, ?_, fun a ha => ?_,
    State.time_of_sources hsources, hundisturbed.facts, hundisturbed.cues, hundisturbed.board, (congrArg Sources.lines hsources :),
      (congrArg Sources.sense hsources :), (congrArg Sources.store hsources :), (congrArg Sources.inForce hsources :),
      fun p => State.endExchange_link p x o (s.atMs ms)⟩
  · rw [hserved, Panel.outcome_served]
  · rw [hrecord, Panel.outcome_discarded hx]
    rfl
  · have hstart : x.startState = .active := hstate.symm.trans ha
    subst ho
    rw [hlevel, hrecord, Panel.outcome_good hrset hstate]
    simp only [Panel.acted, hstart, Panel.heated_eq]
    rfl
  · have hstart : x.startState = .active := hstate.symm.trans ha
    rw [hrecord, Panel.outcome_bad hrset hstate ho, Panel.acted_bad ho, hstart]
    rfl
  · have hstart : x.startState = .probing := hstate.symm.trans hpr
    subst ho
    rw [hlevel, hrecord, Panel.outcome_good hrset hstate]
    simp only [Panel.acted, hstart, Panel.heated_eq]
    rfl
  · have hstart : x.startState = .probing := hstate.symm.trans hpr
    rw [hrecord, Panel.outcome_bad hrset hstate ho, Panel.acted_bad ho, hstart]
    rfl
  · have hstart : x.startState = .probing := hstate.symm.trans hpr
    have hsaid := State.endExchange_noticed (s := s.atMs ms) hq (by simp [hrset, hstate]) (State.actOn_failed hstart ho _)
    exact hsaid
  · have hstart : x.startState = .failed := hstate.symm.trans hf
    subst ho
    rw [hhot, Panel.outcome_good hrset hstate]
    simp only [Panel.acted, hstart, Panel.heated_eq, Panel.probed_overtemp]
  · have hstart : x.startState = .failed := hstate.symm.trans hf
    subst ho
    have hprobed : r.record = (({ q with addressed := true, lastServed := some now } : Panel).heated
        (s.zoneLevel q.zone) hot).probedOnce.record := by
      rw [hrecord, Panel.outcome_good hrset hstate]
      simp only [Panel.acted, hstart]
      rw [Panel.probed_few (by rw [Panel.heated_eq]; exact hless)]
    rw [Panel.heated_eq] at hprobed
    exact ⟨(congrArg Panel.state hprobed :).trans hf, (congrArg Panel.goodRun hprobed :), (congrArg Panel.acked hprobed :),
      (congrArg Panel.ackedLevel hprobed :)⟩
  · have hstart : x.startState = .failed := hstate.symm.trans hf
    subst ho
    have hprobed : r.record = (({ q with addressed := true, lastServed := some now } : Panel).heated
        (s.zoneLevel q.zone) hot).probedOnce.recovered.record := by
      rw [hrecord, Panel.outcome_good hrset hstate]
      simp only [Panel.acted, hstart]
      rw [Panel.probed_third (by rw [Panel.heated_eq]; exact htwo)]
    obtain ⟨-, -, -, -, habsent⟩ := hok
    have hconf : q.role ≠ .none := fun hrole =>
      absurd (hf.symm.trans ((habsent q (State.panel?_some hq).1).2 hrole)) nofun
    have hended : ((s.atMs ms).exchangeEnded x (.good hot)).panel? x.addr =
        some (q.endOfExchange (s.atMs ms).runTime (.good hot)) := by
      rw [State.exchangeEnded_panel?, if_pos rfl]
      exact congrArg (Option.map _) hq
    have hsaid := State.endExchange_noticed (s := s.atMs ms) hq (by simp [hrset, hstate])
      (State.actOn_recovered hstart hended hconf htwo hot)
    exact ⟨(congrArg Panel.state hprobed :), (congrArg Panel.ec hprobed :), (congrArg Panel.goodRun hprobed :),
      (congrArg Panel.addressed hprobed :), (congrArg Panel.errored hprobed :), (congrArg Panel.acked hprobed :),
      (congrArg Panel.ackedLevel hprobed :), hsaid⟩
  · have hstart : x.startState = .failed := hstate.symm.trans hf
    rw [hrecord, Panel.outcome_bad hrset hstate ho, Panel.acted_bad ho, hstart]
    rfl
  · exact State.reappendUrgent_eq (s := { s with bus := { s.bus with urgent := l } }) hq o
  · have hactive : r.state = .active := by
      have hstate : r.state = (q.outcome x o now (s.zoneLevel q.zone)).state := (congrArg Panel.state hrecord :)
      rw [hstate, Panel.outcome_bad hrset (ha.trans hstart.symm) ho, Panel.acted_bad ho, hstart]
      exact ha
    exact State.endExchange_retried (s := s.atMs ms) hq hn hrset hstart ha ho hnone hr hactive hstale
  · rw [hlevel, hhot]
    exact hlevels.1
  · rw [hlevel, hhot]
    exact hlevels.2
  · rw [State.endExchange_only (s := s.atMs ms) hok hq o a, if_neg ha]
    rfl

end Sys2Proof.Machine
end

section
/-! PROOF. What every frame carries: the level caps and the next number (R132, R133, R148). -/
namespace Sys2Proof.Machine

open Sys2Proof

variable {s t u v : State}

/-! ## The frame in flight -/

/-- The exchange in flight is under the number last given, carries the panel's desired level under the caps, and stands
recorded with the panel (R132, R133, R148). -/
def State.Framed (t : State) : Prop :=
  ∀ x, t.bus.exchange = some x →
    x.seq = t.bus.seq ∧ x.phase = .sending ∧ x.level ≤ t.inForce.ceiling ∧
      ∃ q, t.panel? x.addr = some q ∧ q.state ≠ .absent ∧ (q.overtemp = true → x.level ≤ 6) ∧
        x.level = min (min q.desiredLevel t.inForce.ceiling) (if q.overtemp then 6 else 15) ∧
        q.sentLevel = some x.level ∧ (x.content ≠ .polf → q.sent = q.desired)

/-- The panels hold every address once. -/
def State.Addressed (s : State) : Prop := (s.bus.panels.map (·.addr)).Nodup

theorem State.addressed_of_records (h : t.records = s.records) : t.Addressed ↔ s.Addressed := by
  have hmap (w : State) : w.bus.panels.map (·.addr) = w.records.map (·.addr) := by
    rw [State.records, List.map_map]
    rfl
  rw [State.Addressed, State.Addressed, hmap, hmap, h]

theorem Panel.carriedLevel_caps (ceiling : Nat) (p : Panel) :
    p.carriedLevel ceiling ≤ ceiling ∧ (p.overtemp = true → p.carriedLevel ceiling ≤ 6) := by
  unfold Panel.carriedLevel
  refine ⟨(Nat.min_le_left _ _).trans (Nat.min_le_right _ _), fun h => ?_⟩
  rw [if_pos h]
  exact Nat.min_le_right _ _

/-- What an exchange begun with a configured panel carries (R132, R133, R148). -/
theorem State.startExchange_framed {p : Panel} (h : s.panel? p.addr = some p) (hstate : p.state ≠ .absent) (n : Option Nat) :
    (s.startExchange p n).bus.seq = s.bus.seq + 1 ∧ (s.startExchange p n).Framed := by
  refine ⟨rfl, fun x hx => ?_⟩
  cases hx
  obtain ⟨hceiling, hhot⟩ := p.carriedLevel_caps s.inForce.ceiling
  have hput := State.panel?_updPanel (a := p.addr)
    (f := fun q => { q with
      sent := if s.frameFor p = .polf then q.sent else p.desired, sentLevel := some (p.carriedLevel s.inForce.ceiling) })
    (fun _ => rfl) p.addr s
  rw [if_pos rfl, h, Option.map_some] at hput
  exact ⟨rfl, rfl, hceiling, _, hput, hstate, hhot, rfl, rfl, fun hc => if_neg hc⟩

theorem State.needsService_state {p : Panel} (h : s.needsService p = true) : p.state ≠ .absent := by
  simp only [State.needsService, Bool.or_eq_true, State.keepaliveIsDue_iff, State.probeIsDue_iff, Panel.wantsFrame_iff] at h
  obtain (⟨hs | hs, -⟩ | ⟨hs, -⟩) | ⟨hs, -⟩ := h <;> exact hs.trans_ne nofun

theorem urgentPick_some {panels : List Panel} {l rest : List Urgent} {v : Urgent} {p : Panel}
    (h : urgentPick panels l = (some (v, p), rest)) : panels.find? (·.addr = v.addr) = some p ∧ p.wantsFrame = true := by
  induction l with
  | nil => cases h
  | cons b l ih =>
    rw [urgentPick] at h
    split at h
    · next q hq =>
      split at h
      · next hwants =>
        cases h
        exact ⟨hq, hwants⟩
      · exact ih h
    · exact ih h

theorem State.panel?_of_mem (h : s.Addressed) {p : Panel} (hp : p ∈ s.bus.panels) : s.panel? p.addr = some p := by
  cases hq : s.panel? p.addr with
  | none => exact absurd (List.find?_eq_none.1 hq p hp) (by simp)
  | some q =>
    obtain ⟨hm, haddr⟩ := State.panel?_some hq
    rw [panel_unique h hm hp haddr]

/-- A dispatch decision leaves the number as it was, or begins an exchange under the next (R132, R139). -/
theorem State.dispatch_framed (s : State) :
    (s.dispatch.bus.seq = s.bus.seq ∧ s.dispatch.bus.exchange = s.bus.exchange) ∨ (s.dispatch.bus.seq = s.bus.seq + 1 ∧ (s.Addressed → s.dispatch.Framed)) := by
  unfold State.dispatch
  split
  · exact .inl ⟨rfl, rfl⟩
  · split
    · next v p rest hpick =>
      obtain ⟨hp, hwants⟩ := urgentPick_some hpick
      have hstate : p.state ≠ .absent := by
        obtain ⟨hs | hs, -⟩ := p.wantsFrame_iff.1 hwants <;> exact hs.trans_ne nofun
      have haddr : p.addr = v.addr := (State.panel?_some (s := s) hp).2
      refine .inr ⟨rfl, fun _ => (State.startExchange_framed ?_ hstate _).2⟩
      show s.bus.panels.find? (·.addr = p.addr) = some p
      rw [haddr, hp]
    · dsimp only
      split
      · next p hfind =>
        have hm := (State.mem_cycleOrder _ p).1 (List.mem_of_find?_eq_some hfind)
        have hneeds := List.find?_some hfind
        refine .inr ⟨rfl, fun hs => (State.startExchange_framed ?_ (State.needsService_state hneeds) _).2⟩
        exact State.panel?_of_mem (s := s) hs hm
      · exact .inl ⟨rfl, rfl⟩

/-! ## The number along a command -/

/-- From `s` to `t` no frame was begun, and the panels still hold every address once. -/
structure State.Unsent (s t : State) : Prop where
  seq : t.bus.seq = s.bus.seq
  addressed : s.Addressed → t.Addressed

theorem State.Unsent.trans (h : s.Unsent t) (k : t.Unsent u) : s.Unsent u := ⟨k.seq.trans h.seq, k.addressed ∘ h.addressed⟩

theorem State.Unsent.of_bus (h : t.bus = s.bus) : s.Unsent t := ⟨by rw [h], by rw [State.Addressed, State.Addressed, h]; exact id⟩

theorem State.Steady.unsent (h : s.Steady t) : s.Unsent t :=
  ⟨(congrArg Bus.seq h.line :), (State.addressed_of_records h.records).2⟩

theorem State.Base.unsent (h : s.Base t) : s.Unsent t :=
  ⟨(congrArg Bus.seq h.line.line :), (State.addressed_of_records h.records).2⟩

theorem State.addressed_of_roles (h : t.roles = s.roles) : t.Addressed ↔ s.Addressed := by
  have hmap (w : State) : w.bus.panels.map (·.addr) = w.roles.map (·.1) := by
    rw [State.roles, List.map_map]
    rfl
  rw [State.Addressed, State.Addressed, hmap, hmap, h]

theorem State.Unsent.of_roles (hseq : t.bus.seq = s.bus.seq) (hroles : t.roles = s.roles) : s.Unsent t :=
  ⟨hseq, (State.addressed_of_roles hroles).2⟩

/-- From `s` to `t` no frame was begun, or one, which is in flight under the next number. -/
def State.Sends (s t : State) : Prop := t.bus.seq = s.bus.seq ∨ (t.bus.seq = s.bus.seq + 1 ∧ (s.Addressed → t.Framed))

theorem State.Sends.refl (s : State) : s.Sends s := .inl rfl

theorem State.Unsent.sends (h : s.Unsent t) : s.Sends t := .inl h.seq

theorem State.Framed.of_blocks (h : s.Framed) (hbus : t.bus = s.bus) (hin : t.inForce = s.inForce) : t.Framed := by
  intro x hx
  rw [hbus] at hx
  have := h x hx
  rwa [State.panel?, hbus, hin]

theorem State.Sends.bus (h : s.Sends t) (hbus : u.bus = t.bus) (hin : u.inForce = t.inForce) : s.Sends u :=
  h.imp (fun h => hbus ▸ h) fun h => ⟨hbus ▸ h.1, fun hs => (h.2 hs).of_blocks hbus hin⟩

theorem State.Unsent.then (h : s.Unsent t) (k : t.Sends u) : s.Sends u :=
  k.imp (·.trans h.seq) fun k => ⟨k.1.trans (congrArg (· + 1) h.seq), k.2 ∘ h.addressed⟩

theorem State.dispatch_sends (s : State) : s.Sends s.dispatch := s.dispatch_framed.imp (·.1) id

theorem State.served_sends (s : State) : s.Sends s.dispatch.settleAttention :=
  s.dispatch_sends.bus (State.settleAttention_bus _) rfl

theorem State.finish_sends (h : s.Unsent v) (old : State) : s.Sends (v.finish old) := by
  refine h.then ?_
  unfold State.finish State.serve
  split
  · exact v.served_sends
  · exact (State.Sends.refl v).bus (State.settleAttention_bus _) rfl

theorem State.settle_sends (h : s.Unsent v) (old : State) : s.Sends (v.settle old) :=
  State.finish_sends (h.trans (State.recompose_steady v).unsent) old

theorem State.amendEntry_sends (old new : Entry) (s : State) : s.Sends (s.amendEntry old new).1 := by
  unfold State.amendEntry
  split
  · exact .refl s
  · dsimp only
    have hchange := (State.changeEntry_steady old (s.retest old new) s).unsent
    split
    · exact hchange.sends
    · exact State.settle_sends hchange s

theorem State.cancelEntry_sends (e : Entry) (reason : Option Text) (s : State) : s.Sends (s.cancelEntry e reason) := by
  refine State.settle_sends ?_ s
  exact ((State.changeEntry_steady ..).trans ((State.voidRecord_steady ..).trans ((State.withdrawWhere_steady ..).trans
    ((State.trigger_steady ..).trans (State.appendUrgent_steady ..))))).unsent

theorem State.refilter_sends (e : Entry) (g : Filter) (runs : Bool) (s : State) : s.Sends (s.refilter e g runs) := by
  unfold State.refilter
  dsimp only
  split
  · exact State.amendEntry_sends ..
  · exact .refl s

theorem planOwner_sends (f : PlanFields) (s : State) : s.Sends (planOwner f s).1 := by
  unfold planOwner
  split
  · exact .refl s
  · split
    · exact .refl s
    · refine State.settle_sends ?_ s
      refine State.Unsent.trans ?_ (State.cueHandover_steady ..).unsent
      exact .of_bus rfl

theorem amndOwner_sends (f : AmndFields) (s : State) : s.Sends (amndOwner f s).1 := by
  refine State.onEntry_rel (R := s.Sends) (.refl s) fun e he _ hin => ?_
  dsimp only [State.acceptRevision]
  split
  · exact .refl s
  · exact State.amendEntry_sends ..

theorem dlayOwner_sends (f : DlayFields) (s : State) : s.Sends (dlayOwner f s).1 :=
  State.onEntry_rel (R := s.Sends) (.refl s) fun _ _ _ _ => State.amendEntry_sends ..

theorem cancOwner_sends (f : CancFields) (s : State) : s.Sends (cancOwner f s).1 := by
  refine State.onEntry_rel (R := s.Sends) (.refl s) fun e _ _ _ => ?_
  dsimp only [State.acceptRevision]
  split
  · exact State.amendEntry_sends ..
  · exact State.cancelEntry_sends ..

theorem rinsOwner_sends (run : Nat) (s : State) : s.Sends (rinsOwner run s).1 := by
  refine State.onEntry_rel (R := s.Sends) (.refl s) fun e _ _ _ => ?_
  dsimp only [State.acceptRevision]
  split
  · exact State.settle_sends ((State.withdrawWhere_steady ..).trans (State.changeEntry_steady ..)).unsent s
  · exact .refl s

theorem platOwner_sends (f : PlatFields) (s : State) : s.Sends (platOwner f s).1 :=
  State.onEntry_rel (R := s.Sends) (.refl s) fun _ _ _ _ => State.amendEntry_sends ..

theorem predOwner_sends (f : PredFields) (s : State) : s.Sends (predOwner f s).1 := by
  refine State.onEntry_rel (R := s.Sends) (.refl s) fun e _ _ _ => ?_
  dsimp only [State.acceptRevision]
  split
  · exact State.refilter_sends ..
  · exact State.refilter_sends ..

theorem rdysOwner_sends (run : Nat) (s : State) : s.Sends (rdysOwner run s).1 :=
  State.onEntry_rel (R := s.Sends) (.refl s) fun _ _ _ _ => State.amendEntry_sends ..

theorem deptOwner_sends (run : Nat) (s : State) : s.Sends (deptOwner run s).1 := by
  refine State.onEntry_rel (R := s.Sends) (.refl s) fun e _ _ _ => ?_
  dsimp only [State.acceptRevision]
  split
  · exact .refl s
  · exact State.settle_sends ((State.changeEntry_steady ..).trans (State.voidRecord_steady ..)).unsent s

theorem timeOwner_sends (p : PortId) (n : Nat) (s : State) : s.Sends (timeOwner p n s).1 := by
  have hstep (d : Int) : s.Sends (s.stepClock n d p) := by
    refine State.finish_sends ?_ s
    refine State.Unsent.trans ?_ ((State.recompose_steady _).trans (State.post_steady ..)).unsent
    refine State.Unsent.trans ?_ (State.announceTime_steady ..).unsent
    split
    · exact State.Unsent.trans (t := { s with time := { s.time.accept with clock := n, slew := 0, held := false } })
        (.of_bus rfl) (State.rollover_steady _).unsent
    · exact .of_bus rfl
  unfold timeOwner
  split_ifs
  · exact .refl s
  · exact .refl s
  · exact .inl rfl
  · dsimp only
    split
    · exact .refl s
    · split
      · exact .inl rfl
      · exact hstep _

theorem State.speak_sends (done : Bool) (c : Cue) (t : Taken) (s : State) : s.Sends (s.speak done c t).1 := by
  rw [State.speak_eq]
  exact State.settle_sends ((State.spokenOut_base (s := s) done c t).unsent.trans (State.cueEnded_steady ..).unsent) s

theorem spknOwner_sends (f : SpknFields) (s : State) : s.Sends (spknOwner f s).1 := by
  unfold spknOwner
  split
  · exact .refl s
  · split
    · exact .refl s
    · exact State.speak_sends ..

theorem takeOwner_sends (s : State) : s.Sends (takeOwner s).1 := by
  unfold takeOwner State.giveCue
  repeat' split
  all_goals exact .inl rfl

theorem State.removeNotice_sends (number : Nat) (s : State) : s.Sends (s.removeNotice number) :=
  State.settle_sends (.trans (.of_bus rfl) (State.endNoticeMode_base (s := s.withWall _)).unsent) s

theorem noteOwner_sends (f : NoteFields) (s : State) : s.Sends (noteOwner f s).1 := by
  unfold noteOwner
  split
  · exact .refl s
  · split
    · exact .refl s
    · exact State.settle_sends (.trans (.of_bus rfl) (State.endNoticeMode_base (s := s.withWall _)).unsent) s

theorem nclrOwner_sends (n : Nat) (s : State) : s.Sends (nclrOwner n s).1 := by
  unfold nclrOwner
  split
  · dsimp only
    split
    · exact State.removeNotice_sends ..
    · exact .refl s
  · exact .refl s

theorem wallOwner_sends (n : Nat) (s : State) : s.Sends (wallOwner n s).1 := by
  unfold wallOwner
  split_ifs
  · exact .refl s
  · exact .refl s
  · exact .refl s
  · exact State.settle_sends (s := s) (v := s.withWall { s.wall with mode := wallModeOf n }) (.of_bus rfl) s

theorem State.failPanel_unsent (a : Nat) (s : State) : s.Unsent (s.failPanel a) := by
  refine State.Unsent.trans (t := s.updPanel a fun p => { p with state := .failed, ec := 0, goodRun := 0 }) ?_
    (((State.waiveRows_steady a _).trans (State.recompose_steady _)).trans (State.post_steady ..)).unsent
  exact .of_roles rfl (State.updPanel_roles (f := fun p => { p with state := .failed, ec := 0, goodRun := 0 }) a
    (fun _ => ⟨rfl, rfl⟩) s)

theorem State.Unsent.foldl {α : Type} {f : State → α → State} (h : ∀ (s : State) (a : α), s.Unsent (f s a)) (l : List α)
    (s : State) : s.Unsent (l.foldl f s) := by
  induction l generalizing s with
  | nil => exact .of_bus rfl
  | cons a l ih => exact (h s a).trans (ih (f s a))

theorem State.failAbove_unsent (s : State) : s.Unsent s.failAbove := by
  rw [State.failAbove_eq]
  exact State.Unsent.foldl (fun t a => State.failPanel_unsent a t) ..

theorem State.afterConf_sends (h : s.Unsent v) (n : Nat) (old : State) : s.Sends (v.afterConf n old) := by
  unfold State.afterConf
  split_ifs
  · exact .inl h.seq
  · exact State.settle_sends (h.trans (u := v.reclass old.inForce.lateness) (.of_bus rfl)) old
  · exact .inl h.seq
  · exact State.settle_sends (h.trans (u := v.testHolds) (.of_bus rfl)) old
  · exact .inl h.seq
  · exact .inl h.seq
  · exact State.settle_sends h old
  · exact State.finish_sends (h.trans v.failAbove_unsent) old
  · exact .inl h.seq

theorem confOwner_sends (f : ConfFields) (s : State) : s.Sends (confOwner f s).1 := by
  unfold confOwner
  split
  · exact .refl s
  · have hbus (v : Nat) (b : Bool) : (s.setParameter f.number v b).bus = s.bus := (State.setParameter_blocks ..).1
    dsimp only
    split
    · exact .inl (by rw [hbus])
    · exact State.afterConf_sends (.of_bus (hbus ..)) ..

theorem State.second_sends (s : State) : s.Sends s.second := by
  have hcount : s.Unsent { s.judgeLimits.countSecond with time := s.judgeLimits.countSecond.time.advance } :=
    State.Unsent.trans (State.judgeLimits_base (s := s)).unsent (.of_bus rfl)
  unfold State.second
  dsimp only
  split_ifs
  · exact State.settle_sends (hcount.trans (State.minuteAdvanced_steady _).unsent) s
  · exact .inl hcount.seq
  · exact State.settle_sends hcount s

theorem State.endExchange_sends (hok : s.PanelsOk) (x : Exchange) (o : Outcome) : s.Sends (s.endExchange x o) := by
  rw [State.endExchange_eq]
  refine State.Unsent.then (t := ((s.exchangeEnded x o).outcomeActed x o).recompose) ?_ (State.served_sends _)
  refine State.Unsent.trans (.of_roles ?_ ?_) (State.recompose_steady _).unsent
  · unfold State.outcomeActed
    split
    · rfl
    · obtain ⟨l, hl⟩ := State.reappendUrgent_urgent x o ((s.exchangeEnded x o).actOn x o)
      rw [hl]
      exact (congrArg Bus.seq (State.actOn_onLine x o (s.exchangeEnded x o)).line :)
  · have hended := State.exchangeEnded_kept s.inForce.failThreshold x o s
    exact (State.outcomeActed_kept (s := s.exchangeEnded x o) (State.PanelsKept.panelsOk hok rfl hended) x o).roles.trans hended.roles

theorem State.endInterval_sends (s : State) : s.Sends s.endInterval := by
  have hmonitor (v : State) (q : Panel) : v.Unsent (v.monitor q) := by
    unfold State.monitor
    dsimp only
    split_ifs
    · exact State.failPanel_unsent ..
    · exact .of_roles rfl (State.updPanel_roles (f := fun p => { p with ec := q.counted v.inForce }) q.addr
        (fun _ => ⟨rfl, rfl⟩) v)
    · exact .of_bus rfl
  refine State.finish_sends ((State.Unsent.foldl hmonitor s.bus.panels s).trans ?_) s
  exact .of_roles rfl (State.clearIntervalFlags_kept 0 _).roles

theorem State.Dimmed.unsent (h : s.Dimmed t) : s.Unsent t := .of_roles (congrArg Bus.seq h.line.line :) h.roles

/-! ## Power and resets -/

theorem State.fresh_addressed {p : Params} (h : s.bus.panels = freshPanels p) : s.Addressed := by
  rw [State.Addressed, h, freshPanels_addr]
  exact List.nodup_range.map fun a b hab => by simpa using hab

theorem State.resetPicture_sends (s : State) : s.Sends s.resetPicture := by
  obtain ⟨u, v, hv, heq, hseq, hfresh⟩ : ∃ u v : State,
      v = (u.writeLevels fun _ => true).post [.planning, .signalling, .announcement] .restarted (.port .planning) ∧
        s.resetPicture = v.settle v ∧ u.bus.seq = s.bus.seq ∧
          u.bus.panels = freshPanels (s.inForce.withStructural s.pendingCfg) := ⟨_, _, rfl, rfl, rfl, rfl⟩
  rw [heq]
  refine State.settle_sends ?_ v
  rw [hv]
  refine State.Unsent.trans (t := u.writeLevels fun _ => true) ⟨hseq, fun _ => ?_⟩ (State.post_steady ..).unsent
  exact (State.addressed_of_roles (State.writeLevels_kept 0 (fun _ => true) u).roles).2 (State.fresh_addressed hfresh)

/-- After power-on the frame in flight is the first (R191). -/
theorem State.restart_framed (store : Store) (pending : List Instr) : (State.restart store pending).Framed := by
  obtain ⟨u, heq, hidle, hfresh⟩ : ∃ u : State,
      State.restart store pending = (u.writeLevels fun _ => true).recompose.dispatch.settleAttention ∧
        u.bus.exchange = none ∧ u.bus.panels = freshPanels (loadParams store.configuration) := ⟨_, rfl, rfl, rfl⟩
  have haddressed : (u.writeLevels fun _ => true).recompose.Addressed := by
    refine (State.recompose_steady _).unsent.addressed ?_
    exact (State.addressed_of_roles (State.writeLevels_kept 0 (fun _ => true) u).roles).2 (State.fresh_addressed hfresh)
  have hidle' : (u.writeLevels fun _ => true).recompose.bus.exchange = none := (State.recompose_line _).1.trans hidle
  rw [heq]
  refine State.Framed.of_blocks (s := (u.writeLevels fun _ => true).recompose.dispatch) ?_ (State.settleAttention_bus _) rfl
  obtain ⟨-, hx⟩ | ⟨-, hframed⟩ := State.dispatch_framed (u.writeLevels fun _ => true).recompose
  · intro x h
    rw [hx, hidle'] at h
    cases h
  · exact hframed haddressed

/-! ## Every command -/

theorem State.Sends.takeWith {α : Type} {finish : State → Answer → Answer} {p : PortId} {k : Kind}
    {read : List Octet → Option α} {owner : α → State → State × Answer} (h : s.takeWith finish p k read owner = .next t)
    (howner : ∀ f, s.Sends (owner f s).1) : s.Sends t :=
  State.takeWith_rel (R := s.Sends) h (.refl s) (fun _ _ _ hu => hu.bus rfl rfl) howner

theorem State.Sends.takeTel {α : Type} {p : PortId} {k : Kind} {read : List Octet → Option α}
    {owner : α → State → State × Answer} (h : s.takeTel p k read owner = .next t) (howner : ∀ f, s.Sends (owner f s).1) :
    s.Sends t := State.Sends.takeWith h howner

theorem State.Sends.answer (h : s.answer u = .next t) (hu : s.Sends u) : s.Sends t :=
  State.answer_rel (R := s.Sends) h (.refl s) hu

theorem State.Sends.answer_ite {c : Prop} [Decidable c] (h : s.answer (if c then u else s) = .next t)
    (hu : s.Sends u) : s.Sends t := State.answer_ite_rel (R := s.Sends) h (.refl s) fun _ => hu

theorem State.endImpulse_bus (l : Line) (i : Impulse) (s : State) : (s.endImpulse l i).bus = s.bus := by
  unfold State.endImpulse
  dsimp only
  repeat' split
  all_goals simp

/-- Every command but those that restart the block begins one frame at most (R132, R139). -/
theorem exec_sends {i : Instr} (hok : s.PanelsOk) (h : exec i s = .next t) (hon : i ≠ .powerOn) (hreset : i ≠ .resetPin)
    (hloss : ∀ cut, i ≠ .powerLoss cut) : s.Sends t := by
  have hself := State.Sends.refl s
  cases i with
  | powerOn => exact absurd rfl hon
  | resetPin => exact absurd rfl hreset
  | powerLoss cut => exact absurd rfl (hloss cut)
  | rset p => exact .takeTel (owner := fun _ u => (u.resetPicture, Answer.accept .none)) h fun _ => s.resetPicture_sends
  | wall p => exact .takeTel h fun f => wallOwner_sends f s
  | note p => exact .takeTel h fun f => noteOwner_sends f s
  | nclr p => exact .takeTel h fun f => nclrOwner_sends f s
  | plan p => exact .takeTel h fun f => planOwner_sends f s
  | amnd p => exact .takeTel h fun f => amndOwner_sends f s
  | dlay p => exact .takeTel h fun f => dlayOwner_sends f s
  | canc p => exact .takeTel h fun f => cancOwner_sends f s
  | rins p => exact .takeTel h fun f => rinsOwner_sends f s
  | plat p => exact .takeTel h fun f => platOwner_sends f s
  | pred p => exact .takeTel h fun f => predOwner_sends f s
  | rdys p => exact .takeTel h fun f => rdysOwner_sends f s
  | dept p => exact .takeTel h fun f => deptOwner_sends f s
  | read p => exact .takeTel h fun f => (readOwner_state f s).symm ▸ hself
  | csta p => exact .takeTel h fun f => (cstaOwner_state f s).symm ▸ hself
  | time p => exact .takeWith h fun n => timeOwner_sends p n s
  | take p => exact .takeTel (owner := fun _ => takeOwner) h fun _ => takeOwner_sends s
  | spkn p => exact .takeTel h fun f => spknOwner_sends f s
  | conf p => exact .takeTel h fun f => confOwner_sends f s
  | zone p =>
    refine .takeTel h fun f => ?_
    unfold zoneOwner
    split <;> exact .inl rfl
  | dial p =>
    refine .takeTel h fun f => ?_
    unfold dialOwner
    split
    · exact hself
    · refine .inl ?_
      unfold State.takeDial
      split <;> rfl
  | csav p => exact .takeTel (owner := fun _ u => (u.saveConfiguration, Answer.accept .none)) h fun _ => .inl rfl
  | poll p => exact .takeTel (owner := fun _ => pollOwner p) h fun _ => .inl rfl
  | telegramFrameEnd p ms octets | panelFrameEnd ms | lineCheckComplete ms value =>
    refine .answer h ?_
    split <;> exact .inl rfl
  | abortSequence p | strayPanelOctets octets => exact .answer h hself
  | replySent p ms | gapEnd zone => exact .answer_ite h (.inl rfl)
  | unknown p =>
    refine .answer h ?_
    split
    · split <;> exact .inl rfl
    · exact hself
  | silenceExpiry p => exact .answer_ite h (State.settle_sends (State.fallSilent_steady p s).unsent s)
  | runningSecond => exact .answer h s.second_sends
  | minuteAdvance => exact .answer_ite h s.second_sends
  | holdoverExpiry => exact .answer_ite h (State.Unsent.trans (.of_bus rfl) (State.post_steady ..).unsent).sends
  | predictionStale run =>
    refine .answer h ?_
    split
    · split
      · exact State.finish_sends (State.clearFilter_steady run s).unsent s
      · exact hself
    · exact hself
  | speakTimeout cue =>
    refine .answer h ?_
    split
    · split
      · exact (State.post_steady ..).unsent.then (State.speak_sends ..)
      · exact hself
    · exact hself
  | noticeExpiry number => exact .answer_ite h (s.removeNotice_sends number)
  | dwellExpiry =>
    refine .answer h ?_
    split
    · next i _ _ => exact State.settle_sends (s := s) (v := s.showItem i) (.of_bus rfl) s
    · exact hself
  | panelReplyReceived ms octets =>
    refine .answer h ?_
    split
    · exact State.Unsent.then (t := s.atMs ms) (.of_bus rfl) (State.endExchange_sends (s := s.atMs ms) hok ..)
    · exact hself
  | replyWindowClose ms =>
    refine .answer h ?_
    split
    · split
      · exact State.Unsent.then (t := s.atMs ms) (.of_bus rfl) (State.endExchange_sends (s := s.atMs ms) hok ..)
      · exact hself
    · exact hself
  | keepaliveDue ms addr | probeDue ms addr => exact .answer_ite h (State.Unsent.then (t := s.atMs ms) (.of_bus rfl) (State.dispatch_sends _))
  | intervalEnd ms => exact .answer_ite h (State.Unsent.then (t := s.atMs ms) (.of_bus rfl) (State.endInterval_sends _))
  | passTrigger ms =>
    refine .answer_ite h ?_
    dsimp only
    split
    · exact .inl rfl
    · refine State.finish_sends (State.Unsent.trans (t := (s.atMs ms).restartScan) (.of_bus rfl) ?_) s
      exact (State.beginPass_dimmed _).unsent
  | lightConversionComplete ms value =>
    refine .answer h ?_
    split
    · refine State.finish_sends (State.Unsent.trans (t := s.atMs ms) (.of_bus rfl) ?_) s
      exact (State.takeReading_dimmed ..).unsent
    · exact hself
  | lineCheckRequest ms line | nextImpulseTime ms line =>
    refine .answer h ?_
    dsimp only
    split <;> exact .inl rfl
  | impulseEnd ms line =>
    refine .answer h ?_
    dsimp only
    split
    · next l m _ =>
      have hbus : ((s.atMs ms).endImpulse l m).bus = s.bus := State.endImpulse_bus l m (s.atMs ms)
      exact .inl (by rw [State.settleAttention_bus, hbus])
    · exact hself

end Sys2Proof.Machine
end

section
/-! PROOF. The statement on frames: caps and numbers, the choice of the panel, the page (R114, R116, R124, R127, R141,
R142, R148). -/
namespace Sys2Proof.Machine

open Sys2Proof

variable {s t : State}

/-! ## The page of a tag -/

theorem rowPage_shown (p : Params) (e : Entry) : e.Shown p (rowPage p e) := by
  have hlate : e.late p.lateness = true ↔ p.lateness ≤ e.dd := by simp [Entry.late]
  have hremark : e.remark p.lateness =
      if e.state = .cancelled then .cancelled
      else if e.state = .departed then .departed
      else if e.state = .closed then .closed
      else if e.state = .boarding then .boarding
      else if p.lateness ≤ e.dd then .expected
      else .onTime := by
    unfold Entry.remark
    rw [if_congr hlate rfl rfl]
    cases e.state <;> rfl
  have hhighlight : e.openRec.isSome = decide (e.openRec ≠ none) := by cases e.openRec <;> rfl
  rw [Entry.Shown, rowPage, hremark, hhighlight, if_congr hlate rfl rfl]

theorem State.posted_find (h : s.WallOk) {n : Posted} (hn : n ∈ s.wall.posted) :
    s.wall.posted.find? (·.number = n.number) = some n := by
  obtain ⟨-, hnodup, -⟩ := h
  cases hf : s.wall.posted.find? (·.number = n.number) with
  | none => exact absurd (List.find?_eq_none.1 hf n hn) (by simp)
  | some m =>
    have hm : m.number = n.number := by simpa using List.find?_some hf
    rw [List.inj_on_of_nodup_map hnodup (List.mem_of_find?_eq_some hf) hn hm]

/-- The content of a panel is the page that its desired tag names (R127). -/
theorem State.composeContent_composed (h : s.WallOk) (q : Panel) : s.Composed q (s.composeContent q) := by
  refine ⟨fun run e he => ⟨fun rev hd => ⟨rowPage s.inForce e, ?_, rowPage_shown ..⟩,
    fun rev g hd hrole => ⟨rowPage s.inForce e, ?_, rowPage_shown ..⟩,
    fun rev g hd hrole => ⟨rowPage s.inForce e, ?_, rowPage_shown ..⟩, fun count hd => ?_⟩, fun g hd => ?_,
    fun n hn => ⟨fun count hd => ?_, fun edition hd => ?_⟩, fun hd => ?_⟩
  · rw [State.composeContent, hd]
    dsimp only
    rw [he]
    rfl
  · rw [State.composeContent, hd]
    dsimp only
    rw [he, Panel.platform, hrole]
    rfl
  · rw [State.composeContent, hd]
    dsimp only
    rw [he, Panel.platform, hrole]
    rfl
  · rw [State.composeContent, hd]
    dsimp only
    rw [he]
    rfl
  · rw [State.composeContent, hd]
  · rw [State.composeContent, hd]
    dsimp only
    rw [State.posted_find h hn]
    rfl
  · rw [State.composeContent, hd]
    dsimp only
    rw [State.posted_find h hn]
    rfl
  · rw [State.composeContent, hd]

/-! ## The choice of the panel -/

theorem State.frameFor_of_wants {q : Panel} (h : q.wantsFrame = true) (s : State) :
    s.frameFor q = if q.desired ≠ q.acked then s.composeContent q else .polf := by
  rw [State.frameFor, h, Bool.true_and]
  exact if_congr (Panel.tagStale_iff q) rfl rfl

/-- The panel nearest the refresh pointer of those that need service is the one the cycle finds (R142). -/
theorem State.cycle_finds (h : s.PanelsOk) {q : Panel} (hq : q ∈ s.bus.panels) (hneeds : s.needsService q = true)
    (hleast : ∀ b ∈ s.bus.panels, s.needsService b = true → cyclePlace s.bus.pointer q.addr ≤ cyclePlace s.bus.pointer b.addr) :
    s.cycleOrder.find? s.needsService = some q :=
  find?_of_le (State.cycleOrder_sorted h) ((s.mem_cycleOrder q).2 hq) hneeds
    fun b hb hbn => hleast b ((s.mem_cycleOrder b).1 hb) hbn

/-- A restart or a loss of power leaves at most the first frame in flight (R191). -/
theorem exec_framed {i : Instr} (h : exec i s = .next t) (hne : t.bus.seq ≠ s.bus.seq) :
    t.Framed ∨ (i ≠ .powerOn ∧ i ≠ .resetPin ∧ ∀ cut, i ≠ .powerLoss cut) := by
  have hrestart : (State.restart s.store s.pending).bus.seq ≠ s.bus.seq → (State.restart s.store s.pending).Framed :=
    fun _ => State.restart_framed _ _
  have hself : s.bus.seq ≠ s.bus.seq → s.Framed := fun h => absurd rfl h
  cases i with
  | powerOn => exact .inl (execPowerOn_rel (R := fun t => t.bus.seq ≠ s.bus.seq → t.Framed) h hself hrestart hne)
  | resetPin => exact .inl (State.answer_rel (R := fun t => t.bus.seq ≠ s.bus.seq → t.Framed) h hself hrestart hne)
  | powerLoss cut =>
    exact .inl (State.answer_rel (R := fun t => t.bus.seq ≠ s.bus.seq → t.Framed) h hself (fun _ _ hx => nomatch hx) hne)
  | _ => exact .inr ⟨nofun, nofun, nofun⟩

/-- Settles O47, by the one frame a command begins and by the two rules of the choice. -/
theorem framesKeepTheLevelCaps : Obligations.FramesKeepTheLevelCaps := by
  refine ⟨fun i s t hok h hne => ?_, fun s hok => ⟨fun hbusy => State.dispatch_busy hbusy, fun wants hwants hidle => ?_⟩⟩
  · have hsends (hon : i ≠ .powerOn) (hreset : i ≠ .resetPin) (hloss : ∀ cut, i ≠ .powerLoss cut) :
        t.bus.seq = s.bus.seq + 1 ∧ t.Framed :=
      ((exec_sends hok h hon hreset hloss).resolve_left hne).imp id (· hok.nodup)
    exact ⟨fun hon hreset hloss => (hsends hon hreset hloss).1,
      (exec_framed h hne).elim id fun ⟨hon, hreset, hloss⟩ => (hsends hon hreset hloss).2⟩
  · have hwants' (q : Panel) : wants q ↔ q.wantsFrame = true := (hwants q).trans (Panel.wantsFrame_iff q).symm
    have hquiet {q : Panel} (hq : ¬wants q) : q.wantsFrame = false := Bool.eq_false_iff.2 fun h => hq ((hwants' q).2 h)
    have hneeds (q : Panel) : s.needsService q = true ↔
        (wants q ∨ s.keepaliveIsDue q = true ∨ s.probeIsDue q = true) := by
      rw [hwants', State.needsService, Bool.or_eq_true, Bool.or_eq_true, or_assoc]
    refine ⟨fun before u after q hl hq hqw hbefore => ?_, fun hnone => ?_, fun hwall q => State.composeContent_composed hwall q⟩
    · have hqwants := (hwants' q).1 hqw
      have hpick : urgentPick s.bus.panels s.bus.urgent = (some (u, q), after) := by
        rw [hl]
        exact urgentPick_first (fun b hb r hr => hquiet (hbefore b hb r hr)) hq hqwants
      rw [State.dispatch_urgent hidle hpick]
      refine ⟨_, rfl, (State.panel?_some hq).2, rfl, ?_, rfl, rfl, rfl⟩
      exact State.frameFor_of_wants hqwants _
    · have hpick : urgentPick s.bus.panels s.bus.urgent = (none, []) :=
        urgentPick_none fun b hb r hr => hquiet (hnone b hb r hr)
      refine ⟨?_, fun q hq hqn hleast => ?_, fun hall => ?_⟩
      · cases hfind : s.cycleOrder.find? s.needsService with
        | none => rw [State.dispatch_none hidle hpick hfind]
        | some p => rw [State.dispatch_cycle hidle hpick hfind]; rfl
      · have hfind := State.cycle_finds hok hq ((hneeds q).2 hqn) fun b hb hbn => hleast b hb ((hneeds b).1 hbn)
        rw [State.dispatch_cycle hidle hpick hfind]
        refine ⟨_, rfl, rfl, rfl, fun hqw hstale => ?_, fun hno => ?_, rfl, rfl⟩
        · exact (State.frameFor_of_wants ((hwants' q).1 hqw) _).trans (if_pos hstale)
        · by_cases hqw : wants q
          · have hsame : q.desired = q.acked := hno.resolve_left (not_not.2 hqw)
            exact (State.frameFor_of_wants ((hwants' q).1 hqw) _).trans (if_neg (not_not.2 hsame))
          · exact State.frameFor_of_quiet (hquiet hqw) _
      · have hfind : s.cycleOrder.find? s.needsService = none := by
          refine List.find?_eq_none.2 fun q hq hqn => ?_
          obtain ⟨hw, hk, hp⟩ := hall q ((s.mem_cycleOrder q).1 hq)
          obtain h | h | h := (hneeds q).1 hqn
          · exact hw h
          · exact absurd (hk.symm.trans h) nofun
          · exact absurd (hp.symm.trans h) nofun
        rw [State.dispatch_none hidle hpick hfind]
        exact ⟨hidle, rfl⟩

end Sys2Proof.Machine
end

section
/-! PROOF. The banner rotation under a composition and the two of an evaluation (R121 to R123, log entry 15). -/
namespace Sys2Proof.Machine

open Sys2Proof

variable {s t u v : State} {c i : Item}

/-! ## The rotation list and the marks -/

/-- The rotation list is formed of the facts, of the displayable set, of the notices and of the configuration (R121). -/
theorem State.freshItems_congr (hfacts : t.facts = s.facts) (hdisplayable : t.table.displayable = s.table.displayable)
    (hposted : t.wall.posted = s.wall.posted) (hin : t.inForce = s.inForce) : t.freshItems = s.freshItems := by
  have hshown : t.displayed.map Entry.facts = s.displayed.map Entry.facts := by
    refine filter_map_congr hfacts (fun _ => rfl) fun e => ?_
    rw [hdisplayable]
  have hdelay := filter_map_congr hshown (p := fun e => e.awaiting && s.inForce.delayThreshold ≤ e.dd)
    (q := fun e => e.awaiting && t.inForce.delayThreshold ≤ e.dd) (fun _ => rfl) fun e => by rw [hin]
  have hitems := congrArg (List.map fun e => Item.delay e.run) hdelay
  rw [List.map_map, List.map_map] at hitems
  unfold State.freshItems State.postedAt
  rw [hposted]
  exact congrArg _ hitems

theorem State.evaluate_displayable (s : State) : s.evaluate.table.displayable = s.table.displayable := by
  have hall (w : State) : w.informAll.table.displayable = w.table.displayable :=
    foldl_keeps (fun x : State => x.table.displayable) (fun x r => x.inform r)
      (fun x r => by rw [State.inform_table]) _ w
  unfold State.evaluate
  split
  · exact hall _
  · rfl

theorem State.compose_freshItems (s : State) : s.compose.freshItems = s.freshItems :=
  State.freshItems_congr (State.facts_of_table s.compose_table) (by rw [State.compose_table])
    (congrArg (·.1) s.compose_board :) (State.inForce_of_sources s.compose_sources)

theorem State.evaluate_freshItems (s : State) : s.evaluate.freshItems = s.freshItems :=
  State.freshItems_congr s.evaluate_facts s.evaluate_displayable (by rw [State.evaluate_wall])
    (State.inForce_of_sources s.evaluate_sources)

theorem State.recompose_freshItems (s : State) : s.recompose.freshItems = s.freshItems := by
  rw [State.recompose, State.compose_freshItems, State.evaluate_freshItems, State.compose_freshItems]

/-- The mark of an item reads the notices and the revisions (R123). -/
theorem State.itemMark_congr (hposted : t.wall.posted = s.wall.posted)
    (hrev : ∀ run, i = .delay run → t.revOf run = s.revOf run) : t.itemMark i = s.itemMark i := by
  cases i with
  | note n => rw [State.itemMark, State.itemMark, hposted]
  | delay run => exact hrev run rfl

/-! ## One composition -/

/-- The place of the rotation: the current item, its dwell and the count (R122, R123). -/
def Wall.turn (w : Wall) : Option Item × Option Nat × Count16 := (w.current, w.dwell, w.count)

/-- The items and marks that a composition reads stand when the maps are formed. -/
theorem State.compose_wall (s : State) : s.compose.wall = s.remap.rotate.wall := State.setDesired_wall _

/-- The current item is in the list formed afresh: it stays, counted when its content has changed (R122, R123). -/
theorem State.compose_stays (hc : s.wall.current = some c) (hm : c ∈ s.freshItems) :
    s.compose.wall.turn =
        (some c, s.wall.dwell, if s.wall.mark = s.itemMark c then s.wall.count else s.wall.count + 1) ∧
      s.compose.wall.mark = s.itemMark c := by
  obtain ⟨i, rest, hi⟩ := List.exists_cons_of_ne_nil (List.ne_nil_of_mem hm)
  have hc' : s.remap.wall.current = some c := hc
  have hi' : s.remap.freshItems = i :: rest := hi
  have hcontains : (i :: rest).contains c = true := List.contains_iff_mem.2 (hi ▸ hm)
  rw [State.compose_wall, State.rotate, hc', hi']
  dsimp only
  rw [if_pos hcontains]
  split
  · next hmark => exact ⟨by rw [if_pos (show s.wall.mark = s.itemMark c from hmark)]; exact congrArg (·, _, _) hc, hmark⟩
  · next hmark => exact ⟨by rw [if_neg (show ¬s.wall.mark = s.itemMark c from hmark)]; exact congrArg (·, _, _) hc, rfl⟩

/-- With no current item the first becomes current (R122). -/
theorem State.compose_first {rest : List Item} (hc : s.wall.current = none) (hi : s.freshItems = i :: rest) :
    s.compose.wall.turn = (some i, some s.inForce.dwell, s.wall.count + 1) ∧ s.compose.wall.mark = s.itemMark i := by
  have hc' : s.remap.wall.current = none := hc
  have hi' : s.remap.freshItems = i :: rest := hi
  rw [State.compose_wall, State.rotate, hc', hi']
  exact ⟨rfl, rfl⟩

/-- The current item has left the list: the item after it becomes current (R122). -/
theorem State.compose_next {rest : List Item} (hc : s.wall.current = some c) (hm : c ∉ s.freshItems)
    (hi : s.freshItems = i :: rest) :
    s.compose.wall.turn =
        (some (successor s.wall.items s.freshItems c i), some s.inForce.dwell, s.wall.count + 1) ∧
      s.compose.wall.mark = s.itemMark (successor s.wall.items s.freshItems c i) := by
  have hc' : s.remap.wall.current = some c := hc
  have hi' : s.remap.freshItems = i :: rest := hi
  have hcontains : ¬(i :: rest).contains c = true := fun h => hm (hi ▸ List.contains_iff_mem.1 h)
  rw [State.compose_wall, State.rotate, hc', hi', hi]
  dsimp only
  rw [if_neg hcontains]
  exact ⟨rfl, rfl⟩

/-- An empty list has no current item and no dwell (R122). -/
theorem State.compose_emptied (hi : s.freshItems = []) :
    s.compose.wall.turn = (none, if s.wall.current = none then s.wall.dwell else none, s.wall.count) := by
  have hi' : s.remap.freshItems = [] := hi
  rw [State.compose_wall, State.rotate, hi']
  cases hc : s.wall.current with
  | none =>
    have hc' : s.remap.wall.current = none := hc
    rw [hc']
    exact congrArg (·, _, _) hc
  | some c =>
    have hc' : s.remap.wall.current = some c := hc
    rw [hc']
    rfl

/-! ## The composition, the evaluation and the composition after it -/

/-- The composition after the evaluation keeps the item and its dwell, and the count but where the item is revised. -/
theorem State.recompose_turn (hc : s.compose.wall.current = some c) (hm : c ∈ s.freshItems)
    (hmark : s.compose.wall.mark = s.itemMark c) :
    s.recompose.wall.current = some c ∧ s.recompose.wall.dwell = s.compose.wall.dwell ∧
      (s.recompose.itemMark c = s.itemMark c → s.recompose.wall.count = s.compose.wall.count) := by
  have hwall := State.evaluate_wall s.compose
  have hitems : c ∈ s.compose.evaluate.freshItems := by
    rw [State.evaluate_freshItems, State.compose_freshItems]
    exact hm
  obtain ⟨hturn, -⟩ := State.compose_stays (s := s.compose.evaluate) (by rw [hwall]; exact hc) hitems
  have hsame : s.recompose.itemMark c = s.compose.evaluate.itemMark c :=
    State.itemMark_congr (congrArg (·.1) (State.compose_board _) :) fun run _ => by
      rw [State.revOf, State.revOf, State.entry?, State.entry?, State.recompose, State.compose_table]
  refine ⟨congrArg (·.1) hturn, (congrArg (·.2.1) hturn).trans (by rw [hwall]), fun hsame' => ?_⟩
  refine (congrArg (·.2.2) hturn).trans ?_
  dsimp only
  rw [hwall, hmark, ← hsame, hsame', if_pos rfl]

/-- The revision that a delay item shows has not moved in the evaluation. -/
def State.Unrevised (c : Item) (s : State) : Prop := ∀ run, c = .delay run → s.recompose.revOf run = s.revOf run

theorem State.Unrevised.itemMark (h : s.Unrevised c) : s.recompose.itemMark c = s.itemMark c :=
  State.itemMark_congr (congrArg (·.1) (State.recompose_board _) :) h

/-- The current item stays when it is in the list formed afresh (R122, R123). -/
theorem State.recompose_stays (hc : s.wall.current = some c) (hm : c ∈ s.freshItems) :
    s.recompose.wall.current = some c ∧ s.recompose.wall.dwell = s.wall.dwell ∧
      (s.Unrevised c →
        s.recompose.wall.count = if s.wall.mark = s.itemMark c then s.wall.count else s.wall.count + 1) := by
  obtain ⟨hturn, hmark⟩ := State.compose_stays hc hm
  obtain ⟨hcurrent, hdwell, hcount⟩ := State.recompose_turn (congrArg (·.1) hturn) hm hmark
  exact ⟨hcurrent, hdwell.trans (congrArg (·.2.1) hturn), fun h => (hcount h.itemMark).trans (congrArg (·.2.2) hturn)⟩

/-- The first item becomes current when none was (R122). -/
theorem State.recompose_first {rest : List Item} (hc : s.wall.current = none) (hi : s.freshItems = i :: rest) :
    s.recompose.wall.current = some i ∧ s.recompose.wall.dwell = some s.inForce.dwell ∧
      (s.Unrevised i → s.recompose.wall.count = s.wall.count + 1) := by
  obtain ⟨hturn, hmark⟩ := State.compose_first hc hi
  obtain ⟨hcurrent, hdwell, hcount⟩ := State.recompose_turn (congrArg (·.1) hturn) (hi ▸ List.mem_cons_self) hmark
  exact ⟨hcurrent, hdwell.trans (congrArg (·.2.1) hturn), fun h => (hcount h.itemMark).trans (congrArg (·.2.2) hturn)⟩

theorem successor_mem_items {old items rest : List Item} (hi : items = i :: rest) : successor old items c i ∈ items :=
  successor_mem _ _ c i (hi ▸ List.mem_cons_self)

/-- The item after a current one that has left the list becomes current (R122). -/
theorem State.recompose_next {rest : List Item} (hc : s.wall.current = some c) (hm : c ∉ s.freshItems)
    (hi : s.freshItems = i :: rest) :
    s.recompose.wall.current = some (successor s.wall.items s.freshItems c i) ∧
      s.recompose.wall.dwell = some s.inForce.dwell ∧
      (s.Unrevised (successor s.wall.items s.freshItems c i) → s.recompose.wall.count = s.wall.count + 1) := by
  obtain ⟨hturn, hmark⟩ := State.compose_next hc hm hi
  obtain ⟨hcurrent, hdwell, hcount⟩ := State.recompose_turn (congrArg (·.1) hturn) (successor_mem_items hi) hmark
  exact ⟨hcurrent, hdwell.trans (congrArg (·.2.1) hturn), fun h => (hcount h.itemMark).trans (congrArg (·.2.2) hturn)⟩

/-- The empty rotation stays empty. -/
theorem State.recompose_emptied (hi : s.freshItems = []) :
    s.recompose.wall.turn = (none, if s.wall.current = none then s.wall.dwell else none, s.wall.count) := by
  have hfirst := State.compose_emptied hi
  have hwall := State.evaluate_wall s.compose
  have hcurrent : s.compose.wall.current = none := congrArg (·.1) hfirst
  have hsecond := State.compose_emptied (s := s.compose.evaluate)
    (by rw [State.evaluate_freshItems, State.compose_freshItems, hi])
  rw [if_pos (by rw [hwall]; exact hcurrent), hwall] at hsecond
  rw [State.recompose, hsecond]
  exact (congrArg (·, _, _) hcurrent).symm.trans hfirst

end Sys2Proof.Machine
end

section
/-! PROOF. The wall modes and the dwell expiry (R111, R122, R125). -/
namespace Sys2Proof.Machine

open Sys2Proof

variable {s t u v : State}

/-! ## What follows an evaluation within the command -/

/-- Past an evaluation that ends in `v` the records, the table, what was judged against and the notices stand in `t`. -/
structure State.Rests (v t : State) : Prop where
  tracker : t.tracker = v.tracker
  table : t.table = v.table
  seen : v.Seen t
  heard : ∀ q, (v.port q).Heard (t.port q)

theorem State.Rests.trans (h : s.Rests t) (k : t.Rests u) : s.Rests u :=
  ⟨k.tracker.trans h.tracker, k.table.trans h.table, h.seen.trans k.seen, fun q => (h.heard q).trans (k.heard q)⟩

theorem State.finish_rests (s old : State) : s.Rests (s.finish old) :=
  ⟨State.finish_tracker .., State.finish_table .., State.finish_seen .., (State.finish_calm s old).heard⟩

theorem State.answerTel_heard (p : PortId) (tel : Tel) (a : Answer) (s : State) (q : PortId) :
    (s.port q).Heard ((s.answerTel p tel a).port q) := by
  rw [State.answerTel_port]
  split
  · next h =>
    rw [h]
    exact ⟨List.prefix_rfl, id⟩
  · exact .refl _

theorem State.answerTel_rests (p : PortId) (tel : Tel) (a : Answer) (s : State) : s.Rests (s.answerTel p tel a) :=
  ⟨rfl, rfl, .of_blocks rfl rfl, State.answerTel_heard p tel a s⟩

/-- What an evaluation in NORMAL mode judges stands judged at the end of the command (R72). -/
theorem State.open_judged (htracker : u.tracker = s.tracker) (hentries : u.table.entries = s.table.entries)
    (hclock : u.time.clock = s.time.clock) (hmode : u.wall.mode = .normal) (h : u.recompose.Rests t) :
    s.OpenJudged t fun _ => True := fun hk r hr hopen hdisplayed _ => by
  refine State.record_judged (by rw [htracker]; exact hk) hmode (by rw [htracker]; exact hr) hopen hdisplayed hclock ?_
    h.tracker h.table h.seen h.heard
  rw [State.revOf, State.revOf, State.entry?, State.entry?, hentries]

/-! ## The desired tags after a composition -/

theorem State.recompose_desired (s : State) : s.recompose.DesiredCurrent := fun q hq => by
  obtain ⟨p, -, rfl⟩ := List.mem_map.1 hq
  rfl

theorem State.settle_desired (s old : State) : (s.settle old).DesiredCurrent := fun q hq => by
  have k := State.finish_alike s.recompose old
  have hmem : q.look ∈ s.recompose.bus.panels.map Panel.look := k.panels ▸ List.mem_map.2 ⟨q, hq, rfl⟩
  obtain ⟨p, hp, hpq⟩ := List.mem_map.1 hmem
  rw [State.settle, k.desiredTag hpq.symm, ← s.recompose_desired p hp]
  exact (Panel.look_fields hpq).2.2.symm

theorem State.settle_mode_eq (s old : State) : (s.settle old).wall.mode = s.wall.mode ∧ (s.settle old).wall.posted = s.wall.posted :=
  ⟨(congrArg (·.2.1) (State.settle_board s old) :), (congrArg (·.1) (State.settle_board s old) :)⟩

/-- Outside NORMAL a configured panel wants what the mode names (R111). -/
theorem State.desiredTag_mode {p : Panel} (hrole : p.role ≠ .none) :
    (s.wall.mode = .blank → s.desiredTag p = some .blank) ∧
      ∀ n, s.wall.mode = .notice → s.wall.shown = some n → s.desiredTag p = some (.notice n.number n.edition) := by
  have hconf : p.configured = true := by simpa [Panel.configured] using hrole
  refine ⟨fun hm => ?_, fun n hm hn => ?_⟩
  · rw [State.desiredTag, if_pos hconf, hm]
  · rw [State.desiredTag, if_pos hconf, hm]
    dsimp only
    rw [hn]

theorem Wall.shown_iff (w : Wall) : w.shown = none ↔ ∀ x ∈ w.posted, x.priority ≠ 0 := by
  obtain ⟨r, hr, hlow, hmem⟩ := foldl_lowest (w.posted.filter (·.priority = 0)) none
  rw [Wall.shown_eq, ← hr]
  constructor
  · rintro rfl x hx hp
    obtain ⟨n, hn, -⟩ := hlow x (.inl (List.mem_filter.2 ⟨hx, by simpa using hp⟩))
    cases hn
  · intro hall
    cases hrn : r with
    | none => rfl
    | some n =>
      obtain ⟨hn, hp⟩ := List.mem_filter.1 ((hmem n hrn).resolve_right nofun)
      exact absurd (by simpa using hp) (hall n hn)

/-- The notice shown is of priority 0 and of the lowest number (R111). -/
theorem Wall.shown_lowest {w : Wall} {n : Posted} (h : w.shown = some n) :
    n ∈ w.posted ∧ n.priority = 0 ∧ ∀ y ∈ w.posted, y.priority = 0 → n.number ≤ y.number := by
  obtain ⟨r, hr, hlow, hmem⟩ := foldl_lowest (w.posted.filter (·.priority = 0)) none
  rw [Wall.shown_eq, ← hr] at h
  obtain ⟨hn, hp⟩ := List.mem_filter.1 ((hmem n h).resolve_right nofun)
  refine ⟨hn, by simpa using hp, fun y hy hyp => ?_⟩
  obtain ⟨k, hk, hle⟩ := hlow y (.inl (List.mem_filter.2 ⟨hy, by simpa using hyp⟩))
  rw [h] at hk
  cases hk
  exact hle

/-! ## WALL -/

/-- What WALL leaves when it takes the mode `n` (R125). -/
def State.walled (n : Nat) (s : State) : State :=
  if s.wall.mode = wallModeOf n then s else (s.withWall { s.wall with mode := wallModeOf n }).settle s

theorem wallOwner_eq {n : Nat} (h : ¬2 < n) (hshown : ¬(wallModeOf n = .notice ∧ s.wall.shown = none)) :
    wallOwner n s = (s.walled n, Answer.accept (s.walled n).modeResult) := by
  rw [wallOwner, if_neg h, if_neg hshown]
  rfl

theorem State.walled_board (n : Nat) (s : State) :
    (s.walled n).wall.mode = wallModeOf n ∧ (s.walled n).wall.posted = s.wall.posted := by
  unfold State.walled
  split
  · next h => exact ⟨h, rfl⟩
  · exact State.settle_mode_eq (s.withWall { s.wall with mode := wallModeOf n }) s

theorem State.walled_blocks (n : Nat) (s : State) :
    (s.walled n).facts = s.facts ∧ (s.walled n).cues = s.cues ∧ (s.walled n).sources = s.sources ∧
      (s.walled n).records = s.records ∧ ∀ q, (s.walled n).link q = s.link q := by
  unfold State.walled
  split
  · exact ⟨rfl, rfl, rfl, rfl, fun _ => rfl⟩
  · exact ⟨State.settle_facts .., State.settle_cues .., State.settle_sources .., State.settle_records ..,
      fun q => State.settle_link ..⟩

theorem wallModeOf_eq (n : Nat) : wallModeOf n = if n = 0 then .normal else if n = 1 then .blank else .notice := rfl

/-- Moving to `mode` at WALL: the desired tags, the picture and the records that follow (R111, R125, R72). -/
theorem State.walled_moved {n : Nat} (h : s.wall.mode ≠ wallModeOf n) :
    (s.walled n).DesiredCurrent ∧ (s.PictureCurrent → (s.walled n).PictureCurrent) ∧
      (wallModeOf n = .normal → (s.withWall { s.wall with mode := wallModeOf n }).recompose.Rests (s.walled n)) := by
  rw [State.walled, if_neg h]
  refine ⟨State.settle_desired _ s, fun hpic => ?_, fun _ => State.finish_rests ..⟩
  have hmarked : (s.withWall { s.wall with mode := wallModeOf n }).wall.Marked := fun hnone => by
    obtain ⟨-, -, -, hmark⟩ := hpic
    exact hmark.trans (congrArg (Option.bind · s.itemMark) hnone)
  exact ((State.recompose_current hmarked).alike (State.finish_alike _ s)).2

theorem State.walled_tracker {n : Nat} (h : wallModeOf n ≠ .normal) : (s.walled n).tracker = s.tracker := by
  unfold State.walled
  split
  · rfl
  · exact (State.finish_tracker ..).trans (State.recompose_tracker (s := s.withWall { s.wall with mode := wallModeOf n }) h)

/-! ## The dwell expiry -/

theorem getElem?_next_of_split {before after : List Item} {c : Item} (h : c ∉ before) :
    (before ++ c :: after)[((before ++ c :: after).idxOf c + 1) % (before ++ c :: after).length]? =
      (after ++ before ++ [c]).head? := by
  have hidx : (before ++ c :: after).idxOf c = before.length := by
    rw [List.idxOf_append_of_notMem h, List.idxOf_cons_self, Nat.add_zero]
  rw [hidx]
  cases after with
  | nil =>
    have hlen : (before ++ [c]).length = before.length + 1 := by simp
    rw [hlen, Nat.mod_self, List.nil_append, List.head?_eq_getElem?]
  | cons a after =>
    have hlt : before.length + 1 < (before ++ c :: a :: after).length := by simp
    rw [Nat.mod_eq_of_lt hlt, List.getElem?_append_right (by omega)]
    simp

/-- An evaluation that moves no record moves no entry (R75). -/
theorem State.recompose_table_of_tracker (h : s.recompose.tracker = s.tracker) : s.recompose.table = s.table := by
  by_cases hmode : s.wall.mode = .normal
  · rw [State.recompose_eq hmode, State.compose_tracker, State.informAll_eq, State.informs_tracker] at h
    have hclosed : s.tracker.closed ++ s.judged.toInform.map (·.no) = s.tracker.closed := by
      have hjudged : s.judged.tracker.closed = s.tracker.closed := (congrArg Tracker.closed s.compose_tracker :)
      rw [← hjudged]
      exact (congrArg Tracker.closed h :).trans hjudged.symm
    have hnone : s.judged.toInform = [] := List.map_eq_nil_iff.1 (List.append_right_eq_self.1 hclosed)
    rw [State.recompose_eq hmode, State.compose_table, State.informAll_eq, hnone]
    exact s.compose_table
  · have hmode' : s.compose.wall.mode ≠ .normal := (congrArg (·.2.1) s.compose_board :).trans_ne hmode
    rw [State.recompose, State.compose_table, State.evaluate, if_neg hmode', State.compose_table]

/-- The item shown stays current through the evaluation of the command (R122). -/
theorem State.showItem_turn {i : Item} (hpic : s.PictureCurrent) (hi : i ∈ s.wall.items) :
    (s.showItem i).recompose.wall.current = some i ∧ (s.showItem i).recompose.wall.dwell = some s.inForce.dwell ∧
      ((s.showItem i).recompose.tracker = s.tracker → (s.showItem i).recompose.wall.count = s.wall.count + 1) := by
  have hfresh : i ∈ (s.showItem i).freshItems := by
    obtain ⟨-, -, hitems, -⟩ := hpic
    show i ∈ s.freshItems
    rwa [← hitems]
  obtain ⟨hcurrent, hdwell, hcount⟩ := State.recompose_stays (s := s.showItem i) rfl hfresh
  refine ⟨hcurrent, hdwell, fun htracker => ?_⟩
  have htable := State.recompose_table_of_tracker (s := s.showItem i) htracker
  refine (hcount fun run _ => ?_).trans (if_pos rfl)
  rw [State.revOf, State.revOf, State.entry?, State.entry?, htable]

theorem exec_dwellExpiry_shows {i : Item} (hp : s.powered = true) (hdwell : s.wall.dwell = some 0)
    (hi : s.wall.nextItem = some i) : exec .dwellExpiry s = .next ((s.showItem i).settle s) := by
  simp [exec, execDwellExpiry, hdwell, hi, State.answer, hp]

theorem exec_dwellExpiry_rests (h : s.wall.dwell ≠ some 0 ∨ s.wall.current = none) : exec .dwellExpiry s = .next s := by
  rw [show exec .dwellExpiry s = execDwellExpiry s from rfl, execDwellExpiry]
  split
  · next i hdwell hi =>
    obtain hno | hno := h
    · exact absurd hdwell hno
    · rw [Wall.nextItem, hno] at hi
      cases hi
  · exact State.answer_self s

/-- Settles O43. -/
theorem wallModesAndTheRotationMove : Obligations.WallModesAndTheRotationMove := by
  refine ⟨fun s p seq n h => ⟨fun hn => ?_, fun hn hnone => ?_, fun hn mode hmode => ?_⟩, fun s hp =>
    ⟨fun before after c hpic hdwell hc hitems hnot => ?_, fun hno => ?_⟩⟩
  · exact exec_taking_refused h (if_pos hn)
  · subst hn
    exact exec_taking_refused h (if_pos ⟨rfl, s.wall.shown_iff.2 hnone⟩)
  · have hle : ¬2 < n := by omega
    have hshown : ¬(wallModeOf n = .notice ∧ s.wall.shown = none) := by
      rintro ⟨hnotice, hnone⟩
      obtain hlt | ⟨-, x, hx, hxp⟩ := hn
      · obtain rfl | rfl : n = 0 ∨ n = 1 := by omega
        · cases hnotice
        · cases hnotice
      · exact s.wall.shown_iff.1 hnone x hx hxp
    obtain ⟨hmode', hposted⟩ := s.walled_board n
    obtain ⟨hfacts, hcues, hsources, hrecords, hlink⟩ := s.walled_blocks n
    have hmodeEq : wallModeOf n = mode := hmode.symm
    have hsh : (s.walled n).wall.shown = s.wall.shown := by rw [Wall.shown, Wall.shown, hposted]
    obtain ⟨hexec, hanswered⟩ := exec_taking_answered h (wallOwner_eq hle hshown) hlink
    have hresult : (s.walled n).modeResult =
        .mode mode (if mode = .notice then s.wall.shown.map (·.number) else none) := by
      rw [State.modeResult, hmode', hmodeEq, hsh]
    rw [hresult] at hexec hanswered
    refine ⟨_, _, hexec, hmode'.trans hmodeEq, hposted, hanswered, fun hlt => ?_, fun htwo => ?_, fun hone hne a ha hrole => ?_,
      fun hzero hne => ?_, fun hnz => ?_, fun hsame => ?_, hfacts, hcues, hsources, hrecords⟩
    · refine if_neg ?_
      rw [← hmodeEq]
      obtain rfl | rfl : n = 0 ∨ n = 1 := by omega
      · nofun
      · nofun
    · subst htwo
      have hnotice : mode = .notice := hmode
      obtain ⟨x, hx⟩ : ∃ x, s.wall.shown = some x := Option.ne_none_iff_exists'.1 fun hnone => hshown ⟨rfl, hnone⟩
      obtain ⟨hmem, hpriority, hlow⟩ := Wall.shown_lowest hx
      refine ⟨x, hmem, hpriority, by rw [if_pos hnotice, hx]; rfl, hlow, fun hne a ha hrole => ?_⟩
      have hdesired := (State.walled_moved (n := 2) (hmodeEq ▸ hne)).1 a ha
      exact hdesired.trans ((State.desiredTag_mode hrole).2 x hmode' (hsh.trans hx))
    · subst hone
      have hdesired := (State.walled_moved (n := 1) (hmodeEq ▸ hne)).1 a ha
      exact hdesired.trans ((State.desiredTag_mode hrole).1 hmode')
    · subst hzero
      obtain ⟨hdesired, hpicture, hrests⟩ := State.walled_moved (n := 0) (hmodeEq ▸ hne)
      refine ⟨hdesired, hpicture, ?_⟩
      exact State.open_judged (u := s.withWall { s.wall with mode := wallModeOf 0 }) rfl rfl rfl rfl
        ((hrests rfl).trans (State.answerTel_rests ..))
    · exact State.walled_tracker (by rw [wallModeOf_eq, if_neg hnz]; split <;> nofun)
    · have hw : s.walled n = s := if_pos (hsame.trans hmodeEq.symm)
      rw [hw]
  · have hnext : s.wall.nextItem = (after ++ before ++ [c]).head? := by
      rw [Wall.nextItem, hc, hitems]
      exact getElem?_next_of_split hnot
    obtain ⟨i, hi⟩ : ∃ i, (after ++ before ++ [c]).head? = some i := by
      cases hl : after ++ before ++ [c] with
      | nil => simp at hl
      | cons a l => exact ⟨a, rfl⟩
    have hmem : i ∈ s.wall.items := by
      have := List.mem_of_head? hi
      rw [hitems]
      simp only [List.mem_append, List.mem_cons, List.not_mem_nil, or_false] at this ⊢
      tauto
    obtain ⟨hcurrent, hdwell', hcount⟩ := State.showItem_turn hpic hmem
    refine ⟨(s.showItem i).settle s, ?_, ?_⟩
    · exact exec_dwellExpiry_shows hp hdwell (hnext.trans hi)
    · rw [State.settle, State.finish_wall, State.finish_tracker, hi]
      exact ⟨hcurrent, hdwell', hcount, State.recompose_board (s.showItem i), State.settle_facts (s.showItem i) s,
        State.settle_cues (s.showItem i) s, State.settle_sources (s.showItem i) s, State.settle_records (s.showItem i) s,
        fun q => State.settle_link q (s.showItem i) s⟩
  · exact exec_dwellExpiry_rests hno

end Sys2Proof.Machine
end

section
/-! PROOF. Notices posted and removed, and the rotation with them (R117 to R126). -/
namespace Sys2Proof.Machine

open Sys2Proof

variable {s t u v : State}

/-! ## The rotation list and the notices -/

theorem State.mem_freshItems_note {n : Nat} :
    Item.note n ∈ s.freshItems ↔ ∃ p ∈ s.wall.posted, p.number = n ∧ p.priority ≤ 3 := by
  have hat (k : Nat) : Item.note n ∈ s.postedAt k ↔ ∃ p ∈ s.wall.posted, p.priority = k ∧ p.number = n := by
    simp [State.postedAt, and_assoc]
  have hdelay : Item.note n ∉ s.delayItems.map fun e => Item.delay e.run := by simp
  have hsplit : Item.note n ∈ s.freshItems ↔
      (((Item.note n ∈ s.postedAt 0 ∨ Item.note n ∈ s.postedAt 1) ∨ Item.note n ∈ s.postedAt 2) ∨
        Item.note n ∈ s.postedAt 3) ∨ Item.note n ∈ s.delayItems.map fun e => Item.delay e.run := by
    rw [← List.mem_append, ← List.mem_append, ← List.mem_append, ← List.mem_append]
    rfl
  rw [hsplit, hat, hat, hat, hat, or_iff_left hdelay]
  constructor
  · rintro (((⟨p, hp, hk, hn⟩ | ⟨p, hp, hk, hn⟩) | ⟨p, hp, hk, hn⟩) | ⟨p, hp, hk, hn⟩) <;> exact ⟨p, hp, hn, by omega⟩
  · rintro ⟨p, hp, hn, hk⟩
    obtain h | h | h | h : p.priority = 0 ∨ p.priority = 1 ∨ p.priority = 2 ∨ p.priority = 3 := by omega
    · exact .inl (.inl (.inl ⟨p, hp, h, hn⟩))
    · exact .inl (.inl (.inr ⟨p, hp, h, hn⟩))
    · exact .inl (.inr ⟨p, hp, h, hn⟩)
    · exact .inr ⟨p, hp, h, hn⟩

theorem State.mem_freshItems_delay {run : Nat} :
    Item.delay run ∈ s.freshItems ↔ Item.delay run ∈ s.delayItems.map fun e => Item.delay e.run := by
  have hat (k : Nat) : Item.delay run ∉ s.postedAt k := by simp [State.postedAt]
  have hsplit : Item.delay run ∈ s.freshItems ↔
      (((Item.delay run ∈ s.postedAt 0 ∨ Item.delay run ∈ s.postedAt 1) ∨ Item.delay run ∈ s.postedAt 2) ∨
        Item.delay run ∈ s.postedAt 3) ∨ Item.delay run ∈ s.delayItems.map fun e => Item.delay e.run := by
    rw [← List.mem_append, ← List.mem_append, ← List.mem_append, ← List.mem_append]
    rfl
  rw [hsplit]
  simp [hat]

/-- A notice taken off leaves the list without its item (R121). -/
theorem State.freshItems_remove {w : Wall} {number : Nat} (hposted : w.posted = s.wall.posted.filter (·.number ≠ number)) :
    (s.withWall w).freshItems = s.freshItems.filter (· ≠ .note number) := by
  have hat (k : Nat) : (s.withWall w).postedAt k = (s.postedAt k).filter (· ≠ .note number) := by
    show (w.posted.filter _).map _ = _
    rw [hposted, State.postedAt, List.filter_map, List.filter_filter, List.filter_filter]
    refine congrArg _ (List.filter_congr fun p _ => ?_)
    simp [Bool.and_comm]
  have hdelay : ((s.delayItems.map fun e => Item.delay e.run).filter (· ≠ .note number)) =
      s.delayItems.map fun e => Item.delay e.run := by
    refine List.filter_eq_self.2 fun x hx => ?_
    obtain ⟨e, -, rfl⟩ := List.mem_map.1 hx
    rfl
  have hfresh (w : State) : w.freshItems = w.postedAt 0 ++ w.postedAt 1 ++ w.postedAt 2 ++ w.postedAt 3 ++
      w.delayItems.map fun e => Item.delay e.run := rfl
  rw [hfresh, hfresh, hat, hat, hat, hat, List.filter_append, List.filter_append, List.filter_append, List.filter_append, hdelay]
  rfl

/-! ## The end of the NOTICE mode -/

theorem State.endNoticeMode_wall_eq (s : State) :
    s.endNoticeMode =
      s.withWall
        { s.wall with
          mode := if s.wall.mode = .notice ∧ ∀ n ∈ s.wall.posted, n.priority ≠ 0 then .normal else s.wall.mode } := by
  unfold State.endNoticeMode
  rw [if_congr (and_congr_right fun _ => s.wall.shown_iff) rfl rfl]
  split
  · rfl
  · rfl

/-- What a notice posted or taken off leaves of the wall, and of the rest (R118 to R120, R72). -/
theorem State.reposted_blocks (w : Wall) (s : State) :
    ((s.withWall w).endNoticeMode.settle s).wall.board =
        (w.posted, if w.mode = .notice ∧ ∀ n ∈ w.posted, n.priority ≠ 0 then .normal else w.mode, w.edition) ∧
      ((s.withWall w).endNoticeMode.settle s).facts = s.facts ∧ ((s.withWall w).endNoticeMode.settle s).cues = s.cues ∧
      ((s.withWall w).endNoticeMode.settle s).sources = s.sources ∧
      ((s.withWall w).endNoticeMode.settle s).records = s.records ∧
      ∀ q, ((s.withWall w).endNoticeMode.settle s).link q = s.link q := by
  rw [State.endNoticeMode_wall_eq]
  exact ⟨State.settle_board .., State.settle_facts .., State.settle_cues .., State.settle_sources ..,
    State.settle_records .., fun q => State.settle_link ..⟩

/-- The change records at a notice posted or taken off (R72, R126). -/
theorem State.reposted_judged (w : Wall) (h : ((s.withWall w).endNoticeMode.settle s).Rests t)
    (hwall : t.wall = ((s.withWall w).endNoticeMode.settle s).wall) :
    (t.wall.mode ≠ .normal → t.tracker = s.tracker) ∧ (t.wall.mode = .normal → s.OpenJudged t fun _ => True) := by
  have hmode : t.wall.mode = (s.withWall w).endNoticeMode.wall.mode := by
    rw [hwall]
    exact (State.settle_mode_eq ..).1
  obtain ⟨m, hm⟩ : ∃ m, (s.withWall w).endNoticeMode = s.withWall { w with mode := m } :=
    ⟨_, State.endNoticeMode_wall_eq _⟩
  rw [hm] at h hmode
  refine ⟨fun hne => ?_, fun hn => ?_⟩
  · rw [h.tracker, State.settle, State.finish_tracker, State.recompose_tracker (hmode.symm.trans_ne hne)]
    rfl
  · exact State.open_judged (u := s.withWall { w with mode := m }) rfl rfl rfl (hmode.symm.trans hn)
      ((State.finish_rests _ s).trans h)

/-! ## The rotation at a notice posted or taken off -/

/-- The rotation of the state before is that of a composition of it (R121 to R123, log entry 15). -/
theorem State.PictureCurrent.rotation (h : s.PictureCurrent) :
    s.wall.items = s.freshItems ∧ ∀ c, s.wall.current = some c → s.wall.mark = s.itemMark c := by
  obtain ⟨-, -, hitems, hmark⟩ := h
  refine ⟨hitems, fun c hc => ?_⟩
  rw [hmark, hc, Option.bind_some]

theorem find?_updWhere_other {α : Type} {κ : Type} [DecidableEq κ] {key : α → κ} (x : α) {j k : κ} (hx : key x = k) (hne : j ≠ k)
    (l : List α) :
    (updWhere (fun a => key a = k) (fun _ => x) l).find? (fun a => key a = j) = l.find? fun a => key a = j := by
  induction l with
  | nil => rfl
  | cons a l ih =>
    have hstep : updWhere (fun a => key a = k) (fun _ => x) (a :: l) =
        (if key a = k then x else a) :: updWhere (fun a => key a = k) (fun _ => x) l := by simp [updWhere]
    rw [hstep, List.find?_cons, List.find?_cons, ih]
    by_cases ha : key a = k
    · rw [if_pos ha, decide_eq_false (fun h : key x = j => hne (h.symm.trans hx)),
        decide_eq_false (fun h : key a = j => hne (h.symm.trans ha))]
    · rw [if_neg ha]

theorem find?_append_other {α : Type} {p : α → Bool} {x : α} (hx : p x = false) (l : List α) :
    (l ++ [x]).find? p = l.find? p := by
  rw [List.find?_append, List.find?_cons, hx]
  simp

/-- A notice posted at the tail or in the place of its number (R118, R119). -/
theorem Wall.postNotice_posted (f : NoteFields) (w : Wall) :
    ((∀ n ∈ w.posted, n.number ≠ f.number) → (w.postNotice f).posted = w.posted ++ [postedOf f (w.edition + 1)]) ∧
      ((∃ n ∈ w.posted, n.number = f.number) →
        (w.postNotice f).posted = w.posted.map fun n => if n.number = f.number then postedOf f (w.edition + 1) else n) := by
  have hholds : w.holds f.number = true ↔ ∃ n ∈ w.posted, n.number = f.number := by simp [Wall.holds]
  refine ⟨fun hno => ?_, fun hyes => ?_⟩
  · exact if_neg fun h => by
      obtain ⟨n, hn, hnum⟩ := hholds.1 h
      exact hno n hn hnum
  · refine (if_pos (hholds.2 hyes)).trans ?_
    rw [updWhere]
    exact List.map_congr_left fun n _ => by simp

/-- Another notice stands where it stood (R119). -/
theorem Wall.postNotice_find {f : NoteFields} {n : Nat} (h : n ≠ f.number) (w : Wall) :
    (w.postNotice f).posted.find? (·.number = n) = w.posted.find? (·.number = n) := by
  show (if _ then _ else _ : List Posted).find? _ = _
  split
  · exact find?_updWhere_other (key := Posted.number) (postedOf f (w.edition + 1)) rfl h w.posted
  · exact find?_append_other (p := fun a : Posted => decide (a.number = n)) (decide_eq_false fun hn : f.number = n => h hn.symm) w.posted

/-- The notice posted is the one of its number (R117, R118). -/
theorem Wall.postNotice_mem (f : NoteFields) (w : Wall) :
    postedOf f (w.edition + 1) ∈ (w.postNotice f).posted ∧
      (∀ x ∈ (w.postNotice f).posted, x.number = f.number → x = postedOf f (w.edition + 1)) ∧
      ∀ x : Posted, x.number ≠ f.number → (x ∈ (w.postNotice f).posted ↔ x ∈ w.posted) := by
  obtain ⟨hnew, hreplaced⟩ := w.postNotice_posted f
  by_cases hyes : ∃ n ∈ w.posted, n.number = f.number
  · rw [hreplaced hyes]
    obtain ⟨n, hn, hnum⟩ := hyes
    refine ⟨List.mem_map.2 ⟨n, hn, if_pos hnum⟩, fun x hx hxn => ?_, fun x hxn => ⟨fun hx => ?_, fun hx =>
      List.mem_map.2 ⟨x, hx, if_neg hxn⟩⟩⟩
    all_goals obtain ⟨m, hm, rfl⟩ := List.mem_map.1 hx
    · by_cases hmf : m.number = f.number
      · rw [if_pos hmf]
      · rw [if_neg hmf] at hxn
        exact absurd hxn hmf
    · by_cases hmf : m.number = f.number
      · rw [if_pos hmf] at hxn
        exact absurd rfl hxn
      · rw [if_neg hmf]
        exact hm
  · have hno : ∀ n ∈ w.posted, n.number ≠ f.number := fun n hn hnum => hyes ⟨n, hn, hnum⟩
    rw [hnew hno]
    refine ⟨List.mem_append_right _ List.mem_cons_self, fun x hx hxn => ?_, fun x hxn => ⟨fun hx => ?_,
      List.mem_append_left _⟩⟩
    · obtain hx | hx := List.mem_append.1 hx
      · exact absurd hxn (hno x hx)
      · exact List.mem_singleton.1 hx
    · exact (List.mem_append.1 hx).resolve_right fun hx => hxn (List.mem_singleton.1 hx ▸ rfl)

theorem Wall.postNotice_self (f : NoteFields) (w : Wall) :
    (w.postNotice f).posted.find? (·.number = f.number) = some (postedOf f (w.edition + 1)) := by
  obtain ⟨hmem, hunique, -⟩ := w.postNotice_mem f
  cases hf : (w.postNotice f).posted.find? (·.number = f.number) with
  | none => exact absurd (List.find?_eq_none.1 hf _ hmem) (by simp [postedOf])
  | some x => rw [hunique x (List.mem_of_find?_eq_some hf) (by simpa using List.find?_some hf)]

/-- The rotation at a NOTE (R121 to R123). -/
theorem State.noted_rotation {f : NoteFields} {m : WallMode} (hf : f.priority ≤ 3) (hpic : s.PictureCurrent) (hwall : s.WallOk)
    (hu : u = s.withWall { s.wall.postNotice f with mode := m }) :
    (s.wall.current = none →
      u.recompose.wall.current = some (.note f.number) ∧ u.recompose.wall.dwell = some s.inForce.dwell ∧
        u.recompose.wall.count = s.wall.count + 1) ∧
      ∀ c, s.wall.current = some c →
        u.recompose.wall.current = some c ∧ u.recompose.wall.dwell = s.wall.dwell ∧
          (u.Unrevised c →
            u.recompose.wall.count = if c = .note f.number then s.wall.count + 1 else s.wall.count) := by
  obtain ⟨hitems, hmark⟩ := hpic.rotation
  obtain ⟨-, -, -, -, -, -, hcurrent, hnone, -⟩ := hwall
  obtain ⟨hmem, hunique, hothers⟩ := s.wall.postNotice_mem f
  subst hu
  generalize hu : s.withWall { s.wall.postNotice f with mode := m } = u
  have hposted : u.wall.posted = (s.wall.postNotice f).posted := hu ▸ rfl
  have hdelays : u.delayItems = s.delayItems := hu ▸ rfl
  have hnote : Item.note f.number ∈ u.freshItems :=
    State.mem_freshItems_note.2 ⟨_, hposted ▸ hmem, rfl, hf⟩
  refine ⟨fun hc => ?_, fun c hc => ?_⟩
  · have hempty : s.freshItems = [] := hitems ▸ hnone.1 hc
    obtain ⟨i, rest, hi⟩ := List.exists_cons_of_ne_nil (List.ne_nil_of_mem hnote)
    have hfirst : i = .note f.number := by
      have himem : i ∈ u.freshItems := hi ▸ List.mem_cons_self
      cases i with
      | note n =>
        obtain ⟨p, hp, rfl, hpp⟩ := State.mem_freshItems_note.1 himem
        by_cases hpn : p.number = f.number
        · rw [hpn]
        · have hp' : p ∈ s.wall.posted := by
            rw [hposted] at hp
            exact (hothers p hpn).1 hp
          have := State.mem_freshItems_note.2 ⟨p, hp', rfl, hpp⟩
          rw [hempty] at this
          cases this
      | delay run =>
        have := State.mem_freshItems_delay.1 himem
        rw [hdelays] at this
        have := State.mem_freshItems_delay.2 this
        rw [hempty] at this
        cases this
    subst hfirst
    obtain ⟨h1, h2, h3⟩ := State.recompose_first (s := u) (hu ▸ hc) hi
    exact ⟨h1, h2.trans (hu ▸ rfl), (h3 nofun).trans (hu ▸ rfl)⟩
  · have hc' : u.wall.current = some c := hu ▸ hc
    have hmem' : c ∈ u.freshItems := by
      have hold : c ∈ s.freshItems := hitems ▸ hcurrent c hc
      cases c with
      | note n =>
        obtain ⟨p, hp, rfl, hpp⟩ := State.mem_freshItems_note.1 hold
        by_cases hpn : p.number = f.number
        · rwa [hpn]
        · exact State.mem_freshItems_note.2 ⟨p, hposted ▸ (hothers p hpn).2 hp, rfl, hpp⟩
      | delay run =>
        refine State.mem_freshItems_delay.2 ?_
        rw [hdelays]
        exact State.mem_freshItems_delay.1 hold
    obtain ⟨h1, h2, h3⟩ := State.recompose_stays hc' hmem'
    refine ⟨h1, h2.trans (hu ▸ rfl), fun hrev => (h3 hrev).trans ?_⟩
    by_cases hcn : c = .note f.number
    · have humark : u.wall.mark = none := hu ▸ if_pos (hc.trans (congrArg some hcn))
      have hself : u.itemMark c = some (s.wall.edition + 1) := by
        rw [hcn, State.itemMark, hposted, Wall.postNotice_self]
        rfl
      rw [if_neg (by rw [humark, hself]; nofun), if_pos hcn]
      exact hu ▸ rfl
    · have humark : u.wall.mark = s.wall.mark := hu ▸ if_neg (fun h => hcn (Option.some.inj (hc.symm.trans h)))
      have hsame : u.itemMark c = s.itemMark c := by
        cases c with
        | note n =>
          have hn : n ≠ f.number := fun h => hcn (congrArg Item.note h)
          rw [State.itemMark, State.itemMark, hposted, Wall.postNotice_find hn]
        | delay run => exact hu ▸ rfl
      rw [if_pos (by rw [humark, hsame, hmark c hc]), if_neg hcn]
      exact hu ▸ rfl

theorem successor_of_split {before after items : List Item} {c i : Item} {rest : List Item} (hc : c ∉ before)
    (hitems : items = before ++ after) (hi : items = i :: rest) :
    some (successor (before ++ c :: after) items c i) = (after ++ before).head? := by
  have hdrop : (before ++ c :: after).drop ((before ++ c :: after).idxOf c + 1) = after := by
    rw [List.idxOf_append_of_notMem hc, List.idxOf_cons_self, Nat.add_zero]
    simp [List.drop_append]
  rw [successor, hdrop]
  cases after with
  | nil =>
    rw [hi, List.append_nil] at hitems
    rw [← hitems]
    rfl
  | cons a after =>
    have hcontains : items.contains a = true :=
      List.contains_iff_mem.2 (hitems ▸ List.mem_append_right _ List.mem_cons_self)
    rw [List.find?_cons, hcontains]
    rfl

/-- The rotation at a notice taken off (R120, R122, log entry 15). -/
theorem State.removed_rotation {number : Nat} {m : WallMode} (hpic : s.PictureCurrent) (hwall : s.WallOk)
    (hposted : ∃ n ∈ s.wall.posted, n.number = number)
    (hu : u = s.withWall { s.wall with posted := s.wall.posted.filter (·.number ≠ number), mode := m }) :
    (∀ before after, s.wall.current = some (.note number) → s.wall.items = before ++ .note number :: after →
      u.recompose.wall.current = (after ++ before).head? ∧
        u.recompose.wall.dwell = u.recompose.wall.current.map (fun _ => s.inForce.dwell) ∧
        ((∀ c, u.recompose.wall.current = some c → u.Unrevised c) →
          u.recompose.wall.count = if u.recompose.wall.current = none then s.wall.count else s.wall.count + 1)) ∧
      (s.wall.current ≠ some (.note number) →
        u.recompose.wall.current = s.wall.current ∧ u.recompose.wall.dwell = s.wall.dwell ∧
          ((∀ c, u.recompose.wall.current = some c → u.Unrevised c) → u.recompose.wall.count = s.wall.count)) := by
  obtain ⟨hitems, hmark⟩ := hpic.rotation
  obtain ⟨-, -, hposts, -, hnodup, -, hcurrent, hnone, -⟩ := hwall
  have hfresh : u.freshItems = s.wall.items.filter (· ≠ .note number) := by
    rw [hitems, hu]
    exact State.freshItems_remove rfl
  refine ⟨fun before after hc hsplit => ?_, fun hc => ?_⟩
  · have hc' : u.wall.current = some (.note number) := hu ▸ hc
    rw [hsplit] at hnodup hfresh
    have hcross := List.nodup_append.1 hnodup
    have hbefore : Item.note number ∉ before := fun h => hcross.2.2 _ h _ List.mem_cons_self rfl
    have hafter : Item.note number ∉ after := (List.nodup_cons.1 hcross.2.1).1
    have hfilter : u.freshItems = before ++ after := by
      have hkeep {l : List Item} (h : Item.note number ∉ l) : l.filter (· ≠ .note number) = l :=
        List.filter_eq_self.2 fun x hx => decide_eq_true fun heq : x = .note number => h (heq ▸ hx)
      rw [hfresh, List.filter_append, List.filter_cons, if_neg (by simp), hkeep hbefore, hkeep hafter]
    cases hl : before ++ after with
    | nil =>
      obtain ⟨rfl, rfl⟩ := List.append_eq_nil_iff.1 hl
      have hturn := State.recompose_emptied (hfilter.trans hl)
      rw [if_neg (by rw [hc']; nofun)] at hturn
      have hcurrent' : u.recompose.wall.current = none := (congrArg (·.1) hturn :)
      refine ⟨hcurrent', ?_, fun _ => ?_⟩
      · rw [hcurrent']
        exact (congrArg (·.2.1) hturn :)
      · rw [if_pos hcurrent']
        exact (congrArg (·.2.2) hturn :).trans (hu ▸ rfl)
    | cons i rest =>
      have hi := hfilter.trans hl
      have hgone : Item.note number ∉ u.freshItems := by
        rw [hfilter, List.mem_append]
        exact fun h => h.elim hbefore hafter
      obtain ⟨h1, h2, h3⟩ := State.recompose_next hc' hgone hi
      have hold : u.wall.items = before ++ .note number :: after := hu ▸ hsplit
      rw [hold] at h1 h3
      refine ⟨h1.trans (successor_of_split hbefore hfilter hi), ?_, fun hrev => ?_⟩
      · rw [h1, h2]
        exact hu ▸ rfl
      · rw [if_neg (by rw [h1]; nofun), h3 (hrev _ h1)]
        exact hu ▸ rfl
  · cases hcur : s.wall.current with
    | none =>
      obtain ⟨n, hn, rfl⟩ := hposted
      obtain ⟨-, -, hpriority, -⟩ := hposts n hn
      have := State.mem_freshItems_note.2 ⟨n, hn, rfl, hpriority⟩
      rw [← hitems, hnone.1 hcur] at this
      cases this
    | some c =>
      have hne : c ≠ .note number := fun h => hc (hcur.trans (congrArg some h))
      have hc' : u.wall.current = some c := hu ▸ hcur
      have hmem : c ∈ u.freshItems := by
        rw [hfresh]
        exact List.mem_filter.2 ⟨hcurrent c hcur, by simpa using hne⟩
      obtain ⟨h1, h2, h3⟩ := State.recompose_stays hc' hmem
      refine ⟨h1, h2.trans (hu ▸ rfl), fun hrev => (h3 (hrev c h1)).trans ?_⟩
      have hsame : u.itemMark c = s.itemMark c := by
        cases c with
        | note n =>
          have hn : n ≠ number := fun h => hne (congrArg Item.note h)
          have hfind : u.wall.posted.find? (·.number = n) = s.wall.posted.find? (·.number = n) := by
            rw [hu]
            show (s.wall.posted.filter _).find? _ = _
            rw [List.find?_filter]
            refine congrArg (fun p => s.wall.posted.find? p) (funext fun p => ?_)
            by_cases hp : p.number = n
            · simp [hp, hn]
            · simp [hp]
          rw [State.itemMark, State.itemMark, hfind]
        | delay run => exact hu ▸ rfl
      have humark : u.wall.mark = s.wall.mark := hu ▸ rfl
      rw [if_pos (by rw [humark, hsame, hmark c hcur])]
      exact hu ▸ rfl

/-- The revisions that a state shows as `s` did are those of the state before the composition. -/
theorem State.CurrentUnrevised.unrevised {w : Wall} (h : s.CurrentUnrevised t)
    (htable : t.table = (s.withWall w).recompose.table) (hcurrent : t.wall.current = (s.withWall w).recompose.wall.current)
    (c : Item) (hc : (s.withWall w).recompose.wall.current = some c) : (s.withWall w).Unrevised c := by
  rintro run rfl
  have := h run (hcurrent.trans hc)
  rw [State.entry?, htable] at this
  exact this

theorem noteOwner_refused {f : NoteFields} {i : Nat} (h : firstBad (noteChecks f) = some i) :
    noteOwner f s = (s, Answer.badField i) := by
  rw [noteOwner, h]

theorem noteOwner_checked {f : NoteFields} (h : firstBad (noteChecks f) = none) :
    noteOwner f s =
      if !s.wall.holds f.number ∧ 12 ≤ s.wall.posted.length then (s, Answer.refuse .noticeFull)
      else
        ((s.withWall (s.wall.postNotice f)).endNoticeMode.settle s,
          Answer.accept ((s.withWall (s.wall.postNotice f)).endNoticeMode.settle s).postedResult
            (clamped := noteClamped f)) := by
  rw [noteOwner, h]

/-- NCLR and the expiry take the notice off (R120, R126). -/
theorem exec_removes {i : Instr} {number : Nat}
    (hi : (i = .noticeExpiry number ∧ s.powered = true ∧ ∃ n ∈ s.wall.posted, n.number = number ∧ n.expiry = some 0) ∨
      ∃ p seq, i = .nclr p ∧ s.Taking p seq (.nclr number) ∧ 1 ≤ number ∧ number ≤ 200)
    (hposted : ∃ n ∈ s.wall.posted, n.number = number) :
    ∃ t, exec i s = .next t ∧ (s.removeNotice number).Rests t ∧ t.wall = (s.removeNotice number).wall ∧
      t.sources = s.sources ∧ t.records = s.records ∧ t.cues = s.cues ∧ t.facts = s.facts ∧
      (∀ p seq, i = .nclr p → s.Taking p seq (.nclr number) →
        s.Answered t p seq (.nclr number) (.accept (.posted t.wall.posted.length t.wall.mode))) ∧
      (i = .noticeExpiry number → ∀ q, t.link q = s.link q) := by
  obtain ⟨-, hfacts, hcues, hsources, hrecords, hlink⟩ :=
    State.reposted_blocks { s.wall with posted := s.wall.posted.filter (·.number ≠ number) } s
  obtain ⟨rfl, hp, n, hn, hnum, hexpiry⟩ | ⟨p, seq, rfl, htaking, h1, h2⟩ := hi
  · refine ⟨s.removeNotice number, ?_, ⟨rfl, rfl, .of_blocks rfl rfl, fun _ => .refl _⟩, rfl, hsources, hrecords, hcues, hfacts,
      nofun, fun _ => hlink⟩
    show s.answer (if _ then _ else _) = _
    rw [State.answer_powered hp, if_pos]
    exact List.any_eq_true.2 ⟨n, hn, by simp [hnum, hexpiry]⟩
  · have hholds : s.wall.holds number = true := by simpa [Wall.holds] using hposted
    have howner : nclrOwner number s = (s.removeNotice number, Answer.accept (s.removeNotice number).postedResult) := by
      rw [nclrOwner, if_pos ⟨h1, h2⟩, if_pos hholds]
    obtain ⟨hexec, hanswered⟩ := exec_taking_answered htaking howner hlink
    refine ⟨_, hexec, State.answerTel_rests .., rfl, hsources, hrecords, hcues, hfacts, fun p' seq' heq h' => ?_, nofun⟩
    cases heq
    obtain ⟨⟨-, -, hhead⟩, -⟩ := htaking
    obtain ⟨⟨-, -, hhead'⟩, -⟩ := h'
    have hseq : seq' = seq := congrArg Tel.seq (Option.some.inj (hhead'.symm.trans hhead))
    rw [hseq]
    exact hanswered

/-- Settles O42. -/
theorem noticesArePostedAndRemoved : Obligations.NoticesArePostedAndRemoved := by
  refine ⟨fun s p seq f h => ⟨fun hn => ?_, fun h1 h2 hp => ?_, fun h1 h2 hp ht => ?_, fun h1 h2 hp ht => ?_⟩,
    fun s p seq number h => ⟨fun hn => ?_, fun h1 h2 hno => ?_⟩, fun s i number hposted hi => ?_, fun s number hno => ?_⟩
  · refine exec_taking_refused h (noteOwner_refused ?_)
    have : ¬(1 ≤ f.number ∧ f.number ≤ 200) := by omega
    simp [noteChecks, this]
  · refine exec_taking_refused h (noteOwner_refused ?_)
    simp [noteChecks, h1, h2, Nat.not_le.2 hp]
  · refine exec_taking_refused h (noteOwner_refused ?_)
    simp [noteChecks, h1, h2, hp, ht]
  · have hok : firstBad (noteChecks f) = none := by simp [noteChecks, h1, h2, hp, ht]
    have howner := noteOwner_checked (s := s) hok
    have hholds : s.wall.holds f.number = true ↔ ∃ n ∈ s.wall.posted, n.number = f.number := by simp [Wall.holds]
    refine ⟨fun hno hfull => ?_, fun hroom new hnew => ?_⟩
    · refine exec_taking_refused h (howner.trans (if_pos ⟨?_, hfull⟩))
      rw [Bool.not_eq_true', ← Bool.not_eq_true]
      exact fun hh => by
        obtain ⟨n, hn, hnum⟩ := hholds.1 hh
        exact hno n hn hnum
    · have hnot : ¬((!s.wall.holds f.number) = true ∧ 12 ≤ s.wall.posted.length) := by
        rintro ⟨hno, hfull⟩
        obtain hyes | hless := hroom
        · rw [hholds.2 hyes] at hno
          cases hno
        · omega
      obtain ⟨hboard, hfacts, hcues, hsources, hrecords, hlink⟩ := State.reposted_blocks (s.wall.postNotice f) s
      obtain ⟨hexec, hanswered⟩ := exec_taking_answered h (howner.trans (if_neg hnot)) hlink
      obtain ⟨hadded, hreplaced⟩ := s.wall.postNotice_posted f
      have hpostedEq : ((s.withWall (s.wall.postNotice f)).endNoticeMode.settle s).wall.posted = (s.wall.postNotice f).posted :=
        (congrArg (·.1) hboard :)
      have hmodeEq : ((s.withWall (s.wall.postNotice f)).endNoticeMode.settle s).wall.mode =
          if s.wall.mode = .notice ∧ ∀ n ∈ (s.wall.postNotice f).posted, n.priority ≠ 0 then .normal else s.wall.mode :=
        (congrArg (·.2.1) hboard :)
      have hpostedOf : postedOf f (s.wall.edition + 1) = new := hnew.symm
      rw [hpostedOf] at hadded hreplaced
      obtain ⟨hstand, hjudged⟩ := State.reposted_judged (s := s) (s.wall.postNotice f) (State.answerTel_rests p
        ((Telegram.note f).tel seq) _ _) rfl
      refine ⟨_, hexec, (congrArg (·.2.2) hboard :), fun hno => hpostedEq.trans (hadded hno),
        fun hyes => hpostedEq.trans (hreplaced hyes), ?_, hanswered, fun hpic hwall hrev => ?_, hstand, hjudged, hfacts, hcues, hsources,
        hrecords⟩
      · rw [← hpostedEq] at hmodeEq
        exact hmodeEq
      · obtain ⟨m, hm⟩ : ∃ m, (s.withWall (s.wall.postNotice f)).endNoticeMode =
            s.withWall { s.wall.postNotice f with mode := m } := ⟨_, State.endNoticeMode_wall_eq _⟩
        obtain ⟨hfirst, hstays⟩ := State.noted_rotation hp hpic hwall (m := m) rfl
        have hsettled : ((s.withWall (s.wall.postNotice f)).endNoticeMode.settle s).wall =
            (s.withWall { s.wall.postNotice f with mode := m }).recompose.wall := by rw [hm, State.settle, State.finish_wall]
        have htable : ((s.withWall (s.wall.postNotice f)).endNoticeMode.settle s).table =
            (s.withWall { s.wall.postNotice f with mode := m }).recompose.table := by rw [hm, State.settle, State.finish_table]
        have hunrevised := State.CurrentUnrevised.unrevised (w := { s.wall.postNotice f with mode := m }) hrev htable
          (congrArg Wall.current hsettled)
        show (s.wall.current = none → ((s.withWall (s.wall.postNotice f)).endNoticeMode.settle s).wall.current = _ ∧
          ((s.withWall (s.wall.postNotice f)).endNoticeMode.settle s).wall.dwell = _ ∧
            ((s.withWall (s.wall.postNotice f)).endNoticeMode.settle s).wall.count = _) ∧ (s.wall.current ≠ none →
          ((s.withWall (s.wall.postNotice f)).endNoticeMode.settle s).wall.current = _ ∧
          ((s.withWall (s.wall.postNotice f)).endNoticeMode.settle s).wall.dwell = _ ∧
            ((s.withWall (s.wall.postNotice f)).endNoticeMode.settle s).wall.count = _)
        rw [hsettled]
        refine ⟨hfirst, fun hsome => ?_⟩
        obtain ⟨c, hc⟩ := Option.ne_none_iff_exists'.1 hsome
        obtain ⟨hcurrent, hdwell, hcount⟩ := hstays c hc
        refine ⟨hcurrent.trans hc.symm, hdwell, (hcount (hunrevised c hcurrent)).trans ?_⟩
        rw [hc]
        exact if_congr (Option.some_inj.symm) rfl rfl
  · refine exec_taking_refused h (if_neg ?_)
    omega
  · refine exec_taking_refused h ((if_pos ⟨h1, h2⟩).trans ?_)
    have hholds : ¬s.wall.holds number = true := by simpa [Wall.holds] using hno
    rw [if_neg hholds]
    rfl
  · obtain ⟨hboard, hfacts, hcues, hsources, hrecords, hlink⟩ :=
      State.reposted_blocks { s.wall with posted := s.wall.posted.filter (·.number ≠ number) } s
    obtain ⟨t, hexec, hrests, hwallEq, htsources, htrecords, htcues, htfacts, hanswered, hlinks⟩ := exec_removes hi hposted
    have hpostedEq : t.wall.posted = s.wall.posted.filter (·.number ≠ number) := by
      rw [hwallEq]
      exact (congrArg (·.1) hboard :)
    have hmodeEq : t.wall.mode =
        if s.wall.mode = .notice ∧ ∀ n ∈ s.wall.posted.filter (fun x : Posted => x.number ≠ number), n.priority ≠ 0 then .normal
        else s.wall.mode := by
      rw [hwallEq]
      exact (congrArg (·.2.1) hboard :)
    obtain ⟨hstand, hjudged⟩ := State.reposted_judged (s := s) _ hrests hwallEq
    refine ⟨t, hexec, ?_, hpostedEq, ?_, hanswered, hlinks, fun hpic hwall => ?_, hstand, hjudged, htfacts, htcues, htsources, htrecords⟩
    · rw [hwallEq]
      exact (congrArg (·.2.2) hboard :)
    · rw [hpostedEq]
      exact hmodeEq
    · obtain ⟨m, hm⟩ : ∃ m, (s.withWall { s.wall with posted := s.wall.posted.filter (·.number ≠ number) }).endNoticeMode =
          s.withWall { s.wall with posted := s.wall.posted.filter (·.number ≠ number), mode := m } :=
        ⟨_, State.endNoticeMode_wall_eq _⟩
      obtain ⟨hgone, hstays⟩ := State.removed_rotation hpic hwall hposted (m := m) rfl
      have hsettled : t.wall = (s.withWall
          { s.wall with posted := s.wall.posted.filter (·.number ≠ number), mode := m }).recompose.wall := by
        rw [hwallEq, State.removeNotice, hm, State.settle, State.finish_wall]
      have htable : t.table = (s.withWall
          { s.wall with posted := s.wall.posted.filter (·.number ≠ number), mode := m }).recompose.table := by
        rw [hrests.table, State.removeNotice, hm, State.settle, State.finish_table]
      have hunrevised (hrev : s.CurrentUnrevised t) := hrev.unrevised htable (congrArg Wall.current hsettled)
      rw [hsettled]
      refine ⟨fun before after hc hsplit => ?_, fun hc => ?_⟩
      · obtain ⟨h1, h2, h3⟩ := hgone before after hc hsplit
        exact ⟨h1, h2, fun hrev => h3 (hunrevised hrev)⟩
      · obtain ⟨h1, h2, h3⟩ := hstays hc
        exact ⟨h1, h2, fun hrev => h3 (hunrevised hrev)⟩
  · show s.answer (if _ then _ else s) = _
    rw [if_neg, State.answer_self]
    simpa using hno

end Sys2Proof.Machine
end

section
/-! PROOF. The cue that TAKE gives (R85, R99, R100). -/
namespace Sys2Proof.Machine

open Sys2Proof

variable {s t u v : State}

/-! ## The cue that is given -/

theorem State.eligible_iff (c : Cue) :
    s.eligible c = true ↔
      c.state = .due ∧ (∀ b ∈ s.cues.list, b.isTaken = true → ∀ z ∈ c.zones, z ∉ b.zones) ∧
        ∀ r ∈ s.cues.zones, r.no ∈ c.zones → r.gapEnd = none ∧ r.held = false := by
  have hbusy (z : Nat) : s.zoneBusy z = false ↔ ∀ b ∈ s.cues.list, b.isTaken = true → z ∉ b.zones := by
    simp [State.zoneBusy]
  have hclosed (z : Nat) : s.zoneClosed z = false ↔ ∀ r ∈ s.cues.zones, r.no = z → r.gapEnd = none ∧ r.held = false := by
    simp [State.zoneClosed]
  have hzones : s.eligible c = true ↔ c.state = .due ∧ ∀ z ∈ c.zones, s.zoneBusy z = false ∧ s.zoneClosed z = false := by
    simp [State.eligible]
  simp only [hzones, hbusy, hclosed]
  constructor
  · rintro ⟨hdue, h⟩
    exact ⟨hdue, fun b hb ht z hz => (h z hz).1 b hb ht, fun r hr hz => (h _ hz).2 r hr rfl⟩
  · rintro ⟨hdue, hbusy, hclosed⟩
    exact ⟨hdue, fun z hz => ⟨fun b hb ht => hbusy b hb ht z hz, fun r hr hno => hclosed r hr (hno ▸ hz)⟩⟩

/-- Of a best cue so far and the next one, the better. -/
def bestOf (better : Cue → Cue → Bool) (best : Option Cue) (c : Cue) : Option Cue :=
  match best with
  | none => some c
  | some b => if better c b then some c else best

theorem bestOf_some (better : Cue → Cue → Bool) (b c : Cue) :
    bestOf better (some b) c = if better c b then some c else some b := rfl

theorem State.bestCue_eq (s : State) : s.bestCue = (s.cues.list.filter s.eligible).foldl (bestOf takenBefore) none := rfl

theorem foldl_bestOf_beaten {better : Cue → Cue → Bool} {c : Cue} (l : List Cue) (h : ∀ b ∈ l, better c b = true) :
    ∀ best : Option Cue, (∀ b, best = some b → better c b = true) →
      ∀ b, l.foldl (bestOf better) best = some b → better c b = true := by
  induction l with
  | nil => exact fun best hbest => hbest
  | cons d l ih =>
    refine fun best hbest => ih (fun b hb => h b (List.mem_cons_of_mem _ hb)) _ fun b hb => ?_
    have hd := h d List.mem_cons_self
    cases best with
    | none => exact Option.some.inj hb ▸ hd
    | some a =>
      rw [bestOf_some] at hb
      split at hb
      · exact Option.some.inj hb ▸ hd
      · exact hbest b hb

theorem foldl_bestOf_stays {better : Cue → Cue → Bool} {c : Cue} (l : List Cue) (h : ∀ b ∈ l, better b c = false) :
    l.foldl (bestOf better) (some c) = some c := by
  induction l with
  | nil => rfl
  | cons d l ih =>
    have hd : bestOf better (some c) d = some c := by rw [bestOf_some, h d List.mem_cons_self, if_neg nofun]
    rw [List.foldl_cons, hd, ih fun b hb => h b (List.mem_cons_of_mem _ hb)]

/-- The one that beats every one before it and is beaten by none after it is the best. -/
theorem foldl_bestOf_split {better : Cue → Cue → Bool} {p : Cue → Bool} {before after : List Cue} {c : Cue} (hc : p c = true)
    (hbefore : ∀ b ∈ before, p b = true → better c b = true) (hafter : ∀ b ∈ after, p b = true → better b c = false) :
    ((before ++ c :: after).filter p).foldl (bestOf better) none = some c := by
  rw [List.filter_append, List.filter_cons_of_pos hc, List.foldl_append, List.foldl_cons]
  have hbeaten := foldl_bestOf_beaten (better := better) (c := c) (before.filter p)
    (fun b hb => hbefore b (List.mem_filter.1 hb).1 (List.mem_filter.1 hb).2) none (by simp)
  have hgiven : bestOf better ((before.filter p).foldl (bestOf better) none) c = some c := by
    generalize (before.filter p).foldl (bestOf better) none = best at hbeaten
    cases best with
    | none => rfl
    | some b => rw [bestOf_some, hbeaten b rfl, if_pos rfl]
  rw [hgiven]
  exact foldl_bestOf_stays _ fun b hb => hafter b (List.mem_filter.1 hb).1 (List.mem_filter.1 hb).2

theorem State.bestCue_of_best {before after : List Cue} {c : Cue} (hlist : s.cues.list = before ++ c :: after)
    (hc : s.eligible c = true) (hbefore : ∀ b ∈ before, s.eligible b = true → takenBefore c b = true)
    (hafter : ∀ b ∈ after, s.eligible b = true → takenBefore b c = false) : s.bestCue = some c := by
  rw [State.bestCue_eq, hlist]
  exact foldl_bestOf_split hc hbefore hafter

theorem State.bestCue_none (h : ∀ c ∈ s.cues.list, s.eligible c = false) : s.bestCue = none := by
  rw [State.bestCue_eq, List.filter_eq_nil_iff.2 fun c hc => by simp [h c hc]]
  rfl

/-! ## A cue of the list changed -/

theorem State.CuesOk.split (h : s.CuesOk) {before after : List Cue} {c : Cue} (hlist : s.cues.list = before ++ c :: after) :
    (∀ b ∈ before, b.number ≠ c.number) ∧ ∀ b ∈ after, b.number ≠ c.number := by
  obtain ⟨-, hnodup, -⟩ := h
  rw [hlist, List.map_append, List.map_cons, List.nodup_append] at hnodup
  obtain ⟨-, hafter, hapart⟩ := hnodup
  exact ⟨fun b hb => hapart _ (List.mem_map_of_mem hb) _ List.mem_cons_self,
    fun b hb heq => (List.nodup_cons.1 hafter).1 (heq ▸ List.mem_map_of_mem hb)⟩

theorem State.updCue_split (h : s.CuesOk) {before after : List Cue} {c : Cue} (hlist : s.cues.list = before ++ c :: after)
    (f : Cue → Cue) : (s.updCue c.number f).cues.list = before ++ f c :: after := by
  obtain ⟨hbefore, hafter⟩ := h.split hlist
  show updWhere (·.number = c.number) f s.cues.list = _
  rw [hlist, updWhere_split (by simp) (fun b hb => by simpa using hbefore b hb) fun b hb => by simpa using hafter b hb]

/-! ## TAKE -/

theorem captureContent_eq (p : Params) (e : Entry) (change : Option (Nat × Nat)) (c : Cue) :
    captureContent p e change c =
      { kind := c.kind, number := c.number, run := c.run, zones := c.zones, destination := e.destination
        headcode := e.headcode, sched := clockForm p.dayStart e.sched
        expected :=
          if c.kind = .delay ∨ (c.kind ≠ .cancel ∧ p.lateness ≤ e.dd) then some (clockForm p.dayStart e.exp) else none
        platform := if c.kind = .change then none else e.displayed
        src := if c.kind = .change then change.map (·.1) else none
        dst := if c.kind = .change then change.map (·.2) else none
        delay := if c.kind = .delay then some e.dd else none
        reason := if c.kind = .delay ∨ c.kind = .cancel then e.reason else none
        calls := if c.kind = .platform ∨ c.kind = .final then e.calls else [] } := by
  cases hk : c.kind <;> simp [captureContent, hk, Entry.late]

theorem takeOwner_given {c : Cue} {e : Entry} (hroom : s.takenCount < s.inForce.channels) (hbest : s.bestCue = some c)
    (he : s.entry? c.run = some e) :
    takeOwner s =
      (s.giveCue c (captureContent s.inForce e (s.changeOf c.run) c),
        .accept (.cue (captureContent s.inForce e (s.changeOf c.run) c) c.attempts)) := by
  simp [takeOwner, not_le.2 hroom, hbest, he]

theorem State.giveCue_tracker (c : Cue) (k : Captured) (s : State) :
    (s.giveCue c k).tracker =
      { s.tracker with
        records := s.tracker.records.map fun r =>
          if c.kind = .change ∧ r.run = c.run ∧ r.isOpen = true then { r with inSpeech := true } else r } := by
  unfold State.giveCue
  split
  next hk => simp [hk, State.changeTaken, State.updRecords, State.updCue, State.withCues, State.settleAttention, updWhere]
  next hk => simp [hk, State.updCue, State.withCues, State.settleAttention]

theorem State.giveCue_frame (c : Cue) (k : Captured) (s : State) :
    s.giveCue c k =
      { s with
        cues := { s.cues with list := (s.giveCue c k).cues.list }, tracker := (s.giveCue c k).tracker
        ports := (s.giveCue c k).ports } := by
  unfold State.giveCue
  split <;> rfl

theorem State.giveCue_list (c : Cue) (k : Captured) (s : State) :
    (s.giveCue c k).cues.list =
      (s.updCue c.number fun x =>
        { x with state := .taken { content := k, timer := 0, limit := s.inForce.speakTime }, pendRev := false }).cues.list := by
  unfold State.giveCue
  split <;> rfl

theorem State.giveCue_notices (c : Cue) (k : Captured) (s : State) (q : PortId) :
    ((s.giveCue c k).port q).notices = (s.port q).notices := by
  unfold State.giveCue
  rw [State.settleAttention_notices]
  split <;> rfl

/-- Settles O38. -/
theorem takeGivesTheBestCue : Obligations.TakeGivesTheBestCue := by
  unfold Obligations.TakeGivesTheBestCue
  intro s p seq h
  refine ⟨s.eligible_iff, fun hfull => exec_taking_refused h ?_, fun hroom hnone => exec_taking_refused h ?_,
    fun before after c e hroom hok hlist hc he hbefore hafter content hcontent => ?_⟩
  · exact if_pos hfull
  · show takeOwner s = _
    simp [takeOwner, not_le.2 hroom, State.bestCue_none hnone]
  have hbest : s.bestCue = some c := by
    refine State.bestCue_of_best hlist hc (fun b hb hel => ?_) fun b hb hel => ?_
    · have := hbefore b hb hel
      simpa [takenBefore] using this
    · have := hafter b hb hel
      simp only [takenBefore, Bool.or_eq_false_iff, Bool.and_eq_false_imp, decide_eq_false_iff_not, decide_eq_true_eq]
      omega
  have hgiven : captureContent s.inForce e (s.changeOf c.run) c = content := by
    rw [hcontent, captureContent_eq]
    simp only [State.changeOf, Option.map_map]
    rfl
  have hhandled := takeOwner_given hroom hbest he
  rw [hgiven] at hhandled
  obtain ⟨hexec, hanswered⟩ := exec_taking_answered (tg := .take) h hhandled fun q => State.giveCue_link q c content s
  refine ⟨_, hexec, hanswered, ?_, ?_, State.giveCue_tracker c content s, fun q => ?_⟩
  · rw [State.giveCue_frame]
    rfl
  · exact (State.giveCue_list c content s).trans (State.updCue_split hok hlist _)
  · rw [State.answerTel_notices, State.giveCue_notices]

end Sys2Proof.Machine
end

section
/-! PROOF. What the judging of the change records keeps of each record, and of the entry of a run that no record it
informs names (R72, R75). -/
namespace Sys2Proof.Machine

open Sys2Proof

variable {s t u v : State} {run : Nat}

/-! ## The records through a judging -/

/-- A record judged: what it was opened with stands, and it is opened no more and informed no less. -/
structure ChangeRec.PassesTo (r x : ChangeRec) : Prop where
  same : (x.no, x.run, x.src, x.dst, x.inSpeech, x.cue, x.announced) = (r.no, r.run, r.src, r.dst, r.inSpeech, r.cue, r.announced)
  opened : x.isOpen = true → r.isOpen = true
  informed : r.state = .informed → x.state = .informed

theorem ChangeRec.PassesTo.refl (r : ChangeRec) : r.PassesTo r := ⟨rfl, id, id⟩

theorem ChangeRec.PassesTo.trans {r x y : ChangeRec} (h : r.PassesTo x) (k : x.PassesTo y) : r.PassesTo y :=
  ⟨k.same.trans h.same, h.opened ∘ k.opened, k.informed ∘ h.informed⟩

theorem ChangeRec.PassesTo.fields {r x : ChangeRec} (h : r.PassesTo x) :
    x.no = r.no ∧ x.run = r.run ∧ x.src = r.src ∧ x.dst = r.dst ∧ x.inSpeech = r.inSpeech ∧ x.cue = r.cue ∧
      x.announced = r.announced := by
  simpa using h.same

/-- Every record has been judged, and the closed list has grown at its end alone. -/
def State.Reviewed (s t : State) : Prop :=
  (∃ f : ChangeRec → ChangeRec, t.tracker.records = s.tracker.records.map f ∧ ∀ r : ChangeRec, r.PassesTo (f r)) ∧
    s.tracker.closed <+: t.tracker.closed

theorem State.Reviewed.of_tracker (h : t.tracker = s.tracker) : s.Reviewed t :=
  ⟨⟨id, by rw [h, List.map_id], .refl⟩, by rw [h]⟩

theorem State.Reviewed.trans (h : s.Reviewed t) (k : t.Reviewed u) : s.Reviewed u := by
  obtain ⟨⟨f, hf, hpass⟩, hclosed⟩ := h
  obtain ⟨⟨g, hg, kpass⟩, kclosed⟩ := k
  exact ⟨⟨g ∘ f, by rw [hg, hf, List.map_map], fun r => (hpass r).trans (kpass (f r))⟩, hclosed.trans kclosed⟩

theorem State.Reviewed.record (h : s.Reviewed t) {r : ChangeRec} (hr : r ∈ s.tracker.records) :
    ∃ x ∈ t.tracker.records, r.PassesTo x := by
  obtain ⟨⟨f, hf, hpass⟩, -⟩ := h
  exact ⟨f r, hf ▸ List.mem_map_of_mem hr, hpass r⟩

theorem State.Reviewed.record_before (h : s.Reviewed t) {x : ChangeRec} (hx : x ∈ t.tracker.records) :
    ∃ r ∈ s.tracker.records, r.PassesTo x := by
  obtain ⟨⟨f, hf, hpass⟩, -⟩ := h
  obtain ⟨r, hr, rfl⟩ := List.mem_map.1 (hf ▸ hx)
  exact ⟨r, hr, hpass r⟩

theorem ChangeRec.informed_passes (n : Nat) (r : ChangeRec) : r.PassesTo (r.informed n) := by
  unfold ChangeRec.informed
  split
  · exact ⟨rfl, nofun, fun _ => rfl⟩
  · exact .refl r

theorem State.updRecords_reviewed {p : ChangeRec → Bool} {f : ChangeRec → ChangeRec} (hf : ∀ r : ChangeRec, r.PassesTo (f r))
    (s : State) : s.Reviewed (s.updRecords p f) := by
  refine ⟨⟨_, rfl, fun r => ?_⟩, List.prefix_rfl⟩
  split
  · exact hf r
  · exact .refl r

theorem State.inform_reviewed (r : ChangeRec) (s : State) : s.Reviewed (s.inform r) := by
  rw [State.Reviewed, State.inform_tracker]
  exact ⟨⟨_, rfl, ChangeRec.informed_passes r.no⟩, List.prefix_append ..⟩

theorem State.informAll_reviewed (s : State) : s.Reviewed s.informAll := by
  rw [State.informAll_eq]
  generalize s.toInform = l
  induction l generalizing s with
  | nil => exact .of_tracker rfl
  | cons r l ih => exact (State.inform_reviewed r s).trans (ih _)

theorem State.evaluate_reviewed (s : State) : s.Reviewed s.evaluate := by
  unfold State.evaluate
  split
  · exact (State.updRecords_reviewed (f := s.evaluated) (fun r => ⟨rfl, id, id⟩) s).trans (State.informAll_reviewed _)
  · exact .of_tracker rfl

theorem State.settle_reviewed (s old : State) : s.Reviewed (s.settle old) :=
  (((State.Reviewed.of_tracker (State.compose_tracker s)).trans (State.evaluate_reviewed _)).trans
    (.of_tracker (State.compose_tracker _))).trans (.of_tracker (State.finish_tracker _ old))

/-! ## The entry of a run whose records are not announced -/

theorem State.informs_entry {l : List ChangeRec} (h : ∀ r ∈ l, r.run ≠ run) (s : State) :
    (l.foldl (fun t r => t.inform r) s).entry? run = s.entry? run := by
  induction l generalizing s with
  | nil => rfl
  | cons r l ih =>
    obtain ⟨hr, hl⟩ := List.forall_mem_cons.1 h
    rw [List.foldl_cons, ih hl, State.entry?_eq, State.inform_informed,
      entryIn_updWhere r.run run Entry.informed fun _ => rfl, if_neg (Ne.symm hr), State.entry?_eq]

theorem State.Unspoken.toInform (h : s.Unspoken run) : ∀ r ∈ s.toInform, r.run ≠ run := by
  intro r hr hrun
  obtain ⟨hmem, hopen, -, hann⟩ := State.mem_toInform.1 hr
  exact absurd (hann.symm.trans (h r hmem hrun hopen)) nofun

theorem State.evaluate_entry (h : s.Unspoken run) : s.evaluate.entry? run = s.entry? run := by
  unfold State.evaluate
  split
  · refine State.informs_entry (State.Unspoken.toInform ?_) _
    exact (State.updRecords_calm (f := s.evaluated) (fun r => ⟨rfl, fun h => ⟨h, id⟩⟩) s).unspoken run h
  · rfl

theorem State.settle_entry (old : State) (h : s.Unspoken run) : (s.settle old).entry? run = s.entry? run := by
  have hsame {x y : State} (hxy : y.table = x.table) : y.entry? run = x.entry? run := by
    rw [State.entry?, State.entry?, hxy]
  calc (s.settle old).entry? run = s.recompose.entry? run := hsame (State.finish_table _ old)
    _ = s.compose.evaluate.entry? run := hsame (State.compose_table _)
    _ = s.compose.entry? run := State.evaluate_entry (h.of_tracker (State.compose_tracker s))
    _ = s.entry? run := hsame (State.compose_table s)

end Sys2Proof.Machine
end

section
/-! PROOF. A cue spoken: the facts it hands on, its fate, and the entry it kept (R101 to R103). -/
namespace Sys2Proof.Machine

open Sys2Proof

variable {s t u v : State} {run : Nat} {before after : List Cue} {c : Cue} {x : Taken}

/-! ## The list after a cue has ended or returned -/

theorem State.endCue_split (h : s.CuesOk) (hlist : s.cues.list = before ++ c :: after) :
    (s.endCue c.number).cues.list = before ++ after := by
  obtain ⟨hbefore, hafter⟩ := h.split hlist
  show s.cues.list.filter (·.number ≠ c.number) = _
  rw [hlist, List.filter_append, List.filter_cons_of_neg (by simp),
    List.filter_eq_self.2 fun b hb => by simpa using hbefore b hb,
    List.filter_eq_self.2 fun b hb => by simpa using hafter b hb]

theorem State.takenCue_split (h : s.CuesOk) (hlist : s.cues.list = before ++ c :: after) (hstate : c.state = .taken x) :
    s.takenCue? c.number = some (c, x) := by
  obtain ⟨hbefore, -⟩ := h.split hlist
  have hfind : s.cues.list.find? (·.number = c.number) = some c := by
    rw [hlist, List.find?_append, List.find?_eq_none.2 fun b hb => by simpa using hbefore b hb]
    simp
  simp [State.takenCue?, hfind, hstate]

theorem State.takenCue_none {number : Nat} (h : ∀ c ∈ s.cues.list, c.number = number → c.isTaken = false) :
    s.takenCue? number = none := by
  cases hx : s.takenCue? number with
  | none => rfl
  | some p =>
    obtain ⟨hfind, hnumber, hstate⟩ := State.takenCue_find hx
    have := h p.1 (List.mem_of_find?_eq_some hfind) hnumber
    simp [Cue.isTaken, hstate] at this

/-- The list after the fate of a cue: the fate takes one cue's place. -/
structure FateAt (before after rest : List Cue) (r : State × Fate × Nat) : Prop where
  list : r.1.cues.list = before ++ rest ++ after
  untaken : ∀ b ∈ rest, b.isTaken = false

theorem State.fateOfDone_at (hok : s.CuesOk) (hlist : s.cues.list = before ++ c :: after) :
    ∃ rest, FateAt before after rest (s.fateOfDone c) ∧
      (c.pendDrop = true → rest = [] ∧ (s.fateOfDone c).2 = (.ended, c.attempts)) ∧
      (c.pendDrop = false → c.pendRev = true →
        (c.kind = .platform ∨ c.kind = .final → rest = [] ∧ (s.fateOfDone c).2 = (.ended, c.attempts)) ∧
          (c.kind = .change ∨ c.kind = .delay ∨ c.kind = .cancel →
            rest =
                [{ c with
                    state := .due, attempts := 0, pendRev := false, pendDrop := false, zones := s.freshZones c }] ∧
              (s.fateOfDone c).2 = (.due, 0))) ∧
      (c.pendDrop = false → c.pendRev = false →
        (s.repeats c = true →
            rest = [{ c with state := .waiting, due := s.now + s.inForce.repeatPeriod, attempts := 0 }] ∧
              (s.fateOfDone c).2 = (.waiting, 0)) ∧
          (s.repeats c = false → rest = [] ∧ (s.fateOfDone c).2 = (.ended, c.attempts))) := by
  have hended : FateAt before after [] ((s.endCue c.number, .ended, c.attempts)) :=
    ⟨(State.endCue_split hok hlist).trans (by rw [List.append_nil]), List.forall_mem_nil _⟩
  cases hdrop : c.pendDrop with
  | true =>
    have hfate : s.fateOfDone c = (s.endCue c.number, .ended, c.attempts) := by simp [State.fateOfDone, hdrop]
    rw [hfate]
    exact ⟨[], hended, fun _ => ⟨rfl, rfl⟩, nofun, nofun⟩
  | false =>
    cases hrev : c.pendRev with
    | true =>
      by_cases hkind : c.kind = .platform ∨ c.kind = .final
      · have hfate : s.fateOfDone c = (s.endCue c.number, .ended, c.attempts) := by
          obtain hk | hk := hkind <;> simp [State.fateOfDone, hdrop, hrev, hk]
        rw [hfate]
        refine ⟨[], hended, nofun, fun _ _ => ⟨fun _ => ⟨rfl, rfl⟩, fun hk => ?_⟩, nofun⟩
        obtain hp | hp := hkind <;> simp [hp] at hk
      · have hfate : s.fateOfDone c = (s.returnDue c 0, .due, 0) := by
          cases hk : c.kind <;> simp_all [State.fateOfDone]
        rw [hfate]
        refine ⟨_, ⟨?_, ?_⟩, nofun, fun _ _ => ⟨fun hk => absurd hk hkind, fun _ => ⟨rfl, rfl⟩⟩, nofun⟩
        · rw [List.append_assoc]
          exact State.updCue_split hok hlist _
        · simp [Cue.isTaken]
    | false =>
      cases hrep : s.repeats c with
      | true =>
        have hfate : s.fateOfDone c =
            (s.updCue c.number fun x =>
              { x with state := .waiting, due := s.now + s.inForce.repeatPeriod, attempts := 0 }, .waiting, 0) := by
          simp [State.fateOfDone, hdrop, hrev, hrep]
        rw [hfate]
        refine ⟨_, ⟨?_, ?_⟩, nofun, nofun, fun _ _ => ⟨fun _ => ⟨rfl, rfl⟩, nofun⟩⟩
        · exact (State.updCue_split hok hlist _).trans (by simp [hdrop, hrev])
        · simp [Cue.isTaken]
      | false =>
        have hfate : s.fateOfDone c = (s.endCue c.number, .ended, c.attempts) := by
          simp [State.fateOfDone, hdrop, hrev, hrep]
        rw [hfate]
        exact ⟨[], hended, nofun, nofun, fun _ _ => ⟨nofun, fun _ => ⟨rfl, rfl⟩⟩⟩

theorem State.fateOfAbort_third (hdrop : c.pendDrop = false) (hthird : c.attempts = 2) :
    s.fateOfAbort c =
      (if c.kind = .change then ((s.endCue c.number).postDropped c.run).changeDropped c.run
        else (s.endCue c.number).postDropped c.run, .ended, 3) := by
  simp [State.fateOfAbort, hdrop, hthird]

theorem State.fateOfAbort_at (hok : s.CuesOk) (hlist : s.cues.list = before ++ c :: after) :
    ∃ rest, FateAt before after rest (s.fateOfAbort c) ∧
      (c.pendDrop = true → rest = [] ∧ (s.fateOfAbort c).2 = (.ended, c.attempts)) ∧
      (c.pendDrop = false → c.attempts < 2 →
        rest =
            [{ c with
                state := .due, attempts := c.attempts + 1, pendRev := false, pendDrop := false
                zones := s.freshZones c }] ∧
          (s.fateOfAbort c).2 = (.due, c.attempts + 1)) ∧
      (c.pendDrop = false → c.attempts = 2 → rest = [] ∧ (s.fateOfAbort c).2 = (.ended, 3)) := by
  cases hdrop : c.pendDrop with
  | true =>
    have hfate : s.fateOfAbort c = (s.endCue c.number, .ended, c.attempts) := by simp [State.fateOfAbort, hdrop]
    rw [hfate]
    exact ⟨[], ⟨(State.endCue_split hok hlist).trans (by rw [List.append_nil]), List.forall_mem_nil _⟩, fun _ => ⟨rfl, rfl⟩, nofun, nofun⟩
  | false =>
    have htries : c.attempts ≤ 2 := by
      obtain ⟨-, -, hranges, -⟩ := hok
      exact (hranges c (by simp [hlist])).2.2
    by_cases hthird : c.attempts = 2
    · rw [State.fateOfAbort_third hdrop hthird]
      refine ⟨[], ⟨?_, List.forall_mem_nil _⟩, nofun, fun _ hlt => absurd hthird hlt.ne, fun _ _ => ⟨rfl, rfl⟩⟩
      rw [List.append_nil, ← State.endCue_split hok hlist]
      dsimp only
      split <;> rfl
    · have hfate : s.fateOfAbort c = (s.returnDue c (c.attempts + 1), .due, c.attempts + 1) := by
        have hlt : ¬2 ≤ c.attempts := by omega
        simp [State.fateOfAbort, hdrop, hlt]
      rw [hfate]
      refine ⟨_, ⟨?_, ?_⟩, nofun, fun _ _ => ⟨rfl, rfl⟩, fun _ h => absurd h hthird⟩
      · rw [List.append_assoc]
        exact State.updCue_split hok hlist _
      · simp [Cue.isTaken]

end Sys2Proof.Machine
end

section
/-! PROOF. What a DONE hands on, and the entry a cue kept (R93, R101, R102). -/
namespace Sys2Proof.Machine

open Sys2Proof

variable {s t u v : State} {run m : Nat} {c : Cue}

/-! ## The facts handed on -/

/-- The entry a DONE hands the captured content to (R102). -/
def Captured.handTo (k : Captured) (e : Entry) : Entry :=
  { e with
    announced := if k.kind = .platform then k.platform else if k.kind = .change then k.dst else e.announced
    lastDelay := if k.kind = .delay then k.delay.getD 0 else e.lastDelay }

theorem State.updEntry_entry {f : Entry → Entry} (hf : ∀ e, (f e).run = e.run) (run m : Nat) (s : State) :
    (s.updEntry run f).entry? m = if m = run then (s.entry? m).map f else s.entry? m :=
  entryIn_updWhere run m f hf s.table.entries

theorem State.updEntry_entry_facts {f : Entry → Entry} (hf : ∀ e, (f e).run = e.run ∧ (f e).facts = f e.facts)
    (hs : t.facts = s.facts) (run m : Nat) :
    ((t.updEntry run f).entry? m).map Entry.facts =
      if m = run then (s.entry? m).map fun e => (f e).facts else (s.entry? m).map Entry.facts := by
  have ht := State.entry_facts_of_facts hs m
  rw [State.updEntry_entry fun e => (hf e).1]
  split
  · calc ((t.entry? m).map f).map Entry.facts = ((t.entry? m).map Entry.facts).map f := by
          rw [Option.map_map, Option.map_map]
          exact Option.map_congr fun e _ => (hf e).2
      _ = (s.entry? m).map fun e => (f e).facts := by
          rw [ht, Option.map_map]
          exact Option.map_congr fun e _ => (hf e).2.symm
  · exact ht

theorem State.changeDone_facts (run : Nat) (s : State) : (s.changeDone run).facts = s.facts := by
  rw [State.changeDone, State.informAll_facts]
  rfl

theorem State.spokenFacts_entry (k : Captured) (s : State) (m : Nat) :
    ((s.spokenFacts k).entry? m).map Entry.facts =
      if m = k.run then (s.entry? m).map fun e => (k.handTo e).facts else (s.entry? m).map Entry.facts := by
  unfold State.spokenFacts
  cases hk : k.kind with
  | platform =>
    refine (State.updEntry_entry_facts (f := fun e => { e with announced := k.platform }) (fun e => ⟨rfl, rfl⟩) rfl ..).trans ?_
    simp [Captured.handTo, hk]
  | change =>
    refine (State.updEntry_entry_facts (f := fun e => { e with announced := k.dst }) (fun e => ⟨rfl, rfl⟩)
      (State.changeDone_facts ..) ..).trans ?_
    simp [Captured.handTo, hk]
  | delay =>
    refine (State.updEntry_entry_facts (f := fun e => { e with lastDelay := k.delay.getD 0 }) (fun e => ⟨rfl, rfl⟩) rfl
      ..).trans ?_
    simp [Captured.handTo, hk]
  | _ => simp [Captured.handTo, hk]

/-! ## The entry a cue kept -/

theorem State.dropEntry_entry (run m : Nat) (s : State) :
    (s.dropEntry run).entry? m = if m = run then none else s.entry? m := by
  show (s.table.entries.filter (·.run ≠ run)).find? (·.run = m) = _
  rw [List.find?_filter]
  split
  next h => exact List.find?_eq_none.2 fun e _ => by simp [h]
  next h =>
    refine congrArg (fun p => s.table.entries.find? p) (funext fun e => ?_)
    by_cases he : e.run = m
    · simp [he, h]
    · simp [he]

theorem State.cueEnded_other (h : m ≠ run) (s : State) : (s.cueEnded run).entry? m = s.entry? m := by
  unfold State.cueEnded
  split
  · rw [State.dropEntry_entry, if_neg h]
  · rfl

theorem State.cueEnded_kept (h : ∀ e, s.entry? run = some e → e.state ≠ .retiring) : s.cueEnded run = s := by
  refine if_neg fun hgone => ?_
  obtain ⟨hret, -⟩ := hgone
  obtain ⟨e, he, hstate⟩ := (Option.any_eq_true ..).1 hret
  exact h e he (of_decide_eq_true hstate)

theorem State.cueEnded_gone {e : Entry} (he : s.entry? run = some e) (hstate : e.state = .retiring)
    (hnamed : s.namedByTaken run = false) : (s.cueEnded run).entry? run = none := by
  rw [State.cueEnded, if_pos ⟨by simp [he, hstate], by simp [hnamed]⟩, State.dropEntry_entry, if_pos rfl]

theorem State.settled_none {old : State} (h : s.entry? run = none) : (s.settle old).entry? run = none := by
  have := State.entry_facts_of_facts (State.settle_facts s old) run
  rw [h] at this
  simpa using this

/-- The facts of the other entries stand where the end of a cue is reported (R93). -/
theorem State.ended_others (h : s.OthersKept v run) (old : State) : s.OthersKept ((v.cueEnded run).settle old) run :=
  fun m hm => (State.entry_facts_of_facts (State.settle_facts _ old) m).trans
    ((congrArg _ (State.cueEnded_other hm v)).trans (h m hm))

end Sys2Proof.Machine
end

section
/-! PROOF. A DONE settled: the change record of a CHANGE cue, the cue's fate and the reply (R74, R75, R101 to R103). -/
namespace Sys2Proof.Machine

open Sys2Proof

variable {s t u v : State} {run m : Nat} {c : Cue} {x : Taken}

/-! ## The records of a run whose CHANGE cue is spoken -/

/-- A record as a DONE of the run's CHANGE cue marks it (R74). -/
def ChangeRec.spokenOf (run : Nat) (r : ChangeRec) : ChangeRec :=
  { r with
    announced := r.announced || (decide (r.run = run) && r.isOpen && r.inSpeech)
    inSpeech := r.inSpeech && !decide (r.run = run) }

/-- The records marked, before the judging that follows. -/
def State.speechMarked (run : Nat) (s : State) : State :=
  (s.updRecords (fun r => r.run = run && r.isOpen && r.inSpeech) fun r => { r with announced := true }).clearSpeech run

theorem State.changeDone_eq (run : Nat) (s : State) : s.changeDone run = (s.speechMarked run).informAll := rfl

theorem State.speechMarked_tracker (run : Nat) (s : State) :
    (s.speechMarked run).tracker = { s.tracker with records := s.tracker.records.map (ChangeRec.spokenOf run) } := by
  show ({ s.tracker with records := updWhere _ _ (updWhere _ _ s.tracker.records) } : Tracker) = _
  simp only [updWhere, List.map_map, Tracker.mk.injEq, and_true]
  refine List.map_congr_left fun r _ => ?_
  by_cases hrun : r.run = run
  · cases hopen : r.isOpen <;> cases hin : r.inSpeech <;> simp [ChangeRec.spokenOf, hrun, hopen, hin]
  · simp [ChangeRec.spokenOf, hrun]

theorem State.speechMarked_trackerOk (h : s.tracker.Ok) (run : Nat) : (s.speechMarked run).tracker.Ok := by
  rw [State.speechMarked_tracker]
  exact h.mapKeeps fun r => ⟨rfl, rfl, rfl⟩

theorem State.changeDone_tracker (run : Nat) (s : State) :
    (s.changeDone run).tracker =
      { records := s.tracker.records.map fun r => (r.spokenOf run).informedOf ((s.speechMarked run).toInform.map (·.no))
        closed := s.tracker.closed ++ (s.speechMarked run).toInform.map (·.no) } := by
  rw [State.changeDone_eq, State.informAll_eq, State.informs_tracker, State.speechMarked_tracker]
  simp [Function.comp_def]

theorem State.changeDone_trackerOk (h : s.tracker.Ok) (run : Nat) : (s.changeDone run).tracker.Ok :=
  (State.changeDone_moved (out := none) (join := none) run s).trackerOk h

theorem ChangeRec.informedOf_passes (ns : List Nat) (r : ChangeRec) : r.PassesTo (r.informedOf ns) := by
  unfold ChangeRec.informedOf
  split
  · exact ⟨rfl, nofun, fun _ => rfl⟩
  · exact .refl r

/-- A record displayed already and now announced is among those that become INFORMED (R75). -/
theorem State.spokenOf_mem {r : ChangeRec} (hr : r ∈ s.tracker.records) (hopen : r.isOpen = true)
    (hdisplayed : r.displayed = true) (hann : (r.spokenOf run).announced = true) :
    r.spokenOf run ∈ (s.speechMarked run).toInform := by
  refine State.mem_toInform.2 ⟨?_, hopen, hdisplayed, hann⟩
  rw [State.speechMarked_tracker]
  exact List.mem_map_of_mem hr

/-- An OPEN record that this DONE does not inform is the run's OPEN record still (R103). -/
theorem State.changeDone_changeOf (h : s.tracker.Ok) {r : ChangeRec} (hr : s.openRecord? run = some r)
    (hwait : ¬(r.displayed = true ∧ (r.inSpeech = true ∨ r.announced = true))) :
    (s.changeDone run).changeOf run = some (r.src, r.dst) := by
  have hmem := List.mem_of_find?_eq_some hr
  have hpick := List.find?_some hr
  simp only [Bool.and_eq_true, decide_eq_true_eq] at hpick
  obtain ⟨hrun, hopen⟩ := hpick
  have hmarked : r.spokenOf run ∈ (s.speechMarked run).tracker.records := by
    rw [State.speechMarked_tracker]
    exact List.mem_map_of_mem hmem
  have hout : r.spokenOf run ∉ (s.speechMarked run).toInform := fun hin => by
    obtain ⟨-, -, hdisplayed, hann⟩ := State.mem_toInform.1 hin
    refine hwait ⟨hdisplayed, ?_⟩
    simp only [ChangeRec.spokenOf, hrun, hopen, decide_true, Bool.true_and, Bool.or_eq_true] at hann
    exact hann.symm
  have hstays : r.spokenOf run ∈ (s.changeDone run).tracker.records := by
    rw [State.changeDone_tracker]
    refine List.mem_map.2 ⟨r, hmem, if_neg ?_⟩
    exact fun hno => hout ((State.mem_toInform_no (State.speechMarked_trackerOk h run) hmarked).1 hno)
  have hopened := State.openRecord?_eq_some (State.changeDone_trackerOk h run) hstays hopen
  rw [show (r.spokenOf run).run = run from hrun] at hopened
  rw [State.changeOf, hopened]
  rfl

theorem State.Reviewed.marks (h : s.Reviewed t) :
    (t.tracker.records.map fun r => (r.no, r.run, r.inSpeech, r.cue)) =
      s.tracker.records.map fun r => (r.no, r.run, r.inSpeech, r.cue) := by
  obtain ⟨⟨f, hf, hpass⟩, -⟩ := h
  rw [hf, List.map_map]
  refine List.map_congr_left fun r _ => ?_
  obtain ⟨hno, hrun, -, -, hin, hcue, -⟩ := (hpass r).fields
  simp [hno, hrun, hin, hcue]

/-! ## The state a DONE hands to the fate of the cue -/

theorem State.spokenFacts_change {k : Captured} (h : k.kind = .change) (s : State) :
    s.spokenFacts k = (s.changeDone k.run).updEntry k.run fun e => { e with announced := k.dst } := by
  rw [State.spokenFacts, h]

theorem State.spokenFacts_tracker {k : Captured} (h : k.kind ≠ .change) (s : State) : (s.spokenFacts k).tracker = s.tracker := by
  unfold State.spokenFacts
  split
  · rfl
  next hk => exact absurd hk h
  · rfl
  · rfl

theorem State.fateOfDone_frame (c : Cue) (s : State) : ∃ l, (s.fateOfDone c).1 = s.withCues l := by
  unfold State.fateOfDone
  repeat' split
  all_goals exact ⟨_, rfl⟩

theorem State.spoken_marks {k : Captured} (s : State) (h : (s.spokenFacts k).Reviewed t) :
    (t.tracker.records.map fun r => (r.no, r.run, r.inSpeech, r.cue)) =
      s.tracker.records.map fun r => (r.no, r.run, r.inSpeech && !decide (k.kind = .change ∧ r.run = k.run), r.cue) := by
  rw [h.marks]
  by_cases hk : k.kind = .change
  · rw [State.spokenFacts_change hk, show ((s.changeDone k.run).updEntry k.run _).tracker = (s.changeDone k.run).tracker from rfl,
      State.changeDone_tracker, List.map_map]
    refine List.map_congr_left fun r _ => ?_
    obtain ⟨hno, hrun, -, -, hin, hcue, -⟩ :=
      (ChangeRec.informedOf_passes ((s.speechMarked k.run).toInform.map (·.no)) (r.spokenOf k.run)).fields
    simp only [Function.comp_apply, hno, hrun, hin, hcue]
    simp [ChangeRec.spokenOf, hk]
  · rw [State.spokenFacts_tracker hk]
    simp [hk]

/-! ## SPKN -/

theorem State.startGap_zones (zones : List Nat) (s : State) :
    (s.startGap zones).cues =
      { s.cues with
        zones := s.cues.zones.map fun z =>
          if z.no ∈ zones ∧ s.inForce.zoneGap ≠ 0 then
            { z with gapEnd := some (max (s.time.runSec + s.inForce.zoneGap) (z.gapEnd.getD 0)) }
          else z } := by
  unfold State.startGap
  split
  next h => simp [h]
  next h => simp [h, updWhere]

theorem State.startGap_picture (zones : List Nat) (s : State) :
    (s.startGap zones).table = s.table ∧ (s.startGap zones).tracker = s.tracker ∧ (s.startGap zones).ports = s.ports ∧
      (s.startGap zones).cues.list = s.cues.list ∧ (s.startGap zones).cues.last = s.cues.last ∧
      (s.startGap zones).records = s.records := by
  unfold State.startGap
  split <;> exact ⟨rfl, rfl, rfl, rfl, rfl, rfl⟩

theorem spknOwner_tooLate {f : SpknFields} (hcue : f.cue ≠ 0) (hout : f.outcome ≤ 1) (h : s.takenCue? f.cue = none) :
    spknOwner f s = (s, .refuse .tooLate) := by
  simp [spknOwner, hcue, hout, h]

theorem spknOwner_spoken {f : SpknFields} (hcue : f.cue ≠ 0) (hout : f.outcome ≤ 1) (h : s.takenCue? f.cue = some (c, x)) :
    spknOwner f s =
      ((s.speak (f.outcome = 0) c x).1, .accept (.fate (s.speak (f.outcome = 0) c x).2.1 (s.speak (f.outcome = 0) c x).2.2)) := by
  simp [spknOwner, hcue, hout, h]

/-- What the gap and the settling leave, whatever the outcome (R97). -/
theorem State.speak_frame (done : Bool) (c : Cue) (x : Taken) (s : State) :
    s.GapStarted (s.speak done c x).1 x.content.zones ∧ (s.speak done c x).1.sources = s.sources ∧
      (s.speak done c x).1.wall.board = s.wall.board ∧ (s.speak done c x).1.records = s.records := by
  obtain ⟨hsources, hboard, hrecords, hzones⟩ := State.speak_beside done c x s
  obtain ⟨-, -, -, -, -, hpanels⟩ := State.startGap_picture x.content.zones s
  refine ⟨?_, hsources.trans (State.startGap_sources ..), hboard.trans ?_, hrecords.trans hpanels⟩
  · rw [State.GapStarted, hzones, State.startGap_zones]
  · rw [State.startGap_wall]

end Sys2Proof.Machine
end

section
/-! PROOF. DONE settled (R74, R75, R93, R97, R101 to R103). -/
namespace Sys2Proof.Machine

open Sys2Proof

variable {s t u v : State} {run m : Nat} {c : Cue} {x : Taken} {e : Entry} {k : Captured}

/-! ## The state in which the fate of a spoken cue is found -/

/-- The gap started and the captured facts handed on (R97, R102). -/
def State.handed (x : Taken) (s : State) : State := (s.startGap x.content.zones).spokenFacts x.content

theorem State.speak_done (c : Cue) (x : Taken) (s : State) :
    s.speak true c x =
      ((((s.handed x).fateOfDone c).1.cueEnded c.run).settle s, ((s.handed x).fateOfDone c).2) := rfl

theorem State.handed_cues (x : Taken) (s : State) :
    (s.handed x).cues.list = s.cues.list ∧ (s.handed x).cues.last = s.cues.last := by
  obtain ⟨-, -, -, hlist, hlast, -⟩ := State.startGap_picture x.content.zones s
  rw [State.handed, State.spokenFacts_cues]
  exact ⟨hlist, hlast⟩

theorem State.handed_cuesOk (h : s.CuesOk) (x : Taken) : (s.handed x).CuesOk := by
  obtain ⟨hlist, hlast⟩ := s.handed_cues x
  rw [State.CuesOk, hlist, hlast]
  exact h

theorem State.handed_sources (x : Taken) (s : State) : (s.handed x).sources = s.sources :=
  (State.spokenFacts_sources ..).trans (State.startGap_sources ..)

theorem State.now_of_sources (h : t.sources = s.sources) : t.now = s.now := by
  rw [State.now, State.now, State.elapsed, State.elapsed, State.time_of_sources h, State.inForce_of_sources h]

theorem State.handed_entry (x : Taken) (s : State) (m : Nat) :
    ((s.handed x).entry? m).map Entry.facts =
      if m = x.content.run then (s.entry? m).map fun e => (x.content.handTo e).facts else (s.entry? m).map Entry.facts := by
  obtain ⟨htable, -⟩ := State.startGap_picture x.content.zones s
  rw [State.handed, State.spokenFacts_entry, State.entry?, htable]
  rfl

theorem State.handed_found (hrun : x.content.run = run) (he : s.entry? run = some e) :
    ∃ y, (s.handed x).entry? run = some y ∧ y.facts = (x.content.handTo e).facts := by
  refine Option.map_eq_some_iff.1 ?_
  rw [State.handed_entry, if_pos hrun.symm, he]
  rfl

theorem State.handed_freshZones (hrun : x.content.run = c.run) (hkind : c.kind = .delay ∨ c.kind = .cancel)
    (he : s.entry? c.run = some e) : (s.handed x).freshZones c = 0 :: e.displayed.toList := by
  obtain ⟨y, hy, hfacts⟩ := State.handed_found hrun he
  have hshown : y.displayed = e.displayed := (congrArg Entry.displayed hfacts :)
  obtain hk | hk := hkind <;> simp [State.freshZones, hy, Entry.cueZones, hk, hshown]

theorem State.handed_changeZones (hkind : c.kind = .change) (hxk : x.content.kind = .change) (hrun : x.content.run = c.run)
    (hok : s.tracker.Ok) (he : (s.entry? c.run).isSome = true) {r : ChangeRec} (hr : s.openRecord? c.run = some r)
    (hwait : ¬(r.displayed = true ∧ (r.inSpeech = true ∨ r.announced = true))) :
    (s.handed x).freshZones c = [0, r.src, r.dst] := by
  obtain ⟨e, he⟩ := Option.isSome_iff_exists.1 he
  obtain ⟨y, hy, -⟩ := State.handed_found hrun he
  obtain ⟨-, htracker, -⟩ := State.startGap_picture x.content.zones s
  have hgap : (s.startGap x.content.zones).openRecord? c.run = some r := by rw [State.openRecord?, htracker]; exact hr
  have hchange := State.changeDone_changeOf (htracker.symm ▸ hok) hgap hwait
  have hthen : (s.handed x).changeOf c.run = some (r.src, r.dst) := by
    rw [State.handed, State.spokenFacts_change hxk, hrun]
    exact hchange
  simp [State.freshZones, hy, Entry.cueZones, hkind, hthen]

theorem State.handed_repeats (hrun : x.content.run = c.run) :
    (s.handed x).repeats c = true ↔
      c.kind = .delay ∧ 0 < s.inForce.repeatPeriod ∧
        ∃ e, s.entry? c.run = some e ∧ (e.state = .listed ∨ e.state = .boarding) ∧ s.inForce.delayThreshold ≤ e.dd := by
  have hforce := State.inForce_of_sources (State.handed_sources x s)
  have hentry := State.handed_entry x s c.run
  rw [if_pos hrun.symm] at hentry
  have hany : ((s.handed x).entry? c.run).any (fun e => e.awaiting && decide (s.inForce.delayThreshold ≤ e.dd)) = true ↔
      ∃ e, s.entry? c.run = some e ∧ (e.state = .listed ∨ e.state = .boarding) ∧ s.inForce.delayThreshold ≤ e.dd := by
    cases he : s.entry? c.run with
    | none =>
      rw [he] at hentry
      simp [Option.map_eq_none_iff.1 hentry]
    | some e =>
      rw [he] at hentry
      obtain ⟨y, hy, hfacts⟩ := Option.map_eq_some_iff.1 hentry
      have hstate : y.state = e.state := (congrArg Entry.state hfacts :)
      have hdd : y.dd = e.dd := (congrArg Entry.dd hfacts :)
      simp [hy, Entry.awaiting, hstate, hdd]
  rw [State.repeats, hforce, Bool.and_eq_true, Bool.and_eq_true, hany]
  simp [and_assoc]

/-! ## The change record a CHANGE cue announces -/

theorem State.handed_tracker (hxk : x.content.kind = .change) (hrun : x.content.run = run) (s : State) :
    (s.handed x).tracker = ((s.startGap x.content.zones).changeDone run).tracker := by
  rw [State.handed, State.spokenFacts_change hxk, hrun]
  rfl

theorem State.handed_record (hxk : x.content.kind = .change) (hrun : x.content.run = run) {r : ChangeRec}
    (hr : r ∈ s.tracker.records) (hown : r.run = run) (hopen : r.isOpen = true) (hin : r.inSpeech = true) :
    ∃ q ∈ (s.handed x).tracker.records, q.no = r.no ∧ q.run = r.run ∧ q.announced = true ∧
      (r.displayed = true → q.state = .informed) := by
  obtain ⟨-, htracker, -⟩ := State.startGap_picture x.content.zones s
  have hann : (r.spokenOf run).announced = true := by simp [ChangeRec.spokenOf, hown, hopen, hin]
  refine ⟨(r.spokenOf run).informedOf (((s.startGap x.content.zones).speechMarked run).toInform.map (·.no)), ?_, ?_⟩
  · rw [State.handed_tracker hxk hrun, State.changeDone_tracker, htracker]
    exact List.mem_map.2 ⟨r, hr, rfl⟩
  · obtain ⟨hno, hqrun, -, -, -, -, hqann⟩ :=
      (ChangeRec.informedOf_passes (((s.startGap x.content.zones).speechMarked run).toInform.map (·.no)) (r.spokenOf run)).fields
    refine ⟨hno, hqrun, hqann.trans hann, fun hdisplayed => ?_⟩
    rw [ChangeRec.informedOf, if_pos (List.mem_map_of_mem
      (State.spokenOf_mem (s := s.startGap x.content.zones) (htracker.symm ▸ hr) hopen hdisplayed hann))]

theorem entryIn_map {f : Entry → Entry} (hf : ∀ e, (f e).run = e.run) (run : Nat) (l : List Entry) :
    entryIn run (l.map f) = (entryIn run l).map f := by
  rw [entryIn, entryIn, List.find?_map]
  simp only [Function.comp_def, hf]

theorem State.inform_entry (h : s.tracker.Ok) {q : ChangeRec} (hq : q ∈ s.toInform) (he : s.entry? q.run = some e) :
    s.informAll.entry? q.run = some e.informed := by
  have hrun : e.run = q.run := entryIn_run he
  rw [State.informAll_eq, State.entry?_eq, State.informs_table (State.toInform_runs h),
    entryIn_map fun e => (Entry.informedOf_fields _ e).1, ← State.entry?_eq, he, Option.map_some, Entry.informedOf,
    if_pos (hrun ▸ List.mem_map_of_mem hq)]

/-- A change displayed already becomes INFORMED with the DONE of its CHANGE cue (R75). -/
theorem State.handed_informed (hxk : x.content.kind = .change) (hrun : x.content.run = run) (hok : s.tracker.Ok) {r : ChangeRec}
    (hr : r ∈ s.tracker.records) (hown : r.run = run) (hopen : r.isOpen = true) (hin : r.inSpeech = true)
    (hdisplayed : r.displayed = true) : s.Informed (s.handed x) r ∧ (s.handed x).Unspoken run := by
  obtain ⟨htable, htracker, -⟩ := State.startGap_picture x.content.zones s
  have hann : (r.spokenOf run).announced = true := by simp [ChangeRec.spokenOf, hown, hopen, hin]
  have hgap : (s.startGap x.content.zones).tracker.Ok := htracker.symm ▸ hok
  have hmem : r ∈ (s.startGap x.content.zones).tracker.records := htracker.symm ▸ hr
  have hto := State.spokenOf_mem hmem hopen hdisplayed hann
  have hmarked := State.speechMarked_trackerOk hgap run
  refine ⟨⟨?_, ?_, fun e he => ?_⟩, fun q hq hqrun hqopen => ?_⟩
  · rw [State.handed_tracker hxk hrun, State.changeDone_tracker]
    exact List.mem_append_right _ (List.mem_map.2 ⟨_, hto, rfl⟩)
  · have hholds := State.informs_holds hto ((s.startGap x.content.zones).speechMarked run)
    rw [show ((s.startGap x.content.zones).speechMarked run).time = s.time from
      State.time_of_sources (State.startGap_sources ..)] at hholds
    rw [State.handed, State.spokenFacts_change hxk, hrun]
    exact hholds
  · have hmarkedEntry : ((s.startGap x.content.zones).speechMarked run).entry? (r.spokenOf run).run = some e := by
      rw [State.entry?, show ((s.startGap x.content.zones).speechMarked run).table = s.table from htable]
      exact he
    have hdone : (((s.startGap x.content.zones).speechMarked run).informAll).entry? r.run = some e.informed :=
      State.inform_entry (q := r.spokenOf run) hmarked hto hmarkedEntry
    refine ⟨{ e.informed with announced := x.content.dst }, ?_, rfl, rfl⟩
    rw [State.handed, State.spokenFacts_change hxk, hrun,
      State.updEntry_entry (f := fun e => { e with announced := x.content.dst }) fun _ => rfl, if_pos hown, State.changeDone_eq,
      hdone]
    rfl
  · rw [State.handed_tracker hxk hrun, State.changeDone_tracker] at hq
    obtain ⟨p, hp, rfl⟩ := List.mem_map.1 hq
    have hpass := ChangeRec.informedOf_passes (((s.startGap x.content.zones).speechMarked run).toInform.map (·.no)) (p.spokenOf run)
    have hpopen : p.isOpen = true := hpass.opened hqopen
    have hprun : p.run = r.run := (hpass.fields.2.1.symm.trans hqrun).trans hown.symm
    have hsame : p = r := hgap.open_unique hp hmem hpopen hopen hprun
    rw [hsame, ChangeRec.informedOf, if_pos (List.mem_map_of_mem hto)] at hqopen
    exact absurd hqopen (by simp [ChangeRec.isOpen])

/-! ## The end of a DONE -/

theorem State.done_tracker (x : Taken) (s : State) (c : Cue) :
    (s.handed x).Reviewed ((((s.handed x).fateOfDone c).1.cueEnded c.run).settle s) := by
  obtain ⟨l, hl⟩ := State.fateOfDone_frame c (s.handed x)
  refine State.Reviewed.trans (.of_tracker ?_) (State.settle_reviewed _ s)
  rw [hl, State.cueEnded]
  split <;> rfl

theorem State.done_heard (x : Taken) (s : State) (c : Cue) (q : PortId) :
    ((s.handed x).port q).Heard (((((s.handed x).fateOfDone c).1.cueEnded c.run).settle s).port q) := by
  obtain ⟨l, hl⟩ := State.fateOfDone_frame c (s.handed x)
  refine Port.Heard.trans ?_ ((State.settle_calm _ s).heard q)
  rw [State.port, State.port, State.cueEnded_ports, hl]
  exact .refl _

theorem State.done_kept (h : ∀ e, (s.handed x).entry? c.run = some e → e.state ≠ .retiring) :
    (((s.handed x).fateOfDone c).1.cueEnded c.run).table = (s.handed x).table ∧
      (((s.handed x).fateOfDone c).1.cueEnded c.run).tracker = (s.handed x).tracker := by
  obtain ⟨l, hl⟩ := State.fateOfDone_frame c (s.handed x)
  rw [hl, State.cueEnded_kept (s := (s.handed x).withCues l) h]
  exact ⟨rfl, rfl⟩

theorem State.done_table (x : Taken) (s : State) (c : Cue) :
    ((s.handed x).fateOfDone c).1.table = (s.handed x).table := by
  obtain ⟨l, hl⟩ := State.fateOfDone_frame c (s.handed x)
  rw [hl]
  rfl

theorem State.done_list (x : Taken) (s : State) (c : Cue) :
    ((((s.handed x).fateOfDone c).1.cueEnded c.run).settle s).cues.list = ((s.handed x).fateOfDone c).1.cues.list := by
  rw [State.settle_cues, State.cueEnded_cues]

/-- The entry of the run, where the DONE does not take it off the table (R102). -/
theorem State.done_entry (hrun : x.content.run = c.run) (he : s.entry? c.run = some e) (hstate : e.state ≠ .retiring) :
    ∃ y, ((((s.handed x).fateOfDone c).1.cueEnded c.run).settle s).entry? c.run = some y ∧
      y.facts = (x.content.handTo e).facts := by
  obtain ⟨y, hy, hfacts⟩ := State.handed_found hrun he
  have hystate : y.state = e.state := (congrArg Entry.state hfacts :)
  obtain ⟨htable, -⟩ := State.done_kept (s := s) (x := x) (c := c) fun z hz => by
    rw [← Option.some.inj (hy.symm.trans hz), hystate]
    exact hstate
  refine Option.map_eq_some_iff.1 ?_
  rw [State.entry_facts_of_facts (State.settle_facts _ s), State.entry?, htable, ← State.entry?, hy, Option.map_some, hfacts]

/-- The entry that only this cue kept in RETIRING leaves the table (R93). -/
theorem State.done_gone (hrun : x.content.run = c.run) (he : s.entry? c.run = some e) (hstate : e.state = .retiring)
    (hnone : ∀ b ∈ ((s.handed x).fateOfDone c).1.cues.list, b.run = c.run → b.isTaken = false) :
    ((((s.handed x).fateOfDone c).1.cueEnded c.run).settle s).entry? c.run = none := by
  obtain ⟨y, hy, hfacts⟩ := State.handed_found hrun he
  have hystate : y.state = e.state := (congrArg Entry.state hfacts :)
  refine State.settled_none (State.cueEnded_gone (e := y) ?_ (hystate.trans hstate) ?_)
  · rw [State.entry?, State.done_table]
    exact hy
  · refine Bool.eq_false_iff.2 fun hnamed => ?_
    obtain ⟨b, hb, hbrun, hbtaken⟩ := State.namedByTaken_iff.1 hnamed
    exact absurd hbtaken (by simp [hnone b hb hbrun])

/-- The change displayed already is INFORMED at the end of the DONE (R75). -/
theorem State.done_informed {r : ChangeRec} (hxk : x.content.kind = .change) (hrun : x.content.run = c.run) (hok : s.tracker.Ok)
    (hr : r ∈ s.tracker.records) (hown : r.run = c.run) (hopen : r.isOpen = true) (hin : r.inSpeech = true)
    (hdisplayed : r.displayed = true) (hstays : (s.entry? r.run).any (·.state = .retiring) = false) :
    s.Informed ((((s.handed x).fateOfDone c).1.cueEnded c.run).settle s) r := by
  obtain ⟨⟨hclosed, hnotice, hentry⟩, hunspoken⟩ := State.handed_informed hxk hrun hok hr hown hopen hin hdisplayed
  refine ⟨(State.done_tracker x s c).2.subset hclosed, (State.done_heard x s c .signalling).holds hnotice, fun e he => ?_⟩
  obtain ⟨y, hy, hnorec, hrev⟩ := hentry e he
  obtain ⟨z, hz, hfacts⟩ := State.handed_found (x := x) hrun (hown ▸ he)
  have hstate : z.state ≠ .retiring := by
    have hsame : z.facts.state = e.state := by rw [hfacts]; rfl
    rw [show z.state = z.facts.state from rfl, hsame]
    simpa [he] using hstays
  obtain ⟨htable, htracker⟩ := State.done_kept (s := s) (x := x) (c := c) fun w hw => by
    rw [← Option.some.inj (hz.symm.trans hw)]
    exact hstate
  refine ⟨y, ?_, hnorec, hrev⟩
  rw [hown, State.settle_entry s (hunspoken.of_tracker htracker), State.entry?, htable]
  exact hown ▸ hy

/-- The end of a DONE (R101 to R103). -/
structure State.DoneTo (s t : State) (before after rest : List Cue) (c : Cue) (x : Taken) : Prop where
  list : t.cues.list = before ++ rest ++ after
  gap : s.GapStarted t x.content.zones
  entry : ∀ e, s.entry? c.run = some e → e.state ≠ .retiring →
    ∃ y, t.entry? c.run = some y ∧ y.facts = (x.content.handTo e).facts
  gone : ∀ e, s.entry? c.run = some e → e.state = .retiring →
    (∀ b ∈ before ++ after, b.run = c.run → b.isTaken = false) → t.entry? c.run = none
  record : c.kind = .change → ∀ r ∈ s.tracker.records, r.run = c.run → r.isOpen = true → r.inSpeech = true →
    ∃ r' ∈ t.tracker.records, r'.no = r.no ∧ r'.run = r.run ∧ r'.announced = true ∧
      (s.TrackerOk → r.displayed = true →
        r'.state = .informed ∧ ((s.entry? r.run).any (·.state = .retiring) = false → s.Informed t r))
  marks : (t.tracker.records.map fun r => (r.no, r.run, r.inSpeech, r.cue)) =
    s.tracker.records.map fun r => (r.no, r.run, r.inSpeech && !decide (c.kind = .change ∧ r.run = c.run), r.cue)
  others : s.OthersKept t c.run
  sources : t.sources = s.sources
  board : t.wall.board = s.wall.board
  records : t.records = s.records

theorem State.done_to (hxk : x.content.kind = c.kind) (hrun : x.content.run = c.run) {before after rest : List Cue}
    (hat : FateAt before after rest ((s.handed x).fateOfDone c)) :
    s.DoneTo (s.speak true c x).1 before after rest c x := by
  obtain ⟨hgap, hsources, hboard, hrecords⟩ := State.speak_frame true c x s
  refine ⟨(State.done_list x s c).trans hat.list, hgap, fun e he hst => State.done_entry hrun he hst,
    fun e he hst hnone => ?_, fun hk r hr hown hopen hin => ?_, ?_, ?_, hsources, hboard, hrecords⟩
  · refine State.done_gone hrun he hst fun b hb hbrun => ?_
    rw [hat.list, List.append_assoc, List.mem_append, List.mem_append] at hb
    obtain hb | hb | hb := hb
    · exact hnone b (List.mem_append_left _ hb) hbrun
    · exact hat.untaken b hb
    · exact hnone b (List.mem_append_right _ hb) hbrun
  · obtain ⟨q, hq, hno, hqrun, hann, hinf⟩ := State.handed_record (hxk.trans hk) hrun hr hown hopen hin
    obtain ⟨r', hr', hpass⟩ := (State.done_tracker x s c).record hq
    obtain ⟨hno', hrun', -, -, -, -, hann'⟩ := hpass.fields
    exact ⟨r', hr', hno'.trans hno, hrun'.trans hqrun, hann'.trans hann, fun htok hdisplayed =>
      ⟨hpass.informed (hinf hdisplayed), fun hstays =>
        State.done_informed (hxk.trans hk) hrun htok hr hown hopen hin hdisplayed hstays⟩⟩
  · have hmarks := State.spoken_marks (s.startGap x.content.zones) (State.done_tracker x s c)
    rw [hxk, hrun, (State.startGap_picture x.content.zones s).2.1] at hmarks
    exact hmarks
  · refine State.ended_others (v := ((s.handed x).fateOfDone c).1) (fun m hm => ?_) s
    rw [State.entry?, State.done_table, ← State.entry?, State.handed_entry, if_neg (hrun ▸ hm)]

theorem State.Informed.answerTel {r : ChangeRec} {p : PortId} {tel : Tel} {a : Answer} (h : s.Informed t r) :
    s.Informed (t.answerTel p tel a) r := by
  obtain ⟨hclosed, hnotice, hentry⟩ := h
  exact ⟨hclosed, (State.answerTel_heard p tel a t .signalling).holds hnotice, hentry⟩

theorem State.DoneTo.answerTel {before after rest : List Cue} {p : PortId} {tel : Tel} {a : Answer}
    (h : s.DoneTo t before after rest c x) : s.DoneTo (t.answerTel p tel a) before after rest c x :=
  ⟨h.list, h.gap, h.entry, h.gone, fun hk r hr hown hopen hin => by
      obtain ⟨r', hr', hno, hrun, hann, hinf⟩ := h.record hk r hr hown hopen hin
      exact ⟨r', hr', hno, hrun, hann, fun htok hd => ⟨(hinf htok hd).1, fun hst => ((hinf htok hd).2 hst).answerTel⟩⟩,
    h.marks, h.others, h.sources, h.board, h.records⟩

/-- Settles O39. -/
theorem doneHandsTheSpokenFacts : Obligations.DoneHandsTheSpokenFacts := by
  unfold Obligations.DoneHandsTheSpokenFacts
  intro s p seq f h
  refine ⟨fun h0 => exec_taking_refused h ?_, fun h0 h1 => exec_taking_refused h ?_,
    fun h0 h1 hnone => exec_taking_refused h (spknOwner_tooLate h0 h1 (State.takenCue_none hnone)), ?_⟩
  · show spknOwner f s = _
    simp [spknOwner, h0]
  · show spknOwner f s = _
    simp [spknOwner, h0, not_le.2 h1]
  intro before after c x hout hok hlist hnumber hstate hxk hrun repeats hrepeats
  have hcue : f.cue ≠ 0 := by
    obtain ⟨-, -, hranges, -⟩ := hok
    have := (hranges c (by simp [hlist])).1
    omega
  have hhandled : (Telegram.spkn f).handled p s = _ :=
    spknOwner_spoken hcue (by omega) (hnumber ▸ State.takenCue_split hok hlist hstate)
  rw [show decide (f.outcome = 0) = true by simp [hout]] at hhandled
  obtain ⟨hexec, hanswered⟩ := exec_taking_answered h hhandled fun q => State.speak_link q true c x s
  obtain ⟨rest, hat, hdrop, hrev, hplain⟩ :=
    State.fateOfDone_at (State.handed_cuesOk hok x) ((s.handed_cues x).1.trans hlist)
  rw [show ((s.handed x).fateOfDone c).2 = (s.speak true c x).2 from rfl] at hdrop hrev hplain
  have hto := State.done_to hxk hrun hat
  generalize s.speak true c x = w at *
  obtain ⟨t, fate, n⟩ := w
  have hdone := hto.answerTel (p := p) (tel := (Telegram.spkn f).tel seq) (a := .accept (.fate fate n))
  refine ⟨_, rest, fate, n, hexec, hanswered, hdone.list, fun hd => ?_, fun hd hr => ⟨fun hk => ?_, fun hk => ?_⟩,
    fun hd hr => ⟨fun hrep => ?_, fun hrep => ?_⟩, hdone.gap, fun e he hst => ?_, hdone.gone, hdone.record, hdone.marks,
    hdone.others, hdone.sources, hdone.board, hdone.records⟩
  · exact ⟨(hdrop hd).1, Prod.ext_iff.1 (hdrop hd).2⟩
  · obtain ⟨hrest, hfate⟩ := (hrev hd hr).1 hk
    exact ⟨hrest, Prod.ext_iff.1 hfate⟩
  · obtain ⟨hrest, hfate⟩ := (hrev hd hr).2 hk
    obtain ⟨hdue, hn⟩ := Prod.ext_iff.1 hfate
    refine ⟨hdue, hn, _, hrest, fun hne e he => ?_, fun hc htok hsome r hr hwait => ?_⟩
    · exact State.handed_freshZones hrun (hk.resolve_left hne) he
    · exact State.handed_changeZones hc (hxk.trans hc) hrun htok hsome hr hwait
  · obtain ⟨hrest, hfate⟩ := (hplain hd hr).1 ((State.handed_repeats hrun).2 (hrepeats.1 hrep))
    obtain ⟨hwaiting, hn⟩ := Prod.ext_iff.1 hfate
    refine ⟨hwaiting, hn, ?_⟩
    rw [hrest, State.inForce_of_sources (State.handed_sources x s), State.now_of_sources (State.handed_sources x s)]
  · obtain ⟨hrest, hfate⟩ := (hplain hd hr).2 (Bool.eq_false_iff.2 fun hyes => hrep (hrepeats.2 ((State.handed_repeats hrun).1 hyes)))
    exact ⟨hrest, Prod.ext_iff.1 hfate⟩
  · obtain ⟨y, hy, hfacts⟩ := hdone.entry e he hst
    refine ⟨y, hy, hfacts.trans ?_⟩
    rw [Captured.handTo, hxk]
    rfl

end Sys2Proof.Machine
end

section
/-! PROOF. A cue aborted or timed out (R74, R97, R104, R105). -/
namespace Sys2Proof.Machine

open Sys2Proof

variable {s t u v : State} {run m : Nat} {c : Cue} {x : Taken} {e : Entry}

/-! ## The state in which the fate of an aborted cue is found -/

/-- The gap started, and in speech cleared where the cue is a CHANGE cue (R74, R97). -/
def State.aborted (c : Cue) (x : Taken) (s : State) : State :=
  if c.kind = .change then (s.startGap x.content.zones).clearSpeech c.run else s.startGap x.content.zones

theorem State.speak_abort (c : Cue) (x : Taken) (s : State) :
    s.speak false c x =
      ((((s.aborted c x).fateOfAbort c).1.cueEnded c.run).settle s, ((s.aborted c x).fateOfAbort c).2) := rfl

theorem State.aborted_blocks (c : Cue) (x : Taken) (s : State) :
    (s.aborted c x).table = s.table ∧ (s.aborted c x).ports = s.ports ∧ (s.aborted c x).cues.list = s.cues.list ∧
      (s.aborted c x).cues.last = s.cues.last ∧ (s.aborted c x).sources = s.sources := by
  obtain ⟨htable, -, hports, hlist, hlast, -⟩ := State.startGap_picture x.content.zones s
  unfold State.aborted
  split <;> exact ⟨htable, hports, hlist, hlast, State.startGap_sources ..⟩

theorem State.aborted_records (c : Cue) (x : Taken) (s : State) :
    (s.aborted c x).tracker.records =
      s.tracker.records.map fun r => { r with inSpeech := r.inSpeech && !decide (c.kind = .change ∧ r.run = c.run) } := by
  obtain ⟨-, htracker, -⟩ := State.startGap_picture x.content.zones s
  unfold State.aborted
  split
  next hk =>
    show updWhere _ _ (s.startGap x.content.zones).tracker.records = _
    rw [htracker, updWhere]
    refine List.map_congr_left fun r _ => ?_
    by_cases hrun : r.run = c.run <;> simp [hk, hrun]
  next hk => simp [hk, htracker]

theorem State.aborted_cuesOk (h : s.CuesOk) (c : Cue) (x : Taken) : (s.aborted c x).CuesOk := by
  obtain ⟨-, -, hlist, hlast, -⟩ := s.aborted_blocks c x
  rw [State.CuesOk, hlist, hlast]
  exact h

theorem State.aborted_changeOf (c : Cue) (x : Taken) (s : State) (run : Nat) :
    (s.aborted c x).changeOf run = s.changeOf run := by
  rw [State.changeOf, State.openRecord?, State.aborted_records, List.find?_map, Option.map_map]
  rfl

theorem State.aborted_freshZones (he : s.entry? c.run = some e) (x : Taken) :
    (s.aborted c x).freshZones c = e.cueZones (s.changeOf c.run) c.kind := by
  obtain ⟨htable, -⟩ := s.aborted_blocks c x
  have hentry : (s.aborted c x).entry? c.run = some e := by rw [State.entry?, htable]; exact he
  simp [State.freshZones, hentry, State.aborted_changeOf]

/-! ## The fate of an aborted cue -/

theorem State.fateOfAbort_cases (c : Cue) (s : State) :
    (∃ l, (s.fateOfAbort c).1 = s.withCues l) ∨
      (2 ≤ c.attempts ∧ c.pendDrop = false ∧
        (s.fateOfAbort c).1 =
          if c.kind = .change then ((s.endCue c.number).postDropped c.run).changeDropped c.run
          else (s.endCue c.number).postDropped c.run) := by
  unfold State.fateOfAbort
  split
  · exact .inl ⟨_, rfl⟩
  next hdrop =>
    split
    next h => exact .inr ⟨by omega, by simpa using hdrop, rfl⟩
    · exact .inl ⟨_, rfl⟩

theorem State.fateOfAbort_table (c : Cue) (s : State) : (s.fateOfAbort c).1.table = s.table := by
  obtain ⟨l, hl⟩ | ⟨-, -, hthird⟩ := s.fateOfAbort_cases c
  · rw [hl]
    rfl
  · rw [hthird]
    split <;> rfl

theorem State.fateOfAbort_heard (c : Cue) (s : State) (q : PortId) : (s.port q).Heard ((s.fateOfAbort c).1.port q) := by
  obtain ⟨l, hl⟩ | ⟨-, -, hthird⟩ := s.fateOfAbort_cases c
  · rw [hl]
    exact .refl _
  · have hposted := (State.postDropped_calm c.run (s.endCue c.number)).heard q
    rw [hthird]
    split <;> exact hposted

theorem State.aborted_marks (htries : c.attempts ≤ 2) (x : Taken) (s : State) :
    (((s.aborted c x).fateOfAbort c).1.tracker.records.map fun r => (r.no, r.run, r.inSpeech, r.cue)) =
      s.tracker.records.map fun r =>
        (r.no, r.run, r.inSpeech && !decide (c.kind = .change ∧ r.run = c.run),
          if c.kind = .change ∧ r.run = c.run ∧ r.isOpen = true ∧ c.pendDrop = false ∧ c.attempts = 2 then none
          else r.cue) := by
  by_cases hthird : c.pendDrop = false ∧ c.attempts = 2
  · obtain ⟨hdrop, htwo⟩ := hthird
    rw [State.fateOfAbort_third hdrop htwo]
    by_cases hk : c.kind = .change
    · simp only [hk, if_true]
      show (updWhere _ _ (updWhere _ _ (s.aborted c x).tracker.records)).map _ = _
      simp only [State.aborted_records, updWhere, List.map_map]
      refine List.map_congr_left fun r _ => ?_
      by_cases hrun : r.run = c.run <;> by_cases hopen : r.isOpen = true <;> simp_all [ChangeRec.isOpen]
    · simp only [hk, if_false]
      show (s.aborted c x).tracker.records.map _ = _
      simp [State.aborted_records, hk]
  · have hsame : ((s.aborted c x).fateOfAbort c).1.tracker = (s.aborted c x).tracker := by
      obtain ⟨l, hl⟩ | ⟨htwo, hdrop, -⟩ := (s.aborted c x).fateOfAbort_cases c
      · rw [hl]
        rfl
      · exact absurd ⟨hdrop, by omega⟩ hthird
    rw [hsame, State.aborted_records, List.map_map]
    refine List.map_congr_left fun r _ => ?_
    have hnot : ¬(c.kind = .change ∧ r.run = c.run ∧ r.isOpen = true ∧ c.pendDrop = false ∧ c.attempts = 2) :=
      fun hall => hthird hall.2.2.2
    simp [hnot]

theorem State.aborted_dropped (hdrop : c.pendDrop = false) (htwo : c.attempts = 2) (x : Taken) (s : State) :
    s.Noticed ((s.aborted c x).fateOfAbort c).1 .planning ⟨.cueDropped, .run c.run, s.time.clock⟩ ∧
      (((s.aborted c x).fateOfAbort c).1.port .announcement).Holds ⟨.cueDropped, .run c.run, s.time.clock⟩ := by
  obtain ⟨-, hports, -, -, hsources⟩ := s.aborted_blocks c x
  have hplanning := State.noticed_after (s := s) (t := (s.aborted c x).endCue c.number) (names := [.planning, .announcement])
    (k := .cueDropped) (x := .run c.run) (by simp) (by decide)
    
    (congrArg (fun p : Ports => p.get .planning) hports) (congrArg (·.clock) (State.time_of_sources hsources))
  have hholds := State.holds_post (names := [.planning, .announcement]) (q := .announcement) (by simp) .cueDropped
    (.run c.run) (by decide) ((s.aborted c x).endCue c.number)
  rw [show ((s.aborted c x).endCue c.number).time = s.time from State.time_of_sources hsources] at hholds
  rw [State.fateOfAbort_third hdrop htwo]
  dsimp only
  split <;> exact ⟨hplanning, hholds⟩

/-! ## The abort by telegram and by timer -/

/-- The state in which an abort is begun: the notice of a timeout is posted, and nothing else has moved (R105). -/
structure State.Offered (s u : State) : Prop where
  cues : u.cues = s.cues
  tracker : u.tracker = s.tracker
  table : u.table = s.table
  sources : u.sources = s.sources
  wall : u.wall = s.wall
  bus : u.bus = s.bus
  planning : u.port .planning = s.port .planning

theorem State.Offered.refl (s : State) : s.Offered s := ⟨rfl, rfl, rfl, rfl, rfl, rfl, rfl⟩

theorem State.timeout_offered (c : Cue) (s : State) : s.Offered (s.post [.announcement] .speakTimeout (.run c.run)) :=
  ⟨rfl, rfl, rfl, rfl, rfl, rfl, by rw [State.post_port (by decide), if_neg (by decide)]⟩

theorem exec_speakTimeout {number : Nat} (hp : s.powered = true) (h : s.takenCue? number = some (c, x))
    (hlimit : x.limit ≤ x.timer) :
    exec (.speakTimeout number) s =
      .next ((s.post [.announcement] .speakTimeout (.run c.run)).speak false c x).1 := by
  rw [show exec (.speakTimeout number) s = execSpeakTimeout number s from rfl]
  simp [execSpeakTimeout, h, hlimit, State.answer, hp]

theorem exec_speakTimeout_early {number : Nat}
    (h : ∀ c ∈ s.cues.list, c.number = number → ∀ x, c.state = .taken x → x.timer < x.limit) :
    exec (.speakTimeout number) s = .next s := by
  rw [show exec (.speakTimeout number) s = execSpeakTimeout number s from rfl]
  cases hx : s.takenCue? number with
  | none => simp [execSpeakTimeout, hx, State.answer_self]
  | some q =>
    obtain ⟨hfind, hnumber, hstate⟩ := State.takenCue_find hx
    have hearly := h q.1 (List.mem_of_find?_eq_some hfind) hnumber q.2 hstate
    simp [execSpeakTimeout, hx, hearly.not_ge, State.answer_self]

theorem State.cueEnded_tracker (run : Nat) (s : State) : (s.cueEnded run).tracker = s.tracker := by
  unfold State.cueEnded
  split <;> rfl

/-- The end of an abort, by either way (R104). -/
structure State.AbortedTo (s t : State) (before after rest : List Cue) (c : Cue) (x : Taken) : Prop where
  list : t.cues.list = before ++ rest ++ after
  gap : s.GapStarted t x.content.zones
  marks : (t.tracker.records.map fun r => (r.no, r.run, r.inSpeech, r.cue)) =
    s.tracker.records.map fun r =>
      (r.no, r.run, r.inSpeech && !decide (c.kind = .change ∧ r.run = c.run),
        if c.kind = .change ∧ r.run = c.run ∧ r.isOpen = true ∧ c.pendDrop = false ∧ c.attempts = 2 then none else r.cue)
  facts : (∀ e, s.entry? c.run = some e → e.state ≠ .retiring) → t.facts = s.facts
  others : s.OthersKept t c.run
  sources : t.sources = s.sources
  board : t.wall.board = s.wall.board
  records : t.records = s.records

theorem State.Offered.aborted (h : s.Offered u) (htries : c.attempts ≤ 2)  {before after rest : List Cue}
    (hat : FateAt before after rest ((u.aborted c x).fateOfAbort c)) :
    s.AbortedTo (u.speak false c x).1 before after rest c x := by
  obtain ⟨hgap, hsources, hboard, hrecords⟩ := State.speak_frame false c x u
  have htable : ((u.aborted c x).fateOfAbort c).1.table = s.table :=
    (State.fateOfAbort_table ..).trans ((u.aborted_blocks c x).1.trans h.table)
  have hreviewed : ((u.aborted c x).fateOfAbort c).1.Reviewed (u.speak false c x).1 :=
    (State.Reviewed.of_tracker (State.cueEnded_tracker ..)).trans (State.settle_reviewed _ u)
  refine ⟨?_, ?_, ?_, fun hkept => ?_, 
    State.ended_others (v := ((u.aborted c x).fateOfAbort c).1) (fun m _ => ?_) u, hsources.trans h.sources, ?_, ?_⟩
  · rw [State.speak_abort, State.settle_cues, State.cueEnded_cues]
    exact hat.list
  · rw [State.GapStarted, hgap, h.cues, State.inForce_of_sources h.sources, State.time_of_sources h.sources]
  · rw [hreviewed.marks, State.aborted_marks htries, h.tracker]
  · have hstay : ∀ e, ((u.aborted c x).fateOfAbort c).1.entry? c.run = some e → e.state ≠ .retiring := fun e he => by
      rw [State.entry?, htable] at he
      exact hkept e he
    rw [State.speak_abort, State.settle_facts, State.cueEnded_kept hstay, State.facts, htable]
    rfl
  · rw [State.entry?, htable]
    rfl
  · rw [hboard, h.wall]
  · rw [hrecords, State.records, State.records, h.bus]

/-- The fate of an aborted cue, as its record and its entry give it (R104). -/
theorem State.Offered.fate (h : s.Offered u) (hok : s.CuesOk) {before after : List Cue} (hlist : s.cues.list = before ++ c :: after) :
    ∃ rest, s.AbortedTo (u.speak false c x).1 before after rest c x ∧
      (c.pendDrop = true → rest = [] ∧ (u.speak false c x).2.1 = .ended ∧ (u.speak false c x).2.2 = c.attempts) ∧
      (c.pendDrop = false → c.attempts < 2 →
        (u.speak false c x).2.1 = .due ∧ (u.speak false c x).2.2 = c.attempts + 1 ∧
          ∃ z,
            rest = [{ c with state := .due, attempts := c.attempts + 1, pendRev := false, pendDrop := false, zones := z }] ∧
              ∀ e, s.entry? c.run = some e → z = e.cueZones (s.changeOf c.run) c.kind) ∧
      (c.pendDrop = false → c.attempts = 2 →
        rest = [] ∧ (u.speak false c x).2.1 = .ended ∧ (u.speak false c x).2.2 = 3) := by
  have hoku : u.CuesOk := State.CuesOk.of_cues hok h.cues
  have hlistu : (u.aborted c x).cues.list = before ++ c :: after := by
    rw [(u.aborted_blocks c x).2.2.1, h.cues, hlist]
  have htries : c.attempts ≤ 2 := by
    obtain ⟨-, -, hranges, -⟩ := hok
    exact (hranges c (by simp [hlist])).2.2
  obtain ⟨rest, hat, hdrop, hagain, hthird⟩ := State.fateOfAbort_at (State.aborted_cuesOk hoku c x) hlistu
  refine ⟨rest, h.aborted htries hat, fun hd => ⟨(hdrop hd).1, Prod.ext_iff.1 (hdrop hd).2⟩, fun hd hlt => ?_,
    fun hd htwo => ⟨(hthird hd htwo).1, Prod.ext_iff.1 (hthird hd htwo).2⟩⟩
  obtain ⟨hrest, hfate⟩ := hagain hd hlt
  obtain ⟨hdue, hn⟩ := Prod.ext_iff.1 hfate
  refine ⟨hdue, hn, _, hrest, fun e he => ?_⟩
  have heu : u.entry? c.run = some e := by rw [State.entry?, h.table]; exact he
  rw [State.aborted_freshZones heu, State.changeOf, State.openRecord?, h.tracker]
  rfl

theorem State.speak_abort_heard (c : Cue) (x : Taken) (u : State) (q : PortId) :
    (((u.aborted c x).fateOfAbort c).1.port q).Heard ((u.speak false c x).1.port q) := by
  refine Port.Heard.trans ?_ ((State.settle_calm _ u).heard q)
  rw [State.port, State.port, State.cueEnded_ports]
  exact .refl _

theorem State.Noticed.heard {q : PortId} {n : Notice} (h : s.Noticed t q n) (k : (t.port q).Heard (u.port q)) :
    s.Noticed u q n := List.IsPrefix.trans h k.1

theorem State.Offered.dropped (h : s.Offered u) (hdrop : c.pendDrop = false) (htwo : c.attempts = 2) :
    s.Noticed (u.speak false c x).1 .planning ⟨.cueDropped, .run c.run, s.time.clock⟩ ∧
      ((u.speak false c x).1.port .announcement).Holds ⟨.cueDropped, .run c.run, s.time.clock⟩ := by
  obtain ⟨hplanning, hholds⟩ := State.aborted_dropped hdrop htwo x u
  rw [State.time_of_sources h.sources] at hplanning hholds
  refine ⟨?_, (State.speak_abort_heard c x u .announcement).holds hholds⟩
  have hnoticed : u.Noticed (u.speak false c x).1 .planning _ := State.Noticed.heard hplanning (State.speak_abort_heard c x u .planning)
  rw [State.Noticed, h.planning] at hnoticed
  exact hnoticed

theorem State.speak_abort_all_heard (c : Cue) (x : Taken) (u : State) (q : PortId) :
    (u.port q).Heard ((u.speak false c x).1.port q) := by
  refine Port.Heard.trans ?_ (State.speak_abort_heard c x u q)
  refine Port.Heard.trans ?_ (State.fateOfAbort_heard c _ q)
  rw [State.port, State.port, (u.aborted_blocks c x).2.1]
  exact .refl _

/-- Settles O40. -/
theorem abortedCuesAreOfferedAgain : Obligations.AbortedCuesAreOfferedAgain := by
  unfold Obligations.AbortedCuesAreOfferedAgain
  refine ⟨fun s i before after c x hp hok hlist hstate hway => ?_, fun s number h => exec_speakTimeout_early h⟩
  have htaken := State.takenCue_split hok hlist hstate
  have hzones {e : Entry} {z : List Nat} (hz : z = e.cueZones (s.changeOf c.run) c.kind) :
      (c.kind = .final → z = e.displayed.toList) ∧
        (c.kind = .platform ∨ c.kind = .delay ∨ c.kind = .cancel → z = 0 :: e.displayed.toList) ∧
          (c.kind = .change → ∀ r, s.openRecord? c.run = some r → z = [0, r.src, r.dst]) := by
    refine ⟨fun hk => ?_, fun hk => ?_, fun hk r hr => ?_⟩
    · rw [hz, hk]
      rfl
    · obtain hk | hk | hk := hk <;> (rw [hz, hk]; rfl)
    · rw [hz, hk, State.changeOf, hr]
      rfl
  obtain ⟨rfl, hlimit⟩ | ⟨p, seq, rfl, htaking⟩ := hway
  · have hoffered := State.timeout_offered c s
    obtain ⟨rest, hto, hdrop, hagain, hthird⟩ := hoffered.fate (x := x) hok hlist
    refine ⟨_, rest, _, _, exec_speakTimeout hp htaken hlimit, hto.list, hdrop, fun hd hlt => ?_, fun hd htwo => ?_, hto.gap,
      hto.marks, fun number _ => ⟨?_, fun q => ?_⟩, nofun, hto.facts, hto.others, hto.sources, hto.board, hto.records⟩
    · obtain ⟨hfate, hn, z, hrest, hz⟩ := hagain hd hlt
      exact ⟨hfate, hn, z, hrest, fun e he => hzones (hz e he)⟩
    · obtain ⟨hrest, hfate, hn⟩ := hthird hd htwo
      exact ⟨hrest, hfate, hn, hoffered.dropped hd htwo⟩
    · refine State.Noticed.heard ?_ (State.speak_abort_all_heard c x _ .announcement)
      rw [State.Noticed, State.post_port (by decide), if_pos (by decide)]
    · rw [State.speak_link, State.post_link]
  · have hoffered := State.Offered.refl s
    obtain ⟨rest, hto, hdrop, hagain, hthird⟩ := hoffered.fate (x := x) hok hlist
    have hcue : c.number ≠ 0 := by
      obtain ⟨-, -, hranges, -⟩ := hok
      have := (hranges c (by simp [hlist])).1
      omega
    have hhandled : (Telegram.spkn { cue := c.number, outcome := 1 }).handled p s = _ :=
      spknOwner_spoken hcue (le_refl 1) htaken
    have hheard (q : PortId) := State.answerTel_heard p ((Telegram.spkn { cue := c.number, outcome := 1 }).tel seq)
      (.accept (.fate (s.speak false c x).2.1 (s.speak false c x).2.2)) (s.speak false c x).1 q
    obtain ⟨hexec, hanswered⟩ := exec_taking_answered htaking hhandled fun q => State.speak_link q false c x s
    refine ⟨_, rest, _, _, hexec, hto.list, hdrop, fun hd hlt => ?_, fun hd htwo => ?_, hto.gap,
      hto.marks, nofun, fun p' seq' heq htaking' => ?_, hto.facts, hto.others, hto.sources, hto.board, hto.records⟩
    · obtain ⟨hfate, hn, z, hrest, hz⟩ := hagain hd hlt
      exact ⟨hfate, hn, z, hrest, fun e he => hzones (hz e he)⟩
    · obtain ⟨hrest, hfate, hn⟩ := hthird hd htwo
      obtain ⟨hplanning, hholds⟩ := hoffered.dropped (x := x) hd htwo
      exact ⟨hrest, hfate, hn, hplanning.heard (hheard .planning), (hheard .announcement).holds hholds⟩
    · cases heq
      obtain ⟨⟨-, -, hhead⟩, -⟩ := htaking
      obtain ⟨⟨-, -, hhead'⟩, -⟩ := htaking'
      have hseq : seq = seq' := congrArg Tel.seq (Option.some.inj (hhead.symm.trans hhead'))
      exact hseq ▸ hanswered

end Sys2Proof.Machine
end

section
/-! PROOF. The composition of an empty picture, and the first dispatch decision over fresh panels (R114, R121, R131, R139,
R191, R192). -/
namespace Sys2Proof.Machine

open Sys2Proof

variable {s t u v : State}

/-! ## Nothing to show -/

theorem State.evaluate_of_none (h : s.tracker.records = []) : s.evaluate = s := by
  have hnone : s.updRecords (fun r => r.isOpen && !r.displayed) s.evaluated = s := by
    have hsame : updWhere (fun r => r.isOpen && !r.displayed) s.evaluated s.tracker.records = s.tracker.records := by
      rw [h]
      rfl
    rw [State.updRecords, hsame]
  unfold State.evaluate
  rw [hnone, State.informAll, h, List.filter_nil, List.foldl_nil, ite_self]

theorem State.recompose_of_none (h : s.tracker.records = []) : s.recompose = s.compose.compose := by
  rw [State.recompose, State.evaluate_of_none (by rw [State.compose_tracker, h])]

/-- A picture with no entry, no notice and no current item. -/
structure State.Blank (s : State) : Prop where
  entries : s.table.entries = []
  records : s.tracker.records = []
  posted : s.wall.posted = []
  current : s.wall.current = none

theorem State.Blank.freshItems (h : s.Blank) : s.freshItems = [] := by
  simp [State.freshItems, State.postedAt, State.displayed, h.entries, h.posted]

theorem State.rotate_blank (hitems : s.freshItems = []) (hcurrent : s.wall.current = none) :
    s.rotate = s.withWall { s.wall with items := [] } := by
  simp [State.rotate, hitems, hcurrent]

theorem State.Blank.compose_wall (h : s.Blank) :
    s.compose.wall = { s.wall with rowMap := [], gateChoice := s.freshGates, items := [] } := by
  have hmap : s.freshRowMap = [] := by simp [State.freshRowMap, State.displayed, h.entries]
  have hitems : s.remap.freshItems = [] := h.freshItems
  rw [State.compose_wall, State.rotate_blank hitems h.current]
  show ({ s.wall with rowMap := s.freshRowMap, gateChoice := s.freshGates, items := [] } : Wall) = _
  rw [hmap]

theorem State.Blank.compose (h : s.Blank) : s.compose.Blank := by
  refine ⟨?_, ?_, ?_, ?_⟩
  · rw [State.compose_table, h.entries]
  · rw [State.compose_tracker, h.records]
  · rw [h.compose_wall]
    exact h.posted
  · rw [h.compose_wall]
    exact h.current

theorem State.Blank.recompose_wall (h : s.Blank) : ∃ gates, s.recompose.wall = { s.wall with rowMap := [], gateChoice := gates, items := [] } := by
  rw [State.recompose_of_none h.records, h.compose.compose_wall, h.compose_wall]
  exact ⟨_, rfl⟩

theorem State.Blank.recompose_frame (h : s.Blank) :
    s.recompose.table = s.table ∧ s.recompose.tracker = s.tracker ∧ s.recompose.ports = s.ports := by
  rw [State.recompose_of_none h.records]
  simp only [State.compose_table, State.compose_tracker, State.compose_ports, and_self]

theorem State.Blank.recompose_panel (h : s.Blank) {a : Nat} {p : Panel} (hp : s.panel? a = some p) :
    ∃ d, s.recompose.panel? a = some { p with desired := d } := by
  rw [State.recompose_of_none h.records, State.compose_panel?, State.compose_panel?, hp]
  exact ⟨_, rfl⟩

/-! ## Fresh panels -/

theorem freshPanel_eq (p : Params) (a : Nat) :
    freshPanel p a =
      { Panel.absentAt a (p.panelZones.getD (a - 1) 1) with
        role := p.settledRole a
        state := if p.settledRole a = .none then .absent else .probing } := by
  unfold freshPanel
  cases p.settledRole a <;> simp [Panel.absentAt]

theorem State.fresh_panel {p : Params} (h : s.bus.panels = freshPanels p) {a : Nat} (hlo : 1 ≤ a) (hhi : a ≤ 60) :
    s.panel? a = some (freshPanel p a) := by
  have haddr : (freshPanel p a).addr = a := by
    rw [freshPanel_eq]
    rfl
  have hmem : freshPanel p a ∈ s.bus.panels := by
    rw [h]
    exact List.mem_map.2 ⟨a - 1, List.mem_range.2 (by omega), by rw [Nat.sub_add_cancel hlo]⟩
  have hfind := State.panel?_of_mem (State.fresh_addressed h) hmem
  rwa [haddr] at hfind

theorem State.writeLevels_panel (s : State) (q : Panel → Bool) (a : Nat) :
    (s.writeLevels q).panel? a =
      (s.panel? a).map fun p => if p.configured && q p then { p with desiredLevel := s.panelLevel p } else p := by
  show (updWhere _ _ s.bus.panels).find? _ = _
  rw [updWhere, List.find?_map]
  refine congrArg (Option.map _) (congrArg (fun g => List.find? g s.bus.panels) (funext fun p => ?_))
  dsimp only [Function.comp_apply]
  split <;> rfl

/-- A panel at its reset values, under the role, the zone and the level of a configuration (R131, R160). -/
def resetPanel (p : Params) (level : Nat → Nat) (a : Nat) : Panel :=
  { freshPanel p a with
    desiredLevel := if p.settledRole a = .none then 0 else min (level (p.panelZones.getD (a - 1) 1)) 15 }

theorem State.reset_panel {p : Params} (h : s.bus.panels = freshPanels p) {a : Nat} (hlo : 1 ≤ a) (hhi : a ≤ 60) :
    (s.writeLevels fun _ => true).panel? a = some (resetPanel p s.zoneLevel a) := by
  rw [State.writeLevels_panel, State.fresh_panel h hlo hhi, Option.map_some, resetPanel, freshPanel_eq]
  by_cases hrole : p.settledRole a = .none <;> simp [Panel.configured, hrole, Panel.absentAt, State.panelLevel]

/-! ## The first dispatch decision -/

theorem State.dispatch_form (s : State) :
    s.dispatch.bus.panels = s.bus.panels ∨
      ∃ (p : Panel) (n : Option Nat) (v : State), s.dispatch = State.startExchange p n v ∧ v.bus.panels = s.bus.panels := by
  unfold State.dispatch
  split
  · exact .inl rfl
  · split
    · exact .inr ⟨_, _, _, rfl, rfl⟩
    · dsimp only
      split
      · exact .inr ⟨_, _, _, rfl, rfl⟩
      · exact .inl rfl

theorem State.startExchange_other {p : Panel} {a : Nat} (h : p.addr ≠ a) (n : Option Nat) (s : State) :
    (State.startExchange p n s).panel? a = s.panel? a := by
  refine (State.panel?_updPanel (f := fun q =>
    { q with
      sent := if s.frameFor p = .polf then q.sent else p.desired
      sentLevel := some (p.carriedLevel s.inForce.ceiling) }) (fun _ => rfl) a s).trans (if_neg (Ne.symm h))

/-- A dispatch decision leaves a panel that no exchange starts to as it stands (R139). -/
theorem State.dispatch_untouched {a : Nat} (h : s.bus.exchange ≠ none ∨ ∀ x, s.dispatch.bus.exchange = some x → x.addr ≠ a) :
    s.dispatch.panel? a = s.panel? a := by
  by_cases hidle : s.bus.exchange = none
  · have hother := h.resolve_left (not_not_intro hidle)
    obtain hkept | ⟨p, n, v, hv, hpanels⟩ := s.dispatch_form
    · rw [State.panel?, hkept, State.panel?]
    · have hne : p.addr ≠ a := hother _ (by rw [hv]; rfl)
      rw [hv, State.startExchange_other hne, State.panel?, hpanels, State.panel?]
  · rw [State.dispatch_busy hidle]

theorem State.first_cycle (haddr : s.bus.panels.map (·.addr) = (List.range 60).map (· + 1)) (hpointer : s.bus.pointer = 1) :
    s.cycleOrder = s.bus.panels ∧ s.bus.panels.Pairwise fun a b => a.addr < b.addr := by
  have hlo : ∀ q ∈ s.bus.panels, 1 ≤ q.addr := fun q hq => by
    have hmem : q.addr ∈ s.bus.panels.map (·.addr) := List.mem_map_of_mem hq
    rw [haddr] at hmem
    obtain ⟨i, -, hi⟩ := List.mem_map.1 hmem
    omega
  refine ⟨?_, ?_⟩
  · rw [State.cycleOrder, hpointer, List.filter_eq_self.2 fun q hq => by simpa using hlo q hq,
      List.filter_eq_nil_iff.2 fun q hq => by simpa using Nat.one_le_iff_ne_zero.1 (hlo q hq), List.append_nil]
  · rw [← List.pairwise_map (f := Panel.addr) (R := (· < ·)), haddr, List.pairwise_map]
    exact List.pairwise_lt_range.imp (by omega)

/-- With nothing urgent and the pointer at the first address, the panel of lowest address in need is served (R141, R142). -/
theorem State.dispatch_first {q : Panel} (haddr : s.bus.panels.map (·.addr) = (List.range 60).map (· + 1))
    (hpointer : s.bus.pointer = 1) (hurgent : s.bus.urgent = []) (hidle : s.bus.exchange = none) (hq : q ∈ s.bus.panels)
    (hneeds : s.needsService q = true) (hleast : ∀ b ∈ s.bus.panels, s.needsService b = true → q.addr ≤ b.addr) :
    s.dispatch.bus.seq = s.bus.seq + 1 ∧ s.dispatch.bus.pointer = (if q.addr ≥ 60 then 1 else q.addr + 1) ∧
      ∃ x, s.dispatch.bus.exchange = some x ∧ x.addr = q.addr ∧ x.seq = s.bus.seq + 1 ∧ x.urgent = none := by
  obtain ⟨hcycle, hsorted⟩ := State.first_cycle haddr hpointer
  have hfind : s.cycleOrder.find? s.needsService = some q := hcycle ▸ find?_of_le hsorted hq hneeds hleast
  rw [State.dispatch_cycle hidle (by rw [hurgent]; rfl) hfind]
  exact ⟨rfl, rfl, _, rfl, rfl, rfl, rfl⟩

end Sys2Proof.Machine
end

section
/-! PROOF. Power-on and the reset pin (R131, R139, R151, R160, R165, R179, R191). -/
namespace Sys2Proof.Machine

open Sys2Proof

variable {s t u v : State} {store : Store}

/-! ## The lines loaded -/

/-- A line as the dial part gives it (R191). -/
def loadLine (part : StoredPart (List DialEntry)) (n : Fin 4) : Line :=
  match part.good, part.contents[n.val]? with
  | true, some d => loadedLine n d
  | _, _ => Line.faulted n

theorem loadLine_good {part : StoredPart (List DialEntry)} {n : Fin 4} {d : DialEntry} (h : part.good = true)
    (hd : part.contents[n.val]? = some d) : loadLine part n = loadedLine n d := by
  simp [loadLine, h, hd]

theorem loadLine_bad {part : StoredPart (List DialEntry)} {n : Fin 4} (h : part.good = false) :
    loadLine part n = Line.faulted n := by
  simp [loadLine, h]

theorem loadLine_missing {part : StoredPart (List DialEntry)} {n : Fin 4} (h : part.contents[n.val]? = none) :
    loadLine part n = Line.faulted n := by
  simp [loadLine, h]

theorem loadLine_or (part : StoredPart (List DialEntry)) (n : Fin 4) :
    loadLine part n = Line.faulted n ∨ ∃ d, loadLine part n = loadedLine n d := by
  cases hgood : part.good with
  | false => exact .inl (loadLine_bad hgood)
  | true =>
    cases hd : part.contents[n.val]? with
    | none => exact .inl (loadLine_missing hd)
    | some d => exact .inr ⟨d, loadLine_good hgood hd⟩

theorem loadLine_quiet (part : StoredPart (List DialEntry)) (n : Fin 4) :
    (loadLine part n).no = n ∧ (loadLine part n).impulse = none ∧ (loadLine part n).result = none ∧
      (loadLine part n).nextAt = none ∧ (loadLine part n).deferred = false ∧ (loadLine part n).pendingDial = none := by
  obtain h | ⟨d, h⟩ := loadLine_or part n <;> (rw [h]; exact ⟨rfl, rfl, rfl, rfl, rfl, rfl⟩)

theorem loadLines_eq (part : StoredPart (List DialEntry)) :
    loadLines part = ([0, 1, 2, 3] : List (Fin 4)).map (loadLine part) := by
  refine List.map_congr_left fun n _ => ?_
  unfold loadLine
  split <;> simp_all

theorem loadLines_find (part : StoredPart (List DialEntry)) (n : Fin 4) :
    (loadLines part).find? (·.no = n) = some (loadLine part n) := by
  have hfind : ([0, 1, 2, 3] : List (Fin 4)).find? (· = n) = some n := by
    revert n
    decide
  rw [loadLines_eq, List.find?_map]
  simp only [Function.comp_def, (loadLine_quiet part _).1]
  rw [hfind, Option.map_some]

/-! ## The reset state before its first dispatch decision -/

/-- What power-on brings every block to before the picture is formed (R191). -/
structure State.Loaded (store : Store) (u : State) : Prop where
  blank : u.Blank
  panels : u.bus.panels = freshPanels (loadParams store.configuration)
  line : u.bus.seq = 0 ∧ u.bus.pointer = 1 ∧ u.bus.urgent = [] ∧ u.bus.exchange = none
  interval : u.bus.intervalEnd = 1000 * (loadParams store.configuration).interval
  sense : u.sense = freshSense (loadParams store.configuration)
  cues : u.cues = { list := [], last := 0, zones := Zone.allFree }
  wall : u.wall = State.reset.wall
  ports : u.ports =
    { planning := Port.reset (loadNotices store)
      signalling := Port.reset [⟨.restarted, .absent, 0⟩]
      announcement := Port.reset [⟨.restarted, .absent, 0⟩] }
  time : u.time = TimeBase.reset

theorem State.restart_loaded (store : Store) (pending : List Instr) : ∃ u : State,
    State.restart store pending = (u.writeLevels fun _ => true).recompose.dispatch.settleAttention ∧ u.Loaded store :=
  ⟨_, rfl, ⟨rfl, rfl, rfl, rfl⟩, rfl, ⟨rfl, rfl, rfl, rfl⟩, rfl, rfl, rfl, rfl, rfl, rfl⟩

theorem State.Blank.writeLevels (h : s.Blank) (q : Panel → Bool) : (s.writeLevels q).Blank :=
  ⟨h.entries, h.records, h.posted, h.current⟩

theorem freshSense_zone {p : Params} {z : Nat} (hlo : 1 ≤ z) (hhi : z ≤ 4) (h : s.sense = freshSense p) :
    s.zoneLevel z = p.ceiling := by
  obtain rfl | rfl | rfl | rfl : z = 1 ∨ z = 2 ∨ z = 3 ∨ z = 4 := by omega
  all_goals simp [State.zoneLevel, h, freshSense]

/-! ## The state after power-on -/

theorem State.served_panel {a : Nat} {q : Panel} (h : s.dispatch.settleAttention.panel? a = some q) :
    ∃ p, s.panel? a = some p ∧ q.record = p.record := by
  rw [State.panel?, State.settleAttention_bus] at h
  obtain ⟨p, hp, hrecord, -⟩ := State.dispatch_panel h
  exact ⟨p, hp, hrecord⟩

/-- Each panel after power-on or RSET, at its reset values in its record (R131). -/
theorem State.Blank.served_reset (h : u.Blank) {p : Params} (hfresh : u.bus.panels = freshPanels p) {a : Nat} (hlo : 1 ≤ a)
    (hhi : a ≤ 60) :
    ∃ q, (u.writeLevels fun _ => true).recompose.dispatch.settleAttention.panel? a = some q ∧
      q.record = (resetPanel p u.zoneLevel a).record := by
  obtain ⟨d, hd⟩ := (h.writeLevels fun _ => true).recompose_panel (State.reset_panel hfresh hlo hhi)
  have hrecords : (u.writeLevels fun _ => true).recompose.dispatch.settleAttention.records =
      (u.writeLevels fun _ => true).recompose.records := by
    rw [State.records, State.settleAttention_bus]
    exact State.dispatch_records _
  have hsame := State.panel?_of_records hrecords a
  rw [hd, Option.map_some] at hsame
  obtain ⟨q, hq, hrecord⟩ := Option.map_eq_some_iff.1 hsame
  exact ⟨q, hq, hrecord⟩

theorem resetPanel_record (p : Params) (level : Nat → Nat) (a : Nat) :
    (resetPanel p level a).record =
      { Panel.absentAt a (p.panelZones.getD (a - 1) 1) with
        role := p.settledRole a
        state := if p.settledRole a = .none then .absent else .probing
        desiredLevel := if p.settledRole a = .none then 0 else min (level (p.panelZones.getD (a - 1) 1)) 15 } := by
  rw [resetPanel, freshPanel_eq]
  rfl

theorem State.compose_line (s : State) : s.compose.bus = { s.bus with panels := s.compose.bus.panels } := by
  have hbus : s.remap.rotate.bus = s.bus := by simp
  have hset (v : State) : v.setDesired.bus = { v.bus with panels := v.setDesired.bus.panels } := rfl
  exact (hset s.remap.rotate).trans (by rw [hbus]; rfl)

theorem State.Blank.recompose_line (h : s.Blank) : s.recompose.bus = { s.bus with panels := s.recompose.bus.panels } := by
  rw [State.recompose_of_none h.records, State.compose_line, State.compose_line]

theorem State.Blank.recompose_addr (h : u.Blank) {p : Params} (hfresh : u.bus.panels = freshPanels p) :
    (u.writeLevels fun _ => true).recompose.bus.panels.map (·.addr) = (List.range 60).map (· + 1) := by
  have hsame (v : State) : v.compose.bus.panels.map (·.addr) = v.bus.panels.map (·.addr) := by
    have hbus : v.remap.rotate.bus = v.bus := by simp
    show (v.remap.rotate.bus.panels.map _).map _ = _
    rw [hbus, List.map_map]
    rfl
  rw [State.recompose_of_none (h.writeLevels _).records, hsame, hsame, ← freshPanels_addr p, ← hfresh]
  show (updWhere _ _ u.bus.panels).map _ = _
  rw [updWhere, List.map_map]
  refine List.map_congr_left fun q _ => ?_
  dsimp only [Function.comp_apply]
  split <;> rfl

/-- The panels as they stand before the first dispatch decision, each at its reset values (R131). -/
theorem State.Blank.reset_member (h : u.Blank) {p : Params} (hfresh : u.bus.panels = freshPanels p) {q : Panel}
    (hq : q ∈ (u.writeLevels fun _ => true).recompose.bus.panels) :
    1 ≤ q.addr ∧ q.addr ≤ 60 ∧ ∃ d, q = { resetPanel p u.zoneLevel q.addr with desired := d } := by
  have haddr := h.recompose_addr hfresh
  have hmem : q.addr ∈ (u.writeLevels fun _ => true).recompose.bus.panels.map (·.addr) := List.mem_map_of_mem hq
  rw [haddr] at hmem
  obtain ⟨i, hi, hadd⟩ := List.mem_map.1 hmem
  rw [List.mem_range] at hi
  refine ⟨by omega, by omega, ?_⟩
  obtain ⟨d, hd⟩ := (h.writeLevels fun _ => true).recompose_panel (State.reset_panel (a := q.addr) hfresh (by omega) (by omega))
  refine ⟨d, ?_⟩
  have hnodup : (u.writeLevels fun _ => true).recompose.Addressed := by
    rw [State.Addressed, haddr]
    exact List.nodup_range.map fun a b hab => by simpa using hab
  exact Option.some.inj ((State.panel?_of_mem hnodup hq).symm.trans hd)

theorem resetPanel_state (p : Params) (level : Nat → Nat) (a : Nat) :
    (resetPanel p level a).state = if p.settledRole a = .none then .absent else .probing := by
  rw [resetPanel, freshPanel_eq]

theorem resetPanel_needs {p : Params} {level : Nat → Nat} {a : Nat} (hrole : p.settledRole a ≠ .none) (d : Option Tag) (v : State) :
    v.needsService { resetPanel p level a with desired := d } = true := by
  have hwants : ({ resetPanel p level a with desired := d } : Panel).wantsFrame = true := by
    refine (Panel.wantsFrame_iff _).2 ⟨.inr ?_, .inr ?_⟩
    · exact (resetPanel_state p level a).trans (if_neg hrole)
    · rw [resetPanel, freshPanel_eq]
      exact nofun
  simp [State.needsService, hwants]

/-- The first dispatch decision after power-on (R139, R142). -/
theorem State.Loaded.first (h : u.Loaded store) :
    ((∀ a, 1 ≤ a → a ≤ 60 → (loadParams store.configuration).settledRole a = .none) →
      (u.writeLevels fun _ => true).recompose.dispatch.bus.seq = 0 ∧
        (u.writeLevels fun _ => true).recompose.dispatch.bus.pointer = 1 ∧
        (u.writeLevels fun _ => true).recompose.dispatch.bus.exchange = none) ∧
    ∀ a, 1 ≤ a → a ≤ 60 → (loadParams store.configuration).settledRole a ≠ .none →
      (∀ b, 1 ≤ b → b < a → (loadParams store.configuration).settledRole b = .none) →
        (u.writeLevels fun _ => true).recompose.dispatch.bus.seq = 1 ∧
          (u.writeLevels fun _ => true).recompose.dispatch.bus.pointer = (if a = 60 then 1 else a + 1) ∧
          ∃ x, (u.writeLevels fun _ => true).recompose.dispatch.bus.exchange = some x ∧ x.addr = a ∧ x.seq = 1 ∧
            x.urgent = none := by
  obtain ⟨hseq, hpointer, hurgent, hexchange⟩ := h.line
  have hline := (h.blank.writeLevels fun _ => true).recompose_line
  have haddr := h.blank.recompose_addr h.panels
  have hmember {q : Panel} := h.blank.reset_member (q := q) h.panels
  have hnodup : (u.writeLevels fun _ => true).recompose.Addressed := by
    rw [State.Addressed, haddr]
    exact List.nodup_range.map fun a b hab => by simpa using hab
  have hseq' : (u.writeLevels fun _ => true).recompose.bus.seq = 0 := by rw [hline]; exact hseq
  have hpointer' : (u.writeLevels fun _ => true).recompose.bus.pointer = 1 := by rw [hline]; exact hpointer
  have hurgent' : (u.writeLevels fun _ => true).recompose.bus.urgent = [] := by rw [hline]; exact hurgent
  have hidle : (u.writeLevels fun _ => true).recompose.bus.exchange = none := by rw [hline]; exact hexchange
  have hserved {q : Panel} (hq : q ∈ (u.writeLevels fun _ => true).recompose.bus.panels)
      (hneeds : (u.writeLevels fun _ => true).recompose.needsService q = true) :
      (loadParams store.configuration).settledRole q.addr ≠ .none := fun hnone => by
    obtain ⟨-, -, d, hd⟩ := hmember hq
    refine State.needsService_state hneeds ?_
    rw [hd]
    exact (resetPanel_state _ u.zoneLevel _).trans (if_pos hnone)
  generalize (u.writeLevels fun _ => true).recompose = v at *
  refine ⟨fun hall => ?_, fun a hlo hhi hrole hfirst => ?_⟩
  · have hfind : v.cycleOrder.find? v.needsService = none := List.find?_eq_none.2 fun q hq hneeds => by
      have hq' := (State.mem_cycleOrder v q).1 hq
      obtain ⟨hqlo, hqhi, -⟩ := hmember hq'
      exact hserved hq' hneeds (hall _ hqlo hqhi)
    rw [State.dispatch_none hidle (by rw [hurgent']; rfl) hfind]
    exact ⟨hseq', hpointer', hidle⟩
  · obtain ⟨q, hq, hqa⟩ : ∃ q ∈ v.bus.panels, q.addr = a := by
      have hmem : a ∈ v.bus.panels.map (·.addr) := by
        rw [haddr]
        exact List.mem_map.2 ⟨a - 1, List.mem_range.2 (by omega), by omega⟩
      exact List.mem_map.1 hmem
    obtain ⟨-, -, d, hd⟩ := hmember hq
    have hneeds : v.needsService q = true := by
      rw [hd]
      exact resetPanel_needs (hqa ▸ hrole) d v
    obtain ⟨hs, hp, x, hx, hxa, hxs, hxu⟩ := State.dispatch_first haddr hpointer' hurgent' hidle hq hneeds fun b hb hbn => by
      by_contra hlt
      obtain ⟨hblo, -, -⟩ := hmember hb
      exact hserved hb hbn (hfirst _ hblo (by omega))
    refine ⟨by rw [hs, hseq']; rfl, ?_, x, hx, hxa.trans hqa, by rw [hxs, hseq']; rfl, hxu⟩
    rw [hp, hqa]
    by_cases h60 : a = 60
    · rw [if_pos h60, if_pos (by omega)]
    · rw [if_neg h60, if_neg (by omega)]

theorem State.dispatch_keeps (h : s.bus.urgent = []) :
    s.dispatch.bus.urgent = [] ∧ s.dispatch.bus.intervalEnd = s.bus.intervalEnd := by
  have hpick : urgentPick s.bus.panels s.bus.urgent = (none, []) := by
    rw [h]
    rfl
  by_cases hidle : s.bus.exchange = none
  · cases hfind : s.cycleOrder.find? s.needsService with
    | none =>
      rw [State.dispatch_none hidle hpick hfind]
      exact ⟨rfl, rfl⟩
    | some p =>
      rw [State.dispatch_cycle hidle hpick hfind]
      exact ⟨rfl, rfl⟩
  · rw [State.dispatch_busy hidle]
    exact ⟨h, rfl⟩

theorem State.Loaded.keeps (h : u.Loaded store) :
    (u.writeLevels fun _ => true).recompose.dispatch.bus.urgent = [] ∧
      (u.writeLevels fun _ => true).recompose.dispatch.bus.intervalEnd =
        1000 * (loadParams store.configuration).interval := by
  have hline := (h.blank.writeLevels fun _ => true).recompose_line
  have hurgent : (u.writeLevels fun _ => true).recompose.bus.urgent = [] := by
    rw [hline]
    exact h.line.2.2.1
  obtain ⟨hstill, hinterval⟩ := State.dispatch_keeps hurgent
  refine ⟨hstill, hinterval.trans ?_⟩
  rw [hline]
  exact h.interval

theorem Zone.allFree_free {z : Zone} (h : z ∈ Zone.allFree) : z.gapEnd = none ∧ z.held = false := by
  obtain ⟨i, -, rfl⟩ := List.mem_map.1 h
  exact ⟨rfl, rfl⟩

theorem State.wantsAttention_of_notices {p : PortId} (h : (s.port p).notices ≠ []) : s.wantsAttention p = true := by
  cases p <;> simp_all [State.wantsAttention, State.port, Ports.get]

/-- The notices in the list of each port after power-on (R179, R191). -/
def bootNotices (store : Store) : PortId → List Notice
  | .planning => loadNotices store
  | .signalling => [⟨.restarted, .absent, 0⟩]
  | .announcement => [⟨.restarted, .absent, 0⟩]

theorem bootNotices_ne (store : Store) (p : PortId) : bootNotices store p ≠ [] := by cases p <;> exact nofun

theorem State.Loaded.port (h : u.Loaded store) (p : PortId) : u.port p = Port.reset (bootNotices store p) := by
  rw [State.port, h.ports]
  cases p <;> rfl

/-- The blocks after power-on but for the bus (R191). -/
theorem State.Loaded.picture (h : u.Loaded store) {t : State}
    (ht : t = (u.writeLevels fun _ => true).recompose.dispatch.settleAttention) :
    t.table.entries = [] ∧ t.cues = { list := [], last := 0, zones := Zone.allFree } ∧
      t.wall.posted = [] ∧ t.wall.mode = .normal ∧ t.wall.edition = 0 ∧ t.wall.rowMap = [] ∧ t.wall.current = none ∧
      t.wall.count = 0 ∧ ∀ p : PortId, t.port p = Port.reset (bootNotices store p) := by
  have hblank := h.blank.writeLevels fun _ => true
  obtain ⟨gates, hwall⟩ := hblank.recompose_wall
  obtain ⟨htable, -, hports⟩ := hblank.recompose_frame
  have hcues := State.recompose_cues (u.writeLevels fun _ => true)
  have hreset : t.wall = { State.reset.wall with rowMap := [], gateChoice := gates, items := [] } := by
    rw [ht]
    refine (State.dispatch_wall _).trans ?_
    rw [hwall, show (u.writeLevels fun _ => true).wall = u.wall from rfl, h.wall]
  rw [hreset]
  refine ⟨?_, ?_, rfl, rfl, rfl, rfl, rfl, rfl, fun p => ?_⟩
  · rw [ht, show ∀ v : State, v.settleAttention.table = v.table from fun _ => rfl, State.dispatch_table, htable]
    exact h.blank.entries
  · rw [ht, show ∀ v : State, v.settleAttention.cues = v.cues from fun _ => rfl, State.dispatch_cues, hcues]
    exact h.cues
  · have hport : (u.writeLevels fun _ => true).recompose.dispatch.port p = Port.reset (bootNotices store p) := by
      rw [State.port, State.dispatch_ports, hports]
      exact h.port p
    have hattention := State.wantsAttention_of_notices (p := p) (s := (u.writeLevels fun _ => true).recompose.dispatch)
      (by rw [hport]; exact bootNotices_ne store p)
    rw [ht, State.settleAttention_port, hattention, hport]
    rfl

/-- Settles O10. -/
theorem powerOnLoadsTheStore : Obligations.PowerOnLoadsTheStore := by
  unfold Obligations.PowerOnLoadsTheStore
  intro s
  obtain ⟨u, ht, hloaded⟩ := State.restart_loaded s.store s.pending
  obtain ⟨hentries, hcues, hposted, hmode, hedition, hrows, hcurrent, hcount, hports⟩ := hloaded.picture ht
  have hbare := State.restart_bare s.store s.pending
  have hin := State.restart_inForce s.store s.pending
  have hsense := State.restart_sense s.store s.pending
  have htime := State.restart_time s.store s.pending
  have hlines := State.restart_lines s.store s.pending
  refine ⟨State.restart s.store s.pending, fun hp => ?_, fun hp => ?_, State.restart_powered .., State.restart_pending ..,
    State.restart_store .., hin, (State.restart_pendingCfg ..).trans hin.symm, by rw [htime]; rfl, by rw [htime]; rfl,
    by rw [htime]; rfl, by rw [htime]; rfl, hentries, hbare.records, hbare.closed, by rw [hcues], ?_, hposted, hmode, hedition,
    hrows, hcurrent, hcount, ?_, fun a hlo hhi => ?_, by rw [hsense]; rfl, by rw [hsense]; rfl, by rw [hsense]; rfl, ?_, ?_, ?_, ?_, ?_, ?_,
    fun n => ?_, fun p => ?_, ?_, ?_, ?_⟩
  · show Host.Outcome.next (if s.powered = true then s else State.restart s.store s.pending) = _
    rw [hp, if_neg nofun]
  · exact State.answer_powered hp
  · rw [hcues]
    exact fun z hz => Zone.allFree_free hz
  · rw [ht]
    exact hloaded.keeps.1
  · obtain ⟨q, hq, hrecord⟩ := hloaded.blank.served_reset hloaded.panels hlo hhi
    rw [resetPanel_record] at hrecord
    rw [hin]
    refine ⟨q, ht ▸ hq, (congrArg Panel.role hrecord :), (congrArg Panel.state hrecord :), (congrArg Panel.acked hrecord :),
      (congrArg Panel.ackedLevel hrecord :), (congrArg Panel.ec hrecord :), (congrArg Panel.goodRun hrecord :),
      (congrArg Panel.overtemp hrecord :), (congrArg Panel.lastServed hrecord :), (congrArg Panel.zone hrecord :),
      (congrArg Panel.addressed hrecord :), (congrArg Panel.errored hrecord :), fun hrole hzlo hzhi => ?_⟩
    have hroleEq : q.role = (loadParams s.store.configuration).settledRole a := (congrArg Panel.role hrecord :)
    have hzone : q.zone = (loadParams s.store.configuration).panelZones.getD (a - 1) 1 := (congrArg Panel.zone hrecord :)
    have hlevel := congrArg Panel.desiredLevel hrecord
    refine hlevel.trans ?_
    dsimp only
    rw [if_neg (hroleEq ▸ hrole), ← hzone, freshSense_zone hzlo hzhi hloaded.sense]
  · rw [hsense, State.runTime, htime, hin]
    simp [freshSense, TimeBase.reset]
  · rw [hsense, hin]
    rfl
  · rw [hin, ht]
    exact hloaded.first.1
  · rw [hin, ht]
    exact hloaded.first.2
  · rw [State.runTime, htime, hin, ht]
    exact hloaded.keeps.2.trans (Nat.zero_add _).symm
  · rw [hsense, hin]
    intro z hz
    obtain ⟨n, -, rfl⟩ := List.mem_map.1 hz
    exact ⟨rfl, rfl⟩
  · rw [State.line?, hlines, loadLines_find]
    obtain ⟨-, himpulse, hresult, hnext, hdeferred, hdial⟩ := loadLine_quiet s.store.dials n
    refine ⟨_, rfl, himpulse, hresult, hnext, hdeferred, hdial, fun d hgood hd => ?_, fun hbad => ?_⟩
    · rw [loadLine_good hgood hd]
      exact ⟨rfl, rfl, rfl, rfl, rfl⟩
    · rw [loadLine_bad hbad]
      exact ⟨rfl, rfl, rfl, rfl, rfl⟩
  · rw [hports p]
    exact ⟨rfl, rfl, rfl, rfl, rfl, rfl, rfl⟩
  · rw [hports]
    rfl
  · rw [hports]
    rfl
  · rw [hports]
    show loadNotices s.store = _
    rw [loadNotices]
    cases s.store.dials.good <;> simp

end Sys2Proof.Machine
end

section
/-! PROOF. RSET (R131, R162, R192). -/
namespace Sys2Proof.Machine

open Sys2Proof

variable {s t u v : State}

/-! ## The sensing unit at RSET -/

theorem Sense.choose_fields (threshold : Nat) (u : Sense) :
    (u.choose threshold).position = u.position ∧ (u.choose threshold).queue = u.queue ∧
      (u.choose threshold).scanDue = u.scanDue ∧ (u.choose threshold).channels = u.channels := by
  unfold Sense.choose
  split <;> exact ⟨rfl, rfl, rfl, rfl⟩

theorem Sense.rset_fields (p : Params) (u : Sense) :
    (u.rset p).position = none ∧ (u.rset p).queue = u.queue ∧ (u.rset p).scanDue = u.scanDue ∧
      (u.rset p).channels = u.channels.map (LightChannel.reassign p) := by
  unfold Sense.rset
  dsimp only
  split
  · exact Sense.choose_fields ..
  · exact ⟨rfl, rfl, rfl, rfl⟩

theorem Sense.rset_check {p : Params} {u : Sense} {n : Fin 4} {threshold : Nat} (h : u.converter = .check n threshold) :
    (u.rset p).converter = u.converter := by
  simp [Sense.rset, h]

theorem Sense.rset_light {p : Params} {u : Sense} {c : Nat} (h : u.converter = .light c) (hqueue : u.queue = []) :
    (u.rset p).converter = .idle := by
  simp [Sense.rset, h, Sense.choose, hqueue]

theorem LightChannel.reassign_fields (p : Params) (k : LightChannel) :
    (k.reassign p).no = k.no ∧ (k.reassign p).zone = p.lightZones.getD k.no 0 ∧ (k.reassign p).reading = none ∧
      ((k.reassign p).zone = k.zone →
        (k.reassign p).faultyRun = k.faultyRun ∧ (k.reassign p).goodRun = k.goodRun ∧ (k.reassign p).fault = k.fault) ∧
      ((k.reassign p).zone ≠ k.zone →
        (k.reassign p).faultyRun = 0 ∧ (k.reassign p).goodRun = 0 ∧ (k.reassign p).fault = false) := by
  unfold LightChannel.reassign
  dsimp only
  split
  next h => exact ⟨rfl, h, rfl, fun _ => ⟨rfl, rfl, rfl⟩, fun hne => absurd rfl hne⟩
  next h => exact ⟨rfl, rfl, rfl, fun heq => absurd heq.symm h, fun _ => ⟨rfl, rfl, rfl⟩⟩

/-! ## The state before the picture is formed -/

/-- What RSET brings the picture, the wall, the panels and the notice lists to before the picture is formed (R192). -/
structure State.Emptied (s u : State) : Prop where
  blank : u.Blank
  panels : u.bus.panels = freshPanels (s.inForce.withStructural s.pendingCfg)
  urgent : u.bus.urgent = []
  exchange : u.bus.exchange = s.bus.exchange.map fun x => { x with rset := true }
  zones : u.sense.zones = s.sense.zones
  cues : u.cues = { list := [], last := 0, zones := Zone.allFree }
  wall : u.wall.mode = .normal ∧ u.wall.count = s.wall.count ∧ u.wall.edition = s.wall.edition ∧ u.wall.dwell = none
  ports : ∀ q, u.port q = { s.port q with notices := [], overflow := false }
  time : u.time = s.time

/-- The state that the picture is formed over. -/
def State.announced (u : State) : State :=
  (u.writeLevels fun _ => true).post [.planning, .signalling, .announcement] .restarted (.port .planning)

theorem State.resetPicture_emptied (s : State) : ∃ u : State, s.resetPicture = u.announced.settle u.announced ∧ s.Emptied u :=
  ⟨_, rfl, ⟨rfl, rfl, rfl, rfl⟩, rfl, rfl, rfl, Sense.rset_zones .., rfl, ⟨rfl, rfl, rfl, rfl⟩,
    fun q => by cases q <;> rfl, rfl⟩

theorem State.Blank.announced (h : u.Blank) : u.announced.Blank :=
  ⟨h.entries, h.records, h.posted, h.current⟩

theorem State.announced_panel (u : State) (a : Nat) : u.announced.panel? a = (u.writeLevels fun _ => true).panel? a := rfl

theorem State.Emptied.port (h : s.Emptied u) (q : PortId) :
    u.announced.port q =
      { s.port q with notices := [⟨.restarted, .port .planning, s.time.clock⟩], overflow := false } := by
  have hall : q ∈ [PortId.planning, .signalling, .announcement] := by cases q <;> simp
  rw [State.announced, State.post_port (by decide), if_pos hall]
  show (u.port q).post ⟨_, _, u.time.clock⟩ = _
  rw [h.ports, h.time]
  rfl

/-! ## The state after RSET -/

/-- A panel after RSET, at its reset values; not yet sent to where no exchange starts to it (R131, R162). -/
theorem State.Emptied.panel (h : s.Emptied u) {a : Nat} (hlo : 1 ≤ a) (hhi : a ≤ 60) :
    ∃ q, (u.announced.settle u.announced).panel? a = some q ∧
      q.record = (resetPanel (s.inForce.withStructural s.pendingCfg) u.zoneLevel a).record ∧
      (s.bus.exchange ≠ none ∨ (∀ x, (u.announced.settle u.announced).bus.exchange = some x → x.addr ≠ a) →
        q.sent = none ∧ q.sentLevel = none) := by
  obtain ⟨d, hd⟩ := h.blank.announced.recompose_panel
    ((State.announced_panel u a).trans (State.reset_panel h.panels hlo hhi))
  have hrecords := State.finish_records u.announced.recompose u.announced
  have hsame := State.panel?_of_records hrecords a
  rw [hd, Option.map_some] at hsame
  obtain ⟨q, hq, hrecord⟩ := Option.map_eq_some_iff.1 hsame
  refine ⟨q, hq, hrecord, fun hunsent => ?_⟩
  have hbus : (u.announced.settle u.announced).bus = (u.announced.recompose.serve u.announced).bus :=
    State.settleAttention_bus _
  have hkept : (u.announced.settle u.announced).panel? a = u.announced.recompose.panel? a := by
    rw [State.panel?, hbus, ← State.panel?]
    rw [hbus] at hunsent
    unfold State.serve at hunsent ⊢
    split
    next hdue =>
      rw [if_pos hdue] at hunsent
      refine State.dispatch_untouched (hunsent.imp_left fun hbusy => ?_)
      rw [h.blank.announced.recompose_line]
      show u.bus.exchange ≠ none
      rw [h.exchange]
      simpa using hbusy
    · rfl
  have hq' : q = { resetPanel (s.inForce.withStructural s.pendingCfg) u.zoneLevel a with desired := d } :=
    Option.some.inj (hq.symm.trans (hkept.trans hd))
  rw [hq', resetPanel, freshPanel_eq]
  exact ⟨rfl, rfl⟩

theorem State.Emptied.urgent_kept (h : s.Emptied u) : (u.announced.settle u.announced).bus.urgent = [] := by
  have hbus : (u.announced.settle u.announced).bus = (u.announced.recompose.serve u.announced).bus :=
    State.settleAttention_bus _
  have hline : u.announced.recompose.bus.urgent = [] := by
    rw [h.blank.announced.recompose_line]
    exact h.urgent
  rw [hbus, State.serve]
  split
  · exact (State.dispatch_keeps hline).1
  · exact hline

theorem State.Emptied.exchange_kept (h : s.Emptied u) {x : Exchange} (hx : s.bus.exchange = some x) :
    (u.announced.settle u.announced).bus.exchange = some { x with rset := true } := by
  have hbus : (u.announced.settle u.announced).bus = (u.announced.recompose.serve u.announced).bus :=
    State.settleAttention_bus _
  have hline : u.announced.recompose.bus.exchange = some { x with rset := true } := by
    rw [h.blank.announced.recompose_line]
    show u.bus.exchange = _
    rw [h.exchange, hx]
    rfl
  rw [hbus, State.serve, State.dispatch_busy (by rw [hline]; exact nofun), ite_self, hline]

/-- The blocks after RSET but for the panels (R192). -/
theorem State.Emptied.picture (h : s.Emptied u) {t : State} (ht : t = u.announced.settle u.announced) :
    t.wall.posted = [] ∧ t.wall.mode = .normal ∧ t.wall.current = none ∧ t.wall.count = s.wall.count ∧
      t.wall.edition = s.wall.edition ∧ t.wall.rowMap = [] ∧ t.wall.items = [] ∧ t.wall.dwell = none ∧
      t.cues = { list := [], last := 0, zones := Zone.allFree } ∧
      ∀ q, (t.port q).notices = [⟨.restarted, .port .planning, s.time.clock⟩] ∧ (t.port q).overflow = false ∧
        (t.port q).attention = true := by
  obtain ⟨gates, hwall⟩ := h.blank.announced.recompose_wall
  obtain ⟨-, -, hports⟩ := h.blank.announced.recompose_frame
  obtain ⟨hmode, hcount, hedition, hdwell⟩ := h.wall
  have hshown : t.wall = { u.wall with rowMap := [], gateChoice := gates, items := [] } := by
    rw [ht]
    exact (State.finish_wall ..).trans hwall
  rw [hshown]
  refine ⟨h.blank.posted, hmode, h.blank.current, hcount, hedition, rfl, rfl, hdwell, ?_, fun q => ?_⟩
  · rw [ht, State.settle_cues]
    exact h.cues
  · have hport : u.announced.recompose.port q =
        { s.port q with notices := [⟨.restarted, .port .planning, s.time.clock⟩], overflow := false } := by
      rw [State.port, hports]
      exact h.port q
    have hserved : (u.announced.recompose.serve u.announced).port q = u.announced.recompose.port q := by
      rw [State.port, State.serve_frame]
      rfl
    have hattention := State.wantsAttention_of_notices (p := q) (s := u.announced.recompose.serve u.announced)
      (by rw [hserved, hport]; exact nofun)
    rw [ht, State.settle, State.finish_port, hattention, hport]
    exact ⟨rfl, rfl, rfl⟩

theorem State.answerTel_reply_notices {q : PortId} {p : PortId} {tel : Tel} {a : Answer} (s : State) :
    ((s.answerTel p tel a).port q).overflow = (s.port q).overflow ∧
      ((s.answerTel p tel a).port q).attention = (s.port q).attention := by
  rw [State.answerTel_port]
  split
  next h => exact ⟨by rw [h], by rw [h]⟩
  · exact ⟨rfl, rfl⟩

/-- Settles O13. -/
theorem rsetClearsThePicture : Obligations.RsetClearsThePicture := by
  unfold Obligations.RsetClearsThePicture
  intro s p seq h
  have hhandled : Telegram.rset.handled p s = (s.resetPicture, .accept .none) := rfl
  obtain ⟨hexec, hanswered⟩ := exec_taking_answered h hhandled fun q => State.resetPicture_link q s
  obtain ⟨u, ht, hemptied⟩ := s.resetPicture_emptied
  obtain ⟨hposted, hmode, hcurrent, hcount, hedition, hrows, hitems, hdwell, hcues, hports⟩ := hemptied.picture ht
  have hpanel {a : Nat} := hemptied.panel (a := a)
  have hexchange {x : Exchange} := hemptied.exchange_kept (x := x)
  have hbare := s.resetPicture_bare
  have hin := s.resetPicture_inForce
  have hpendingCfg := s.resetPicture_pendingCfg
  have htime := s.resetPicture_time
  have hlines := s.resetPicture_lines
  have hstore := s.resetPicture_store
  have hpending := s.resetPicture_pending
  have hsense := s.resetPicture_sense
  obtain ⟨hposition, hqueue, hscan, hchannels⟩ := s.sense.rset_fields (s.inForce.withStructural s.pendingCfg)
  rw [← ht] at hpanel hexchange
  have hurgent : s.resetPicture.bus.urgent = [] := by
    rw [ht]
    exact hemptied.urgent_kept
  generalize s.resetPicture = r at *
  refine ⟨_, hexec, hanswered, fun n row hrow => ?_, hpendingCfg.trans hin.symm, htime, hlines, hstore, hpending,
    hbare.entries, hbare.records, hbare.closed, hbare.cues, ?_, hposted, hmode, hcurrent, hcount, hedition, hurgent,
    fun a hlo hhi => ?_, hrows, hitems, hdwell, fun x hx => hexchange hx,
    fun k hk => ?_, fun n threshold hn => ?_, fun c hc hok => ?_, ?_, ?_, ?_, ?_, fun q => ?_⟩
  · show r.inForce.value n = _
    rw [hin, Params.value_withStructural, paramRow_structural hrow]
    by_cases hn : n < 300 <;> simp [hn]
  · show ∀ z ∈ r.cues.zones, _
    rw [hcues]
    exact fun z hz => Zone.allFree_free hz
  · obtain ⟨q, hq, hrecord, hsent⟩ := hpanel hlo hhi
    rw [resetPanel_record] at hrecord
    have hroleEq : q.role = (s.inForce.withStructural s.pendingCfg).settledRole a := (congrArg Panel.role hrecord :)
    have hzone : q.zone = (s.inForce.withStructural s.pendingCfg).panelZones.getD (a - 1) 1 := (congrArg Panel.zone hrecord :)
    have hlevel := congrArg Panel.desiredLevel hrecord
    show ∃ q, r.panel? a = some q ∧ _
    refine ⟨q, hq, ?_⟩
    show q.role = r.inForce.settledRole a ∧ q.state = (if r.inForce.settledRole a = .none then .absent else .probing) ∧
      q.zone = r.inForce.panelZones.getD (a - 1) 1 ∧ _
    rw [hin]
    refine ⟨hroleEq, (congrArg Panel.state hrecord :), hzone, (congrArg Panel.acked hrecord :),
      (congrArg Panel.ackedLevel hrecord :), (congrArg Panel.ec hrecord :), (congrArg Panel.goodRun hrecord :),
      (congrArg Panel.addressed hrecord :), (congrArg Panel.errored hrecord :), (congrArg Panel.overtemp hrecord :),
      (congrArg Panel.lastServed hrecord :), fun hrole => hlevel.trans ?_, hsent⟩
    dsimp only
    rw [if_neg (hroleEq ▸ hrole), ← hzone, State.zoneLevel, hemptied.zones, ← State.zoneLevel]
  · show ∃ k' ∈ r.sense.channels, k'.no = k.no ∧ k'.zone = r.inForce.lightZones.getD k.no 0 ∧ _
    rw [hsense, hchannels, hin]
    exact ⟨_, List.mem_map_of_mem hk, LightChannel.reassign_fields _ k⟩
  · show r.sense.converter = _
    rw [hsense, Sense.rset_check hn]
  · show r.sense.converter = _
    have hstep : s.sense.queue = [] := by
      obtain ⟨-, -, -, -, hstep⟩ := hok
      rw [Sense.converterInStep, hc] at hstep
      simp only [Bool.and_eq_true, decide_eq_true_eq] at hstep
      exact hstep.1
    rw [hsense, Sense.rset_light hc hstep]
  · show r.sense.position = none
    rw [hsense, hposition]
  · show r.sense.queue = _
    rw [hsense, hqueue]
  · show r.sense.zones = _
    rw [hsense, Sense.rset_zones]
  · show r.sense.scanDue = _
    rw [hsense, hscan]
  · obtain ⟨hover, hatt⟩ := State.answerTel_reply_notices (q := q) (p := p) (tel := Telegram.rset.tel seq) (a := .accept .none) r
    rw [State.answerTel_notices, hover, hatt]
    exact hports q

end Sys2Proof.Machine
end

section
/-! PROOF. The cue of a kind and a run through the operations of the scheduler (R83, R87, R95). -/
namespace Sys2Proof.Machine

open Sys2Proof

variable {s t u v : State} {kind k : CueKind} {run : Nat} {o : Option Cue} {c : Cue}

/-! ## The place of a kind and a run in the cue list -/

theorem State.cue?_some (h : s.cue? kind run = some c) : c ∈ s.cues.list ∧ c.kind = kind ∧ c.run = run := by
  have hpick := List.find?_some h
  simp only [Bool.and_eq_true, decide_eq_true_eq] at hpick
  exact ⟨List.mem_of_find?_eq_some h, hpick⟩

theorem State.CuesOk.cue?_eq (h : s.CuesOk) (hc : c ∈ s.cues.list) : s.cue? c.kind c.run = some c := by
  obtain ⟨-, -, -, hkinds, -⟩ := h
  cases hfind : s.cue? c.kind c.run with
  | none => exact absurd ⟨rfl, rfl⟩ (State.cue?_none_iff.1 hfind c hc)
  | some d =>
    obtain ⟨hd, hkind, hrun⟩ := State.cue?_some hfind
    rw [List.inj_on_of_nodup_map hkinds hd hc (by rw [hkind, hrun])]

theorem State.CuesOk.cue?_iff (h : s.CuesOk) : s.cue? kind run = some c ↔ c ∈ s.cues.list ∧ c.kind = kind ∧ c.run = run := by
  refine ⟨State.cue?_some, fun ⟨hc, hkind, hrun⟩ => ?_⟩
  rw [← hkind, ← hrun]
  exact h.cue?_eq hc

/-- A cue withdrawn: one that is TAKEN stays, marked pending drop (R87). -/
def withdrawn (o : Option Cue) : Option Cue :=
  o.bind fun c => if c.isTaken then some { c with pendDrop := true } else none

/-- A cue that its trigger has reached: made where there was none, else revised (R83, R87). -/
def Triggered (now : Int) (kind : CueKind) (run : Nat) (zones : List Nat) (due : Int) (o o' : Option Cue) : Prop :=
  (∃ c, o = some c ∧ o' = some (c.revise now zones due)) ∨
    (o = none ∧ ∃ n, o' = some (newCue n kind run zones due now))

theorem State.cue?_map {f : Cue → Cue} (hf : ∀ c, (f c).kind = c.kind ∧ (f c).run = c.run) (s : State) (kind : CueKind) (run : Nat) :
    (s.withCues (s.cues.list.map f)).cue? kind run = (s.cue? kind run).map f := by
  rw [State.cue?, State.withCues]
  dsimp only
  rw [List.find?_map]
  simp only [Function.comp_def, hf]
  rfl

theorem State.cue?_withdrawWhere (h : s.CuesOk) (p : Cue → Bool) (kind : CueKind) (run : Nat) :
    (s.withdrawWhere p).cue? kind run = (s.cue? kind run).bind fun c => if p c then withdrawn (some c) else some c := by
  have hok : (s.withdrawWhere p).CuesOk := (State.withdrawWhere_calm p s).cuesOk h
  refine Option.ext fun d => ?_
  rw [hok.cue?_iff, State.withdrawWhere_list]
  constructor
  · rintro ⟨hd, hkind, hrun⟩
    obtain ⟨c, hc, rfl⟩ := List.mem_map.1 hd
    obtain ⟨hmem, hkeep⟩ := List.mem_filter.1 hc
    have hsame : (if p c then { c with pendDrop := true } else c).kind = c.kind ∧
        (if p c then { c with pendDrop := true } else c).run = c.run := by split <;> exact ⟨rfl, rfl⟩
    rw [h.cue?_iff.2 ⟨hmem, hsame.1.symm.trans hkind, hsame.2.symm.trans hrun⟩, Option.bind_some]
    cases hp : p c with
    | false => simp
    | true => simp_all [withdrawn]
  · intro hd
    obtain ⟨c, hc, hcd⟩ := Option.bind_eq_some_iff.1 hd
    obtain ⟨hmem, hkind, hrun⟩ := State.cue?_some hc
    cases hp : p c with
    | false =>
      rw [hp, if_neg nofun] at hcd
      cases hcd
      exact ⟨List.mem_map.2 ⟨d, List.mem_filter.2 ⟨hmem, by simp [hp]⟩, by simp [hp]⟩, hkind, hrun⟩
    | true =>
      rw [hp, if_pos rfl, withdrawn, Option.bind_some] at hcd
      split at hcd
      next htaken =>
        cases hcd
        exact ⟨List.mem_map.2 ⟨c, List.mem_filter.2 ⟨hmem, by simp [htaken]⟩, by simp [hp]⟩, hkind, hrun⟩
      · cases hcd

theorem newCue_fields (n : Nat) (kind : CueKind) (run : Nat) (zones : List Nat) (due now : Int) :
    (newCue n kind run zones due now).kind = kind ∧ (newCue n kind run zones due now).run = run ∧
      (newCue n kind run zones due now).zones = zones ∧ (newCue n kind run zones due now).due = due ∧
      (newCue n kind run zones due now).state = (if due ≤ now then .due else .waiting) :=
  ⟨rfl, rfl, rfl, rfl, rfl⟩

theorem State.cue?_append (kind k : CueKind) (run m : Nat) (zones : List Nat) (due : Int) (s : State) :
    ∃ n, (s.appendCue k m zones due).cue? kind run =
      (s.cue? kind run).or (if k = kind ∧ m = run then some (newCue n k m zones due s.now) else none) := by
  refine ⟨(s.appendCue k m zones due).cues.last, ?_⟩
  rw [State.cue?, State.appendCue_list, List.find?_append, List.find?_cons, List.find?_nil]
  refine congrArg _ ?_
  by_cases h : k = kind ∧ m = run
  · simp [h, newCue_fields]
  · rw [if_neg h]
    have : ¬(((newCue (s.appendCue k m zones due).cues.last k m zones due s.now).kind = kind && (newCue (s.appendCue k m zones due).cues.last k m zones due s.now).run = run) = true) := by
      simpa [newCue_fields] using h
    simp [this]

/-- A trigger with room reaches the cue of its kind and run, and no other (R83, R87). -/
theorem State.cue?_trigger (zones : List Nat) (due : Int) (hroom : s.cue? k run = none → s.cues.list.length < 32) :
    Triggered s.now k run zones due (s.cue? k run) ((s.trigger k run zones due).cue? k run) ∧
      ∀ kind, kind ≠ k → (s.trigger k run zones due).cue? kind run = s.cue? kind run := by
  unfold State.trigger
  cases hc : s.cue? k run with
  | some c =>
    rw [Option.isSome_some, if_pos rfl]
    have hmap (kind : CueKind) : (s.withCues (updWhere (fun c => c.kind = k && c.run = run) (Cue.revise s.now zones due)
        s.cues.list)).cue? kind run =
        (s.cue? kind run).map fun c => if c.kind = k && c.run = run then c.revise s.now zones due else c := by
      refine State.cue?_map (fun c => ?_) s kind run
      split
      · exact ⟨(Cue.revise_fields ..).2.1, (Cue.revise_fields ..).2.2.1⟩
      · exact ⟨rfl, rfl⟩
    obtain ⟨-, hkind, hrun⟩ := State.cue?_some hc
    refine ⟨.inl ⟨c, rfl, ?_⟩, fun kind hne => ?_⟩
    · rw [hmap, hc, Option.map_some]
      simp [hkind, hrun]
    · rw [hmap]
      cases hd : s.cue? kind run with
      | none => rfl
      | some d =>
        obtain ⟨-, hdkind, -⟩ := State.cue?_some hd
        simp [hdkind, hne]
  | none =>
    rw [Option.isSome_none, if_neg nofun, if_pos (hroom hc)]
    refine ⟨.inr ⟨rfl, ?_⟩, fun kind hne => ?_⟩
    · obtain ⟨n, hn⟩ := State.cue?_append k k run run zones due s
      exact ⟨n, by rw [hn, hc]; simp⟩
    · obtain ⟨n, hn⟩ := State.cue?_append kind k run run zones due s
      rw [hn, if_neg fun h => hne h.1.symm, Option.or_none]

/-! ## Room for what one entry calls for -/

/-- A cue of the run, of a kind that is not CANCEL. -/
def Cue.ownOf (run : Nat) (c : Cue) : Bool := c.run = run && c.kind ≠ .cancel

/-- The cues besides those of the run leave room for them. -/
structure State.Roomy (run : Nat) (s : State) : Prop where
  cuesOk : s.CuesOk
  others : (s.cues.list.filter fun c => !c.ownOf run).length ≤ 28

theorem State.Roomy.of_room (h : s.CuesOk) (hroom : s.cues.list.length ≤ 28) (run : Nat) : s.Roomy run :=
  ⟨h, (List.length_filter_le ..).trans hroom⟩

theorem State.Roomy.room (h : s.Roomy run) (hk : k ≠ .cancel) (hnone : s.cue? k run = none) : s.cues.list.length < 32 := by
  obtain ⟨-, -, -, hkinds, -⟩ := h.cuesOk
  have hall : s.cues.list.length =
      (s.cues.list.filter (·.ownOf run)).length + (s.cues.list.filter fun c => !c.ownOf run).length := by
    rw [← List.countP_eq_length_filter, ← List.countP_eq_length_filter]
    simpa using List.length_eq_countP_add_countP (l := s.cues.list) (Cue.ownOf run)
  have hnodup : ((s.cues.list.filter (·.ownOf run)).map (·.kind)).Nodup := by
    refine List.Nodup.map_on (fun c hc d hd hcd => ?_) (hkinds.of_map _ |>.filter _)
    obtain ⟨hcm, hcown⟩ := List.mem_filter.1 hc
    obtain ⟨hdm, hdown⟩ := List.mem_filter.1 hd
    simp only [Cue.ownOf, Bool.and_eq_true, decide_eq_true_eq] at hcown hdown
    exact List.inj_on_of_nodup_map hkinds hcm hdm (by rw [hcd, hcown.1, hdown.1])
  have hsub : (s.cues.list.filter (·.ownOf run)).map (·.kind) ⊆ [.platform, .final, .delay, .change].erase k := by
    intro q hq
    obtain ⟨c, hc, rfl⟩ := List.mem_map.1 hq
    obtain ⟨hcm, hcown⟩ := List.mem_filter.1 hc
    simp only [Cue.ownOf, Bool.and_eq_true, decide_eq_true_eq] at hcown
    refine (List.mem_erase_of_ne fun hck => State.cue?_none_iff.1 hnone c hcm ⟨hck, hcown.1⟩).2 ?_
    cases hkind : c.kind <;> simp_all
  have hle := (hnodup.subperm hsub).length_le
  have hfew : ([.platform, .final, .delay, .change].erase k : List CueKind).length = 3 := by
    cases k <;> simp_all
  rw [List.length_map, hfew] at hle
  have := h.others
  omega

theorem State.Roomy.of_calm (h : s.Roomy run) (hcalm : s.Calm t)
    (hlist : (t.cues.list.filter fun c => !c.ownOf run).length ≤ (s.cues.list.filter fun c => !c.ownOf run).length) :
    t.Roomy run := ⟨hcalm.cuesOk h.cuesOk, hlist.trans h.others⟩

theorem State.Roomy.of_cues (h : s.Roomy run) (hcues : t.cues = s.cues) : t.Roomy run :=
  ⟨State.CuesOk.of_cues h.cuesOk hcues, by rw [hcues]; exact h.others⟩

theorem filter_map_length_le {p : Cue → Bool} {f : Cue → Cue} (hf : ∀ c, p (f c) = p c) (l : List Cue) :
    ((l.map f).filter p).length = (l.filter p).length := by
  rw [List.filter_map, List.length_map]
  exact congrArg (fun q => (l.filter q).length) (funext hf)

theorem State.Roomy.withdrawWhere (h : s.Roomy run) (p : Cue → Bool) : (s.withdrawWhere p).Roomy run := by
  refine h.of_calm (State.withdrawWhere_calm p s) ?_
  rw [State.withdrawWhere_list, filter_map_length_le]
  · exact (List.filter_sublist.filter _).length_le
  · intro c
    split <;> rfl

theorem State.Roomy.follow (h : s.Roomy run) (e : Entry) :
    (s.withCues (updWhere (·.run = e.run) (Cue.follow s.inForce s.now e.exp) s.cues.list)).Roomy run := by
  refine h.of_calm (State.follow_calm e s) ?_
  show ((updWhere _ _ _).filter _).length ≤ _
  rw [updWhere, filter_map_length_le]
  intro c
  split
  · have hsame := Cue.follow_sameBut s.inForce s.now e.exp c
    simp [Cue.ownOf, hsame.run, hsame.kind]
  · rfl

theorem State.Roomy.trigger (h : s.Roomy run) (hk : k ≠ .cancel) (zones : List Nat) (due : Int) :
    (s.trigger k run zones due).Roomy run := by
  refine h.of_calm (State.trigger_calm ..) ?_
  unfold State.trigger
  cases hc : s.cue? k run with
  | some c =>
    rw [Option.isSome_some, if_pos rfl]
    show ((updWhere _ _ _).filter _).length ≤ _
    rw [updWhere, filter_map_length_le]
    intro c
    split
    · obtain ⟨-, hkind, hrun, -⟩ := Cue.revise_fields s.now zones due c
      simp [Cue.ownOf, hkind, hrun]
    · rfl
  | none =>
    rw [Option.isSome_none, if_neg nofun, if_pos (h.room hk hc), State.appendCue_list, List.filter_append,
      List.filter_cons_of_neg, List.filter_nil, List.append_nil]
    simp [Cue.ownOf, newCue_fields, hk]

end Sys2Proof.Machine
end

section
/-! PROOF. The places of a run in the cue list through one handover (R86, R88, R90, R91, R95). -/
namespace Sys2Proof.Machine

open Sys2Proof

variable {s t u v : State} {kind k : CueKind} {run : Nat} {o : Option Cue} {c : Cue} {old : Option Entry} {e : Entry}

/-! ## One handover -/

/-- The handover withdraws the cue of a kind (R88, R90, R91). -/
def Entry.withdraws (p : Params) (old : Option Entry) (e : Entry) : CueKind → Bool
  | .platform => ((old.bind (·.displayed)).isSome && e.displayed.isNone) || leftService old e
  | .final => leftService old e || (old.map (·.state) = some .boarding && e.state = .listed)
  | .delay => e.dd < p.delayThreshold || !e.awaiting
  | _ => false

/-- A place of the run after the withdrawals and the moved dues of a handover (R87, R95). -/
def Entry.placed (p : Params) (now : Int) (old : Option Entry) (e : Entry) (kind : CueKind) (o : Option Cue) : Option Cue :=
  (if e.withdraws p old kind then withdrawn o else o).map (Cue.follow p now e.exp)

/-- What one handover does to the places of its run. -/
structure State.Handed (s t : State) (old : Option Entry) (e : Entry) : Prop where
  platform : (e.wantsPlatformCue = true →
      Triggered s.now .platform e.run (0 :: e.displayed.toList) (e.exp - s.inForce.platformLead)
        (e.placed s.inForce s.now old .platform (s.cue? .platform e.run)) (t.cue? .platform e.run)) ∧
    (e.wantsPlatformCue = false →
      t.cue? .platform e.run = e.placed s.inForce s.now old .platform (s.cue? .platform e.run))
  delay : (s.inForce.wantsDelayCue e = true →
      Triggered s.now .delay e.run (0 :: e.displayed.toList) s.now
        (e.placed s.inForce s.now old .delay (s.cue? .delay e.run)) (t.cue? .delay e.run)) ∧
    (s.inForce.wantsDelayCue e = false →
      t.cue? .delay e.run = e.placed s.inForce s.now old .delay (s.cue? .delay e.run))
  final : (enteredBoarding old e = true →
      Triggered s.now .final e.run e.displayed.toList (e.exp - s.inForce.finalLead)
        (e.placed s.inForce s.now old .final (s.cue? .final e.run)) (t.cue? .final e.run)) ∧
    (enteredBoarding old e = false →
      (e.state = .boarding → old.bind (·.displayed) ≠ e.displayed → e.displayed ≠ none →
        (e.placed s.inForce s.now old .final (s.cue? .final e.run)).isSome = true →
          Triggered s.now .final e.run e.displayed.toList (e.exp - s.inForce.finalLead)
            (e.placed s.inForce s.now old .final (s.cue? .final e.run)) (t.cue? .final e.run)) ∧
      ((e.state ≠ .boarding ∨ old.bind (·.displayed) = e.displayed ∨ e.displayed = none ∨
          e.placed s.inForce s.now old .final (s.cue? .final e.run) = none) →
        t.cue? .final e.run = e.placed s.inForce s.now old .final (s.cue? .final e.run)))
  kept : ∀ kind, kind = .change ∨ kind = .cancel → t.cue? kind e.run = s.cue? kind e.run
  roomy : t.Roomy e.run

theorem State.handoverWithdrawals_eq (old : Option Entry) (e : Entry) (s : State) :
    s.handoverWithdrawals old e = s.withdrawWhere fun c => c.run = e.run && e.withdraws s.inForce old c.kind := by
  refine congrArg (fun p => s.withdrawWhere p) (funext fun c => ?_)
  cases c.kind <;> rfl

/-- The withdrawals and the moved dues of a handover (R87, R95). -/
def State.handoverPlaces (old : Option Entry) (e : Entry) (s : State) : State :=
  (s.handoverWithdrawals old e).withCues
    (updWhere (·.run = e.run) (Cue.follow s.inForce s.now e.exp) (s.handoverWithdrawals old e).cues.list)

theorem State.handoverPlaces_roomy (h : s.Roomy e.run) (old : Option Entry) : (s.handoverPlaces old e).Roomy e.run := by
  have hdrawn : (s.handoverWithdrawals old e).Roomy e.run := by
    rw [State.handoverWithdrawals_eq]
    exact h.withdrawWhere _
  exact hdrawn.follow e

theorem State.handoverPlaces_cue (h : s.Roomy e.run) (old : Option Entry) (kind : CueKind) :
    (s.handoverPlaces old e).cue? kind e.run = e.placed s.inForce s.now old kind (s.cue? kind e.run) := by
  have hdrawn : (s.handoverWithdrawals old e).cue? kind e.run =
      if e.withdraws s.inForce old kind then withdrawn (s.cue? kind e.run) else s.cue? kind e.run := by
    rw [State.handoverWithdrawals_eq, State.cue?_withdrawWhere h.cuesOk]
    cases hc : s.cue? kind e.run with
    | none => simp [withdrawn]
    | some c =>
      obtain ⟨-, hkind, hrun⟩ := State.cue?_some hc
      simp [hkind, hrun]
  have hsame (c : Cue) : (if (decide (c.run = e.run)) = true then c.follow s.inForce s.now e.exp else c).kind = c.kind ∧
      (if (decide (c.run = e.run)) = true then c.follow s.inForce s.now e.exp else c).run = c.run := by
    split
    · exact ⟨(Cue.follow_sameBut ..).kind, (Cue.follow_sameBut ..).run⟩
    · exact ⟨rfl, rfl⟩
  rw [State.handoverPlaces, updWhere, State.cue?_map hsame, hdrawn, Entry.placed]
  refine Option.map_congr fun c hc => ?_
  have hrun : c.run = e.run := by
    rw [← hdrawn] at hc
    exact (State.cue?_some hc).2.2
  simp [hrun]

theorem Cue.follow_other (hk : c.kind ≠ .platform) (hf : c.kind ≠ .final) (p : Params) (now exp : Int) : c.follow p now exp = c := by
  unfold Cue.follow
  split
  next h => exact absurd h hk
  next h => exact absurd h hf
  · rfl

/-- A trigger called for or not: it reaches its own place alone. -/
structure State.Tried (cond : Prop) (k : CueKind) (run : Nat) (zones : List Nat) (due : Int) (s t : State) : Prop where
  reached : cond → Triggered s.now k run zones due (s.cue? k run) (t.cue? k run)
  left : ¬cond → t.cue? k run = s.cue? k run
  other : ∀ kind, kind ≠ k → t.cue? kind run = s.cue? kind run
  roomy : t.Roomy run
  inForce : t.inForce = s.inForce
  now : t.now = s.now

theorem State.trigger_tried {cond : Prop} [Decidable cond] (h : s.Roomy run) (hk : k ≠ .cancel) (zones : List Nat) (due : Int) :
    State.Tried cond k run zones due s (if cond then s.trigger k run zones due else s) := by
  obtain ⟨hreached, hother⟩ := State.cue?_trigger zones due (h.room hk)
  split
  next hc =>
    exact ⟨fun _ => hreached, fun hn => absurd hc hn, hother, h.trigger hk zones due,
      State.inForce_of_sources (State.trigger_sources ..), State.now_of_sources (State.trigger_sources ..)⟩
  next hc => exact ⟨fun hy => absurd hy hc, fun _ => rfl, fun _ _ => rfl, h, rfl, rfl⟩

theorem State.handoverFinal_tried (h : s.Roomy e.run) (old : Option Entry) :
    State.Tried
      (enteredBoarding old e = true ∨
        (e.state = .boarding ∧ old.bind (·.displayed) ≠ e.displayed ∧ e.displayed.isSome = true ∧
          (s.cue? .final e.run).isSome = true))
      .final e.run e.displayed.toList (e.exp - s.inForce.finalLead) s (s.handoverFinal old e) := by
  have hform : s.handoverFinal old e =
      if enteredBoarding old e = true ∨
          (e.state = .boarding ∧ old.bind (·.displayed) ≠ e.displayed ∧ e.displayed.isSome = true ∧
            (s.cue? .final e.run).isSome = true) then
        s.trigger .final e.run e.displayed.toList (e.exp - s.inForce.finalLead)
      else s := by
    unfold State.handoverFinal
    by_cases hentered : enteredBoarding old e = true
    · rw [if_pos hentered, if_pos (.inl hentered)]
      rfl
    · rw [if_neg hentered]
      exact if_congr (or_iff_right hentered).symm rfl rfl
  rw [hform]
  exact State.trigger_tried h (by decide) ..

theorem State.cueHandover_handed (h : s.Roomy e.run) (old : Option Entry) : s.Handed (s.cueHandover old e) old e := by
  have hplaces := State.handoverPlaces_cue h old
  have hin : (s.handoverPlaces old e).inForce = s.inForce := rfl
  have hnow : (s.handoverPlaces old e).now = s.now := rfl
  have hroomy := State.handoverPlaces_roomy h old
  have hp := State.trigger_tried (cond := e.wantsPlatformCue = true) hroomy (k := .platform) (by decide)
    (e.cueZones none .platform) (e.exp - (s.handoverPlaces old e).inForce.platformLead)
  obtain ⟨a, ha⟩ : ∃ a, a = if e.wantsPlatformCue = true then
      (s.handoverPlaces old e).trigger .platform e.run (e.cueZones none .platform)
        (e.exp - (s.handoverPlaces old e).inForce.platformLead) else s.handoverPlaces old e := ⟨_, rfl⟩
  rw [← ha] at hp
  have hd := State.trigger_tried (cond := a.inForce.wantsDelayCue e = true) hp.roomy (k := .delay) (by decide)
    (e.cueZones none .delay) a.now
  obtain ⟨b, hb⟩ : ∃ b, b = if a.inForce.wantsDelayCue e = true then
      a.trigger .delay e.run (e.cueZones none .delay) a.now else a := ⟨_, rfl⟩
  rw [← hb] at hd
  have hf := State.handoverFinal_tried hd.roomy old
  have ht : s.cueHandover old e = b.handoverFinal old e := by
    rw [hb, ha]
    rfl
  rw [← ht] at hf
  have hfplace : b.cue? .final e.run = e.placed s.inForce s.now old .final (s.cue? .final e.run) := by
    rw [hd.other .final (by decide), hp.other .final (by decide), hplaces]
  have hdplace : a.cue? .delay e.run = e.placed s.inForce s.now old .delay (s.cue? .delay e.run) := by
    rw [hp.other .delay (by decide), hplaces]
  have hanow : a.now = s.now := hp.now.trans hnow
  have hain : a.inForce = s.inForce := hp.inForce.trans hin
  have hbnow : b.now = s.now := hd.now.trans hanow
  have hbin : b.inForce = s.inForce := hd.inForce.trans hain
  refine ⟨⟨fun hw => ?_, fun hw => ?_⟩, ⟨fun hw => ?_, fun hw => ?_⟩, ⟨fun hw => ?_, fun hw => ⟨fun hs hne hsome hplaced => ?_, fun hnone => ?_⟩⟩,
    fun kind hkind => ?_, hf.roomy⟩
  · rw [hf.other .platform (by decide), hd.other .platform (by decide)]
    have := hp.reached hw
    rwa [hplaces] at this
  · rw [hf.other .platform (by decide), hd.other .platform (by decide), hp.left (by simp [hw]), hplaces]
  · rw [hf.other .delay (by decide)]
    have := hd.reached (by rw [hain]; exact hw)
    rwa [hdplace, hanow] at this
  · rw [hf.other .delay (by decide), hd.left (by rw [hain]; simp [hw]), hdplace]
  · have := hf.reached (.inl hw)
    rwa [hfplace, hbnow, hbin] at this
  · have := hf.reached (.inr ⟨hs, hne, Option.isSome_iff_ne_none.2 hsome, by rw [hfplace]; exact hplaced⟩)
    rwa [hfplace, hbnow, hbin] at this
  · rw [hf.left ?_, hfplace]
    rintro (hyes | ⟨hs, hne, hsome, hplaced⟩)
    · exact absurd (hyes.symm.trans hw) nofun
    · rw [hfplace] at hplaced
      obtain hn | hn | hn | hn := hnone
      · exact hn hs
      · exact hne hn
      · simp [hn] at hsome
      · simp [hn] at hplaced
  · have hne : kind ≠ .platform ∧ kind ≠ .delay ∧ kind ≠ .final := by
      obtain rfl | rfl := hkind <;> decide
    rw [hf.other kind hne.2.2, hd.other kind hne.2.1, hp.other kind hne.1, hplaces, Entry.placed]
    have hstays : e.withdraws s.inForce old kind = false := by obtain rfl | rfl := hkind <;> rfl
    rw [hstays, if_neg nofun]
    refine (Option.map_congr (g := id) fun c hc => ?_).trans (congrFun Option.map_id _)
    obtain ⟨-, hck, -⟩ := State.cue?_some hc
    exact Cue.follow_other (hck ▸ hne.1) (hck ▸ hne.2.2) ..

end Sys2Proof.Machine
end

section
/-! PROOF. What one handover leaves of a place: reached, gone, or with a number it had (R87, R88, R90, R91). -/
namespace Sys2Proof.Machine

open Sys2Proof

variable {s t : State} {kind : CueKind} {run : Nat} {o o' : Option Cue} {c : Cue} {old : Option Entry} {e : Entry}
  {zones : List Nat} {due now : Int} {p : Params}

/-! ## Places -/

/-- The place holds no cue of its kind and run but a TAKEN one marked pending drop (R87). -/
def Gone (o : Option Cue) : Prop := ∀ c, o = some c → c.isTaken = true ∧ c.pendDrop = true

/-- The place holds a cue that its trigger has reached, WAITING only short of its due. -/
def ReachedAt (now : Int) (kind : CueKind) (run : Nat) (zones : List Nat) (due : Int) (o : Option Cue) : Prop :=
  ∃ c, o = some c ∧ c.Reached kind run zones ∧ (c.state = .waiting → c.due = due ∧ now < due)

/-- The cue in the place belongs there. -/
def OwnPlace (kind : CueKind) (run : Nat) (o : Option Cue) : Prop := ∀ c, o = some c → c.kind = kind ∧ c.run = run

/-- The cue in the place has one of these numbers, or its making was called for and it has not been given since. -/
def KnownBy (numbers : List Nat) (called : Prop) (o : Option Cue) : Prop :=
  ∀ c, o = some c → c.number ∈ numbers ∨ (called ∧ c.isTaken = false)

theorem gone_withdrawn (o : Option Cue) : Gone (withdrawn o) := by
  intro c hc
  obtain ⟨d, -, hd⟩ := Option.bind_eq_some_iff.1 hc
  split at hd
  next htaken =>
    cases hd
    exact ⟨htaken, rfl⟩
  · cases hd

theorem withdrawn_some (h : withdrawn o = some c) : ∃ d, o = some d ∧ d.isTaken = true ∧ c = { d with pendDrop := true } := by
  obtain ⟨d, ho, hd⟩ := Option.bind_eq_some_iff.1 h
  split at hd
  next htaken =>
    cases hd
    exact ⟨d, ho, htaken, rfl⟩
  · cases hd

theorem Gone.follow (h : Gone o) (p : Params) (now exp : Int) : Gone (o.map (Cue.follow p now exp)) := by
  intro c hc
  obtain ⟨d, hd, rfl⟩ := Option.map_eq_some_iff.1 hc
  have hsame := Cue.follow_sameBut p now exp d
  rw [hsame.isTaken, hsame.pendDrop]
  exact h d hd

theorem gone_placed (h : e.withdraws p old kind = true ∨ Gone o) : Gone (e.placed p now old kind o) := by
  refine Gone.follow (o := if e.withdraws p old kind then withdrawn o else o) ?_ p now e.exp
  split
  · exact gone_withdrawn o
  next hw => exact h.resolve_left hw

theorem OwnPlace.placed (h : OwnPlace kind run o) : OwnPlace kind run (e.placed p now old kind o) := by
  intro c hc
  obtain ⟨d, hd, rfl⟩ := Option.map_eq_some_iff.1 hc
  have hsame := Cue.follow_sameBut p now e.exp d
  rw [hsame.kind, hsame.run]
  split at hd
  · obtain ⟨b, hb, -, rfl⟩ := withdrawn_some hd
    exact h b hb
  · exact h d hd

theorem OwnPlace.cue? (s : State) (kind : CueKind) (run : Nat) : OwnPlace kind run (s.cue? kind run) :=
  fun _ hc => (State.cue?_some hc).2

theorem KnownBy.of_same {numbers : List Nat} {called : Prop} (h : KnownBy numbers called o)
    (hsame : ∀ c, o' = some c → ∃ d, o = some d ∧ c.number = d.number ∧ c.isTaken = d.isTaken) : KnownBy numbers called o' := by
  intro c hc
  obtain ⟨d, hd, hnum, htaken⟩ := hsame c hc
  rw [hnum, htaken]
  exact h d hd

theorem KnownBy.withdrawn {numbers : List Nat} {called : Prop} (h : KnownBy numbers called o) :
    KnownBy numbers called (withdrawn o) := by
  refine h.of_same fun c hc => ?_
  obtain ⟨d, hd, -, rfl⟩ := withdrawn_some hc
  exact ⟨d, hd, rfl, rfl⟩

theorem KnownBy.placed {numbers : List Nat} {called : Prop} (h : KnownBy numbers called o) :
    KnownBy numbers called (e.placed p now old kind o) := by
  refine KnownBy.of_same (o := if e.withdraws p old kind then Machine.withdrawn o else o) ?_ fun c hc => ?_
  · split
    · exact h.withdrawn
    · exact h
  · obtain ⟨d, hd, rfl⟩ := Option.map_eq_some_iff.1 hc
    exact ⟨d, hd, (Cue.follow_sameBut ..).number, (Cue.follow_sameBut ..).isTaken⟩

/-! ## A trigger at a place -/

theorem Cue.revise_reached (hkind : c.kind = kind) (hrun : c.run = run) (now : Int) (zones : List Nat) (due : Int) :
    (c.revise now zones due).Reached kind run zones ∧
      ((c.revise now zones due).state = .waiting → (c.revise now zones due).due = due ∧ now < due) := by
  obtain ⟨-, hk, hr, -⟩ := Cue.revise_fields now zones due c
  rw [Cue.Reached, hk, hr]
  unfold Cue.revise
  split
  next hstate =>
    simp only [Cue.test, hstate]
    split <;> simp_all [Cue.isTaken]
  next hstate => simp_all [Cue.isTaken]
  next hstate => simp_all [Cue.isTaken]

theorem newCue_reached (n : Nat) (kind : CueKind) (run : Nat) (zones : List Nat) (due now : Int) :
    (newCue n kind run zones due now).Reached kind run zones ∧
      ((newCue n kind run zones due now).state = .waiting →
        (newCue n kind run zones due now).due = due ∧ now < due) := by
  refine ⟨⟨rfl, rfl, fun h => absurd (h.symm.trans (newCue_isTaken ..)) nofun, fun _ _ => Iff.rfl⟩, fun h => ⟨rfl, ?_⟩⟩
  obtain ⟨-, -, -, -, hstate⟩ := newCue_fields n kind run zones due now
  rw [hstate] at h
  split at h
  · cases h
  · omega

theorem Triggered.reached (h : Triggered now kind run zones due o o') (ho : OwnPlace kind run o) :
    ReachedAt now kind run zones due o' := by
  obtain ⟨c, hc, rfl⟩ | ⟨-, n, rfl⟩ := h
  · exact ⟨_, rfl, Cue.revise_reached (ho c hc).1 (ho c hc).2 ..⟩
  · exact ⟨_, rfl, newCue_reached ..⟩

theorem KnownBy.triggered {numbers : List Nat} {called : Prop} (h : KnownBy numbers called o)
    (ht : Triggered now kind run zones due o o') (hcalled : o = none → called) : KnownBy numbers called o' := by
  obtain ⟨c, hc, rfl⟩ | ⟨hnone, n, rfl⟩ := ht
  · refine h.of_same fun d hd => ⟨c, hc, ?_⟩
    cases hd
    exact ⟨(Cue.revise_fields ..).1, (Cue.revise_spoken ..).1⟩
  · intro d hd
    cases hd
    exact .inr ⟨hcalled hnone, newCue_isTaken ..⟩

theorem Cue.follow_final_due (hkind : c.kind = .final) (h : (c.follow p now e.exp).state = .waiting) :
    (c.follow p now e.exp).due = e.exp - p.finalLead ∧ now < e.exp - p.finalLead := by
  unfold Cue.follow at h ⊢
  split at h
  next hk => exact absurd (hkind.symm.trans hk) nofun
  next hstate _ =>
    simp only [Cue.test, hstate] at h ⊢
    split at h
    · cases h
    next hlt => exact ⟨by rw [if_neg hlt], by omega⟩
  next hnot => exact (hnot h hkind).elim

/-- A moved due leaves the FINAL cue reached, its due taken afresh (R95). -/
theorem ReachedAt.follow (h : ReachedAt now .final run zones due o) (p : Params) (e : Entry) :
    ReachedAt now .final run zones (e.exp - p.finalLead) (o.map (Cue.follow p now e.exp)) := by
  obtain ⟨c, rfl, ⟨hkind, hrun, htaken, hzones⟩, -⟩ := h
  have hsame := Cue.follow_sameBut p now e.exp c
  refine ⟨_, rfl, ⟨hsame.kind.trans hkind, hsame.run.trans hrun, ?_, ?_⟩, Cue.follow_final_due hkind⟩
  · rw [hsame.isTaken, hsame.pendRev, hsame.pendDrop]
    exact htaken
  · rw [hsame.isTaken, hsame.zones]
    exact hzones

end Sys2Proof.Machine
end

section
/-! PROOF. The handovers that a change of one entry makes in turn (R38, R86 to R91). -/
namespace Sys2Proof.Machine

open Sys2Proof

variable {s t u v v₁ v₂ : State} {kind : CueKind} {run : Nat} {o : Option Cue} {c : Cue} {old : Option Entry} {e x y b : Entry}
  {p : Params} {numbers : List Nat} {calls : CueKind → Prop} {cond : Prop}

/-! ## What one handover leaves -/

theorem State.Handed.platform_gone (h : s.Handed t old e) (hw : e.wantsPlatformCue = false)
    (hg : e.withdraws s.inForce old .platform = true ∨ Gone (s.cue? .platform e.run)) : Gone (t.cue? .platform e.run) := by
  rw [h.platform.2 hw]
  exact gone_placed hg

theorem State.Handed.delay_gone (h : s.Handed t old e) (hw : s.inForce.wantsDelayCue e = false)
    (hg : e.withdraws s.inForce old .delay = true ∨ Gone (s.cue? .delay e.run)) : Gone (t.cue? .delay e.run) := by
  rw [h.delay.2 hw]
  exact gone_placed hg

/-- A handover without a trigger of the FINAL cue (R91). -/
theorem State.Handed.final_left (h : s.Handed t old e) (hentered : enteredBoarding old e = false)
    (hquiet : e.state ≠ .boarding ∨ old.bind (·.displayed) = e.displayed) :
    t.cue? .final e.run = e.placed s.inForce s.now old .final (s.cue? .final e.run) :=
  (h.final.2 hentered).2 (by rw [← or_assoc]; exact .inl hquiet)

theorem State.Handed.platform_reached (h : s.Handed t old e) (hw : e.wantsPlatformCue = true) :
    ReachedAt s.now .platform e.run (0 :: e.displayed.toList) (e.exp - s.inForce.platformLead) (t.cue? .platform e.run) :=
  (h.platform.1 hw).reached (OwnPlace.cue? _ _ _).placed

theorem State.Handed.delay_reached (h : s.Handed t old e) (hw : s.inForce.wantsDelayCue e = true) :
    ReachedAt s.now .delay e.run (0 :: e.displayed.toList) s.now (t.cue? .delay e.run) :=
  (h.delay.1 hw).reached (OwnPlace.cue? _ _ _).placed

theorem State.Handed.final_reached (h : s.Handed t old e) (hw : enteredBoarding old e = true) :
    ReachedAt s.now .final e.run e.displayed.toList (e.exp - s.inForce.finalLead) (t.cue? .final e.run) :=
  (h.final.1 hw).reached (OwnPlace.cue? _ _ _).placed

theorem State.Handed.final_moved (h : s.Handed t old e) (hentered : enteredBoarding old e = false) (hstate : e.state = .boarding)
    (hchanged : old.bind (·.displayed) ≠ e.displayed) (hsome : e.displayed ≠ none) :
    t.cue? .final e.run = none ∨
      ReachedAt s.now .final e.run e.displayed.toList (e.exp - s.inForce.finalLead) (t.cue? .final e.run) := by
  cases hplace : e.placed s.inForce s.now old .final (s.cue? .final e.run) with
  | none => exact .inl (((h.final.2 hentered).2 (.inr (.inr (.inr hplace)))).trans hplace)
  | some c =>
    exact .inr (((h.final.2 hentered).1 hstate hchanged hsome (by simp [hplace])).reached (OwnPlace.cue? _ _ _).placed)

/-! ## Where the numbers of a run's cues come from -/

/-- The cues of the run leave room for one another, and each has one of the numbers or was called for since. -/
structure State.Numbered (numbers : List Nat) (calls : CueKind → Prop) (run : Nat) (t : State) : Prop where
  roomy : t.Roomy run
  known : ∀ kind, KnownBy numbers (calls kind) (t.cue? kind run)

theorem State.cue?_of_cues (h : t.cues = s.cues) (kind : CueKind) (run : Nat) : t.cue? kind run = s.cue? kind run := by
  simp only [State.cue?, h]

theorem State.Numbered.of_cues (h : s.Numbered numbers calls run) (hcues : t.cues = s.cues) : t.Numbered numbers calls run :=
  ⟨h.roomy.of_cues hcues, fun kind => by rw [State.cue?_of_cues hcues]; exact h.known kind⟩

theorem State.Numbered.of_room (h : s.CuesOk) (hroom : s.cues.list.length ≤ 28) (calls : CueKind → Prop) (run : Nat) :
    s.Numbered (s.cues.list.map (·.number)) calls run :=
  ⟨.of_room h hroom run, fun _ _ hc => .inl (List.mem_map_of_mem (State.cue?_some hc).1)⟩

theorem State.Numbered.withdrawWhere (h : s.Numbered numbers calls run) (q : Cue → Bool) :
    (s.withdrawWhere q).Numbered numbers calls run := by
  refine ⟨h.roomy.withdrawWhere q, fun kind => ?_⟩
  rw [State.cue?_withdrawWhere h.roomy.cuesOk]
  cases hc : s.cue? kind run with
  | none => exact fun _ hd => nomatch hd
  | some c =>
    have hknown := h.known kind
    rw [hc] at hknown
    rw [Option.bind_some]
    split
    · exact hknown.withdrawn
    · exact hknown

theorem State.Numbered.trigger (h : s.Numbered numbers calls run) (hk : kind ≠ .cancel) (hcalls : calls kind)
    (zones : List Nat) (due : Int) : (s.trigger kind run zones due).Numbered numbers calls run := by
  obtain ⟨hreached, hother⟩ := State.cue?_trigger zones due (h.roomy.room hk)
  refine ⟨h.roomy.trigger hk zones due, fun k => ?_⟩
  by_cases hkind : k = kind
  · rw [hkind]
    exact (h.known kind).triggered hreached fun _ => hcalls
  · rw [hother k hkind]
    exact h.known k

theorem State.Numbered.handed (h : s.Numbered numbers calls e.run) (hand : s.Handed t old e)
    (hp : e.wantsPlatformCue = true → calls .platform) (hd : s.inForce.wantsDelayCue e = true → calls .delay)
    (hf : enteredBoarding old e = true → calls .final) : t.Numbered numbers calls e.run := by
  refine ⟨hand.roomy, fun kind => ?_⟩
  have hplaced : KnownBy numbers (calls kind) (e.placed s.inForce s.now old kind (s.cue? kind e.run)) := (h.known kind).placed
  cases kind with
  | platform =>
    by_cases hw : e.wantsPlatformCue = true
    · exact hplaced.triggered (hand.platform.1 hw) fun _ => hp hw
    · rwa [hand.platform.2 (by simpa using hw)]
  | delay =>
    by_cases hw : s.inForce.wantsDelayCue e = true
    · exact hplaced.triggered (hand.delay.1 hw) fun _ => hd hw
    · rwa [hand.delay.2 (by simpa using hw)]
  | final =>
    by_cases hw : enteredBoarding old e = true
    · exact hplaced.triggered (hand.final.1 hw) fun _ => hf hw
    · have hno : enteredBoarding old e = false := by simpa using hw
      cases hplace : e.placed s.inForce s.now old .final (s.cue? .final e.run) with
      | none =>
        rw [(hand.final.2 hno).2 (.inr (.inr (.inr hplace)))]
        exact hplaced
      | some c =>
        by_cases hmoves : e.state = .boarding ∧ old.bind (·.displayed) ≠ e.displayed ∧ e.displayed ≠ none
        · obtain ⟨hs, hne, hsome⟩ := hmoves
          refine hplaced.triggered ((hand.final.2 hno).1 hs hne hsome (by simp [hplace])) fun hnone => ?_
          rw [hplace] at hnone
          cases hnone
        · rw [(hand.final.2 hno).2 (by
            by_cases hs : e.state = .boarding
            · by_cases hne : old.bind (·.displayed) = e.displayed
              · exact .inr (.inl hne)
              · exact .inr (.inr (.inl (by simpa [hs, hne] using hmoves)))
            · exact .inl hs)]
          exact hplaced
  | change =>
    rw [hand.kept .change (.inl rfl)]
    exact h.known .change
  | cancel =>
    rw [hand.kept .cancel (.inr rfl)]
    exact h.known .cancel

/-! ## The handovers of one change in turn -/

/-- A handover made where the condition holds. -/
structure State.HandedIf (cond : Prop) (s t : State) (old : Option Entry) (e : Entry) : Prop where
  made : cond → s.Handed t old e
  left : ¬cond → t = s
  roomy : t.Roomy e.run
  inForce : t.inForce = s.inForce
  now : t.now = s.now

theorem State.cueHandover_if [Decidable cond] (h : s.Roomy e.run) (old : Option Entry) :
    State.HandedIf cond s (if cond then s.cueHandover old e else s) old e := by
  have hand := State.cueHandover_handed h old
  split
  next hc =>
    exact ⟨fun _ => hand, fun hn => absurd hc hn, hand.roomy, State.inForce_of_sources (State.cueHandover_sources ..),
      State.now_of_sources (State.cueHandover_sources ..)⟩
  next hc => exact ⟨fun hy => absurd hy hc, fun _ => rfl, h, rfl, rfl⟩

/-- The three handovers of a change from the entry `b` to the entry `y`: of the displayed platform with the state as it
was, of the state, and of Dd and A (R38, R86). -/
structure State.Handovers (b y : Entry) (v v₁ v₂ t : State) : Prop where
  platform : State.HandedIf (b.displayed ≠ y.displayed) v v₁ (some b) { y with state := b.state }
  state : State.HandedIf (b.state ≠ y.state) v₁ v₂ (some { y with state := b.state }) y
  delay : State.HandedIf (¬(b.dd = y.dd ∧ b.exp = y.exp)) v₂ t (some y) y

theorem State.Handovers.inForce (h : State.Handovers b y v v₁ v₂ t) :
    v₁.inForce = v.inForce ∧ v₂.inForce = v.inForce ∧ t.inForce = v.inForce :=
  ⟨h.platform.inForce, h.state.inForce.trans h.platform.inForce,
    h.delay.inForce.trans (h.state.inForce.trans h.platform.inForce)⟩

theorem State.Handovers.now (h : State.Handovers b y v v₁ v₂ t) : v₁.now = v.now ∧ v₂.now = v.now ∧ t.now = v.now :=
  ⟨h.platform.now, h.state.now.trans h.platform.now, h.delay.now.trans (h.state.now.trans h.platform.now)⟩

/-- The last handover made hands the entry over as it then stands. -/
theorem State.Handovers.last (h : State.Handovers b y v v₁ v₂ t)
    (hchanged : b.state ≠ y.state ∨ b.displayed ≠ y.displayed ∨ ¬(b.dd = y.dd ∧ b.exp = y.exp)) :
    ∃ (u : State) (old : Option Entry), u.Handed t old y ∧ u.now = t.now ∧ u.inForce = t.inForce := by
  by_cases hdelay : ¬(b.dd = y.dd ∧ b.exp = y.exp)
  · exact ⟨v₂, some y, h.delay.made hdelay, h.delay.now.symm, h.delay.inForce.symm⟩
  · rw [h.delay.left hdelay]
    by_cases hstate : b.state ≠ y.state
    · exact ⟨v₁, _, h.state.made hstate, h.state.now.symm, h.state.inForce.symm⟩
    · rw [h.state.left hstate]
      have hmade := h.platform.made (by simpa [hstate, hdelay] using hchanged)
      have hy : ({ y with state := b.state } : Entry) = y := by rw [not_not.1 hstate]
      rw [hy] at hmade
      exact ⟨v, _, hmade, h.platform.now.symm, h.platform.inForce.symm⟩

theorem enteredBoarding_self (e : Entry) : enteredBoarding (some e) e = false := by simp [enteredBoarding]

theorem Entry.wantsPlatformCue_eq_false (h : e.displayed = none ∨ e.awaiting = false) : e.wantsPlatformCue = false := by
  obtain h | h := h <;> simp [Entry.wantsPlatformCue, h]

theorem Entry.awaiting_eq_false (h : e.state = .closed ∨ e.state = .cancelled ∨ e.state = .departed) : e.awaiting = false := by
  obtain h | h | h := h <;> simp [Entry.awaiting, h]

/-- The entry calls for the cue of a kind in the state it has or in the one it had. -/
def Entry.callsSince (p : Params) (y b : Entry) : CueKind → Prop
  | .platform => y.displayed ≠ none ∧ y.announced = none ∧ (y.awaiting = true ∨ b.awaiting = true)
  | .delay => p.delayThreshold ≤ y.dd ∧ y.lastDelay + p.delayStep ≤ y.dd ∧ (y.awaiting = true ∨ b.awaiting = true)
  | .final => y.state = .boarding ∧ b.state ≠ .boarding
  | _ => True

theorem Entry.callsSince_platform (h : x.wantsPlatformCue = true) (hdisplayed : x.displayed = y.displayed)
    (hannounced : x.announced = y.announced) (hstate : x.state = y.state ∨ x.state = b.state) :
    y.callsSince p b .platform := by
  simp only [Entry.wantsPlatformCue, Bool.and_eq_true, Option.isSome_iff_ne_none, Option.isNone_iff_eq_none] at h
  obtain ⟨⟨⟨hd, ha⟩, hn⟩, -⟩ := h
  refine ⟨hdisplayed ▸ hd, hannounced ▸ hn, ?_⟩
  simp only [Entry.awaiting] at ha ⊢
  obtain hs | hs := hstate
  · exact .inl (hs ▸ ha)
  · exact .inr (hs ▸ ha)

theorem Entry.callsSince_delay (h : p.wantsDelayCue x = true) (hdd : x.dd = y.dd) (hlast : x.lastDelay = y.lastDelay)
    (hstate : x.state = y.state ∨ x.state = b.state) : y.callsSince p b .delay := by
  simp only [Params.wantsDelayCue, Bool.and_eq_true, decide_eq_true_eq] at h
  obtain ⟨⟨ha, ht⟩, hs⟩ := h
  refine ⟨hdd ▸ ht, hdd ▸ hlast ▸ hs, ?_⟩
  simp only [Entry.awaiting] at ha ⊢
  obtain hs | hs := hstate
  · exact .inl (hs ▸ ha)
  · exact .inr (hs ▸ ha)

theorem State.Handovers.numbered (h : State.Handovers b y v v₁ v₂ t) (hv : v.Numbered numbers (y.callsSince v.inForce b) y.run) :
    t.Numbered numbers (y.callsSince v.inForce b) y.run := by
  have hfirst : v₁.Numbered numbers (y.callsSince v.inForce b) y.run := by
    by_cases hc : b.displayed ≠ y.displayed
    · refine State.Numbered.handed (e := { y with state := b.state }) hv (h.platform.made hc) (fun hw => ?_) (fun hw => ?_) fun hw => ?_
      · exact Entry.callsSince_platform hw rfl rfl (.inr rfl)
      · exact Entry.callsSince_delay hw rfl rfl (.inr rfl)
      · simp [enteredBoarding] at hw
    · rwa [h.platform.left hc]
  have hsecond : v₂.Numbered numbers (y.callsSince v.inForce b) y.run := by
    by_cases hc : b.state ≠ y.state
    · refine hfirst.handed (h.state.made hc) (fun hw => ?_) (fun hw => ?_) fun hw => ?_
      · exact Entry.callsSince_platform hw rfl rfl (.inl rfl)
      · rw [h.inForce.1] at hw
        exact Entry.callsSince_delay hw rfl rfl (.inl rfl)
      · simpa [Entry.callsSince, enteredBoarding, and_comm] using hw
    · rwa [h.state.left hc]
  by_cases hc : ¬(b.dd = y.dd ∧ b.exp = y.exp)
  · refine hsecond.handed (h.delay.made hc) (fun hw => ?_) (fun hw => ?_) fun hw => ?_
    · exact Entry.callsSince_platform hw rfl rfl (.inl rfl)
    · rw [h.inForce.2.1] at hw
      exact Entry.callsSince_delay hw rfl rfl (.inl rfl)
    · rw [enteredBoarding_self] at hw
      cases hw
  · rwa [h.delay.left hc]

end Sys2Proof.Machine
end

section
/-! PROOF. The cues follow a change of one entry (R38, R86 to R91). -/
namespace Sys2Proof.Machine

open Sys2Proof

variable {s t u v v₁ v₂ w : State} {kind : CueKind} {run : Nat} {c : Cue} {old : Option Entry} {e x y b : Entry}
  {p : Params} {numbers : List Nat} {cond : Prop}

/-! ## A handover that is made only where something changed -/

theorem State.HandedIf.platform_gone (h : State.HandedIf cond s t old e) (hw : e.wantsPlatformCue = false)
    (hg : (cond ∧ e.withdraws s.inForce old .platform = true) ∨ Gone (s.cue? .platform e.run)) : Gone (t.cue? .platform e.run) := by
  by_cases hc : cond
  · exact (h.made hc).platform_gone hw (hg.imp_left (·.2))
  · rw [h.left hc]
    exact hg.resolve_left fun hn => hc hn.1

theorem State.HandedIf.final_gone (h : State.HandedIf cond s t old e) (hentered : enteredBoarding old e = false)
    (hquiet : e.state ≠ .boarding ∨ old.bind (·.displayed) = e.displayed)
    (hg : (cond ∧ e.withdraws s.inForce old .final = true) ∨ Gone (s.cue? .final e.run)) : Gone (t.cue? .final e.run) := by
  by_cases hc : cond
  · rw [(h.made hc).final_left hentered hquiet]
    exact gone_placed (hg.imp_left (·.2))
  · rw [h.left hc]
    exact hg.resolve_left fun hn => hc hn.1

theorem Entry.withdraws_final_self (h : e.state = .boarding) (p : Params) : e.withdraws p (some e) .final = false := by
  simp [Entry.withdraws, leftService, h]

/-! ## What the handovers leave -/

/-- The places of a run after the handovers of a change from `b` to `y`. -/
structure State.Followed (numbers : List Nat) (b y : Entry) (t : State) : Prop where
  platform_made : y.wantsPlatformCue = true →
    ReachedAt t.now .platform y.run (0 :: y.displayed.toList) (y.exp - t.inForce.platformLead) (t.cue? .platform y.run)
  platform_gone : (b.displayed ≠ none ∧ y.displayed = none) ∨ leftFrom (some b) y → Gone (t.cue? .platform y.run)
  delay_made : t.inForce.wantsDelayCue y = true →
    ReachedAt t.now .delay y.run (0 :: y.displayed.toList) t.now (t.cue? .delay y.run)
  delay_gone : y.dd < t.inForce.delayThreshold ∨ y.awaiting = false → Gone (t.cue? .delay y.run)
  final_made : b.state ≠ .boarding → y.state = .boarding →
    ReachedAt t.now .final y.run y.displayed.toList (y.exp - t.inForce.finalLead) (t.cue? .final y.run)
  final_moved : b.state = .boarding → y.state = .boarding → b.displayed ≠ y.displayed →
    t.cue? .final y.run = none ∨
      ReachedAt t.now .final y.run y.displayed.toList (y.exp - t.inForce.finalLead) (t.cue? .final y.run)
  final_gone : leftFrom (some b) y ∨ (b.state = .boarding ∧ y.state = .listed) → Gone (t.cue? .final y.run)
  numbered : t.Numbered numbers (y.callsSince t.inForce b) y.run

theorem State.Handovers.platform_gone (h : State.Handovers b y v v₁ v₂ t)
    (hg : (b.displayed ≠ none ∧ y.displayed = none) ∨ leftFrom (some b) y) : Gone (t.cue? .platform y.run) := by
  have hquiet : y.wantsPlatformCue = false :=
    Entry.wantsPlatformCue_eq_false (hg.imp (·.2) fun hl => Entry.awaiting_eq_false hl.2)
  refine h.delay.platform_gone hquiet (.inr (h.state.platform_gone hquiet ?_))
  obtain ⟨hsome, hnone⟩ | ⟨hstate, hleft⟩ := hg
  · refine .inr ?_
    refine State.HandedIf.platform_gone (e := { y with state := b.state }) h.platform
      (Entry.wantsPlatformCue_eq_false (.inl hnone)) (.inl ⟨fun heq => hsome (heq.trans hnone), ?_⟩)
    have hblank : ({ y with state := b.state } : Entry).displayed = none := hnone
    simp [Entry.withdraws, hblank, Option.isSome_iff_ne_none, hsome]
  · have hne : b.state ≠ y.state := by simpa using hstate
    refine .inl ⟨hne, ?_⟩
    simp only [Entry.withdraws, leftService, Bool.or_eq_true, Bool.and_eq_true]
    exact .inr ⟨by simpa using hne, by simpa [or_assoc] using hleft⟩

/-- After the handover of the state, what comes after moves only the FINAL cue's due (R91, R95). -/
theorem State.Handovers.final_after (h : State.Handovers b y v v₁ v₂ t) {due : Int}
    (hr : v₂.cue? .final y.run = none ∨ ReachedAt v.now .final y.run y.displayed.toList due (v₂.cue? .final y.run))
    (hstate : y.state = .boarding) (hdue : b.exp = y.exp → due = y.exp - v.inForce.finalLead) :
    (v₂.cue? .final y.run = none ∧ t.cue? .final y.run = none) ∨
      ReachedAt v.now .final y.run y.displayed.toList (y.exp - v.inForce.finalLead) (t.cue? .final y.run) := by
  by_cases hc : ¬(b.dd = y.dd ∧ b.exp = y.exp)
  · rw [(h.delay.made hc).final_left (enteredBoarding_self y) (.inr rfl), Entry.placed, Entry.withdraws_final_self hstate,
      if_neg nofun, h.inForce.2.1, h.now.2.1]
    exact hr.imp (fun hn => ⟨hn, by rw [hn]; rfl⟩) fun hr => hr.follow v.inForce y
  · rw [h.delay.left hc]
    have hexp : b.exp = y.exp := (not_not.1 hc).2
    rw [hdue hexp] at hr
    exact hr.imp_left fun hn => ⟨hn, hn⟩

theorem State.Handovers.final_made (h : State.Handovers b y v v₁ v₂ t) (hb : b.state ≠ .boarding) (hy : y.state = .boarding) :
    ReachedAt v.now .final y.run y.displayed.toList (y.exp - v.inForce.finalLead) (t.cue? .final y.run) := by
  have hreached := (h.state.made (by rw [hy]; exact hb)).final_reached (by simpa [enteredBoarding, hy] using hb)
  rw [h.now.1, h.inForce.1] at hreached
  obtain ⟨hnone, -⟩ | hr := h.final_after (.inr hreached) hy fun _ => rfl
  · obtain ⟨c, hc, -⟩ := hreached
    rw [hnone] at hc
    cases hc
  · exact hr

theorem State.Handovers.final_moved (h : State.Handovers b y v v₁ v₂ t) (hb : b.state = .boarding) (hy : y.state = .boarding)
    (hmoved : b.displayed ≠ y.displayed) (hsome : y.displayed ≠ none) :
    t.cue? .final y.run = none ∨
      ReachedAt v.now .final y.run y.displayed.toList (y.exp - v.inForce.finalLead) (t.cue? .final y.run) := by
  have hmade := h.platform.made hmoved
  have hsame : ({ y with state := b.state } : Entry) = y := by rw [hb, ← hy]
  rw [hsame] at hmade
  have hfirst := hmade.final_moved (by simp [enteredBoarding, hb]) hy hmoved hsome
  rw [← h.state.left (by rw [hb, hy]; exact not_not.2 rfl)] at hfirst
  exact (h.final_after hfirst hy fun _ => rfl).imp_left (·.2)

theorem State.Handovers.final_gone (h : State.Handovers b y v v₁ v₂ t)
    (hg : leftFrom (some b) y ∨ (b.state = .boarding ∧ y.state = .listed)) : Gone (t.cue? .final y.run) := by
  have hstate : b.state ≠ y.state ∧ y.state ≠ .boarding := by
    obtain ⟨hne, hleft⟩ | ⟨hb, hy⟩ := hg
    · refine ⟨by simpa using hne, fun hy => ?_⟩
      simp [hy] at hleft
    · simp [hb, hy]
  refine h.delay.final_gone (enteredBoarding_self y) (.inl hstate.2)
    (.inr (h.state.final_gone (by simp [enteredBoarding, hstate.2]) (.inl hstate.2) (.inl ⟨hstate.1, ?_⟩)))
  simp only [Entry.withdraws, leftService, Bool.or_eq_true, Bool.and_eq_true]
  obtain ⟨hne, hleft⟩ | ⟨hb, hy⟩ := hg
  · exact .inl ⟨by simpa using hstate.1, by simpa [or_assoc] using hleft⟩
  · exact .inr ⟨by simpa using hb, by simpa using hy⟩

theorem State.Handovers.followed (h : State.Handovers b y v v₁ v₂ t)
    (hv : v.Numbered numbers (y.callsSince v.inForce b) y.run)
    (hchanged : b.state ≠ y.state ∨ b.displayed ≠ y.displayed ∨ ¬(b.dd = y.dd ∧ b.exp = y.exp))
    (hboard : b.state = .boarding → y.state = .boarding → b.displayed ≠ y.displayed → y.displayed ≠ none) :
    t.Followed numbers b y := by
  obtain ⟨u, o, hand, hnow, hin⟩ := h.last hchanged
  obtain ⟨-, -, hvnow⟩ := h.now
  obtain ⟨-, -, hvin⟩ := h.inForce
  refine ⟨fun hw => ?_, h.platform_gone, fun hw => ?_, fun hg => ?_, fun hb hy => ?_, fun hb hy hne => ?_, h.final_gone, ?_⟩
  · rw [← hnow, ← hin]
    exact hand.platform_reached hw
  · rw [← hnow]
    exact hand.delay_reached (by rw [hin]; exact hw)
  · refine hand.delay_gone ?_ (.inl ?_)
    · rw [hin]
      obtain hdd | ha := hg
      · simp [Params.wantsDelayCue, Nat.not_le.2 hdd]
      · simp [Params.wantsDelayCue, ha]
    · rw [hin]
      simpa [Entry.withdraws] using hg
  · rw [hvnow, hvin]
    exact h.final_made hb hy
  · rw [hvnow, hvin]
    exact h.final_moved hb hy hne (hboard hb hy hne)
  · rw [hvin]
    exact h.numbered hv

/-! ## In the words of the statements -/

theorem Gone.withdrawn (h : Gone (t.cue? kind run)) (hok : t.CuesOk) : t.Withdrawn kind run :=
  fun c hc hkind hrun => h c (hok.cue?_iff.2 ⟨hc, hkind, hrun⟩)

theorem State.Followed.fresh (h : t.Followed numbers b y) (hret : y.state ≠ .retiring) (hc : c ∈ t.cues.list)
    (hrun : c.run = y.run) (hnew : c.number ∉ numbers) :
    (c.kind = .platform → y.CallsPlatform) ∧ (c.kind = .delay → y.CallsDelay t.inForce) ∧
      (c.kind = .final → y.state = .boarding ∧ b.state ≠ .boarding) := by
  have hok := h.numbered.roomy.cuesOk
  have hplace : t.cue? c.kind y.run = some c := hok.cue?_iff.2 ⟨hc, rfl, hrun⟩
  obtain hold | ⟨hcalls, htaken⟩ := h.numbered.known c.kind c hplace
  · exact absurd hold hnew
  have hleft (ha : y.awaiting = true ∨ b.awaiting = true) (hy : y.awaiting ≠ true) : leftFrom (some b) y := by
    have hb := ha.resolve_left hy
    simp only [Entry.awaiting] at hb hy
    refine ⟨fun heq => hy ?_, ?_⟩
    · rw [← Option.some.inj heq]
      exact hb
    · cases hstate : y.state <;> simp_all
  refine ⟨fun hk => ?_, fun hk => ?_, fun hk => ?_⟩
  · rw [hk] at hcalls hplace
    obtain ⟨hd, hann, ha⟩ := hcalls
    by_cases hy : y.awaiting = true
    · exact ⟨hd, hy, hann⟩
    · exact absurd (h.platform_gone (.inr (hleft ha hy)) c hplace).1 (by simp [htaken])
  · rw [hk] at hcalls hplace
    obtain ⟨ht, hs, -⟩ := hcalls
    by_cases hy : y.awaiting = true
    · exact ⟨hy, ht, hs⟩
    · exact absurd (h.delay_gone (.inr (by simpa using hy)) c hplace).1 (by simp [htaken])
  · rw [hk] at hcalls
    exact hcalls

/-- The cues of a state `w` that keeps those of `t`, and its entry `x` with the facts of `y`, have followed. -/
theorem State.Followed.follow (h : t.Followed (s.cues.list.map (·.number)) b y) (hret : y.state ≠ .retiring)
    (hcues : w.cues = t.cues) (hnow : w.now = t.now) (hin : w.inForce = t.inForce) (hfacts : x.facts = y.facts)
    (hrec : x.awaiting = true → s.openRecord? x.run = none → y.openRec = x.openRec) : s.CuesFollow w (some b) x := by
  have hok := h.numbered.roomy.cuesOk
  have hrun : x.run = y.run := (congrArg Entry.run hfacts :)
  have hstate : x.state = y.state := (congrArg Entry.state hfacts :)
  have hdisp : x.displayed = y.displayed := (congrArg Entry.displayed hfacts :)
  have hdd : x.dd = y.dd := (congrArg Entry.dd hfacts :)
  have hexp : x.exp = y.exp := (congrArg Entry.exp hfacts :)
  have hlast : x.lastDelay = y.lastDelay := (congrArg Entry.lastDelay hfacts :)
  have hann : x.announced = y.announced := (congrArg Entry.announced hfacts :)
  have haw : x.awaiting = y.awaiting := by simp only [Entry.awaiting, hstate]
  have hown : w.cue? = t.cue? := funext fun kind => funext fun run => State.cue?_of_cues hcues kind run
  have hmem {kind : CueKind} {zones : List Nat} {due : Int} (hr : ReachedAt t.now kind y.run zones due (t.cue? kind y.run)) :
      ∃ c ∈ w.cues.list, c.Reached kind y.run zones ∧ (c.state = .waiting → c.due = due ∧ t.now < c.due) := by
    obtain ⟨c, hc, hreached, hw⟩ := hr
    rw [hcues]
    exact ⟨c, (State.cue?_some hc).1, hreached, fun hs => ⟨(hw hs).1, by rw [(hw hs).1]; exact (hw hs).2⟩⟩
  have hgone {kind : CueKind} (hg : Gone (t.cue? kind y.run)) : w.Withdrawn kind y.run := by
    rw [State.Withdrawn, hcues]
    exact hg.withdrawn hok
  rw [State.CuesFollow, hnow, hin, hrun, hexp, hdd, hstate, hdisp]
  refine ⟨fun hcalls hopen hnone => ?_, fun hg => ?_, fun hcalls => ?_, fun hg => ?_, fun hb hy => ?_, fun hb hy hne c hc hk hr => ?_,
    fun hg => ?_, fun c hc hr hnew => ?_⟩
  · obtain ⟨hd, ha, hn⟩ := hcalls
    refine hmem (h.platform_made ?_)
    rw [← hrec ha (hrun ▸ hnone)] at hopen
    simp [Entry.wantsPlatformCue, Option.isSome_iff_ne_none, ← hdisp, hd, ← haw, ha, ← hann, hn, hopen]
  · exact hgone (h.platform_gone (by simpa [leftFrom, hstate] using hg))
  · obtain ⟨ha, ht, hs⟩ := hcalls
    obtain ⟨c, hc, hreached, hw⟩ := hmem (h.delay_made (by
      rw [Params.wantsDelayCue, ← haw, ← hdd, ← hlast]
      simp [ha, ht, hs]))
    exact ⟨c, hc, hreached, fun hs => by have := hw hs; omega⟩
  · exact hgone (h.delay_gone (haw ▸ hg))
  · exact hmem (h.final_made (by simpa using hb) hy)
  · rw [hcues] at hc
    have hplace := hok.cue?_iff.2 ⟨hc, hk, hr⟩
    obtain hnone | ⟨d, hd, hreached, -⟩ := h.final_moved (by simpa using hb) hy (by simpa using hne)
    · rw [hnone] at hplace
      cases hplace
    · rw [hplace] at hd
      cases hd
      exact hreached
  · exact hgone (h.final_gone (by simpa [leftFrom, hstate] using hg))
  · rw [hcues] at hc
    obtain ⟨hp, hd, hf⟩ := h.fresh hret hc hr fun hold => by
      obtain ⟨d, hd, hnum⟩ := List.mem_map.1 hold
      exact hnew d hd hnum
    refine ⟨fun hk => ?_, fun hk => ?_, fun hk => ?_⟩
    · rw [Entry.CallsPlatform, hdisp, haw, hann]
      exact hp hk
    · rw [Entry.CallsDelay, haw, hlast, hdd]
      exact hd hk
    · simpa using hf hk

end Sys2Proof.Machine
end

section
/-! PROOF. A change of one entry makes its handovers in turn, and the cues follow (R38, R61, R86). -/
namespace Sys2Proof.Machine

open Sys2Proof

variable {s t u v v₁ v₂ w : State} {kind : CueKind} {run : Nat} {e x y b old new : Entry}
  {p : Params} {numbers : List Nat} {calls : CueKind → Prop}

/-! ## What a change of platform does to the places of the run -/

theorem State.Numbered.voidRecord (h : s.Numbered numbers calls run) : (s.voidRecord run).Numbered numbers calls run := by
  cases hopen : s.openRecord? run with
  | none => rwa [State.voidRecord_of_none hopen]
  | some r => exact (h.withdrawWhere _).of_cues (State.voidRecord_of_open (by rw [hopen]; rfl)).2.2

theorem State.Numbered.openRecord (h : s.Numbered numbers calls run) (hchange : calls .change) (src dst : Nat) (r : Count16) :
    (s.openRecord run src dst r).1.Numbered numbers calls run := by
  cases hslot : (s.supersede run).tracker.takeSlot with
  | none =>
    rw [State.openRecord_untracked hslot]
    exact h.of_cues (by rw [State.post_cues, State.supersede]; rfl)
  | some slot =>
    obtain ⟨n, k⟩ := slot
    rw [State.openRecord_tracked hslot]
    have hentered : (s.enterRecord (s.newRecord run src dst n r) n k).Numbered numbers calls run := h.of_cues rfl
    have hcalled := hentered.trigger (kind := .change) (by decide) hchange [0, src, dst]
      (s.enterRecord (s.newRecord run src dst n r) n k).now
    refine State.Numbered.of_cues (s := State.withdraw .platform run (State.updRecords _ _ _)) ?_ rfl
    refine State.Numbered.withdrawWhere (State.Numbered.of_cues hcalled ?_) _
    rfl

theorem State.standing_of_entry (h : s.entry? e.run = some y) (st : EntryState) : s.standing e st = { y with state := st } := by
  rw [State.standing, h]
  rfl

theorem State.Numbered.handStanding (h : s.Numbered numbers (y.callsSince s.inForce b) e.run)
    (hentry : (s.entry? e.run).map Entry.facts = some y.facts) : (s.handStanding e b.state).Numbered numbers (y.callsSince s.inForce b) e.run := by
  obtain ⟨z, hz, hfacts⟩ := Option.map_eq_some_iff.1 hentry
  rw [State.handStanding, State.standing_of_entry hz]
  have hrun : z.run = e.run := entryIn_run hz
  rw [← hrun] at h ⊢
  refine State.Numbered.handed (e := { z with state := b.state }) h (State.cueHandover_handed (e := { z with state := b.state }) h.roomy _) (fun hw => ?_)
    (fun hw => ?_) fun hw => ?_
  · exact Entry.callsSince_platform hw (congrArg Entry.displayed hfacts :) (congrArg Entry.announced hfacts :) (.inr rfl)
  · exact Entry.callsSince_delay hw (congrArg Entry.dd hfacts :) (congrArg Entry.lastDelay hfacts :) (.inr rfl)
  · rw [enteredBoarding_self] at hw
    cases hw

theorem State.Numbered.platformChanged (h : s.Numbered numbers (y.callsSince s.inForce b) e.run)
    (hentry : (s.entry? e.run).map Entry.facts = some y.facts) (out : Option Nat) :
    (s.platformChanged e b.state out).1.Numbered numbers (y.callsSince s.inForce b) e.run := by
  unfold State.platformChanged
  split
  · split
    · have hin : (s.voidRecord e.run).inForce = s.inForce := State.inForce_of_sources (State.voidRecord_sources ..)
      rw [← hin]
      refine State.Numbered.handStanding (by rw [hin]; exact h.voidRecord) ?_
      rw [State.entry_facts_of_facts (State.voidRecord_facts ..), hentry]
    · exact h
  · split
    next src dst z _ _ _ =>
      have hin : (s.openRecord e.run src dst z.rev).1.inForce = s.inForce := State.inForce_of_sources (State.openRecord_sources ..)
      rw [← hin]
      refine State.Numbered.handStanding (by rw [hin]; exact h.openRecord trivial ..) ?_
      rw [State.entry_facts_of_facts (State.openRecord_facts ..), hentry]
    · exact h
  · exact h

/-! ## The handovers of a change -/

/-- The state before the first handover of a change. -/
def State.changed (old e : Entry) (s : State) : State :=
  if old.displayed = e.displayed then s.putEntry old e
  else ((s.putEntry old e).platformChanged e old.state old.displayed).1

theorem State.changed_sources (old e : Entry) (s : State) : (s.changed old e).sources = s.sources := by
  unfold State.changed
  split
  · exact State.putEntry_sources ..
  · rw [State.platformChanged_sources, State.putEntry_sources]

theorem State.changed_facts (old e : Entry) (s : State) : (s.changed old e).facts = (s.putEntry old e).facts := by
  unfold State.changed
  split
  · rfl
  · exact State.platformChanged_facts ..

theorem State.Numbered.changed (h : s.Numbered numbers (e.callsSince s.inForce old) e.run) (hrun : e.run = old.run)
    (hnodup : (s.table.entries.map (·.run)).Nodup) (hold : s.entry? old.run = some old) :
    (s.changed old e).Numbered numbers (e.callsSince s.inForce old) e.run := by
  have hput : (s.putEntry old e).Numbered numbers (e.callsSince s.inForce old) e.run := h.of_cues (State.putEntry_blocks ..).2.1
  have hin : (s.putEntry old e).inForce = s.inForce := State.inForce_of_sources (State.putEntry_sources ..)
  unfold State.changed
  split
  · exact hput
  · rw [← hin] at hput ⊢
    refine hput.platformChanged ?_ _
    rw [State.putEntry_entry _ _ _ hrun hnodup, if_pos hrun, hrun, hold]
    rfl

/-- The handovers of a change, with the state before the first. -/
theorem State.changeEntry_eq (old new : Entry) (s : State) {y : Entry}
    (hy : (s.changed old (old.counted new)).entry? (old.counted new).run = some y) (hstate : y.state = (old.counted new).state)
    {v₁ v₂ : State}
    (h₁ : v₁ = if old.displayed = (old.counted new).displayed then s.changed old (old.counted new)
      else (s.changed old (old.counted new)).cueHandover (some old) { y with state := old.state })
    (h₂ : v₂ = if old.state = (old.counted new).state then v₁ else v₁.cueHandover (some { y with state := old.state }) y) :
    (s.changeEntry old new).1 =
      if old.dd = (old.counted new).dd ∧ old.exp = (old.counted new).exp then v₂ else v₂.cueHandover (some y) y := by
  have hsame : ({ y with state := (old.counted new).state } : Entry) = y := by rw [← hstate]
  have hfirst : (if old.displayed = (old.counted new).displayed then (s.putEntry old (old.counted new), false)
      else (s.putEntry old (old.counted new)).handPlatform old (old.counted new)).1 = v₁ := by
    rw [h₁]
    unfold State.changed at hy ⊢
    split
    · rfl
    next hne =>
      rw [if_neg hne] at hy
      rw [State.handPlatform, State.standing_of_entry hy]
  have hv₁ : v₁.entry? (old.counted new).run = some y := by
    rw [← hy, h₁]
    split
    · rfl
    · rw [State.entry?, State.cueHandover_table, ← State.entry?]
  have hsecond : (if old.state = (old.counted new).state then v₁
      else v₁.cueHandover (some (v₁.standing (old.counted new) old.state)) (v₁.standing (old.counted new) (old.counted new).state)) = v₂ := by
    rw [h₂, State.standing_of_entry hv₁, State.standing_of_entry hv₁, hsame]
  have hv₂ : v₂.entry? (old.counted new).run = some y := by
    rw [← hv₁, h₂]
    split
    · rfl
    · rw [State.entry?, State.cueHandover_table, ← State.entry?]
  have hthird : v₂.handStanding (old.counted new) (old.counted new).state = v₂.cueHandover (some y) y := by
    rw [State.handStanding, State.standing_of_entry hv₂, hsame]
  rw [← hthird, ← hsecond, ← hfirst]
  rfl

theorem Entry.counted_facts (old e : Entry) : (old.counted e).facts = e.facts := by
  unfold Entry.counted
  split <;> rfl

/-- A change of one entry, with room for what the entry calls for, makes its handovers in turn from a state in which every
cue of the run has its number from before, or was called for since (R38, R86). -/
theorem State.changeEntry_handovers (h : ∀ calls, s.Numbered numbers calls old.run)
    (hrun : new.run = old.run) (hnodup : (s.table.entries.map (·.run)).Nodup) (hold : s.entry? old.run = some old) :
    ∃ v v₁ v₂ y, State.Handovers old y v v₁ v₂ (s.changeEntry old new).1 ∧
      v.Numbered numbers (y.callsSince v.inForce old) y.run ∧
      (s.changeEntry old new).1.entry? old.run = some y ∧ y.facts = new.facts := by
  obtain ⟨e, he⟩ : ∃ e, old.counted new = e := ⟨_, rfl⟩
  have hefacts : e.facts = new.facts := he ▸ Entry.counted_facts old new
  have herun : e.run = old.run := (congrArg Entry.run hefacts :).trans hrun
  obtain ⟨v, hv⟩ : ∃ v, s.changed old e = v := ⟨_, rfl⟩
  have hentry : (v.entry? e.run).map Entry.facts = some e.facts := by
    rw [← hv, State.entry_facts_of_facts (State.changed_facts ..), State.putEntry_entry _ _ _ herun hnodup, if_pos herun, herun, hold]
    rfl
  obtain ⟨y, hy, hyfacts⟩ := Option.map_eq_some_iff.1 hentry
  have hyrun : y.run = e.run := entryIn_run hy
  have hstate : y.state = e.state := (congrArg Entry.state hyfacts :)
  have hdisp : y.displayed = e.displayed := (congrArg Entry.displayed hyfacts :)
  have hdd : y.dd = e.dd := (congrArg Entry.dd hyfacts :)
  have hexp : y.exp = e.exp := (congrArg Entry.exp hyfacts :)
  have hin : v.inForce = s.inForce := State.inForce_of_sources (hv ▸ State.changed_sources old e s)
  have hnumbered : v.Numbered numbers (y.callsSince v.inForce old) y.run := by
    have hcalls : y.callsSince v.inForce old = e.callsSince s.inForce old := by
      funext kind
      have hlast : y.lastDelay = e.lastDelay := (congrArg Entry.lastDelay hyfacts :)
      have hann : y.announced = e.announced := (congrArg Entry.announced hyfacts :)
      have haw : y.awaiting = e.awaiting := by simp only [Entry.awaiting, hstate]
      cases kind <;> simp only [Entry.callsSince, hin, hdisp, hdd, hstate, hlast, hann, haw]
    rw [hcalls, hyrun, ← hv]
    exact State.Numbered.changed (by rw [herun]; exact h _) herun hnodup hold
  have hfirst := State.cueHandover_if (cond := old.displayed ≠ y.displayed) (e := { y with state := old.state }) hnumbered.roomy (some old)
  obtain ⟨v₁, hv₁⟩ : ∃ v₁, v₁ = if old.displayed ≠ y.displayed then v.cueHandover (some old) { y with state := old.state } else v :=
    ⟨_, rfl⟩
  rw [← hv₁] at hfirst
  have hsecond := State.cueHandover_if (cond := old.state ≠ y.state) (e := y) hfirst.roomy (some { y with state := old.state })
  obtain ⟨v₂, hv₂⟩ : ∃ v₂, v₂ = if old.state ≠ y.state then v₁.cueHandover (some { y with state := old.state }) y else v₁ :=
    ⟨_, rfl⟩
  rw [← hv₂] at hsecond
  have hthird := State.cueHandover_if (cond := ¬(old.dd = y.dd ∧ old.exp = y.exp)) hsecond.roomy (some y)
  have heq : (s.changeEntry old new).1 = if ¬(old.dd = y.dd ∧ old.exp = y.exp) then v₂.cueHandover (some y) y else v₂ := by
    rw [State.changeEntry_eq old new s (y := y) (v₁ := v₁) (v₂ := v₂) (by rw [he, hv]; exact hy) (by rw [he]; exact hstate)
      (by rw [he, hv, hv₁, hdisp]; exact ite_not ..) (by rw [he, hv₂, hstate]; exact ite_not ..), he, hdd, hexp]
    exact (ite_not ..).symm
  rw [← heq] at hthird
  refine ⟨v, v₁, v₂, y, ⟨hfirst, hsecond, hthird⟩, hnumbered, ?_, hyfacts.trans hefacts⟩
  rw [heq, ← herun, ← hy, State.entry?, State.entry?]
  refine congrArg _ (congrArg Table.entries ?_)
  have htable₁ : v₁.table = v.table := by
    rw [hv₁]
    split
    · exact State.cueHandover_table ..
    · rfl
  have htable₂ : v₂.table = v₁.table := by
    rw [hv₂]
    split
    · exact State.cueHandover_table ..
    · rfl
  rw [← htable₁, ← htable₂]
  split
  · exact State.cueHandover_table ..
  · rfl

end Sys2Proof.Machine
end

section
/-! PROOF. What a change of one entry leaves: its facts, its revision, the cues that follow, and all else as it was
(R4, R38, R86). -/
namespace Sys2Proof.Machine

open Sys2Proof

variable {s t u v w s₀ : State} {kind : CueKind} {run : Nat} {e x y b old new : Entry}
  {p : Params} {numbers : List Nat} {calls : CueKind → Prop}

/-! ## The cues that have followed, through what comes after -/

theorem State.Followed.of_places (h : t.Followed numbers b y) (hnow : w.now = t.now) (hin : w.inForce = t.inForce)
    (hplace : ∀ kind, kind ≠ .change → kind ≠ .cancel → w.cue? kind y.run = t.cue? kind y.run)
    (hnum : w.Numbered numbers (y.callsSince t.inForce b) y.run) : w.Followed numbers b y := by
  have hp := hplace .platform (by decide) (by decide)
  have hd := hplace .delay (by decide) (by decide)
  have hf := hplace .final (by decide) (by decide)
  obtain ⟨h1, h2, h3, h4, h5, h6, h7, -⟩ := h
  rw [← hp, ← hnow, ← hin] at h1
  rw [← hp] at h2
  rw [← hd, ← hnow, ← hin] at h3
  rw [← hd, ← hin] at h4
  rw [← hf, ← hnow, ← hin] at h5 h6
  rw [← hf] at h7
  rw [← hin] at hnum
  exact ⟨h1, h2, h3, h4, h5, h6, h7, hnum⟩

theorem State.Followed.of_cues (h : t.Followed numbers b y) (hcues : w.cues = t.cues) (hsrc : w.sources = t.sources) :
    w.Followed numbers b y :=
  h.of_places (State.now_of_sources hsrc) (State.inForce_of_sources hsrc) (fun kind _ _ => State.cue?_of_cues hcues kind _)
    (h.numbered.of_cues hcues)

theorem State.Followed.voidRecord (h : t.Followed numbers b y) : (t.voidRecord y.run).Followed numbers b y := by
  refine h.of_places (State.now_of_sources (State.voidRecord_sources ..)) (State.inForce_of_sources (State.voidRecord_sources ..))
    (fun kind hkind _ => ?_) h.numbered.voidRecord
  cases hopen : t.openRecord? y.run with
  | none => rw [State.voidRecord_of_none hopen]
  | some r =>
    rw [State.cue?_of_cues (State.voidRecord_of_open (by rw [hopen]; rfl)).2.2, State.withdraw,
      State.cue?_withdrawWhere h.numbered.roomy.cuesOk]
    cases hc : t.cue? kind y.run with
    | none => rfl
    | some c =>
      obtain ⟨-, hck, -⟩ := State.cue?_some hc
      simp [hck, hkind]

/-! ## The revision of a changed entry -/

theorem State.rev_of_table (h : t.table = s.table) (run : Nat) : t.revOf run = s.revOf run := by
  rw [State.revOf, State.revOf, State.entry?, State.entry?, h]

theorem State.voidRecord_rev (n run : Nat) (s : State) : (s.voidRecord n).revOf run = s.revOf run := by
  cases hopen : s.openRecord? n with
  | none => rw [State.voidRecord_of_none hopen]
  | some r =>
    obtain ⟨-, htable, -⟩ := State.voidRecord_of_open (s := s) (run := n) (by rw [hopen]; rfl)
    rw [State.revOf, State.revOf, State.entry?_eq, htable, entryIn_map (fun e => by unfold Entry.unrecorded; split <;> rfl),
      Option.map_map, ← State.entry?_eq]
    refine congrArg (fun f => (s.entry? run).map f) (funext fun e => ?_)
    simp only [Function.comp_apply, Entry.unrecorded]
    split <;> rfl

theorem State.openRecord_rev (n src dst run : Nat) (r : Count16) (s : State) :
    (s.openRecord n src dst r).1.revOf run = s.revOf run := by
  cases hslot : (s.supersede n).tracker.takeSlot with
  | none =>
    rw [State.openRecord_untracked hslot]
    exact State.rev_of_table (State.post_table ..) run
  | some slot =>
    rw [State.openRecord_tracked hslot]
    refine (State.rev_of_table ?_ run).trans
      (State.updEntry_rev (f := fun e => { e with openRec := some slot.1 }) (fun _ => ⟨rfl, rfl⟩) n run _)
    exact State.trigger_table ..

theorem State.platformChanged_rev (e : Entry) (st : EntryState) (out : Option Nat) (run : Nat) (s : State) :
    (s.platformChanged e st out).1.revOf run = s.revOf run := by
  unfold State.platformChanged
  split
  · split
    · exact (State.rev_of_table (State.cueHandover_table ..) run).trans (State.voidRecord_rev ..)
    · rfl
  · split
    · exact (State.rev_of_table (State.cueHandover_table ..) run).trans (State.openRecord_rev ..)
    · rfl
  · rfl

theorem State.changeEntry_rev (old new : Entry) (run : Nat) (s : State) :
    (s.changeEntry old new).1.revOf run = (s.putEntry old (old.counted new)).revOf run := by
  have hhand (u : State) (o : Option Entry) (e : Entry) : (u.cueHandover o e).revOf run = u.revOf run :=
    State.rev_of_table (State.cueHandover_table ..) run
  simp only [State.changeEntry, State.handPlatform, State.handStanding]
  split <;> split <;> split <;> simp only [hhand, State.platformChanged_rev]

theorem Entry.counted_rev (h : new.rev = old.rev) :
    (old.counted new).rev = if old.sameShown new then old.rev else old.rev + 1 := by
  unfold Entry.counted
  split
  · exact h
  · rfl

/-! ## No record left to inform -/

theorem State.supersede_unspoken (run : Nat) (s : State) : (s.supersede run).Unspoken run := by
  intro r hr hrun hopen
  rw [State.supersede_tracker] at hr
  obtain ⟨q, -, rfl⟩ := List.mem_map.1 hr
  unfold ChangeRec.superseded at hrun hopen
  split at hopen
  · cases hopen
  next hno =>
    rw [if_neg hno] at hrun
    simp_all [ChangeRec.isOpen, ChangeRec.live]

theorem State.openRecord_unspoken (run src dst : Nat) (r : Count16) (s : State) :
    (s.openRecord run src dst r).1.Unspoken run := by
  have hsuper := State.supersede_unspoken run s
  cases hslot : (s.supersede run).tracker.takeSlot with
  | none =>
    rw [State.openRecord_untracked hslot]
    exact (State.post_calm (by decide) ..).unspoken run hsuper
  | some slot =>
    rw [State.openRecord_tracked hslot]
    refine (State.callChange_calm ..).unspoken run fun x hx hrun hopen => ?_
    obtain hx | hx := List.mem_append.1 hx
    · exact hsuper x ((Tracker.takeSlot_sublist hslot).subset hx) hrun hopen
    · obtain rfl := List.mem_singleton.1 hx
      rfl

theorem State.openRecord?_none_of_live (h : s.liveRecord? run = none) : s.openRecord? run = none := by
  refine List.find?_eq_none.2 fun r hr hopen => List.find?_eq_none.1 h r hr ?_
  simp only [ChangeRec.live, ChangeRec.isOpen, Bool.and_eq_true, Bool.or_eq_true, decide_eq_true_eq] at hopen ⊢
  exact ⟨hopen.1, .inl hopen.2⟩

/-- A change of the displayed platform leaves no announced record OPEN (R67, R76). -/
theorem State.platformChanged_unspoken {out : Nat} (hentry : (s.entry? e.run).isSome = true) (hmoved : e.displayed ≠ some out)
    (st : EntryState) : (s.platformChanged e st (some out)).1.Unspoken e.run := by
  unfold State.platformChanged
  split
  · split
    · exact (State.handStanding_calm ..).unspoken _ (State.unspoken_of_none (State.voidRecord_openRecord e.run s))
    next hnone => exact State.unspoken_of_none (by simpa using hnone)
  next src dst z hsrc hdst hz =>
    split
    · exact (State.handStanding_calm ..).unspoken _ (State.openRecord_unspoken e.run src dst z.rev s)
    next hnot =>
      refine State.unspoken_of_none (State.openRecord?_none_of_live ?_)
      have hne : src ≠ dst := fun heq => hmoved (by rw [hdst, ← heq, ← Option.some.inj hsrc])
      have hrun : z.run = e.run := entryIn_run hz
      simp_all [State.isPublished]
  next hno _ =>
    obtain ⟨z, hz⟩ := Option.isSome_iff_exists.1 hentry
    cases hd : e.displayed with
    | none => exact (hno _ rfl hd).elim
    | some dst => simp_all

end Sys2Proof.Machine
end

section
/-! PROOF. An entry reworked by one telegram or event: its facts, its revision, its cues, and all else as it was
(R4, R38, R86). -/
namespace Sys2Proof.Machine

open Sys2Proof

variable {s t u v w s₀ : State} {kind : CueKind} {run : Nat} {e x y b old new : Entry}
  {p : Params} {numbers : List Nat} {calls : CueKind → Prop}

/-- From `s` to `w` the entry `old` has been changed to the facts of `new` and stands as `x`. -/
structure State.Reworked (s w : State) (old new x : Entry) : Prop where
  entry : w.entry? old.run = some x
  facts : x.facts = new.facts
  rev : s.openRecord? old.run = none ∨ (old.displayed ≠ new.displayed ∧ old.displayed ≠ none) → new.rev = old.rev →
    x.rev = if old.sameShown new then old.rev else old.rev + 1
  cues : s.CuesHanded w old x
  others : s.OthersKept w old.run
  beside : s.Beside w
  speaking : s.CuesOk → w.speaking = s.speaking

theorem State.Calm.answerTel (p : PortId) (tel : Tel) (a : Answer) (s : State) : s.Calm (s.answerTel p tel a) :=
  ⟨fun q => State.answerTel_heard p tel a s q, fun h => State.CuesOk.of_cues h rfl, fun _ => rfl,
    fun _ h => h.of_tracker rfl, fun _ _ => rfl⟩

theorem State.Reworked.answerTel (h : s.Reworked w old new x) (p : PortId) (tel : Tel) (a : Answer) :
    s.Reworked (w.answerTel p tel a) old new x :=
  ⟨h.entry, h.facts, h.rev, h.cues, h.others, h.beside.trans ⟨rfl, rfl, rfl, rfl⟩, h.speaking⟩

/-! ## A change and what settles it -/

theorem State.changeEntry_unspoken (h : s.Unspoken run) (old new : Entry) : (s.changeEntry old new).1.Unspoken run :=
  (State.changeEntry_calm old new s).unspoken run (h.of_tracker (State.putEntry_blocks ..).2.2)

theorem State.changeEntry_unspoken_moved (hrun : new.run = old.run) (hnodup : (s.table.entries.map (·.run)).Nodup)
    (hold : s.entry? old.run = some old) (hmoved : old.displayed ≠ new.displayed) (hsome : old.displayed ≠ none) :
    (s.changeEntry old new).1.Unspoken old.run := by
  obtain ⟨e, he⟩ : ∃ e, old.counted new = e := ⟨_, rfl⟩
  have hefacts : e.facts = new.facts := he ▸ Entry.counted_facts old new
  have herun : e.run = old.run := (congrArg Entry.run hefacts :).trans hrun
  have hedisp : e.displayed = new.displayed := (congrArg Entry.displayed hefacts :)
  obtain ⟨src, hsrc⟩ := Option.ne_none_iff_exists'.1 hsome
  have hput : (s.putEntry old e).entry? e.run = some e := by
    rw [State.putEntry_entry _ _ _ herun hnodup, if_pos herun, herun, hold]
    rfl
  have hchanged : ((s.putEntry old e).platformChanged e old.state old.displayed).1.Unspoken e.run := by
    rw [hsrc]
    exact State.platformChanged_unspoken (by rw [hput]; rfl) (by rw [hedisp, ← hsrc]; exact hmoved.symm) _
  have hne : ¬old.displayed = e.displayed := by rwa [hedisp]
  simp only [State.changeEntry, he]
  rw [if_neg hne, ← herun]
  have hhand := (State.cueHandover_calm (some old)
    (((s.putEntry old e).platformChanged e old.state old.displayed).1.standing e old.state) _).unspoken _ hchanged
  split <;> split
  · exact hhand
  · exact (State.cueHandover_calm ..).unspoken _ hhand
  · exact (State.handStanding_calm ..).unspoken _ hhand
  · exact (State.handStanding_calm ..).unspoken _ ((State.cueHandover_calm ..).unspoken _ hhand)

/-- The change of one entry from `s₀` on, where `s` has come with the same table, and what settles it in `w`. -/
theorem State.reworked_of_change
    (hnum : s.CuesOk → s.cues.list.length ≤ 28 → ∀ calls, s₀.Numbered (s.cues.list.map (·.number)) calls old.run)
    (hrun : new.run = old.run) (hnodup : (s₀.table.entries.map (·.run)).Nodup) (hold : s₀.entry? old.run = some old)
    (hret : new.state ≠ .retiring)
    (hboard : old.state = .boarding → new.state = .boarding → old.displayed ≠ new.displayed → new.displayed ≠ none)
    (hcalm₀ : s.Calm s₀) (hbeside₀ : s.Beside s₀) (hfacts₀ : s₀.facts = s.facts)
    (hfacts : w.facts = (s₀.changeEntry old new).1.facts) (hcalm : (s₀.changeEntry old new).1.Calm w)
    (hbeside : (s₀.changeEntry old new).1.Beside w)
    (hfollow : ∀ y : Entry, y.run = old.run → (s₀.changeEntry old new).1.Followed (s.cues.list.map (·.number)) old y →
      w.Followed (s.cues.list.map (·.number)) old y)
    (hrec : new.awaiting = true → (s₀.changeEntry old new).1.Unspoken old.run →
      w.entry? old.run = (s₀.changeEntry old new).1.entry? old.run) :
    ∃ x, s.Reworked w old new x := by
  have hall (run : Nat) : (w.entry? run).map Entry.facts =
      if run = old.run then (s₀.entry? run).map fun _ => new.facts else (s₀.entry? run).map Entry.facts := by
    rw [State.entry_facts_of_facts hfacts, State.changeEntry_entry old new s₀ hrun hnodup]
  have hown := hall old.run
  rw [if_pos rfl, hold] at hown
  obtain ⟨x, hx, hxfacts⟩ := Option.map_eq_some_iff.1 hown
  have hunspoken (h : s.openRecord? old.run = none) : (s₀.changeEntry old new).1.Unspoken old.run :=
    State.changeEntry_unspoken (hcalm₀.unspoken _ (State.unspoken_of_none h)) old new
  refine ⟨x, hx, hxfacts, fun hopen hrev => ?_, fun hok hroom hchanged => ?_, fun r hr => ?_, ?_, fun hok => ?_⟩
  · have hu : (s₀.changeEntry old new).1.Unspoken old.run :=
      hopen.elim hunspoken fun ⟨hmoved, hsome⟩ => State.changeEntry_unspoken_moved hrun hnodup hold hmoved hsome
    have hxrev : w.revOf old.run = some (old.counted new).rev := by
      have hcrun : (old.counted new).run = old.run := (congrArg Entry.run (Entry.counted_facts old new) :).trans hrun
      rw [hcalm.rev _ hu, State.changeEntry_rev, State.revOf, State.putEntry_entry _ _ _ hcrun hnodup, if_pos rfl, hold]
      rfl
    rw [State.revOf, hx, Entry.counted_rev hrev] at hxrev
    exact Option.some.inj hxrev
  · have hxs : x.state = new.state := (congrArg Entry.state hxfacts :)
    have hxd : x.displayed = new.displayed := (congrArg Entry.displayed hxfacts :)
    have hxdd : x.dd = new.dd := (congrArg Entry.dd hxfacts :)
    have hxe : x.exp = new.exp := (congrArg Entry.exp hxfacts :)
    have hxrun : x.run = old.run := entryIn_run hx
    obtain ⟨v, v₁, v₂, y, hand, hv, hy, hyfacts⟩ := State.changeEntry_handovers (new := new) (hnum hok hroom) hrun hnodup hold
    have hyx : y.facts = x.facts := hyfacts.trans hxfacts.symm
    have hys : y.state = x.state := (congrArg Entry.state hyx :)
    have hyd : y.displayed = x.displayed := (congrArg Entry.displayed hyx :)
    have hydd : y.dd = x.dd := (congrArg Entry.dd hyx :)
    have hye : y.exp = x.exp := (congrArg Entry.exp hyx :)
    have hfollowed := hand.followed hv (by rw [hys, hyd, hydd, hye]; simpa only [not_and_or] using hchanged)
      (by rw [hys, hxs, hyd, hxd]; exact hboard)
    refine State.Followed.follow (hfollow y (entryIn_run hy) hfollowed) (by rw [hys, hxs]; exact hret) rfl rfl rfl hyx.symm
      fun haw hnone => ?_
    have haw' : new.awaiting = true := by
      rw [← haw]
      simp only [Entry.awaiting, hxs]
    rw [hxrun] at hnone
    have := hrec haw' (hunspoken hnone)
    rw [hx, hy] at this
    rw [Option.some.inj this]
  · rw [hall, if_neg hr, State.entry_facts_of_facts hfacts₀]
  · exact hbeside₀.trans ((State.changeEntry_beside old new s₀).trans hbeside)
  · have hput : (s₀.putEntry old (old.counted new)).CuesOk := (hcalm₀.cuesOk hok).of_cues (State.putEntry_blocks ..).2.1
    have hchange := State.changeEntry_calm old new s₀
    rw [hcalm.speaking (hchange.cuesOk hput), hchange.speaking hput, ← hcalm₀.speaking hok, State.speaking, State.speaking,
      (State.putEntry_blocks ..).2.1]

theorem State.Numbered.start (s : State) (run : Nat) :
    s.CuesOk → s.cues.list.length ≤ 28 → ∀ calls, s.Numbered (s.cues.list.map (·.number)) calls run :=
  fun hok hroom calls => .of_room hok hroom calls run

/-- A change that the wall's settling follows. -/
theorem State.changeEntry_settled (hk : s.TableOk) (hold : s.entry? old.run = some old) (hrun : new.run = old.run)
    (hret : new.state ≠ .retiring)
    (hboard : old.state = .boarding → new.state = .boarding → old.displayed ≠ new.displayed → new.displayed ≠ none)
    (o : State) : ∃ x, s.Reworked ((s.changeEntry old new).1.settle o) old new x :=
  State.reworked_of_change (State.Numbered.start s _) hrun hk.2.1 hold hret hboard (.refl s) (.refl s) rfl
    (State.settle_facts ..) (State.settle_calm ..) (State.settle_beside ..)
    (fun _ _ h => h.of_cues (State.settle_cues ..) (State.settle_sources ..)) fun _ h => State.settle_entry o h

/-- A change of nothing shown, with no settling after it. -/
theorem State.changeEntry_reworked (hk : s.TableOk) (hold : s.entry? old.run = some old) (hrun : new.run = old.run)
    (hret : new.state ≠ .retiring)
    (hboard : old.state = .boarding → new.state = .boarding → old.displayed ≠ new.displayed → new.displayed ≠ none) :
    ∃ x, s.Reworked (s.changeEntry old new).1 old new x :=
  State.reworked_of_change (State.Numbered.start s _) hrun hk.2.1 hold hret hboard (.refl s) (.refl s) rfl
    rfl (.refl _) (.refl _) (fun _ _ h => h) fun _ _ => rfl

/-! ## The test of the transitions -/

theorem Entry.transition_not_retiring (h : e.state ≠ .retiring) (p : Params) (now : Int) :
    (e.transition p now).state ≠ .retiring := by
  obtain heq | ⟨-, hin⟩ := Entry.transition_service p now e
  · rw [heq]
    exact h
  · intro hret
    simp [Entry.inService, hret] at hin

theorem Entry.transition_boarding (h : (e.transition p now).state = .boarding) : (e.transition p now).displayed ≠ none := by
  rw [(Entry.transition_fields ..).2.2]
  intro hnone
  obtain ⟨hclosed, -, hlisted, hback, -, hkept⟩ := Entry.transition_state p now e
  by_cases hs : e.state = .listed ∨ e.state = .boarding
  · by_cases hexp : e.exp ≤ now
    · have := hclosed hs hexp
      simp [this] at h
    · obtain hs | hs := hs
      · have := hlisted hs (by omega) (.inl hnone)
        simp [this] at h
      · have := hback hs (by omega) hnone
        simp [this] at h
  · rw [not_or] at hs
    rw [hkept hs.1 hs.2] at h
    exact hs.2 h

theorem State.retest_not_retiring (h : new.state ≠ .retiring) (s : State) (old : Entry) : (s.retest old new).state ≠ .retiring := by
  unfold State.retest
  split
  · exact h
  · exact Entry.transition_not_retiring h _ _

theorem State.retest_boarding (h : (s.retest old new).state = .boarding)
    (hmoved : old.displayed ≠ (s.retest old new).displayed) : (s.retest old new).displayed ≠ none := by
  rw [State.retest_displayed] at hmoved
  unfold State.retest at h ⊢
  rw [if_neg fun hsame => hmoved hsame.1] at h ⊢
  exact Entry.transition_boarding h

theorem State.retest_self (s : State) (old : Entry) : s.retest old old = old := if_pos ⟨rfl, rfl⟩

/-- An entry amended, its transitions tested and the wall settled (R4, R38, R86). -/
theorem State.amendEntry_reworked (hk : s.TableOk) (hold : s.entry? old.run = some old) (hrun : new.run = old.run)
    (hret : new.state ≠ .retiring) : ∃ x, s.Reworked (s.amendEntry old new).1 old (s.retest old new) x := by
  unfold State.amendEntry
  split
  next heq =>
    rw [← heq, State.retest_self]
    refine ⟨old, hold, rfl, fun _ _ => ?_, fun _ _ hchanged => ?_, fun _ _ => rfl, .refl s, fun _ => rfl⟩
    · rw [if_pos]
      simp [Entry.sameShown]
    · simp at hchanged
  · have hrun' := (State.retest_run s old new).trans hrun
    have hret' := State.retest_not_retiring hret s old
    have hboard := fun (_ : old.state = .boarding) => State.retest_boarding (s := s) (old := old) (new := new)
    dsimp only
    split
    · exact State.changeEntry_reworked hk hold hrun' hret' hboard
    · exact State.changeEntry_settled hk hold hrun' hret' hboard s

end Sys2Proof.Machine
end

section
/-! PROOF. The telegrams that rework one entry: PLAT, RDYS, DEPT, RINS (R18 to R21). -/
namespace Sys2Proof.Machine

open Sys2Proof

variable {s t u v w s₀ : State} {run : Nat} {e x y old new : Entry} {numbers : List Nat}

/-! ## The reply to an accepted telegram -/

theorem State.taking_answered {p : PortId} {seq : Octet} {tg : Telegram} (h : s.Taking p seq tg)
    {checks : List (Nat × Bool)} {allowed : Entry → Bool} {act : Entry → State × Answer}
    (hhandled : tg.handled p s = s.onEntry checks run allowed act) (hchecks : firstBad checks = none)
    (he : s.entry? run = some e) (hallowed : allowed e = true) {clamped untracked : Bool}
    (hact : act e = State.acceptRevision run u clamped untracked) (hx : u.entry? run = some x)
    (hlink : ∀ q, u.link q = s.link q) :
    exec (tg.kind.command p) s =
        .next (u.answerTel p (tg.tel seq) (.accept (.revision x.rev) clamped untracked)) ∧
      s.Answered (u.answerTel p (tg.tel seq) (.accept (.revision x.rev) clamped untracked)) p seq tg
        (.accept (.revision x.rev) clamped untracked) := by
  refine exec_taking_answered h ?_ hlink
  rw [hhandled, State.onEntry_found hchecks he, if_pos hallowed, hact, State.acceptRevision, State.revisionOf, hx]

theorem firstBad_runOk (h : run ≠ 0) : firstBad [(1, runOk run)] = none := by simp [runOk, h]

theorem firstBad_runOk_limit {n limit : Nat} (h : run ≠ 0) (hn : n ≤ limit) : firstBad [(1, runOk run), (2, n ≤ limit)] = none := by
  simp [runOk, h, hn]

/-! ## PLAT -/

theorem Entry.assigned_sameShown {assigned : Option Nat} (h : e.displayed = ({ e with assigned := assigned } : Entry).displayed) :
    e.sameShown { e with assigned := assigned } = true := by
  simp only [Entry.sameShown, ← h]
  simp

/-- What nothing shown depends on is replaced in the entry alone (R4). -/
theorem State.amendEntry_quiet (hk : s.TableOk) (hold : s.entry? old.run = some old) (hrun : new.run = old.run)
    (hsame : old.sameShown new = true) (hexp : new.exp = old.exp) :
    (s.amendEntry old new).1.entry? old.run = some new ∧ (s.amendEntry old new).2 = false ∧
      (s.amendEntry old new).1.tracker = s.tracker ∧ (s.amendEntry old new).1.cues = s.cues ∧
      (s.amendEntry old new).1.wall = s.wall ∧ (s.amendEntry old new).1.bus = s.bus := by
  obtain ⟨-, hdisplayed, -, hstate⟩ := Entry.sameShown_fields hsame
  unfold State.amendEntry
  split
  next heq => exact ⟨heq ▸ hold, rfl, rfl, rfl, rfl, rfl⟩
  · have hretest : s.retest old new = new := if_pos ⟨hdisplayed, hexp.symm⟩
    have hput : s.putEntry old new = s.withEntries (updWhere (·.run = old.run) (fun _ => new) s.table.entries) :=
      if_pos ⟨hstate, hexp.symm⟩
    have hentry := State.putEntry_entry old new s hrun hk.2.1 old.run
    rw [if_pos rfl, hold, hput] at hentry
    have huntracked : (s.changeEntry old new).2 = false := by
      simp only [State.changeEntry, Entry.counted, if_pos hsame, if_pos hdisplayed]
    rw [hretest]
    dsimp only
    rw [if_pos hsame, State.changeEntry_eq_of_sameShown hsame hexp]
    exact ⟨hentry, huntracked, rfl, rfl, rfl, rfl⟩

/-- Settles O27: an assigned platform that moves the displayed one reworks the entry, and any other is written alone. -/
theorem platAssignsThePlatform : Obligations.PlatAssignsThePlatform := by
  intro s p seq f e new htaking hk hrun hplatform he hin hnew
  have herun : e.run = f.run := entryIn_run he
  have hold : s.entry? e.run = some e := by rwa [herun]
  have hret := Entry.inService_not_retiring hin
  have hnrun : new.run = e.run := by rw [hnew]
  obtain ⟨x, hx⟩ := State.amendEntry_reworked (new := new) hk hold hnrun (by rw [hnew]; exact hret)
  obtain ⟨hexec, hanswered⟩ := State.taking_answered htaking (u := (s.amendEntry e new).1) (x := x) (clamped := false)
    (untracked := (s.amendEntry e new).2) rfl (firstBad_runOk_limit hrun hplatform) he hin (by rw [hnew]; rfl)
    (by rw [← herun]; exact hx.entry) fun q => State.amendEntry_link q e new s
  have ht := hx.answerTel p ((Telegram.plat f).tel seq) (.accept (.revision x.rev) false (s.amendEntry e new).2)
  refine ⟨_, x, (s.amendEntry e new).2, hexec, herun ▸ ht.entry, hanswered, ht.facts, fun hdisp => ?_, fun hdisp hopen => ?_,
    ht.cues, herun ▸ ht.others, ht.beside, ht.speaking⟩
  · have hsame : e.sameShown new = true := by
      rw [hnew] at hdisp ⊢
      exact Entry.assigned_sameShown hdisp
    obtain ⟨hentry, huntracked, htracker, hcues, hwall, hbus⟩ :=
      State.amendEntry_quiet hk hold hnrun hsame (by rw [hnew])
    exact ⟨Option.some.inj (hx.entry.symm.trans hentry), huntracked, htracker, hcues, hwall, hbus⟩
  · have hshown : e.sameShown (s.retest e new) = false := by
      refine Bool.eq_false_iff.2 fun h => hdisp ?_
      rw [(Entry.sameShown_fields h).2.1, State.retest_displayed]
    rw [ht.rev ?_ (by rw [State.retest_rev, hnew]), hshown, if_neg nofun]
    · rw [State.retest_displayed]
      by_cases hnone : e.displayed = none
      · exact .inl (herun ▸ hopen hnone)
      · exact .inr ⟨hdisp, hnone⟩

end Sys2Proof.Machine
end

section
/-! PROOF. RDYS, DEPT and RINS: an entry closed, departed or returned to service (R18, R20, R21, R76). -/
namespace Sys2Proof.Machine

open Sys2Proof

variable {s t u v w s₀ : State} {run : Nat} {e x y old new : Entry} {numbers : List Nat} {c : Cue} {k : CueKind}

/-! ## A closed record through a judging -/

theorem State.informAll_closed (h : s.tracker.Ok) {r : ChangeRec} (hr : r ∈ s.tracker.records) (hclosed : r.isOpen = false) :
    r ∈ s.informAll.tracker.records := by
  rw [State.informAll_eq, State.informs_tracker]
  refine List.mem_map.2 ⟨r, hr, if_neg fun hmem => ?_⟩
  obtain ⟨-, hopen, -⟩ := State.mem_toInform.1 ((State.mem_toInform_no h hr).1 hmem)
  exact absurd (hopen.symm.trans hclosed) nofun

theorem State.settle_closed (h : s.tracker.Ok) {r : ChangeRec} (hr : r ∈ s.tracker.records) (hclosed : r.isOpen = false)
    (o : State) : r ∈ (s.settle o).tracker.records := by
  rw [State.settle, State.finish_tracker, State.recompose, State.compose_tracker]
  have hcomposed : s.compose.tracker = s.tracker := State.compose_tracker s
  unfold State.evaluate
  split
  · refine State.informAll_closed ?_ (List.mem_map.2 ⟨r, by rw [hcomposed]; exact hr, by simp [hclosed]⟩) hclosed
    refine Tracker.Ok.mapKeeps (by rw [hcomposed]; exact h) fun q => ?_
    split
    · exact ChangeRec.keeps_evaluated _ q
    · exact ChangeRec.Keeps.refl q
  · rw [hcomposed]
    exact hr

/-! ## A change that leaves the displayed platform -/

/-- What every handover keeps, a change with the displayed platform as it was keeps. -/
theorem State.changeEntry_still {P : State → Prop} (hdisp : old.displayed = new.displayed)
    (hput : P (s.putEntry old (old.counted new))) (hhand : ∀ u o e, P u → P (u.cueHandover o e)) :
    P (s.changeEntry old new).1 := by
  have hcdisp : old.displayed = (old.counted new).displayed :=
    hdisp.trans (congrArg Entry.displayed (Entry.counted_facts old new).symm :)
  simp only [State.changeEntry, if_pos hcdisp]
  split <;> split
  · exact hput
  · exact hhand _ _ _ hput
  · exact hhand _ _ _ hput
  · exact hhand _ _ _ (hhand _ _ _ hput)

theorem State.postDropped_signalling (run : Nat) (s : State) : (s.postDropped run).port .signalling = s.port .signalling := by
  rw [State.postDropped, State.post_port (names := [.planning, .announcement]) (by decide), if_neg (by decide)]

theorem State.trigger_signalling (kind : CueKind) (run : Nat) (zones : List Nat) (due : Int) (s : State) :
    (s.trigger kind run zones due).port .signalling = s.port .signalling := by
  unfold State.trigger
  split
  · rfl
  · split
    · rfl
    · split
      · exact State.postDropped_signalling ..
      · exact State.postDropped_signalling ..

/-- What withdrawals, moved dues and triggers keep, a handover keeps. -/
theorem State.cueHandover_still {P : State → Prop} (o : Option Entry) (e : Entry)
    (hdrawn : ∀ u p, P u → P (u.withdrawWhere p))
    (hfollow : ∀ u, P u → P (u.withCues (updWhere (·.run = e.run) (Cue.follow u.inForce u.now e.exp) u.cues.list)))
    (htrigger : ∀ u kind zones due, kind ≠ .cancel → P u → P (u.trigger kind e.run zones due)) (h : P s) :
    P (s.cueHandover o e) := by
  have htried {cond : Prop} [Decidable cond] {kind : CueKind} (hk : kind ≠ .cancel) (zones : List Nat) (due : Int) (u : State)
      (hu : P u) : P (if cond then u.trigger kind e.run zones due else u) := by
    split
    · exact htrigger _ _ _ _ hk hu
    · exact hu
  have hdrawn' : P (s.handoverWithdrawals o e) := by
    rw [State.handoverWithdrawals_eq]
    exact hdrawn _ _ h
  have hplaces : P (s.handoverPlaces o e) := hfollow _ hdrawn'
  have hplatform := htried (cond := e.wantsPlatformCue = true) (kind := .platform) (by decide) (e.cueZones none .platform)
    (e.exp - (s.handoverPlaces o e).inForce.platformLead) _ hplaces
  have hdelay := fun u (hu : P u) => htried (cond := u.inForce.wantsDelayCue e = true) (kind := .delay) (by decide)
    (e.cueZones none .delay) u.now u hu
  unfold State.cueHandover State.handoverFinal
  dsimp only
  split
  · exact htrigger _ _ _ _ (by decide) (hdelay _ hplatform)
  · exact htried (by decide) _ _ _ (hdelay _ hplatform)

theorem State.cueHandover_signalling (o : Option Entry) (e : Entry) (s : State) :
    (s.cueHandover o e).tracker = s.tracker ∧ (s.cueHandover o e).port .signalling = s.port .signalling :=
  State.cueHandover_still (P := fun u => u.tracker = s.tracker ∧ u.port .signalling = s.port .signalling) o e
    (fun _ _ hu => hu) (fun _ hu => hu)
    (fun _ _ _ _ _ hu => ⟨(State.trigger_tracker ..).trans hu.1, (State.trigger_signalling ..).trans hu.2⟩) ⟨rfl, rfl⟩

theorem State.changeEntry_signalling (hdisp : old.displayed = new.displayed) :
    (s.changeEntry old new).1.tracker = s.tracker ∧ (s.changeEntry old new).1.port .signalling = s.port .signalling := by
  refine State.changeEntry_still (P := fun u => u.tracker = s.tracker ∧ u.port .signalling = s.port .signalling) hdisp
    ⟨(State.putEntry_blocks ..).2.2, ?_⟩ fun u o e hu =>
      ⟨(State.cueHandover_signalling o e u).1.trans hu.1, (State.cueHandover_signalling o e u).2.trans hu.2⟩
  simp only [State.port, (State.putEntry_blocks ..).1]

/-! ## The passage to VOID -/

theorem State.voidRecord_noticed (h : (s.openRecord? run).isSome = true) :
    s.Noticed (s.voidRecord run) .signalling ⟨.changeVoid, .run run, s.time.clock⟩ := by
  unfold State.voidRecord
  rw [if_pos h]
  refine List.IsPrefix.trans ?_ (((State.withdrawWhere_calm ..).heard .signalling).1)
  rw [State.post_port (names := [.signalling]) (by decide), if_pos List.mem_cons_self]
  exact List.prefix_rfl

/-- The passage of the run's records to VOID, and the judging after it (R76). -/
theorem State.voided_of (htracker : u.tracker = s.tracker) (hport : u.port .signalling = s.port .signalling)
    (hclock : u.time.clock = s.time.clock) (hv : v.tracker = (u.voidRecord run).tracker)
    (hheard : ((u.voidRecord run).port .signalling).Heard (v.port .signalling)) (o : State) : s.Voided (v.settle o) run := by
  have hnone : v.openRecord? run = none := by
    rw [State.openRecord?, hv]
    exact State.voidRecord_openRecord run u
  refine ⟨(State.settle_openFrom v o).openRecord?_none hnone, fun hk r hr hrun hopen => ?_⟩
  have hsome : (u.openRecord? run).isSome = true := by
    rw [State.openRecord?, htracker, List.find?_isSome]
    exact ⟨r, hr, by simp [hrun, hopen]⟩
  obtain ⟨hvoided, -, -⟩ := State.voidRecord_of_open hsome
  have hvk : v.tracker.Ok := by
    rw [hv]
    exact State.voidRecord_trackerOk (by rw [htracker]; exact hk) run
  have hclosed : r.no ∈ v.tracker.closed := by
    rw [hv, hvoided]
    exact List.mem_append_right _ (State.mem_openNumbers.2 ⟨r, htracker ▸ hr, hopen, hrun, rfl⟩)
  have hmem : ({ r with state := .void } : ChangeRec) ∈ v.tracker.records := by
    rw [hv, hvoided, htracker]
    exact List.mem_map.2 ⟨r, hr, by simp [ChangeRec.voided, hrun, hopen]⟩
  refine ⟨⟨_, State.settle_closed hvk hmem rfl o, rfl, hrun, rfl⟩, (State.settle_reviewed v o).2.subset hclosed, ?_⟩
  have hnoticed := State.voidRecord_noticed hsome
  rw [State.Noticed, hport, hclock] at hnoticed
  exact hnoticed.trans (hheard.1.trans ((State.settle_calm v o).heard .signalling).1)

end Sys2Proof.Machine
end

section
/-! PROOF. RDYS, DEPT and RINS (R18, R20, R21). -/
namespace Sys2Proof.Machine

open Sys2Proof

variable {s t u v w s₀ : State} {run : Nat} {e x y old new : Entry} {numbers : List Nat} {c : Cue} {k : CueKind}

/-! ## The CANCEL cue through the handovers of an entry -/

/-- A trigger brings in no cue but of its own kind and run. -/
theorem State.trigger_mem {zones : List Nat} {due : Int} (h : c ∈ (s.trigger k run zones due).cues.list) :
    c ∈ s.cues.list ∨ (c.kind = k ∧ c.run = run) := by
  have happend {u : State} (hu : c ∈ (u.appendCue k run zones due).cues.list) : c ∈ u.cues.list ∨ (c.kind = k ∧ c.run = run) := by
    rw [State.appendCue_list] at hu
    obtain hc | hc := List.mem_append.1 hu
    · exact .inl hc
    · obtain rfl := List.mem_singleton.1 hc
      exact .inr ⟨rfl, rfl⟩
  unfold State.trigger at h
  split at h
  · obtain ⟨d, hd, rfl⟩ := List.mem_map.1 h
    split
    next hown =>
      obtain ⟨-, hkind, hrun, -⟩ := Cue.revise_fields s.now zones due d
      rw [hkind, hrun]
      exact .inr (by simpa using hown)
    · exact .inl hd
  · split at h
    · exact happend h
    · split at h
      · refine (happend h).imp_left fun hc => ?_
        rw [State.postDropped, State.post_cues] at hc
        exact (List.mem_filter.1 hc).1
      · exact .inl (by rwa [State.postDropped, State.post_cues] at h)

theorem State.Withdrawn.withdrawWhere (h : s.Withdrawn k run) (p : Cue → Bool) : (s.withdrawWhere p).Withdrawn k run := by
  intro c hc hkind hrun
  rw [State.withdrawWhere_list] at hc
  obtain ⟨d, hd, rfl⟩ := List.mem_map.1 hc
  have hmem := (List.mem_filter.1 hd).1
  split at hkind
  next hp =>
    rw [if_pos hp] at hrun ⊢
    exact ⟨(h d hmem hkind hrun).1, rfl⟩
  next hp =>
    rw [if_neg hp] at hrun ⊢
    exact h d hmem hkind hrun

theorem State.withdraw_withdrawn (k : CueKind) (run : Nat) (s : State) : (s.withdraw k run).Withdrawn k run := by
  intro c hc hkind hrun
  rw [State.withdraw, State.withdrawWhere_list] at hc
  obtain ⟨d, hd, rfl⟩ := List.mem_map.1 hc
  obtain ⟨-, hkeep⟩ := List.mem_filter.1 hd
  split at hkind
  next hp =>
    rw [if_pos hp]
    have htaken : d.isTaken = true := by simpa [hp] using hkeep
    exact ⟨htaken, rfl⟩
  next hp =>
    rw [if_neg hp] at hrun
    exact absurd (by simp [hkind, hrun]) hp

theorem State.Withdrawn.follow (h : s.Withdrawn k run) (e : Entry) :
    (s.withCues (updWhere (·.run = e.run) (Cue.follow s.inForce s.now e.exp) s.cues.list)).Withdrawn k run := by
  intro c hc hkind hrun
  obtain ⟨d, hd, rfl⟩ := List.mem_map.1 hc
  have hsame := Cue.follow_sameBut s.inForce s.now e.exp d
  split at hkind
  next hp =>
    rw [if_pos hp] at hrun ⊢
    rw [hsame.isTaken, hsame.pendDrop]
    exact h d hd (hsame.kind.symm.trans hkind) (hsame.run.symm.trans hrun)
  next hp =>
    rw [if_neg hp] at hrun ⊢
    exact h d hd hkind hrun

theorem State.cueHandover_withdrawn_cancel (h : s.Withdrawn .cancel run) (o : Option Entry) (e : Entry) :
    (s.cueHandover o e).Withdrawn .cancel run := by
  refine State.cueHandover_still (P := fun u => u.Withdrawn .cancel run) o e (fun _ p hu => State.Withdrawn.withdrawWhere hu p)
    (fun u hu => State.Withdrawn.follow hu e) (fun u kind zones due hk hu c hc hkind hrun => ?_) h
  exact (State.trigger_mem hc).elim (fun hc => hu c hc hkind hrun) fun hown => absurd (hown.1.symm.trans hkind) hk

end Sys2Proof.Machine
end

section
/-! PROOF. RDYS, DEPT and RINS (R18, R20, R21). -/
namespace Sys2Proof.Machine

open Sys2Proof

variable {s t u v w s₀ : State} {run : Nat} {e x y old new : Entry} {numbers : List Nat} {c : Cue} {k : CueKind}

/-! ## An entry whose record is voided -/

/-- The revision of a changed entry whose record is voided before the wall settles (R4, R76). -/
theorem State.voided_rev (hrun : new.run = old.run) (hnodup : (s.table.entries.map (·.run)).Nodup)
    (hold : s.entry? old.run = some old) (htracker : v.tracker = ((s.changeEntry old new).1.voidRecord old.run).tracker)
    (htable : v.table = ((s.changeEntry old new).1.voidRecord old.run).table) (o : State) :
    (v.settle o).revOf old.run = some (old.counted new).rev := by
  have hnone : v.openRecord? old.run = none := by
    rw [State.openRecord?, htracker]
    exact State.voidRecord_openRecord old.run _
  have hcrun : (old.counted new).run = old.run := (congrArg Entry.run (Entry.counted_facts old new) :).trans hrun
  rw [(State.settle_calm v o).rev _ (State.unspoken_of_none hnone), State.rev_of_table htable, State.voidRecord_rev,
    State.changeEntry_rev, State.revOf, State.putEntry_entry _ _ _ hcrun hnodup, if_pos rfl, hold]
  rfl

theorem State.Reworked.rev_of (h : s.Reworked w old new x) {rev : Count16} (hrev : w.revOf old.run = some rev) : x.rev = rev := by
  rw [State.revOf, h.entry] at hrev
  exact Option.some.inj hrev

theorem Entry.sameShown_state (h : old.state ≠ new.state) : old.sameShown new = false :=
  Bool.eq_false_iff.2 fun hs => h (Entry.sameShown_fields hs).2.2.2

theorem Entry.counted_rev_state (h : old.state ≠ new.state) : (old.counted new).rev = old.rev + 1 := by
  rw [Entry.counted, if_neg (by rw [Entry.sameShown_state h]; exact nofun)]

/-! ## DEPT -/

/-- An entry departed at now. -/
def Entry.departed (now : Int) (e : Entry) : Entry := { e with state := .departed, stateTime := some now }

theorem State.departEntry_eq (e : Entry) (s : State) :
    s.departEntry e = ((s.changeEntry e (e.departed s.now)).1.voidRecord e.run).settle s := rfl

theorem State.departEntry_reworked (hk : s.TableOk) (hold : s.entry? e.run = some e) :
    ∃ x, s.Reworked (s.departEntry e) e (e.departed s.now) x := by
  rw [State.departEntry_eq]
  refine State.reworked_of_change (State.Numbered.start s _) rfl hk.2.1 hold nofun nofun (.refl s) (.refl s) rfl
    ((State.settle_facts ..).trans (State.voidRecord_facts ..)) ((State.voidRecord_calm ..).trans (State.settle_calm ..))
    ((State.voidRecord_beside ..).trans (State.settle_beside ..)) (fun y hy h => ?_) nofun
  have hvoided := h.voidRecord
  rw [hy] at hvoided
  exact hvoided.of_cues (State.settle_cues ..) (State.settle_sources ..)

theorem State.clock_of_sources (h : t.sources = s.sources) : t.time.clock = s.time.clock := by
  rw [State.time_of_sources h]

theorem State.departEntry_voided (e : Entry) (s : State) : s.Voided (s.departEntry e) e.run := by
  obtain ⟨htracker, hport⟩ := State.changeEntry_signalling (s := s) (old := e) (new := e.departed s.now) rfl
  exact State.voided_of htracker hport (State.clock_of_sources (State.changeEntry_sources ..)) rfl (.refl _) s

theorem State.Voided.answerTel (h : s.Voided t run) (p : PortId) (tel : Tel) (a : Answer) : s.Voided (t.answerTel p tel a) run := by
  refine ⟨h.1, fun hk r hr hrun hopen => ?_⟩
  obtain ⟨hrec, hclosed, hnoticed⟩ := h.2 hk r hr hrun hopen
  exact ⟨hrec, hclosed, State.Noticed.heard hnoticed (State.answerTel_heard p tel a t .signalling)⟩

/-- Settles O30: RDYS amends the state, DEPT departs the entry, and a repeated one leaves it. -/
theorem rdysAndDeptMoveTheEntry : Obligations.RdysAndDeptMoveTheEntry := by
  intro s p seq run e hk hrun he
  have herun : e.run = run := entryIn_run he
  have hold : s.entry? e.run = some e := by rwa [herun]
  refine ⟨fun htaking hin => ?_, fun htaking hin => ?_, fun htaking hdeparted => ?_⟩
  · obtain ⟨x, hx⟩ := State.amendEntry_reworked (new := { e with state := .closed }) hk hold rfl nofun
    have hretest : s.retest e { e with state := .closed } = { e with state := .closed } := if_pos ⟨rfl, rfl⟩
    rw [hretest] at hx
    obtain ⟨hexec, hanswered⟩ := State.taking_answered htaking (u := (s.amendEntry e { e with state := .closed }).1) (x := x)
      (clamped := false) (untracked := false) rfl (firstBad_runOk hrun) he hin rfl (by rw [← herun]; exact hx.entry) fun q =>
        State.amendEntry_link q e _ s
    have ht := hx.answerTel p ((Telegram.rdys run).tel seq) (.accept (.revision x.rev) false false)
    refine ⟨_, x, hexec, herun ▸ ht.entry, hanswered, ht.facts, fun hclosed => ?_, fun hopen hnone => ?_,
      ht.cues, herun ▸ ht.others, ht.beside, ht.speaking⟩
    · have hsame : e = { e with state := .closed } := by rw [← hclosed]
      have hstay : (s.amendEntry e { e with state := .closed }).1 = s := by
        rw [State.amendEntry, if_pos hsame]
      have hxe := hx.entry
      rw [hstay, hold] at hxe
      rw [hstay, ← Option.some.inj hxe]
    · rw [ht.rev (.inl (herun ▸ hnone)) rfl, Entry.sameShown_state hopen]
      rfl
  · have hstate : e.state ≠ .departed ∧ e.state ≠ .cancelled ∧ e.state ≠ .retiring := by
      refine ⟨fun h => ?_, fun h => ?_, fun h => ?_⟩ <;> simp [Entry.inService, h] at hin
    obtain ⟨x, hx⟩ := State.departEntry_reworked hk hold
    have hrev := hx.rev_of (State.voided_rev (s := s) (old := e) (new := e.departed s.now) rfl hk.2.1 hold rfl rfl s)
    obtain ⟨hexec, hanswered⟩ := State.taking_answered htaking (u := s.departEntry e) (x := x)
      (clamped := false) (untracked := false) rfl (firstBad_runOk hrun) he (by simp [hstate]) (by rw [if_neg hstate.1])
      (by rw [← herun]; exact hx.entry) fun q => State.departEntry_link q e s
    have ht := hx.answerTel p ((Telegram.dept run).tel seq) (.accept (.revision x.rev) false false)
    refine ⟨_, x, hexec, herun ▸ ht.entry, hanswered, ht.facts, hrev.trans (Entry.counted_rev_state hstate.1), ?_,
      ht.cues, herun ▸ ht.others, ht.beside, ht.speaking⟩
    exact State.Voided.answerTel (herun ▸ State.departEntry_voided e s) ..
  · exact (State.taking_answered htaking (u := s) (x := e) (clamped := false) (untracked := false) rfl (firstBad_runOk hrun) he
      (by simp [hdeparted]) (by rw [if_pos hdeparted]) he fun _ => rfl).1

/-! ## RINS -/

/-- A cancelled entry back in the list, its stages run. -/
def Entry.reinstated (p : Params) (e : Entry) : Entry :=
  Entry.recompute p.hysteresis { e with state := .listed, stateTime := none, reason := none }

theorem State.reinstate_eq (e : Entry) (s : State) :
    s.reinstate e = ((s.withdraw .cancel e.run).changeEntry e ((e.reinstated s.inForce).transition s.inForce s.now)).1.settle s := rfl

theorem Entry.reinstated_fields (p : Params) (e : Entry) :
    (e.reinstated p).run = e.run ∧ (e.reinstated p).state = .listed ∧ (e.reinstated p).displayed = e.displayed ∧
      (e.reinstated p).rev = e.rev := by
  obtain ⟨hrun, -, hstate, hdisp⟩ := Entry.recompute_keeps p.hysteresis { e with state := .listed, stateTime := none, reason := none }
  exact ⟨hrun, hstate, hdisp, Entry.recompute_rev ..⟩

theorem Entry.reinstated_transition (p : Params) (now : Int) (e : Entry) :
    (e.reinstated p).transition p now =
      { e.reinstated p with
        state :=
          if (e.reinstated p).exp ≤ now then .closed
          else if (e.reinstated p).displayed ≠ none ∧ (e.reinstated p).exp - p.boarding ≤ now then .boarding
          else .listed } := by
  obtain ⟨-, hstate, -⟩ := Entry.reinstated_fields p e
  obtain ⟨hclosed, hboarding, hlisted, -⟩ := Entry.transition_state p now (e.reinstated p)
  rw [Entry.transition_eq]
  refine congrArg (fun st => ({ e.reinstated p with state := st } : Entry)) ?_
  split
  next hexp => exact hclosed (.inl hstate) hexp
  next hexp =>
    split
    next hopen => exact hboarding hstate (by omega) hopen.1 hopen.2
    next hopen => exact hlisted hstate (by omega) (by rw [not_and_or, not_not] at hopen; exact hopen.imp_right (by omega))

theorem State.reinstate_reworked (hk : s.TableOk) (hold : s.entry? e.run = some e) (hstate : e.state = .cancelled) :
    ∃ x, s.Reworked (s.reinstate e) e ((e.reinstated s.inForce).transition s.inForce s.now) x := by
  obtain ⟨hrun, hlisted, -⟩ := Entry.reinstated_fields s.inForce e
  rw [State.reinstate_eq]
  refine State.reworked_of_change (fun hok hroom calls => (State.Numbered.of_room hok hroom calls e.run).withdrawWhere _)
    ((Entry.transition_fields ..).1.trans hrun) hk.2.1 hold (Entry.transition_not_retiring (by rw [hlisted]; exact nofun) _ _)
    (fun h => absurd (h.symm.trans hstate) nofun) (State.withdrawWhere_calm ..) (State.withdrawWhere_beside ..) rfl
    (State.settle_facts ..) (State.settle_calm ..) (State.settle_beside ..)
    (fun _ _ h => h.of_cues (State.settle_cues ..) (State.settle_sources ..)) fun _ h => State.settle_entry s h

theorem State.reinstate_withdrawn (e : Entry) (s : State) : (s.reinstate e).Withdrawn .cancel e.run := by
  obtain ⟨-, -, hdisp, -⟩ := Entry.reinstated_fields s.inForce e
  rw [State.reinstate_eq, State.Withdrawn, State.settle_cues]
  refine State.changeEntry_still (P := fun u => u.Withdrawn .cancel e.run) (hdisp.symm.trans (Entry.transition_fields ..).2.2.symm) ?_
    fun u o y hu => State.cueHandover_withdrawn_cancel hu o y
  rw [State.Withdrawn, (State.putEntry_blocks ..).2.1]
  exact State.withdraw_withdrawn .cancel e.run s

/-- Settles O26: the CANCEL cue is withdrawn and the entry, listed again, takes its stages and transitions. -/
theorem rinsReinstatesTheEntry : Obligations.RinsReinstatesTheEntry := by
  intro s p seq run e htaking hk hrun he
  have herun : e.run = run := entryIn_run he
  have hold : s.entry? e.run = some e := by rwa [herun]
  refine ⟨fun hin => ?_, fun hcancelled new hnew => ?_⟩
  · have hstate : e.state ≠ .departed ∧ e.state ≠ .cancelled ∧ e.state ≠ .retiring := by
      refine ⟨fun h => ?_, fun h => ?_, fun h => ?_⟩ <;> simp [Entry.inService, h] at hin
    exact (State.taking_answered htaking (u := s) (x := e) (clamped := false) (untracked := false) rfl (firstBad_runOk hrun) he
      (by simp [hstate]) (by rw [if_neg hstate.2.1]) he fun _ => rfl).1
  · obtain ⟨x, hx⟩ := State.reinstate_reworked hk hold hcancelled
    have htransition := Entry.reinstated_transition s.inForce s.now e
    obtain ⟨-, hlisted, -, hnrev⟩ := Entry.reinstated_fields s.inForce e
    rw [show e.reinstated s.inForce = new from hnew.symm] at hx htransition hlisted hnrev
    obtain ⟨hexec, hanswered⟩ := State.taking_answered htaking (u := s.reinstate e) (x := x)
      (clamped := false) (untracked := false) rfl (firstBad_runOk hrun) he (by simp [hcancelled]) (by rw [if_pos hcancelled])
      (by rw [← herun]; exact hx.entry) fun q => State.reinstate_link q e s
    have ht := hx.answerTel p ((Telegram.rins run).tel seq) (.accept (.revision x.rev) false false)
    refine ⟨_, x, hexec, herun ▸ ht.entry, hanswered, ?_, fun hnone => ?_, herun ▸ State.reinstate_withdrawn e s,
      ht.cues, herun ▸ ht.others, ht.beside, ht.speaking⟩
    · rw [ht.facts, htransition]
      rfl
    · have hmoved : e.state ≠ (new.transition s.inForce s.now).state := by
        rw [hcancelled, htransition]
        dsimp only
        split
        · exact nofun
        · split <;> exact nofun
      rw [ht.rev (.inl (herun ▸ hnone)) (by rw [Entry.transition_rev, hnrev]), Entry.sameShown_state hmoved]
      rfl

end Sys2Proof.Machine
end

section
/-! PROOF. PRED and the stale predictions (R27, R29 to R32). -/
namespace Sys2Proof.Machine

open Sys2Proof

variable {s t u v w : State} {run : Nat} {e x y old new : Entry} {g : Filter}

/-! ## An entry whose filter moves -/

theorem Entry.filter_sameShown (e : Entry) (g : Filter) : e.sameShown { e with filter := g } = true := by
  simp [Entry.sameShown, Entry.displayed]

theorem State.updFilter_eq (hk : s.TableOk) (hold : s.entry? e.run = some e) (g : Filter) :
    (s.updEntry e.run fun _ => { e with filter := g }) = s.putEntry e { e with filter := g } := by
  have hput : s.putEntry e { e with filter := g } =
      s.withEntries (updWhere (·.run = e.run) (fun _ => { e with filter := g }) s.table.entries) := if_pos ⟨rfl, rfl⟩
  have hsorted := hk.put_sorted (new := { e with filter := g }) hold rfl rfl rfl
  rw [hput, State.updEntry, State.withEntries, hsorted]

/-- A filter that moves with no stage run leaves all that is shown (R29). -/
theorem State.updFilter_reworked (hk : s.TableOk) (hold : s.entry? e.run = some e) (g : Filter) :
    s.Reworked (s.updEntry e.run fun _ => { e with filter := g }) e { e with filter := g } { e with filter := g } := by
  have hentry := State.putEntry_entry e { e with filter := g } s rfl hk.2.1
  rw [← State.updFilter_eq hk hold g] at hentry
  refine ⟨?_, rfl, fun _ _ => ?_, fun _ _ hchanged => ?_, fun r hr => ?_, ⟨rfl, rfl, rfl, rfl⟩, fun _ => rfl⟩
  · rw [hentry, if_pos rfl, hold]
    rfl
  · rw [if_pos (Entry.filter_sameShown e g)]
  · simp [Entry.displayed] at hchanged
  · rw [hentry, if_neg hr]

/-- The entry that a moved filter leaves: with the stages run and the transitions tested, or as it was but for the filter. -/
def State.refiltered (e : Entry) (g : Filter) (runs : Bool) (s : State) : Entry :=
  if runs then s.retest e (Entry.recompute s.inForce.hysteresis { e with filter := g }) else { e with filter := g }

theorem State.refilter_silent (e : Entry) (g : Filter) (s : State) :
    s.refilter e g false = s.updEntry e.run fun _ => { e with filter := g } := rfl

theorem State.refilter_reworked (hk : s.TableOk) (hold : s.entry? e.run = some e) (hin : e.inService = true) (g : Filter)
    (runs : Bool) : ∃ x, s.Reworked (s.refilter e g runs) e (s.refiltered e g runs) x ∧ (runs = false → x = { e with filter := g }) := by
  cases runs with
  | false => exact ⟨_, State.updFilter_reworked hk hold g, fun _ => rfl⟩
  | true =>
    obtain ⟨hrun, -, hstate, -⟩ := Entry.recompute_keeps s.inForce.hysteresis { e with filter := g }
    obtain ⟨x, hx⟩ := State.amendEntry_reworked (new := Entry.recompute s.inForce.hysteresis { e with filter := g }) hk hold hrun
      (by rw [hstate]; exact Entry.inService_not_retiring hin)
    exact ⟨x, hx, nofun⟩

theorem State.refiltered_rev (s : State) (e : Entry) (g : Filter) (runs : Bool) : (s.refiltered e g runs).rev = e.rev := by
  cases runs with
  | false => rfl
  | true => exact State.retest_rev.trans (Entry.recompute_rev ..)

/-- The count of the candidate that a prediction of `m` minutes brings (R29). -/
def Filter.counted (c m : Nat) (f : Filter) : Nat := if f.cand = some m then min c (f.k + 1) else 1

theorem Filter.take_eq (c m : Nat) (f : Filter) :
    f.take c m =
      if f.counted c m = c then
        if f.dp = some m then ({ f with cand := some m, k := f.counted c m, age := 0 }, .refreshed)
        else ({ dp := some m, cand := some m, k := f.counted c m, age := 0 }, .adopted)
      else ({ f with cand := some m, k := f.counted c m }, .pending) := by
  have hfirst : (if f.cand = some m then { f with k := min c (f.k + 1) } else { f with cand := some m, k := 1 }) =
      { f with cand := some m, k := f.counted c m } := by
    unfold Filter.counted
    split
    next hcand => rw [← hcand]
    · rfl
  unfold Filter.take
  rw [hfirst]

/-- What every telegram and event that moves a filter leaves, its entry `e` standing as `x` (R29 to R34). -/
def State.FilterMoved (s w : State) (e : Entry) (g : Filter) (runs : Bool) (x : Entry) : Prop :=
  s.Reworked w e (s.refiltered e g runs) x ∧ (runs = false → x = { e with filter := g } ∧ w = s.updEntry e.run fun _ => x)

theorem State.refilter_moved_to (hk : s.TableOk) (hold : s.entry? e.run = some e) (hin : e.inService = true) (g : Filter)
    (runs : Bool) : ∃ x, s.FilterMoved (s.refilter e g runs) e g runs x := by
  obtain ⟨x, hx, hsilent⟩ := State.refilter_reworked hk hold hin g runs
  refine ⟨x, hx, fun hruns => ⟨hsilent hruns, ?_⟩⟩
  rw [hsilent hruns, hruns]
  rfl

/-- The filter that a prediction gives, and whether it runs the stages (R29 to R31). -/
theorem State.predict_refilters (n : Int) {m k : Nat} (hm : m = roundPrediction n)
    (hk : k = if e.filter.cand = some m then min s.inForce.confirm (e.filter.k + 1) else 1) :
    ∃ g runs, s.predict e n = s.refilter e g runs ∧
      (k ≠ s.inForce.confirm → g = { e.filter with cand := some m, k := k } ∧ runs = false) ∧
      (k = s.inForce.confirm → e.filter.dp = some m → g = { e.filter with cand := some m, k := k, age := 0 } ∧ runs = false) ∧
      (k = s.inForce.confirm → e.filter.dp ≠ some m → g = { dp := some m, cand := some m, k := k, age := 0 } ∧ runs = true) := by
  have hcounted : e.filter.counted s.inForce.confirm m = k := hk.symm
  obtain ⟨r, hr⟩ : ∃ r, e.filter.take s.inForce.confirm m = r := ⟨_, rfl⟩
  have hpredict : s.predict e n = s.refilter e r.1 (r.2 = .adopted) := by
    unfold State.predict
    rw [← hm, hr]
  refine ⟨_, _, hpredict, ?_⟩
  rw [Filter.take_eq, hcounted] at hr
  rw [← hr]
  refine ⟨fun hne => ?_, fun heq hdp => ?_, fun heq hdp => ?_⟩
  · rw [if_neg hne]
    exact ⟨rfl, rfl⟩
  · rw [if_pos heq, if_pos hdp]
    exact ⟨rfl, rfl⟩
  · rw [if_pos heq, if_neg hdp]
    exact ⟨rfl, rfl⟩

theorem clampSeconds_ne_iff (n : Int) : decide (clampSeconds n ≠ n) = decide (n < -3600 ∨ 43200 < n) := by
  refine decide_eq_decide.2 ?_
  unfold clampSeconds
  omega

/-- What a PRED does to the filter of its entry (R29 to R31). -/
structure State.PredMoves (s : State) (f : PredFields) (e : Entry) (m k : Nat) (g : Filter) (runs : Bool) : Prop where
  pending : f.mode = 0 → k ≠ s.inForce.confirm → g = { e.filter with cand := some m, k := k } ∧ runs = false
  refreshed : f.mode = 0 → k = s.inForce.confirm → e.filter.dp = some m →
    g = { e.filter with cand := some m, k := k, age := 0 } ∧ runs = false
  adopted : f.mode = 0 → k = s.inForce.confirm → e.filter.dp ≠ some m →
    g = { dp := some m, cand := some m, k := k, age := 0 } ∧ runs = true
  withdrawn : f.mode = 1 → g = Filter.empty ∧ runs = e.filter.dp.isSome

theorem predOwner_moves {f : PredFields} (hrun : f.run ≠ 0) (hmode : f.mode ≤ 1) (he : s.entry? f.run = some e)
    (hin : e.inService = true) {m k : Nat} (hm : m = roundPrediction (max (-3600) (min 43200 f.seconds)))
    (hk : k = if e.filter.cand = some m then min s.inForce.confirm (e.filter.k + 1) else 1) :
    ∃ g runs, s.PredMoves f e m k g runs ∧
      predOwner f s = State.acceptRevision f.run (s.refilter e g runs)
        (clamped := f.mode = 0 ∧ (f.seconds < -3600 ∨ 43200 < f.seconds)) := by
  have hfound := State.onEntry_found (allowed := Entry.inService)
    (act := fun e =>
      if f.mode = 1 then State.acceptRevision f.run (s.refilter e Filter.empty e.filter.dp.isSome)
      else State.acceptRevision f.run (s.predict e (clampSeconds f.seconds)) (clamped := clampSeconds f.seconds ≠ f.seconds))
    (firstBad_runOk_limit (n := f.mode) hrun hmode) he
  rw [if_pos hin] at hfound
  obtain hzero | hone : f.mode = 0 ∨ f.mode = 1 := by omega
  · obtain ⟨g, runs, heq, hpending, hrefreshed, hadopted⟩ := State.predict_refilters (s := s) (e := e) (clampSeconds f.seconds) hm hk
    refine ⟨g, runs, ⟨fun _ => hpending, fun _ => hrefreshed, fun _ => hadopted, fun h => absurd (hzero.symm.trans h) nofun⟩, ?_⟩
    refine hfound.trans ?_
    rw [if_neg (by rw [hzero]; exact nofun), heq, clampSeconds_ne_iff]
    simp [hzero]
  · refine ⟨_, _, ⟨fun h => ?_, fun h => ?_, fun h => ?_, fun _ => ⟨rfl, rfl⟩⟩, hfound.trans ?_⟩
    · exact absurd (hone.symm.trans h) nofun
    · exact absurd (hone.symm.trans h) nofun
    · exact absurd (hone.symm.trans h) nofun
    · rw [if_pos hone]
      simp [hone]

/-- Settles O29, by what PRED does to the filter and what a moved filter leaves. -/
theorem predMovesTheFilter : Obligations.PredMovesTheFilter := by
  intro s p seq f e htaking hk hrun hmode he hin m k hm hkc
  have herun : e.run = f.run := entryIn_run he
  have hold : s.entry? e.run = some e := by rwa [herun]
  obtain ⟨g, runs, hmoves, howner⟩ := predOwner_moves hrun hmode he hin hm hkc
  obtain ⟨x, hx, hsilent⟩ := State.refilter_moved_to hk hold hin g runs
  have hanswer : (Telegram.pred f).handled p s = (s.refilter e g runs, .accept (.revision x.rev)
      (f.mode = 0 ∧ (f.seconds < -3600 ∨ 43200 < f.seconds)) false) := by
    refine howner.trans ?_
    rw [State.acceptRevision, State.revisionOf, ← herun, hx.entry]
  obtain ⟨hexec, hanswered⟩ := exec_taking_answered htaking hanswer fun q => State.refilter_link q e g runs s
  have ht := hx.answerTel p ((Telegram.pred f).tel seq) (.accept (.revision x.rev)
    (f.mode = 0 ∧ (f.seconds < -3600 ∨ 43200 < f.seconds)) false)
  have hrev := ht.rev
  rw [herun] at hrev
  have hstill (hruns : runs = false) : x = { e with filter := g } ∧
      (s.refilter e g runs).table.entries = updWhere (·.run = f.run) (fun _ => x) s.table.entries ∧
      (s.refilter e g runs).cues = s.cues ∧ (s.refilter e g runs).bus = s.bus := by
    obtain ⟨hxeq, hw⟩ := hsilent hruns
    rw [hw, ← herun]
    exact ⟨hxeq, rfl, rfl, rfl⟩
  refine ⟨_, x, hexec, herun ▸ ht.entry, hanswered, fun h0 hlt => ?_, fun h0 hkeq hdp => ?_, fun h0 hkeq hdp => ?_,
    fun h0 hkeq hdp hnone new hnew => ?_, fun h1 => ?_, fun h1 hdp => ?_, fun h1 hdp hnone new hnew => ?_,
    ht.cues, herun ▸ ht.others, ht.beside, ht.speaking⟩
  · obtain ⟨hg, hruns⟩ := hmoves.pending h0 (by omega)
    obtain ⟨hxeq, hentries, hcues, hbus⟩ := hstill hruns
    exact ⟨hentries, by rw [hxeq, hg], hcues, hbus⟩
  · obtain ⟨hg, hruns⟩ := hmoves.refreshed h0 hkeq hdp
    obtain ⟨hxeq, hentries, hcues, hbus⟩ := hstill hruns
    exact ⟨hentries, by rw [hxeq, hg], hcues, hbus⟩
  · obtain ⟨hg, hruns⟩ := hmoves.adopted h0 hkeq hdp
    rw [ht.facts, hg, hruns]
    rfl
  · obtain ⟨hg, hruns⟩ := hmoves.adopted h0 hkeq hdp
    rw [hrev (.inl hnone) (State.refiltered_rev ..), hnew, hg, hruns]
    rfl
  · obtain ⟨hg, hruns⟩ := hmoves.withdrawn h1
    rw [ht.facts, hg, hruns]
    cases e.filter.dp <;> rfl
  · obtain ⟨hg, hruns⟩ := hmoves.withdrawn h1
    obtain ⟨hxeq, -, hcues, hbus⟩ := hstill (by rw [hruns, hdp]; rfl)
    exact ⟨by rw [hxeq], hcues, hbus⟩
  · obtain ⟨hg, hruns⟩ := hmoves.withdrawn h1
    have htrue : runs = true := by rw [hruns, Option.isSome_iff_ne_none.2 hdp]
    rw [hrev (.inl hnone) (State.refiltered_rev ..), hnew, hg, htrue]
    rfl

end Sys2Proof.Machine
end

section
/-! PROOF. AMND and the stale predictions (R15, R32). -/
namespace Sys2Proof.Machine

open Sys2Proof

variable {s t u v w : State} {run : Nat} {e x y old new : Entry} {g : Filter}

/-! ## AMND -/

theorem outOf_nil {i : Nat} {bad : Prop} [Decidable bad] (h : outOf i bad = []) : ¬bad := fun hb => by simp [outOf, hb] at h

theorem AmndFields.clock_of_faults {p : Params} {f : AmndFields} (h : f.inRange p = true) :
    (∀ c, f.clock = some c → ∃ d, f.day = some d ∧ d ≤ 1) := by
  have hfaults : f.faults p = [] := of_decide_eq_true h
  simp only [AmndFields.faults, List.append_eq_nil_iff] at hfaults
  obtain ⟨⟨⟨-, -⟩, hday⟩, -⟩ := hfaults
  intro c hc
  have hbad := outOf_nil hday
  rw [not_or] at hbad
  cases hd : f.day with
  | none => exact absurd ⟨hd, by rw [hc]; exact nofun⟩ hbad.2
  | some d => exact ⟨d, rfl, Nat.not_lt.1 fun hlt => hbad.1 ⟨d, hd, hlt⟩⟩

theorem AmndFields.sched_eq {p : Params} {f : AmndFields} (h : f.inRange p = true) :
    f.sched p.dayStart =
        (f.clock.map fun c => ((c.1 * 60 + c.2 : Int) - p.dayStart) % 1440 + 1440 * f.day.getD 0) := by
  cases hc : f.clock with
  | none => simp [AmndFields.sched, hc]
  | some c =>
    obtain ⟨d, hd, hle⟩ := f.clock_of_faults h c hc
    simp [AmndFields.sched, hc, hd, schedMinute_eq hle]

theorem State.changeEntry_tracked (hdisp : old.displayed = new.displayed) : (s.changeEntry old new).2 = false := by
  have hcdisp : old.displayed = (old.counted new).displayed :=
    hdisp.trans (congrArg Entry.displayed (Entry.counted_facts old new).symm :)
  simp only [State.changeEntry, if_pos hcdisp]

theorem State.amendEntry_tracked (hdisp : old.displayed = new.displayed) : (s.amendEntry old new).2 = false := by
  unfold State.amendEntry
  split
  · rfl
  · exact State.changeEntry_tracked (hdisp.trans (State.retest_displayed ..).symm)

/-- Settles O23, by what an amended entry leaves. -/
theorem amndReplacesTheFieldsGiven : Obligations.AmndReplacesTheFieldsGiven := by
  intro s p seq f e new sched htaking hk hrange he hin hsched hnew
  have herun : e.run = f.run := entryIn_run he
  have hold : s.entry? e.run = some e := by rwa [herun]
  have hfsched := AmndFields.sched_eq hrange
  have hamend : e.amend s.inForce.dayStart f = new := by
    have hgetD : (f.sched s.inForce.dayStart).getD e.sched = sched := by
      rw [hfsched, hsched]
      cases f.clock <;> rfl
    rw [hnew, Entry.amend, hgetD]
    rfl
  have hchecks : firstBad (amndChecks s.inForce f) = none := by
    rw [firstBad_eq_head?, amndChecks_faults, of_decide_eq_true hrange]
    rfl
  have hfound := State.onEntry_found (allowed := Entry.inService)
    (act := fun e =>
      if (f.sched s.inForce.dayStart).any (· < s.now - s.inForce.overdue) then (s, Answer.refuse .past)
      else State.acceptRevision f.run (s.amendEntry e (e.amend s.inForce.dayStart f)).1 (clamped := amndClamped f)
        (untracked := (s.amendEntry e (e.amend s.inForce.dayStart f)).2)) hchecks he
  rw [if_pos hin] at hfound
  have hpast : (f.sched s.inForce.dayStart).any (· < s.now - s.inForce.overdue) = true ↔
      f.clock ≠ none ∧ sched < s.now - s.inForce.overdue := by
    rw [hfsched, hsched]
    cases f.clock <;> simp
  refine ⟨fun hclock hlt => ?_, fun hopen => ?_⟩
  · exact exec_taking_refused htaking (hfound.trans (if_pos (hpast.2 ⟨hclock, hlt⟩)))
  · rw [if_neg fun h => hopen.elim (hpast.1 h).1 (not_le.2 (hpast.1 h).2), hamend] at hfound
    have hnrun : new.run = e.run := by rw [hnew]
    obtain ⟨x, hx⟩ := State.amendEntry_reworked (new := new) hk hold hnrun (by rw [hnew]; exact Entry.inService_not_retiring hin)
    have hanswer : (Telegram.amnd f).handled p s =
        ((s.amendEntry e new).1, .accept (.revision x.rev) (amndClamped f) (s.amendEntry e new).2) := by
      refine hfound.trans ?_
      rw [State.acceptRevision, State.revisionOf, ← herun, hx.entry]
    obtain ⟨hexec, hanswered⟩ := exec_taking_answered htaking hanswer fun q => State.amendEntry_link q e new s
    have ht := hx.answerTel p ((Telegram.amnd f).tel seq)
      (.accept (.revision x.rev) (amndClamped f) (s.amendEntry e new).2)
    have hrev := ht.rev
    rw [herun, State.retest_rev, State.retest_displayed] at hrev
    have hnrev : new.rev = e.rev := by rw [hnew]
    refine ⟨_, x, (s.amendEntry e new).2, hexec, herun ▸ ht.entry, hanswered, ht.facts, fun hnone hdisp => ?_,
      fun hdisp hnone => ?_, ht.cues, herun ▸ ht.others, ht.beside, ht.speaking⟩
    · exact ⟨State.amendEntry_tracked hdisp, hrev (.inl hnone) hnrev⟩
    · have hshown : e.sameShown (s.retest e new) = false :=
        Bool.eq_false_iff.2 fun h => hdisp (by rw [(Entry.sameShown_fields h).2.1, State.retest_displayed])
      rw [hrev ?_ hnrev, hshown, if_neg nofun]
      by_cases hd : e.displayed = none
      · exact .inl (hnone hd)
      · exact .inr ⟨hdisp, hd⟩

/-! ## A stale prediction -/

theorem State.Reworked.finish (h : s.Reworked w old new x) (o : State) : s.Reworked (w.finish o) old new x := by
  have hsrc : (w.finish o).sources = w.sources := State.finish_sources ..
  have hcues := State.finish_cues w o
  have htable := State.finish_table w o
  refine ⟨?_, h.facts, h.rev, fun hok hroom hchanged => ?_, fun r hr => ?_, h.beside.trans (State.finish_beside w o), fun hok => ?_⟩
  · rw [State.entry?, htable]
    exact h.entry
  · have hfollow := h.cues hok hroom hchanged
    have hnow : (w.finish o).now = w.now := State.now_of_sources hsrc
    have hin : (w.finish o).inForce = w.inForce := State.inForce_of_sources hsrc
    rw [State.CuesFollow, hnow, hin, State.Withdrawn, State.Withdrawn, State.Withdrawn, hcues]
    exact hfollow
  · rw [State.entry?, htable]
    exact h.others r hr
  · rw [State.speaking, hcues]
    exact h.speaking hok

theorem State.clearFilter_reworked (hk : s.TableOk) (he : s.entry? run = some e) (hdp : e.filter.dp ≠ none) :
    ∃ x, s.Reworked ((s.clearFilter run).finish s) e (s.refiltered e Filter.empty e.inService) x := by
  have herun : e.run = run := entryIn_run he
  have hold : s.entry? e.run = some e := by rwa [herun]
  have hsome : e.filter.dp.isSome = true := Option.isSome_iff_ne_none.2 hdp
  cases hin : e.inService with
  | false =>
    have hclear : s.clearFilter run = s.updEntry e.run fun _ => { e with filter := Filter.empty } := by
      simp only [State.clearFilter, he, hin, hsome, herun]
      rfl
    rw [hclear]
    exact ⟨_, (State.updFilter_reworked hk hold Filter.empty).finish s⟩
  | true =>
    obtain ⟨hrun, -, hstate, -⟩ := Entry.recompute_keeps s.inForce.hysteresis { e with filter := Filter.empty }
    have hclear : (s.clearFilter run).finish s = (s.changeEntry e (s.refiltered e Filter.empty true)).1.settle s := by
      simp only [State.clearFilter, he, hin, hsome]
      rfl
    rw [hclear]
    refine State.changeEntry_settled hk hold ((State.retest_run ..).trans hrun) (State.retest_not_retiring ?_ s e)
      (fun _ => State.retest_boarding) s
    rw [hstate]
    exact Entry.inService_not_retiring hin

/-- Settles O33, by what a cleared filter leaves. -/
theorem stalePredictionsAreCleared : Obligations.StalePredictionsAreCleared := by
  intro s run e hp hk he hmoved
  have herun : e.run = run := entryIn_run he
  refine ⟨fun hdp hstale => ?_, fun hno => ?_⟩
  · obtain ⟨x, hx⟩ := State.clearFilter_reworked hk he hdp
    have hrev := hx.rev
    rw [herun] at hrev
    have hexec : exec (.predictionStale run) s = .next ((s.clearFilter run).finish s) := by
      rw [← State.answer_powered hp]
      refine congrArg s.answer ?_
      rw [he]
      exact if_pos ⟨Option.isSome_iff_ne_none.2 hdp, hstale, by rw [hmoved]; exact nofun⟩
    refine ⟨_, x, hexec, herun ▸ hx.entry, hx.facts, fun hnone new hnew => ?_, hx.cues, fun q => ?_, herun ▸ hx.others, hx.beside,
      hx.speaking⟩
    · rw [hrev (.inl hnone) (State.refiltered_rev ..), hnew, State.refiltered]
      cases e.inService with
      | false => simp [Entry.filter_sameShown]
      | true => simp
    · rw [State.finish_link, State.clearFilter_link]
  · rw [← State.answer_self s]
    refine congrArg s.answer ?_
    rw [he]
    exact if_neg fun ⟨hsome, hlt, _⟩ => hno.elim (Option.isSome_iff_ne_none.1 hsome) (by omega)

end Sys2Proof.Machine
end

section
/-! PROOF. A trigger that finds no cue of its kind and run: with room, and in a full list (R83, R94). -/
namespace Sys2Proof.Machine

open Sys2Proof

variable {s t u v w : State} {kind : CueKind} {run : Nat} {e x y old new : Entry} {zones : List Nat} {due : Int} {c d : Cue}
  {before after l : List Cue} {o : Option Entry}

/-! ## The cue that gives its place -/

/-- The WAITING cues that a new cue of the priority number may displace (R94). -/
def yields (prio : Nat) (c : Cue) : Bool := c.state = .waiting && prio < c.kind.priority

theorem displaced_eq (prio : Nat) (l : List Cue) :
    displaced prio l = (l.filter (yields prio)).foldl (bestOf fun c b => displacedBefore b c) none := rfl

theorem displaced_of_greatest {prio : Nat} (hwaiting : d.state = .waiting) (hprio : prio < d.kind.priority)
    (hbefore : ∀ b ∈ before, b.state = .waiting →
      b.kind.priority < d.kind.priority ∨ (b.kind.priority = d.kind.priority ∧ b.due ≤ d.due))
    (hafter : ∀ b ∈ after, b.state = .waiting →
      b.kind.priority < d.kind.priority ∨ (b.kind.priority = d.kind.priority ∧ b.due < d.due)) :
    displaced prio (before ++ d :: after) = some d := by
  have hstate {b : Cue} (hb : yields prio b = true) : b.state = .waiting := by
    simp only [yields, Bool.and_eq_true, decide_eq_true_eq] at hb
    exact hb.1
  rw [displaced_eq]
  refine foldl_bestOf_split (by simp [yields, hwaiting, hprio]) (fun b hb hy => ?_) fun b hb hy => ?_
  · simpa [displacedBefore] using hbefore b hb (hstate hy)
  · have := hafter b hb (hstate hy)
    simp only [displacedBefore, Bool.or_eq_false_iff, Bool.and_eq_false_iff, decide_eq_false_iff_not]
    omega

theorem displaced_none {prio : Nat} (h : ∀ c ∈ l, c.state = .waiting → c.kind.priority ≤ prio) : displaced prio l = none := by
  rw [displaced_eq, List.filter_eq_nil_iff.2 fun c hc => ?_]
  · rfl
  · simp only [yields, Bool.and_eq_true, decide_eq_true_eq, not_and]
    exact fun hw => Nat.not_lt.2 (h c hc hw)

/-! ## The trigger -/

/-- A port's list with CUE_DROPPED offered for the runs in turn (R94). -/
def Port.dropped (clock : Nat) (runs : List Nat) (r : Port) : Port :=
  runs.foldl (fun r run => r.post ⟨.cueDropped, .run run, clock⟩) r

theorem Port.dropped_append (clock : Nat) (l m : List Nat) (r : Port) :
    r.dropped clock (l ++ m) = (r.dropped clock l).dropped clock m := List.foldl_append

/-- A trigger made for a run that has no cue of the kind, and the ports that hear of it. -/
structure State.Called (kind : CueKind) (run : Nat) (zones : List Nat) (due : Int) (s t : State) (lost : Option Nat) : Prop where
  list : CueCalled s.now kind run zones due s.cues.list t.cues.list lost
  ports : ∀ q, q = .planning ∨ q = .announcement → t.port q = (s.port q).dropped s.time.clock lost.toList

theorem newCue_made (n : Nat) (kind : CueKind) (run : Nat) (zones : List Nat) (due now : Int) :
    (newCue n kind run zones due now).Made now kind run zones due :=
  ⟨rfl, rfl, fun _ => Iff.rfl, rfl, rfl, rfl, rfl, rfl⟩

theorem State.postDropped_ports {q : PortId} (h : q = .planning ∨ q = .announcement) (run : Nat) (s : State) :
    (s.postDropped run).port q = (s.port q).dropped s.time.clock [run] := by
  rw [State.postDropped, State.post_port (names := [.planning, .announcement]) (by decide), if_pos (by simpa using h)]
  rfl

theorem filter_number_split (hbefore : ∀ b ∈ before, b.number ≠ d.number) (hafter : ∀ b ∈ after, b.number ≠ d.number) :
    (before ++ d :: after).filter (fun c => decide (c.number ≠ d.number)) = before ++ after := by
  rw [List.filter_append, List.filter_cons_of_neg (by simp), List.filter_eq_self.2 fun b hb => decide_eq_true (hbefore b hb),
    List.filter_eq_self.2 fun b hb => decide_eq_true (hafter b hb)]

/-- The cue list after the new cue has taken the place of another (R94). -/
theorem State.appendCue_over (hbefore : ∀ b ∈ before, b.number ≠ d.number) (hafter : ∀ b ∈ after, b.number ≠ d.number)
    (hlist : s.cues.list = before ++ d :: after) (kind : CueKind) (run : Nat) (zones : List Nat) (due : Int) :
    (((s.withCues (s.cues.list.filter (·.number ≠ d.number))).postDropped d.run).appendCue kind run zones due).cues.list =
      before ++ after ++
        [newCue ((s.withCues (s.cues.list.filter (·.number ≠ d.number))).appendCue kind run zones due).cues.last kind run zones
          due s.now] := by
  rw [State.postDropped_appendCue, State.postDropped, State.post_cues, State.appendCue_list, State.withCues, hlist,
    filter_number_split hbefore hafter]
  rfl

theorem State.trigger_called (h : s.CuesOk) (hnone : s.cue? kind run = none) (zones : List Nat) (due : Int) :
    ∃ lost, State.Called kind run zones due s (s.trigger kind run zones due) lost := by
  have hlen := h.1
  unfold State.trigger
  rw [hnone, Option.isSome_none, if_neg nofun]
  split
  next hroom =>
    refine ⟨none, ⟨fun _ => ⟨rfl, _, State.appendCue_list .., newCue_made ..⟩, fun hfull => ?_⟩, fun _ _ => rfl⟩
    omega
  next hroom =>
    cases hd : displaced kind.priority s.cues.list with
    | none =>
      refine ⟨some run, ⟨fun hlt => absurd hlt hroom, fun _ => ⟨fun before d after hl hw hp hb ha => ?_, fun _ => ?_⟩⟩, fun q hq => ?_⟩
      · rw [hl, displaced_of_greatest hw hp hb ha] at hd
        cases hd
      · exact ⟨rfl, by rw [State.postDropped, State.post_cues]⟩
      · exact State.postDropped_ports hq run s
    | some d =>
      refine ⟨some d.run, ⟨fun hlt => absurd hlt hroom, fun _ => ⟨fun before d' after hl hw hp hb ha => ?_, fun hall => ?_⟩⟩, fun q hq => ?_⟩
      · rw [hl, displaced_of_greatest hw hp hb ha] at hd
        obtain rfl := Option.some.inj hd
        obtain ⟨hbefore, hafter⟩ := h.split hl
        exact ⟨rfl, _, State.appendCue_over hbefore hafter hl kind run zones due, newCue_made ..⟩
      · rw [displaced_none hall] at hd
        cases hd
      · dsimp only
        rw [State.postDropped_appendCue, State.postDropped_ports hq]
        rfl

/-! ## A handover for a run that has no cue but CHANGE and CANCEL -/

theorem State.cue?_none_of_runs (h : ∀ c ∈ s.cues.list, c.run ≠ run) (kind : CueKind) : s.cue? kind run = none :=
  State.cue?_none_iff.2 fun c hc hown => h c hc hown.2

/-- No cue of the run is one that a handover may withdraw or move (R87, R95). -/
def State.Fixed (run : Nat) (s : State) : Prop := ∀ c ∈ s.cues.list, c.run = run → c.kind = .change ∨ c.kind = .cancel

theorem State.Fixed.of_runs (h : ∀ c ∈ s.cues.list, c.run ≠ run) : s.Fixed run := fun c hc hrun => absurd hrun (h c hc)

theorem State.Fixed.cue? (h : s.Fixed run) (hkind : kind ≠ .change ∧ kind ≠ .cancel) : s.cue? kind run = none :=
  State.cue?_none_iff.2 fun c hc hown =>
    (h c hc hown.2).elim (fun hk => hkind.1 (hown.1.symm.trans hk)) fun hk => hkind.2 (hown.1.symm.trans hk)

theorem State.withCues_self (s : State) : s.withCues s.cues.list = s := rfl

theorem State.withdrawWhere_none {p : Cue → Bool} (h : ∀ c ∈ s.cues.list, p c = false) : s.withdrawWhere p = s := by
  have hlist : (s.withdrawWhere p).cues.list = s.cues.list := by
    rw [State.withdrawWhere_list, List.filter_eq_self.2 fun c hc => by simp [h c hc]]
    refine (List.map_congr_left (g := id) fun c hc => ?_).trans (List.map_id _)
    rw [h c hc]
    rfl
  rw [← State.withCues_self (State.withdrawWhere p s), hlist]
  rfl

theorem State.handoverPlaces_eq (h : s.Fixed e.run) (o : Option Entry) : s.handoverPlaces o e = s := by
  have hdrawn : s.handoverWithdrawals o e = s := by
    rw [State.handoverWithdrawals_eq]
    refine State.withdrawWhere_none fun c hc => ?_
    by_cases hrun : c.run = e.run
    · obtain hk | hk := h c hc hrun <;> simp [hk, Entry.withdraws]
    · simp [hrun]
  rw [State.handoverPlaces, hdrawn]
  have hlist : updWhere (·.run = e.run) (Cue.follow s.inForce s.now e.exp) s.cues.list = s.cues.list := by
    refine (List.map_congr_left (g := id) fun c hc => ?_).trans (List.map_id _)
    by_cases hrun : c.run = e.run
    · have hkind : c.kind ≠ .platform ∧ c.kind ≠ .final := by
        obtain hk | hk := h c hc hrun <;> rw [hk] <;> decide
      simp [hrun, Cue.follow_other hkind.1 hkind.2]
    · simp [hrun]
  rw [hlist, State.withCues_self]

/-- The PLATFORM cue of a handover called for or not (R88). -/
def State.platformCalled (o : Option Entry) (e : Entry) (s : State) : State :=
  if e.wantsPlatformCue then
    (s.handoverPlaces o e).trigger .platform e.run (0 :: e.displayed.toList) (e.exp - s.inForce.platformLead)
  else s.handoverPlaces o e

/-- The DELAY cue of a handover called for or not (R90). -/
def State.delayCalled (e : Entry) (s : State) : State :=
  if s.inForce.wantsDelayCue e then s.trigger .delay e.run (0 :: e.displayed.toList) s.now else s

theorem State.cueHandover_eq (o : Option Entry) (e : Entry) (s : State) :
    s.cueHandover o e = ((s.platformCalled o e).delayCalled e).handoverFinal o e := rfl

theorem State.handoverFinal_quiet (hentered : enteredBoarding o e = false)
    (hquiet : e.state ≠ .boarding ∨ o.bind (·.displayed) = e.displayed ∨ s.cue? .final e.run = none) : s.handoverFinal o e = s := by
  unfold State.handoverFinal
  dsimp only
  rw [hentered, if_neg nofun, if_neg]
  rintro ⟨hs, hne, -, hsome⟩
  obtain hn | hn | hn := hquiet
  · exact hn hs
  · exact hne hn
  · simp [hn] at hsome

/-- A handover that calls for nothing, of a run that has no cue to withdraw or move. -/
theorem State.cueHandover_quiet (h : s.Fixed e.run) (o : Option Entry) (hplatform : e.wantsPlatformCue = false)
    (hdelay : s.inForce.wantsDelayCue e = false) (hentered : enteredBoarding o e = false) : s.cueHandover o e = s := by
  rw [State.cueHandover_eq, State.platformCalled, hplatform, if_neg nofun, State.handoverPlaces_eq h, State.delayCalled, hdelay,
    if_neg nofun]
  exact State.handoverFinal_quiet hentered (.inr (.inr (h.cue? (by decide))))

end Sys2Proof.Machine
end

section
/-! PROOF. DLAY (R16, R38). -/
namespace Sys2Proof.Machine

open Sys2Proof

variable {s t u v w : State} {kind : CueKind} {run : Nat} {e x y old new : Entry} {zones : List Nat} {due : Int} {lost : Option Nat}

/-! ## A cue called in a change -/

theorem State.Called.of_start (h : State.Called kind run zones due u v lost) (hcues : u.cues = s.cues) (hports : u.ports = s.ports)
    (hsrc : u.sources = s.sources) : State.Called kind run zones due s v lost := by
  refine ⟨?_, fun q hq => ?_⟩
  · have hlist := h.list
    rwa [hcues, State.now_of_sources hsrc] at hlist
  · rw [h.ports q hq, State.clock_of_sources hsrc, State.port, State.port, hports]

/-- The cue list and the ports after what comes of a called cue. -/
theorem State.Called.after (h : State.Called kind run zones due s v lost) (hcues : t.cues = v.cues)
    (hheard : ∀ q, (v.port q).Heard (t.port q)) :
    CueCalled s.now kind run zones due s.cues.list t.cues.list lost ∧ s.RunsDropped t lost.toList := by
  refine ⟨?_, fun q hq => ?_⟩
  · rw [hcues]
    exact h.list
  · have hprefix := (hheard q).1
    rwa [h.ports q hq] at hprefix

/-- A change with the displayed platform and the state as they were makes the handover of Dd and A alone (R38). -/
theorem State.changeEntry_delayed (hrun : new.run = old.run) (hnodup : (s.table.entries.map (·.run)).Nodup)
    (hold : s.entry? old.run = some old) (hdisp : old.displayed = new.displayed) (hstate : old.state = new.state) :
    (s.changeEntry old new).1 =
      if old.dd = new.dd ∧ old.exp = new.exp then s.putEntry old (old.counted new)
      else (s.putEntry old (old.counted new)).cueHandover (some (old.counted new)) (old.counted new) := by
  have hfacts := Entry.counted_facts old new
  have hcrun : (old.counted new).run = old.run := (congrArg Entry.run hfacts :).trans hrun
  have hcdisp : old.displayed = (old.counted new).displayed := hdisp.trans (congrArg Entry.displayed hfacts :).symm
  have hcstate : old.state = (old.counted new).state := hstate.trans (congrArg Entry.state hfacts :).symm
  have hcdd : (old.counted new).dd = new.dd := (congrArg Entry.dd hfacts :)
  have hcexp : (old.counted new).exp = new.exp := (congrArg Entry.exp hfacts :)
  have hput : (s.putEntry old (old.counted new)).entry? old.run = some (old.counted new) := by
    rw [State.putEntry_entry _ _ _ hcrun hnodup, if_pos rfl, hold]
    rfl
  have hchanged : s.changed old (old.counted new) = s.putEntry old (old.counted new) := if_pos hcdisp
  rw [State.changeEntry_eq old new s (y := old.counted new) (by rw [hchanged, hcrun, hput]) rfl
    (v₁ := s.putEntry old (old.counted new)) (by rw [if_pos hcdisp, hchanged])
    (v₂ := s.putEntry old (old.counted new)) (by rw [if_pos hcstate]), hcdd, hcexp]

/-- A handover that calls for the DELAY cue alone, of a run that has no cue (R90). -/
theorem State.cueHandover_delay (hok : s.CuesOk) (hnone : ∀ c ∈ s.cues.list, c.run ≠ e.run) (hplatform : e.wantsPlatformCue = false)
    (hdelay : s.inForce.wantsDelayCue e = true) :
    ∃ lost, State.Called .delay e.run (0 :: e.displayed.toList) s.now s (s.cueHandover (some e) e) lost := by
  have hform : s.cueHandover (some e) e = s.trigger .delay e.run (0 :: e.displayed.toList) s.now := by
    rw [State.cueHandover_eq, State.platformCalled, hplatform, if_neg nofun, State.handoverPlaces_eq (State.Fixed.of_runs hnone),
      State.delayCalled, hdelay, if_pos rfl]
    exact State.handoverFinal_quiet (enteredBoarding_self e) (.inr (.inl rfl))
  rw [hform]
  exact State.trigger_called hok (State.cue?_none_of_runs hnone _) ..

/-- What an amended entry with a greater delay calls for, in a list that holds no cue of its run (R38, R90, R94). -/
theorem State.amendEntry_delay (hk : s.TableOk) (hold : s.entry? old.run = some old) (hrun : new.run = old.run)
    (hdisp : old.displayed = new.displayed) (hok : s.CuesOk) (hnone : ∀ c ∈ s.cues.list, c.run ≠ old.run)
    (hfacts : x.facts = (s.retest old new).facts) (hstate : old.state = x.state) (hmoved : old.dd ≠ x.dd ∨ old.exp ≠ x.exp)
    (hdelay : x.CallsDelay s.inForce) (hplatform : ¬x.CallsPlatform)
    (hcues : t.cues = (s.amendEntry old new).1.cues) (hheard : ∀ q, ((s.amendEntry old new).1.port q).Heard (t.port q)) :
    ∃ lost, CueCalled s.now .delay old.run (0 :: x.displayed.toList) s.now s.cues.list t.cues.list lost ∧
      s.RunsDropped t lost.toList := by
  obtain ⟨r, hr⟩ : ∃ r, s.retest old new = r := ⟨_, rfl⟩
  rw [hr] at hfacts
  have hne : old ≠ new := by
    rintro rfl
    rw [State.retest_self] at hr
    rw [← hr] at hfacts
    exact hmoved.elim (fun h => h (congrArg Entry.dd hfacts :).symm) fun h => h (congrArg Entry.exp hfacts :).symm
  obtain ⟨y, hy⟩ : ∃ y, old.counted r = y := ⟨_, rfl⟩
  have hyx : y.facts = x.facts := by rw [← hy, Entry.counted_facts, hfacts]
  have hrrun : r.run = old.run := hr ▸ (State.retest_run s old new).trans hrun
  have hyrun : y.run = old.run := by
    rw [← hrrun, ← hy]
    exact (congrArg Entry.run (Entry.counted_facts old r) :)
  have hystate : y.state = x.state := (congrArg Entry.state hyx :)
  have hydisp : y.displayed = x.displayed := (congrArg Entry.displayed hyx :)
  have hydd : y.dd = x.dd := (congrArg Entry.dd hyx :)
  have hylast : y.lastDelay = x.lastDelay := (congrArg Entry.lastDelay hyx :)
  have hyann : y.announced = x.announced := (congrArg Entry.announced hyx :)
  have hyaw : y.awaiting = x.awaiting := by simp only [Entry.awaiting, hystate]
  have hchange := State.changeEntry_delayed (s := s) hrrun hk.2.1 hold (by rw [← hr, State.retest_displayed, hdisp])
    (by rw [hstate]; exact (congrArg Entry.state hfacts :))
  have hxdd : x.dd = r.dd := (congrArg Entry.dd hfacts :)
  have hxexp : x.exp = r.exp := (congrArg Entry.exp hfacts :)
  rw [hy, if_neg (by rw [← hxdd, ← hxexp, not_and_or]; exact hmoved)] at hchange
  obtain ⟨hports, hputcues, -⟩ := State.putEntry_blocks old y s
  have hsrc : (s.putEntry old y).sources = s.sources := State.putEntry_sources ..
  obtain ⟨lost, hcalled⟩ := State.cueHandover_delay (s := s.putEntry old y) (e := y) (hok.of_cues hputcues)
    (by rw [hputcues, hyrun]; exact hnone)
    (Bool.eq_false_iff.2 fun hw => hplatform (by
      simp only [Entry.wantsPlatformCue, Bool.and_eq_true, Option.isSome_iff_ne_none, Option.isNone_iff_eq_none] at hw
      exact ⟨hydisp ▸ hw.1.1.1, hyaw ▸ hw.1.1.2, hyann ▸ hw.1.2⟩))
    (by
      obtain ⟨ha, ht, hs⟩ := hdelay
      rw [State.inForce_of_sources hsrc, Params.wantsDelayCue, hyaw, hydd, hylast]
      simp [ha, ht, hs])
  rw [← hchange, hyrun, hydisp, State.now_of_sources hsrc] at hcalled
  refine ⟨lost, (hcalled.of_start hputcues hports hsrc).after ?_ fun q => ?_⟩
  · rw [hcues, State.amendEntry, if_neg hne, hr]
    dsimp only
    split
    · rfl
    · exact State.settle_cues ..
  · refine Port.Heard.trans ?_ (hheard q)
    rw [State.amendEntry, if_neg hne, hr]
    dsimp only
    split
    · exact .refl _
    · exact (State.settle_calm ..).heard q

/-- Settles O24, by the stages run on the entry and the DELAY cue they call for. -/
theorem dlaySetsTheOperatorDelay : Obligations.DlaySetsTheOperatorDelay := by
  intro s p seq f e new htaking hk hrun hmode he hin hnew
  have herun : e.run = f.run := entryIn_run he
  have hold : s.entry? e.run = some e := by rwa [herun]
  have hdelay : Entry.recompute s.inForce.hysteresis (e.delay f) = new := by
    rw [hnew]
    refine congrArg _ ?_
    unfold Entry.delay takenReason
    by_cases hm : f.mode = 2 <;> by_cases hr : f.reason = [] <;> simp [hm, hr]
  obtain ⟨hdrun, -, hdstate, hddisp, -⟩ := Entry.delay_fields f e
  obtain ⟨hrrun, -, hrstate, hrdisp⟩ := Entry.recompute_keeps s.inForce.hysteresis (e.delay f)
  rw [hdelay] at hrrun hrstate hrdisp
  have hnrun : new.run = e.run := hrrun.trans hdrun
  have hdrev : (e.delay f).rev = e.rev := by
    unfold Entry.delay
    split <;> rfl
  have hnrev : new.rev = e.rev := by
    rw [← hdelay, Entry.recompute_rev, hdrev]
  obtain ⟨x, hx⟩ := State.amendEntry_reworked (new := new) hk hold hnrun
    (by rw [hrstate, hdstate]; exact Entry.inService_not_retiring hin)
  obtain ⟨hexec, hanswered⟩ := State.taking_answered htaking (u := (s.amendEntry e new).1) (x := x) (clamped := dlayClamped f)
    (untracked := false) rfl (firstBad_runOk_limit hrun hmode) he hin (by rw [hdelay])
    (by rw [← herun]; exact hx.entry) fun q => State.amendEntry_link q e new s
  have ht := hx.answerTel p ((Telegram.dlay f).tel seq) (.accept (.revision x.rev) (dlayClamped f) false)
  have hclamped : dlayClamped f = (decide (f.mode ≠ 2 ∧ 720 < f.minutes) || (fixText 40 f.reason).2) := by
    rw [dlayClamped, Bool.decide_and]
  rw [hclamped] at hexec hanswered ht
  have hrev := ht.rev
  rw [herun] at hrev
  refine ⟨_, x, hexec, herun ▸ ht.entry, hanswered, ht.facts, fun hnone => ?_, ht.cues, fun hok hnone hstate hmoved hcalls hplat => ?_,
    herun ▸ ht.others, ht.beside, ht.speaking⟩
  · exact hrev (.inl hnone) (State.retest_rev.trans hnrev)
  · rw [← herun] at hnone ⊢
    exact State.amendEntry_delay hk hold hnrun (hrdisp.trans hddisp).symm hok hnone hx.facts hstate hmoved hcalls hplat rfl
      fun q => State.answerTel_heard ..

end Sys2Proof.Machine
end

section
/-! PROOF. PLAN (R14, R86, R88, R91). -/
namespace Sys2Proof.Machine

open Sys2Proof

variable {s t u v w : State} {kind : CueKind} {run : Nat} {e x y b old new : Entry} {zones : List Nat} {due : Int} {lost : Option Nat}
  {numbers : List Nat} {calls : CueKind → Prop}

/-! ## The first handover of an entry -/

/-- The entry as it might have stood before it was created: in a state with no cues, with no platform. -/
def Entry.unborn (e : Entry) : Entry := { e with state := .retiring, planned := none, assigned := none }

theorem State.cueHandover_none (hret : e.state ≠ .retiring) (s : State) : s.cueHandover none e = s.cueHandover (some e.unborn) e := by
  have hentered : enteredBoarding (some e.unborn) e = enteredBoarding none e := by simp [enteredBoarding, Entry.unborn]
  have hwithdraws : e.withdraws s.inForce (some e.unborn) = e.withdraws s.inForce none := by
    funext kind
    cases kind <;> simp [Entry.withdraws, leftService, Entry.unborn, Entry.displayed, hret.symm]
  have hplaces : s.handoverPlaces (some e.unborn) e = s.handoverPlaces none e := by
    rw [State.handoverPlaces, State.handoverPlaces, State.handoverWithdrawals_eq, State.handoverWithdrawals_eq, hwithdraws]
  have hfinal (u : State) : u.handoverFinal (some e.unborn) e = u.handoverFinal none e := by
    unfold State.handoverFinal
    rw [hentered]
    rfl
  rw [State.cueHandover_eq, State.cueHandover_eq, hfinal, State.platformCalled, State.platformCalled, hplaces]

theorem State.Handed.born (h : v.Handed t (some y.unborn) y) (hnow : t.now = v.now) (hin : t.inForce = v.inForce)
    (hv : v.Numbered numbers (y.callsSince v.inForce y.unborn) y.run) : t.Followed numbers y.unborn y := by
  have hstate : y.unborn.state = .retiring := rfl
  refine ⟨fun hw => ?_, fun hg => ?_, fun hw => ?_, fun hg => ?_, fun _ hy => ?_, fun hb => ?_, fun hg => ?_, ?_⟩
  · rw [hnow, hin]
    exact h.platform_reached hw
  · obtain ⟨hsome, -⟩ | ⟨-, hleft⟩ := hg
    · exact absurd rfl hsome
    · refine h.platform_gone (Entry.wantsPlatformCue_eq_false (.inr (Entry.awaiting_eq_false hleft))) (.inl ?_)
      simp only [Entry.withdraws, leftService, Bool.or_eq_true, Bool.and_eq_true]
      refine .inr ⟨?_, by simpa [or_assoc] using hleft⟩
      obtain hs | hs | hs := hleft <;> simp [hs, hstate]
  · rw [hnow]
    exact h.delay_reached (by rw [← hin]; exact hw)
  · rw [hin] at hg
    refine h.delay_gone ?_ (.inl (by simpa [Entry.withdraws] using hg))
    obtain hdd | ha := hg
    · simp [Params.wantsDelayCue, Nat.not_le.2 hdd]
    · simp [Params.wantsDelayCue, ha]
  · rw [hnow, hin]
    exact h.final_reached (by simp [enteredBoarding, hstate, hy])
  · exact absurd (hstate.symm.trans hb) nofun
  · obtain ⟨-, hleft⟩ | ⟨hb, -⟩ := hg
    · have hy : y.state ≠ .boarding := by obtain hs | hs | hs := hleft <;> simp [hs]
      rw [h.final_left (by simp [enteredBoarding, hy]) (.inl hy)]
      refine gone_placed (.inl ?_)
      simp only [Entry.withdraws, leftService, Bool.or_eq_true, Bool.and_eq_true]
      refine .inl ⟨?_, by simpa [or_assoc] using hleft⟩
      obtain hs | hs | hs := hleft <;> simp [hs, hstate]
    · exact absurd (hstate.symm.trans hb) nofun
  · rw [hin]
    refine hv.handed h (fun hw => ?_) (fun hw => ?_) fun hw => ?_
    · exact Entry.callsSince_platform hw rfl rfl (.inl rfl)
    · exact Entry.callsSince_delay hw rfl rfl (.inl rfl)
    · simpa [Entry.callsSince, enteredBoarding, and_comm] using hw

theorem State.CuesFollow.of_unborn (hret : x.state ≠ .retiring) (h : s.CuesFollow t (some y.unborn) x) : s.CuesFollow t none x := by
  have hdisp : (some y.unborn).bind (·.displayed) = (none : Option Entry).bind (·.displayed) := rfl
  have hleft : leftFrom (some y.unborn) x ↔ leftFrom none x := by
    simp [leftFrom, Entry.unborn, hret.symm]
  have hback : (some y.unborn).map (·.state) = some .boarding ↔ (none : Option Entry).map (·.state) = some .boarding := by
    simp [Entry.unborn]
  have hnot : (some y.unborn).map (·.state) ≠ some .boarding ↔ (none : Option Entry).map (·.state) ≠ some .boarding := not_congr hback
  rw [State.CuesFollow, hdisp, hleft, hnot, hback] at h
  exact h

/-! ## The entry created -/

/-- The entry that PLAN creates, its transitions tested and counted (R14). -/
def State.planned (f : PlanFields) (s : State) : Entry :=
  (newEntry s.inForce.dayStart f).counted ((newEntry s.inForce.dayStart f).transition s.inForce s.now)

/-- The state with an entry joined to the table. -/
def State.joined (e : Entry) (s : State) : State := (s.withEntries (e :: s.table.entries)).rederive

theorem State.createEntry_eq (f : PlanFields) (s : State) :
    s.createEntry (newEntry s.inForce.dayStart f) =
      (((s.joined (s.planned f)).cueHandover none (s.planned f)).settle s) := rfl

theorem State.planned_eq (f : PlanFields) (s : State) {sched : Int} (hsched : schedMinute s.inForce.dayStart f.hh f.mm f.day = sched) :
    (s.planned f).facts =
        { run := f.run, headcode := (fixHeadcode f.headcode).1, destination := (fixText 24 f.destination).1
          calls := (fixCalls f.calls).1, sched := sched, planned := optNat f.platform
          assigned := none, opDelay := none, filter := Filter.empty, dd := 0, exp := sched
          state :=
            if sched ≤ s.now then .closed
            else if f.platform ≠ 0 ∧ sched - s.inForce.boarding ≤ s.now then .boarding
            else .listed
          stateTime := none, reason := none, rev := 0, announced := none, lastDelay := 0, openRec := none } ∧
      (s.planned f).rev = (if (s.planned f).state = .listed then 0 else 1) ∧ (s.planned f).openRec = none := by
  obtain ⟨n, hn⟩ : ∃ n, newEntry s.inForce.dayStart f = n := ⟨_, rfl⟩
  have hplanned : s.planned f = n.counted (n.transition s.inForce s.now) := by rw [State.planned, hn]
  have hlisted : n.state = .listed := by rw [← hn]; rfl
  have hexp : n.exp = sched := by rw [← hn, ← hsched]; rfl
  have hdisp : n.displayed = optNat f.platform := by rw [← hn]; rfl
  have hshows : n.displayed ≠ none ↔ f.platform ≠ 0 := by
    rw [hdisp, optNat]
    by_cases h : f.platform = 0 <;> simp [h]
  obtain ⟨hclosed, hboarding, hstays, -⟩ := Entry.transition_state s.inForce s.now n
  have hstate : (n.transition s.inForce s.now).state =
      if sched ≤ s.now then .closed
      else if f.platform ≠ 0 ∧ sched - s.inForce.boarding ≤ s.now then .boarding
      else .listed := by
    split
    next h => exact hclosed (.inl hlisted) (by rwa [hexp])
    next h =>
      split
      next hopen => exact hboarding hlisted (by omega) (hshows.2 hopen.1) (by rw [hexp]; exact hopen.2)
      next hopen =>
        refine hstays hlisted (by omega) ?_
        rw [not_and_or, not_not] at hopen
        refine hopen.imp (fun h0 => ?_) fun hlate => by omega
        by_contra hsome
        exact hshows.1 hsome h0
  refine ⟨?_, ?_, ?_⟩
  · rw [hplanned, Entry.counted_facts, Entry.transition_eq, hstate, ← hn]
    simp only [newEntry, hsched]
    rfl
  · have hpstate : (s.planned f).state = (n.transition s.inForce s.now).state := by
      rw [hplanned]
      exact (congrArg Entry.state (Entry.counted_facts n (n.transition s.inForce s.now)) :)
    have hnrev : n.rev = 0 := by rw [← hn]; rfl
    rw [hpstate, hplanned, Entry.counted_rev ((Entry.transition_rev ..).trans rfl), hnrev]
    by_cases hl : (n.transition s.inForce s.now).state = .listed
    · have hsame : n.transition s.inForce s.now = n := by rw [Entry.transition_eq, hl, ← hlisted]
      rw [if_pos hl, hsame, if_pos (by simp [Entry.sameShown])]
    · rw [if_neg hl, Entry.sameShown_state (by rw [hlisted]; exact fun h => hl h.symm)]
      rfl
  · have hnrec : n.openRec = none := by rw [← hn]; rfl
    obtain ⟨-, htrec, -⟩ := Entry.transition_fields s.inForce s.now n
    obtain ⟨-, hcrec, -⟩ := Entry.counted_fields n (n.transition s.inForce s.now)
    rw [hplanned, hcrec, htrec, hnrec]

end Sys2Proof.Machine
end

section
/-! PROOF. PLAN: the entry, its cues and what is left (R14, R83, R86, R88, R91, R94). -/
namespace Sys2Proof.Machine

open Sys2Proof

variable {s t u v w : State} {kind : CueKind} {run : Nat} {e x y b old new : Entry} {zones : List Nat} {due : Int} {lost : Option Nat}
  {numbers : List Nat}

theorem State.joined_entry (hk : s.TableOk) (hnew : s.entry? e.run = none) (run : Nat) :
    (s.joined e).entry? run = if run = e.run then some e else s.entry? run := by
  have hnot : e.run ∉ s.table.entries.map (·.run) := by
    rintro hmem
    obtain ⟨x, hx, hrun⟩ := List.mem_map.1 hmem
    exact List.find?_eq_none.1 hnew x hx (by simpa using hrun)
  have hentry : (s.joined e).entry? run = (s.withEntries (e :: s.table.entries)).entry? run := rfl
  rw [hentry, State.withEntries_entry _ (by rw [List.map_cons, List.nodup_cons]; exact ⟨hnot, hk.2.1⟩), entryIn, List.find?_cons]
  split
  next h => rw [if_pos (of_decide_eq_true h).symm]
  next h => rw [if_neg fun heq => of_decide_eq_false h heq.symm]; rfl

theorem State.joined_blocks (e : Entry) (s : State) :
    (s.joined e).cues = s.cues ∧ (s.joined e).ports = s.ports ∧ (s.joined e).tracker = s.tracker ∧
      (s.joined e).sources = s.sources ∧ s.Beside (s.joined e) := ⟨rfl, rfl, rfl, rfl, rfl, rfl, rfl, rfl⟩

/-- What the settling of a created entry leaves. -/
structure State.Created (s w : State) (e x : Entry) : Prop where
  entry : w.entry? e.run = some x
  facts : x.facts = e.facts
  rev : s.openRecord? e.run = none → x.rev = e.rev
  follow : s.CuesOk → s.cues.list.length ≤ 28 → s.CuesFollow w none x
  others : s.OthersKept w e.run
  beside : s.Beside w
  speaking : s.CuesOk → w.speaking = s.speaking

theorem State.created_of_handover (hk : s.TableOk) (hnew : s.entry? e.run = none) (hret : e.state ≠ .retiring) (o : State) :
    ∃ x, s.Created (((s.joined e).cueHandover none e).settle o) e x := by
  obtain ⟨hcues, hports, htracker, hsrc, hbeside⟩ := State.joined_blocks e s
  obtain ⟨u, hu⟩ : ∃ u, (s.joined e).cueHandover none e = u := ⟨_, rfl⟩
  have hcalm : (s.joined e).Calm u := hu ▸ State.cueHandover_calm ..
  have hutable : u.table = (s.joined e).table := hu ▸ State.cueHandover_table ..
  have husrc : u.sources = s.sources := hu ▸ (State.cueHandover_sources ..).trans hsrc
  have huentry (run : Nat) : u.entry? run = if run = e.run then some e else s.entry? run := by
    rw [← State.joined_entry hk hnew, State.entry?, State.entry?, hutable]
  have hfacts (run : Nat) : ((u.settle o).entry? run).map Entry.facts =
      (if run = e.run then some e else s.entry? run).map Entry.facts := by
    rw [← huentry, State.entry_facts_of_facts (State.settle_facts u o)]
  have hown := hfacts e.run
  rw [if_pos rfl] at hown
  obtain ⟨x, hx, hxfacts⟩ := Option.map_eq_some_iff.1 hown
  have hsettled (hnone : s.openRecord? e.run = none) : x = e := by
    have hunspoken : u.Unspoken e.run := hcalm.unspoken _ ((State.unspoken_of_none hnone).of_tracker htracker)
    have hsame := State.settle_entry o hunspoken
    rw [hx, huentry, if_pos rfl] at hsame
    exact Option.some.inj hsame
  rw [hu]
  refine ⟨x, hx, hxfacts, fun hnone => by rw [hsettled hnone], fun hok hroom => ?_, fun r hr => ?_, ?_, fun hok => ?_⟩
  · have hxstate : x.state = e.state := (congrArg Entry.state hxfacts :)
    have hnum : (s.joined e).Numbered (s.cues.list.map (·.number)) (e.callsSince (s.joined e).inForce e.unborn) e.run :=
      (State.Numbered.of_room hok hroom _ _).of_cues hcues
    have hhanded := State.cueHandover_handed hnum.roomy (some e.unborn)
    rw [← State.cueHandover_none hret, hu] at hhanded
    have hfollowed := hhanded.born (State.now_of_sources (husrc.trans hsrc.symm)) (State.inForce_of_sources (husrc.trans hsrc.symm)) hnum
    have hxrun : x.run = e.run := entryIn_run hx
    refine State.CuesFollow.of_unborn (y := e) (by rw [hxstate]; exact hret) ?_
    refine hfollowed.follow hret (State.settle_cues u o) (State.now_of_sources (State.settle_sources ..))
      (State.inForce_of_sources (State.settle_sources ..)) hxfacts fun _ hnone => ?_
    rw [hsettled (hxrun ▸ hnone)]
  · rw [hfacts, if_neg hr]
  · rw [← hu]
    exact hbeside.trans (((State.cueHandover_steady ..).beside (State.cueHandover_sources ..)).trans (State.settle_beside ..))
  · have hjoined : (s.joined e).CuesOk := hok
    rw [(State.settle_calm u o).speaking (hcalm.cuesOk hjoined), hcalm.speaking hjoined]
    rfl

/-! ## The cues that a created entry calls for in a list that holds none of its run -/

theorem State.Called.final (h : State.Called kind run zones due s v lost) (hok : v.CuesOk) (hsrc : v.sources = s.sources)
    (hnone : ∀ c ∈ s.cues.list, c.run ≠ run) (hkind : kind ≠ .final) (hmem : ∀ c ∈ v.cues.list, c ∈ s.cues.list ∨ (c.kind = kind ∧ c.run = run))
    (zones' : List Nat) (due' : Int) :
    ∃ lost', CueCalled s.now .final run zones' due' v.cues.list (v.trigger .final run zones' due').cues.list lost' ∧
      ∀ q, q = .planning ∨ q = .announcement →
        (v.trigger .final run zones' due').port q = (s.port q).dropped s.time.clock (lost.toList ++ lost'.toList) := by
  have hfinal : v.cue? .final run = none := State.cue?_none_iff.2 fun c hc hown =>
    (hmem c hc).elim (fun hs => hnone c hs hown.2) fun hs => hkind (hs.1.symm.trans hown.1)
  obtain ⟨lost', hcalled⟩ := State.trigger_called hok hfinal zones' due'
  refine ⟨lost', ?_, fun q hq => ?_⟩
  · have hlist := hcalled.list
    rwa [State.now_of_sources hsrc] at hlist
  · rw [hcalled.ports q hq, h.ports q hq, State.clock_of_sources hsrc, Port.dropped_append]

theorem delayThreshold_pos {p : Params} (h : p.Ok) : 1 ≤ p.delayThreshold := by
  obtain ⟨-, -, -, -, hall⟩ := h
  have := hall 343 (by omega) _ rfl
  simp only [ParamRange.holds, Params.value, Bool.and_eq_true, decide_eq_true_eq] at this
  omega

theorem Params.wantsDelayCue_onTime {p : Params} (h : p.Ok) (hdd : e.dd = 0) : p.wantsDelayCue e = false := by
  have := delayThreshold_pos h
  simp only [Params.wantsDelayCue, hdd, Bool.and_eq_false_iff, decide_eq_false_iff_not]
  omega

/-- What the handover of a created entry calls for (R83, R88, R91, R94). -/
theorem State.joined_called (hconf : s.inForce.Ok) (hok : s.CuesOk) (hnone : ∀ c ∈ s.cues.list, c.run ≠ e.run) (hdd : e.dd = 0)
    (hannounced : e.announced = none) (hrec : e.openRec = none)
    (hstate : e.state = .closed ∨ e.state = .listed ∨ (e.state = .boarding ∧ e.displayed ≠ none))
    (hu : (s.joined e).cueHandover none e = u) :
    (e.displayed = none ∨ e.state = .closed → u.cues.list = s.cues.list) ∧
      (e.displayed ≠ none → e.state = .listed →
        ∃ lost, State.Called .platform e.run (0 :: e.displayed.toList) (e.exp - s.inForce.platformLead) s u lost) ∧
      (e.state = .boarding →
        ∃ l lost lost',
          CueCalled s.now .platform e.run (0 :: e.displayed.toList) (e.exp - s.inForce.platformLead) s.cues.list l lost ∧
            CueCalled s.now .final e.run e.displayed.toList (e.exp - s.inForce.finalLead) l u.cues.list lost' ∧
            ∀ q, q = .planning ∨ q = .announcement →
              u.port q = (s.port q).dropped s.time.clock (lost.toList ++ lost'.toList)) := by
  obtain ⟨hcues, hports, -, hsrc, -⟩ := State.joined_blocks e s
  have hfixed : (s.joined e).Fixed e.run := State.Fixed.of_runs hnone
  have hdelay : s.inForce.wantsDelayCue e = false := Params.wantsDelayCue_onTime hconf hdd
  obtain ⟨v, hv⟩ : ∃ v, (s.joined e).trigger .platform e.run (0 :: e.displayed.toList) (e.exp - s.inForce.platformLead) = v := ⟨_, rfl⟩
  obtain ⟨lost, hcalled⟩ : ∃ lost, State.Called .platform e.run (0 :: e.displayed.toList) (e.exp - s.inForce.platformLead) s v lost := by
    obtain ⟨lost, h⟩ := State.trigger_called (s := s.joined e) (kind := .platform) (run := e.run) hok
      (hfixed.cue? (by decide)) (0 :: e.displayed.toList) (e.exp - s.inForce.platformLead)
    exact ⟨lost, hv ▸ h.of_start hcues hports hsrc⟩
  have hvsrc : v.sources = s.sources := hv ▸ (State.trigger_sources ..).trans hsrc
  have hform (hsome : e.displayed ≠ none) (haw : e.awaiting = true) : u = v.handoverFinal none e := by
    have hwants : e.wantsPlatformCue = true := by
      simp [Entry.wantsPlatformCue, Option.isSome_iff_ne_none, hsome, haw, hannounced, hrec]
    rw [← hu, State.cueHandover_eq, State.platformCalled, hwants, if_pos rfl, State.handoverPlaces_eq hfixed]
    refine congrArg (State.handoverFinal none e) ?_
    have hplatform : (s.joined e).trigger .platform e.run (0 :: e.displayed.toList)
        (e.exp - (s.joined e).inForce.platformLead) = v := hv
    rw [hplatform, State.delayCalled, State.inForce_of_sources hvsrc, hdelay, if_neg nofun]
  refine ⟨fun hquiet => ?_, fun hsome hlisted => ?_, fun hboarding => ?_⟩
  · have hnot : e.state ≠ .boarding := by
      obtain hd | hd := hquiet
      · obtain hs | hs | ⟨-, hs⟩ := hstate
        · simp [hs]
        · simp [hs]
        · exact absurd hd hs
      · simp [hd]
    rw [← hu, State.cueHandover_quiet hfixed none
      (Entry.wantsPlatformCue_eq_false (hquiet.imp_right fun h => Entry.awaiting_eq_false (.inl h))) hdelay
      (by simp [enteredBoarding, hnot])]
    rfl
  · have hfinal : v.handoverFinal none e = v := State.handoverFinal_quiet (by simp [enteredBoarding, hlisted]) (.inl (by simp [hlisted]))
    rw [hform hsome (by simp [Entry.awaiting, hlisted]), hfinal]
    exact ⟨lost, hcalled⟩
  · have hsome : e.displayed ≠ none := by
      obtain hs | hs | ⟨-, hs⟩ := hstate
      · exact absurd (hs.symm.trans hboarding) nofun
      · exact absurd (hs.symm.trans hboarding) nofun
      · exact hs
    have hfinal : v.handoverFinal none e = v.trigger .final e.run e.displayed.toList (e.exp - s.inForce.finalLead) := by
      unfold State.handoverFinal
      rw [if_pos (by simp [enteredBoarding, hboarding]), State.inForce_of_sources hvsrc]
      rfl
    have hvok : v.CuesOk := hv ▸ (State.trigger_calm ..).cuesOk hok
    have hmem : ∀ c ∈ v.cues.list, c ∈ s.cues.list ∨ (c.kind = .platform ∧ c.run = e.run) := by
      intro c hc
      rw [← hv] at hc
      have hfrom := State.trigger_mem hc
      rwa [hcues] at hfrom
    obtain ⟨lost', hlist, hport⟩ := hcalled.final hvok hvsrc hnone (by decide) hmem e.displayed.toList (e.exp - s.inForce.finalLead)
    rw [hform hsome (by simp [Entry.awaiting, hboarding]), hfinal]
    exact ⟨_, lost, lost', hcalled.list, hlist, hport⟩

end Sys2Proof.Machine
end

section
/-! PROOF. PLAN settled (R14). -/
namespace Sys2Proof.Machine

open Sys2Proof

variable {s t u v w : State} {e x : Entry}

theorem planOwner_creates {f : PlanFields} (hrun : f.run ≠ 0) (hdest : f.destination ≠ []) (hcalls : ∀ c ∈ f.calls.take 12, c ≠ [])
    (hhh : f.hh ≤ 23) (hmm : f.mm ≤ 59) (hday : f.day ≤ 1) (hplat : f.platform ≤ s.inForce.platforms)
    (hset : s.time.state ≠ .unset) (hnew : s.entry? f.run = none) (hroom : s.table.entries.length < 96)
    (hsched : s.now - s.inForce.overdue ≤ schedMinute s.inForce.dayStart f.hh f.mm f.day) :
    planOwner f s = State.acceptRevision f.run (s.createEntry (newEntry s.inForce.dayStart f)) (clamped := planClamped f) := by
  refine planOwner_accepted ?_ ?_
  · rw [firstBad_eq_head?, planChecks_faults, PlanFields.faults]
    have hno : [] ∉ f.calls.take 12 := fun h => hcalls [] h rfl
    simp [outOf, hrun, hdest, hno, Nat.not_lt.2 hhh, Nat.not_lt.2 hmm, Nat.not_lt.2 hday, Nat.not_lt.2 hplat]
  · rw [State.planRefusal, if_neg hset, hnew, if_neg (by simp), if_neg (by omega), if_neg (by omega)]

/-- Settles O17, by the entry created and its first handover. -/
theorem planCreatesTheEntry : Obligations.PlanCreatesTheEntry := by
  intro s p seq f htaking hk hrun hdest hcalls hhh hmm hday hplat hset hnew hroom sched hsched hpast
  have hminute := (schedMinute_eq (dayStart := s.inForce.dayStart) (hh := f.hh) (mm := f.mm) hday).trans hsched.symm
  obtain ⟨hfacts, hrev, hrec⟩ := State.planned_eq f s hminute
  have howner := planOwner_creates hrun hdest hcalls hhh hmm hday hplat hset hnew hroom (by rwa [hminute])
  rw [State.createEntry_eq] at howner
  generalize s.planned f = e at hfacts hrev hrec howner
  have herun : e.run = f.run := (congrArg Entry.run hfacts :)
  have hestate := (congrArg Entry.state hfacts :)
  have hedisp : e.displayed = optNat f.platform := (congrArg Entry.displayed hfacts :)
  have hedd : e.dd = 0 := (congrArg Entry.dd hfacts :)
  have heann : e.announced = none := (congrArg Entry.announced hfacts :)
  have heexp : e.exp = sched := (congrArg Entry.exp hfacts :)
  have hshows : e.displayed ≠ none ↔ f.platform ≠ 0 := by
    rw [hedisp, optNat]
    by_cases h : f.platform = 0 <;> simp [h]
  have hstate : e.state = .closed ∨ e.state = .listed ∨ (e.state = .boarding ∧ e.displayed ≠ none) := by
    dsimp only [Entry.facts] at hestate
    rw [hestate, hshows]
    split
    · exact .inl rfl
    · split
      next hopen => exact .inr (.inr ⟨rfl, hopen.1⟩)
      · exact .inr (.inl rfl)
  obtain ⟨x, hx⟩ := State.created_of_handover (e := e) hk (by rw [herun]; exact hnew)
    (by obtain h | h | h := hstate <;> simp [h]) s
  obtain ⟨u, hu⟩ : ∃ u, (s.joined e).cueHandover none e = u := ⟨_, rfl⟩
  have hlink (q : PortId) : (u.settle s).link q = s.link q := by
    rw [State.settle_link, ← hu, State.cueHandover_link]
    rfl
  rw [hu] at hx howner
  have hxstate : x.state = e.state := (congrArg Entry.state hx.facts :)
  have hanswer : (Telegram.plan f).handled p s = (u.settle s, .accept (.revision x.rev) (planClamped f) false) := by
    refine howner.trans ?_
    rw [State.acceptRevision, State.revisionOf, ← herun, hx.entry]
  obtain ⟨hexec, hanswered⟩ := exec_taking_answered htaking hanswer hlink
  obtain ⟨t, ht⟩ : ∃ t, (u.settle s).answerTel p ((Telegram.plan f).tel seq) (.accept (.revision x.rev) (planClamped f) false) = t :=
    ⟨_, rfl⟩
  have htcues : t.cues = u.cues := by rw [← ht, State.answerTel_cues, State.settle_cues]
  have htheard (q : PortId) : (u.port q).Heard (t.port q) := by
    rw [← ht]
    exact ((State.settle_calm u s).heard q).trans (State.answerTel_heard ..)
  have htentry : t.entry? e.run = some x := by
    rw [← ht]
    exact hx.entry
  have hothers : s.OthersKept t e.run := by
    rw [← ht]
    exact hx.others
  have hbeside : s.Beside t := by
    rw [← ht]
    exact hx.beside.trans ⟨rfl, rfl, rfl, rfl⟩
  have hspeaking (hok : s.CuesOk) : t.speaking = s.speaking := by
    rw [← ht]
    exact hx.speaking hok
  have hfollow (hok : s.CuesOk) (hroom : s.cues.list.length ≤ 28) : s.CuesFollow t none x := by
    rw [← ht]
    exact hx.follow hok hroom
  rw [ht] at hexec hanswered
  refine ⟨t, x, hexec, herun ▸ htentry, hanswered, hx.facts.trans hfacts, fun hnone => ?_, hfollow, fun hconf hok hnone => ?_,
    herun ▸ hothers, hbeside, hspeaking⟩
  · rw [hx.rev (herun ▸ hnone), hxstate]
    exact hrev
  · obtain ⟨hquiet, hlisted, hboarding⟩ := State.joined_called hconf.1 hok (by rw [herun]; exact hnone) hedd heann hrec hstate hu
    have hzones (hne : f.platform ≠ 0) : e.displayed.toList = [f.platform] := by rw [hedisp, optNat, if_neg hne]; rfl
    rw [← htcues] at hquiet hboarding
    rw [hxstate]
    refine ⟨fun h => hquiet (h.imp_left fun h0 => ?_), fun hne hl => ?_, fun hb => ?_⟩
    · by_contra hsome
      exact hshows.1 hsome h0
    · obtain ⟨lost, hcalled⟩ := hlisted (hshows.2 hne) hl
      have hafter := hcalled.after htcues htheard
      rw [herun, hzones hne, heexp] at hafter
      exact ⟨lost, hafter⟩
    · obtain ⟨l, lost, lost', hfirst, hsecond, hports⟩ := hboarding hb
      have hne : f.platform ≠ 0 := by
        obtain h | h | h := hstate
        · exact absurd (h.symm.trans hb) nofun
        · exact absurd (h.symm.trans hb) nofun
        · exact hshows.1 h.2
      rw [herun, hzones hne, heexp] at hfirst hsecond
      refine ⟨l, lost, lost', hfirst, hsecond, fun q hq => ?_⟩
      have hprefix := (htheard q).1
      rwa [hports q hq] at hprefix

end Sys2Proof.Machine
end

section
/-! PROOF. The urgent list after the appends for a run and a platform (R128, R139 to R141). -/
namespace Sys2Proof.Machine

open Sys2Proof

variable {s t u v w : State} {run a : Nat} {platform : Option Nat} {l q : List Urgent} {as : List Nat}

/-! ## The appends -/

/-- The urgent list with every address appended in turn (R128). -/
def urgentAppends (as : List Nat) (q : List Urgent) : List Urgent := as.foldl (fun l a => urgentAppend a l) q

theorem urgentAppend_addrs (a : Nat) (q : List Urgent) : q.map (·.addr) <+: (urgentAppend a q).map (·.addr) := by
  unfold urgentAppend
  split
  · have hsame := map_updWhere Urgent.addr (·.addr = a) (fun u => { u with retries := 2 }) (fun _ => rfl) q
    rw [hsame]
  · rw [List.map_append]
    exact List.prefix_append ..

theorem urgentAppend_mem (a : Nat) (q : List Urgent) : (⟨a, 2⟩ : Urgent) ∈ urgentAppend a q := by
  unfold urgentAppend
  split
  next h =>
    obtain ⟨x, hx, hax⟩ := List.any_eq_true.1 h
    refine List.mem_map.2 ⟨x, hx, ?_⟩
    rw [if_pos hax, ← of_decide_eq_true hax]
  · exact List.mem_append_right _ List.mem_cons_self

theorem urgentAppend_keeps {b : Nat} (h : (⟨b, 2⟩ : Urgent) ∈ q) (a : Nat) : (⟨b, 2⟩ : Urgent) ∈ urgentAppend a q := by
  unfold urgentAppend
  split
  · refine List.mem_map.2 ⟨_, h, ?_⟩
    split <;> rfl
  · exact List.mem_append_left _ h

theorem urgentAppend_from {x : Urgent} (h : x ∈ urgentAppend a q) : x ∈ q ∨ (x.retries = 2 ∧ x.addr = a) := by
  unfold urgentAppend at h
  split at h
  · obtain ⟨y, hy, rfl⟩ := List.mem_map.1 h
    split
    next ha => exact .inr ⟨rfl, of_decide_eq_true ha⟩
    · exact .inl hy
  · obtain hx | hx := List.mem_append.1 h
    · exact .inl hx
    · obtain rfl := List.mem_singleton.1 hx
      exact .inr ⟨rfl, rfl⟩

theorem urgentAppends_spec (as : List Nat) : ∀ q : List Urgent,
    q.map (·.addr) <+: (urgentAppends as q).map (·.addr) ∧
      (∀ b, (⟨b, 2⟩ : Urgent) ∈ q ∨ b ∈ as → (⟨b, 2⟩ : Urgent) ∈ urgentAppends as q) ∧
      ∀ x ∈ urgentAppends as q, x ∈ q ∨ (x.retries = 2 ∧ x.addr ∈ as) := by
  induction as with
  | nil => exact fun q => ⟨List.prefix_rfl, fun b hb => hb.resolve_right List.not_mem_nil, fun x hx => .inl hx⟩
  | cons a as ih =>
    intro q
    obtain ⟨hprefix, hmem, hfrom⟩ := ih (urgentAppend a q)
    refine ⟨(urgentAppend_addrs a q).trans hprefix, fun b hb => hmem b ?_, fun x hx => ?_⟩
    · obtain hb | hb := hb
      · exact .inl (urgentAppend_keeps hb a)
      · obtain rfl | hb := List.mem_cons.1 hb
        · exact .inl (urgentAppend_mem b q)
        · exact .inr hb
    · obtain hx | ⟨hr, ha⟩ := hfrom x hx
      · exact (urgentAppend_from hx).imp_right fun ⟨hr, ha⟩ => ⟨hr, ha ▸ List.mem_cons_self⟩
      · exact .inr ⟨hr, List.mem_cons_of_mem _ ha⟩

theorem urgentAppend_new (h : ∀ x ∈ q, x.addr ≠ a) : urgentAppend a q = q ++ [⟨a, 2⟩] :=
  if_neg fun hany => by
    obtain ⟨x, hx, ha⟩ := List.any_eq_true.1 hany
    exact h x hx (of_decide_eq_true ha)

/-! ## The panels concerned -/

/-- The addresses that the compositor appends for a run and a platform (R128). -/
def State.concerned (run : Nat) (platform : Option Nat) (s : State) : List Nat :=
  (s.rowPanelOf run).toList ++ ((platform.bind s.gatePanel).map (·.addr)).toList

theorem State.mem_concerned : a ∈ s.concerned run platform ↔ s.Concerned run platform a := by
  simp only [State.concerned, State.Concerned, List.mem_append, Option.mem_toList, Option.map_eq_some_iff, Option.bind_eq_some_iff]
  refine or_congr Iff.rfl ⟨?_, ?_⟩
  · rintro ⟨q, ⟨p, hp, hq⟩, ha⟩
    exact ⟨p, q, hp, hq, ha⟩
  · rintro ⟨p, q, hp, hq, ha⟩
    exact ⟨q, ⟨p, hp, hq⟩, ha⟩

theorem State.appendUrgent_bus (run : Nat) (platform : Option Nat) (s : State) :
    (s.appendUrgent run platform).bus = { s.bus with urgent := urgentAppends (s.concerned run platform) s.bus.urgent } := rfl

/-- The appends to an empty list: the row panel, then the gate panel where it is another. -/
theorem urgentAppends_empty (row gate : Option Nat) :
    urgentAppends (row.toList ++ gate.toList) [] = (row.toList ++ gate.toList.filter (row ≠ some ·)).map fun a => ⟨a, 2⟩ := by
  cases row with
  | none => cases gate <;> rfl
  | some r =>
    cases gate with
    | none => rfl
    | some g =>
      by_cases h : r = g
      · simp [h, urgentAppends, urgentAppend, updWhere]
      · simp [h, urgentAppends, urgentAppend]

/-! ## The dispatch decision after the appends -/

theorem State.wanting_iff : s.Wanting a ↔ ∃ p, s.panel? a = some p ∧ p.wantsFrame = true := by
  simp only [State.Wanting, Panel.wantsFrame_iff]

theorem Panel.wantsFrame_of_record {p r : Panel} (hrecord : r.record = p.record) (hdesired : r.desired = p.desired) :
    r.wantsFrame = p.wantsFrame := by
  have hstate : r.state = p.state := (congrArg Panel.state hrecord :)
  have hacked : r.acked = p.acked := (congrArg Panel.acked hrecord :)
  have hacklevel : r.ackedLevel = p.ackedLevel := (congrArg Panel.ackedLevel hrecord :)
  have hlevel : r.desiredLevel = p.desiredLevel := (congrArg Panel.desiredLevel hrecord :)
  rw [Bool.eq_iff_iff, Panel.wantsFrame_iff, Panel.wantsFrame_iff, hstate, hacked, hacklevel, hlevel, hdesired]

/-- A dispatch decision leaves every panel wanting a frame that did (R132). -/
theorem State.dispatch_wanting (s : State) (a : Nat) : s.dispatch.Wanting a ↔ s.Wanting a := by
  rw [State.wanting_iff, State.wanting_iff]
  constructor
  · rintro ⟨r, hr, hw⟩
    obtain ⟨p, hp, hrecord, hdesired⟩ := State.dispatch_panel hr
    exact ⟨p, hp, Panel.wantsFrame_of_record hrecord hdesired ▸ hw⟩
  · rintro ⟨p, hp, hw⟩
    have hrecord := State.panel?_of_records s.dispatch_records a
    rw [hp, Option.map_some] at hrecord
    obtain ⟨r, hr, -⟩ := Option.map_eq_some_iff.1 hrecord
    obtain ⟨p', hp', hrecord', hdesired⟩ := State.dispatch_panel hr
    obtain rfl := Option.some.inj (hp.symm.trans hp')
    exact ⟨r, hr, Panel.wantsFrame_of_record hrecord' hdesired ▸ hw⟩

theorem State.not_wanting_panel (h : ¬s.Wanting a) {p : Panel} (hp : s.panel? a = some p) : p.wantsFrame = false :=
  Bool.eq_false_iff.2 fun hw => h (State.wanting_iff.2 ⟨p, hp, hw⟩)

/-- The first of a fresh urgent list that wants a frame is served (R141). -/
theorem State.dispatch_appended {before after : List Nat} (hidle : s.bus.exchange = none)
    (hurgent : s.bus.urgent = (before ++ a :: after).map fun b => ⟨b, 2⟩) (hwants : s.Wanting a) (hbefore : ∀ b ∈ before, ¬s.Wanting b) :
    (∃ x, s.dispatch.bus.exchange = some x ∧ x.addr = a ∧ x.urgent = some 2) ∧
      s.dispatch.bus.urgent = after.map fun b => ⟨b, 2⟩ := by
  obtain ⟨p, hp, hw⟩ := State.wanting_iff.1 hwants
  have hpick : urgentPick s.bus.panels s.bus.urgent = (some (⟨a, 2⟩, p), after.map fun b => ⟨b, 2⟩) := by
    rw [hurgent, List.map_append, List.map_cons]
    refine urgentPick_first (fun b hb r hr => ?_) hp hw
    obtain ⟨c, hc, rfl⟩ := List.mem_map.1 hb
    exact State.not_wanting_panel (hbefore c hc) hr
  have haddr : p.addr = a := by simpa using List.find?_some hp
  rw [State.dispatch_urgent hidle hpick]
  exact ⟨⟨_, rfl, haddr, rfl⟩, rfl⟩

theorem State.dispatch_emptied (hidle : s.bus.exchange = none) {as : List Nat} (hurgent : s.bus.urgent = as.map fun b => ⟨b, 2⟩)
    (h : ∀ b ∈ as, ¬s.Wanting b) : s.dispatch.bus.urgent = [] := by
  have hpick : urgentPick s.bus.panels s.bus.urgent = (none, []) := by
    rw [hurgent]
    refine urgentPick_none fun b hb r hr => ?_
    obtain ⟨c, hc, rfl⟩ := List.mem_map.1 hb
    exact State.not_wanting_panel (h c hc) hr
  cases hfind : s.cycleOrder.find? s.needsService with
  | none => rw [State.dispatch_none hidle hpick hfind]
  | some p =>
    rw [State.dispatch_cycle hidle hpick hfind]
    rfl

/-- What the wall's settling makes of the appends for a run and a platform (R128, R139 to R141). -/
theorem State.urgentGained_settle (hv : v.bus = (s.appendUrgent run platform).bus) (o : State) :
    s.UrgentGained (v.settle o) run platform := by
  obtain ⟨hexchange, hurgent⟩ := State.recompose_line v
  have hvexchange : v.recompose.bus.exchange = s.bus.exchange := by rw [hexchange, hv]; rfl
  have hvurgent : v.recompose.bus.urgent = urgentAppends (s.concerned run platform) s.bus.urgent := by rw [hurgent, hv]; rfl
  have hbus : (v.settle o).bus = (v.recompose.serve o).bus := State.settleAttention_bus _
  obtain ⟨hprefix, hmem, hfrom⟩ := urgentAppends_spec (s.concerned run platform) s.bus.urgent
  refine ⟨fun hbusy => ?_, fun hidle hempty l hl => ?_⟩
  · have hstays : (v.settle o).bus.urgent = urgentAppends (s.concerned run platform) s.bus.urgent := by
      rw [hbus, State.serve, State.dispatch_busy (by rw [hvexchange]; exact hbusy), ite_self, hvurgent]
    rw [hstays]
    refine ⟨hprefix, fun a ha => hmem a (.inr (State.mem_concerned.2 ha)),
      fun x hx => (hfrom x hx).imp_right fun ⟨hr, ha⟩ => ⟨hr, State.mem_concerned.1 ha⟩,
      fun p row gate hrow hp hgate hne hnew => ?_⟩
    have hconcerned : s.concerned run platform = [row, gate.addr] := by
      rw [State.concerned, hrow, hp, Option.bind_some, hgate]
      rfl
    have hfirst : urgentAppend row s.bus.urgent = s.bus.urgent ++ [⟨row, 2⟩] := urgentAppend_new fun x hx => (hnew x hx).1
    have hsecond : urgentAppend gate.addr (s.bus.urgent ++ [⟨row, 2⟩]) = s.bus.urgent ++ [⟨row, 2⟩] ++ [⟨gate.addr, 2⟩] := by
      refine urgentAppend_new fun x hx => ?_
      obtain hx | hx := List.mem_append.1 hx
      · exact (hnew x hx).2
      · obtain rfl := List.mem_singleton.1 hx
        exact hne
    rw [hconcerned, urgentAppends, List.foldl_cons, List.foldl_cons, List.foldl_nil, hfirst, hsecond, List.append_assoc]
    rfl
  · have hlist : v.recompose.bus.urgent = l.map fun a => ⟨a, 2⟩ := by
      rw [hvurgent, hempty, State.concerned, urgentAppends_empty, hl]
    have hvidle : v.recompose.bus.exchange = none := hvexchange.trans hidle
    have hserved (hne : l ≠ []) : v.recompose.serve o = v.recompose.dispatch := by
      refine if_pos ?_
      rw [State.decisionDue, hlist]
      cases l with
      | nil => exact absurd rfl hne
      | cons => rfl
    have hwanting (hne : l ≠ []) (a : Nat) : (v.settle o).Wanting a ↔ v.recompose.Wanting a := by
      rw [State.Wanting, State.panel?, hbus, hserved hne]
      exact State.dispatch_wanting v.recompose a
    refine ⟨fun before a after hsplit hwants hbefore => ?_, fun hnone => ?_⟩
    · have hne : l ≠ [] := by simp [hsplit]
      rw [hbus, hserved hne]
      exact State.dispatch_appended hvidle (by rw [hlist, hsplit]) ((hwanting hne a).1 hwants) fun b hb hw =>
        hbefore b hb ((hwanting hne b).2 hw)
    · rw [hbus]
      by_cases hne : l = []
      · rw [State.serve]
        rw [hne] at hlist
        split
        · exact State.dispatch_emptied (as := []) hvidle hlist (List.forall_mem_nil _)
        · exact hlist
      · rw [hserved hne]
        exact State.dispatch_emptied hvidle hlist fun b hb hw => hnone b hb ((hwanting hne b).2 hw)

theorem State.UrgentGained.of_bus (h : s.UrgentGained t run platform) (hbus : w.bus = t.bus) : s.UrgentGained w run platform := by
  have hwanting : w.Wanting = t.Wanting := by
    funext a
    rw [State.Wanting, State.Wanting, State.panel?, State.panel?, hbus]
  rw [State.UrgentGained, hwanting, hbus]
  exact h

end Sys2Proof.Machine
end

section
/-! PROOF. CANC: the cancelled entry, its cues and its panels (R17, R76, R92, R94, R128). -/
namespace Sys2Proof.Machine

open Sys2Proof

variable {s t u v w : State} {run : Nat} {e x y old new : Entry} {kind : CueKind} {zones : List Nat} {due : Int} {c : Cue}
  {lost : Option Nat}

/-! ## The list through the withdrawals -/

theorem State.withdrawWhere_gone {p : Cue → Bool} (hc : c ∈ (s.withdrawWhere p).cues.list) (h : p c = true) : c.isTaken = true ∧ c.pendDrop = true := by
  rw [State.withdrawWhere_list] at hc
  obtain ⟨d, hd, rfl⟩ := List.mem_map.1 hc
  obtain ⟨-, hkeep⟩ := List.mem_filter.1 hd
  by_cases hpd : p d = true
  · rw [if_pos hpd]
    have htaken : d.isTaken = true := by simpa [hpd] using hkeep
    exact ⟨htaken, rfl⟩
  · rw [if_neg hpd] at h
    exact absurd h hpd

theorem State.withdrawWhere_length (p : Cue → Bool) (s : State) : (s.withdrawWhere p).cues.list.length ≤ s.cues.list.length := by
  rw [State.withdrawWhere_list, List.length_map]
  exact List.length_filter_le ..

theorem State.voidRecord_cues (run : Nat) (s : State) :
    (s.voidRecord run).cues = s.cues ∨ (s.voidRecord run).cues = (s.withdraw .change run).cues := by
  cases hopen : s.openRecord? run with
  | none => exact .inl (by rw [State.voidRecord_of_none hopen])
  | some r => exact .inr (State.voidRecord_of_open (by rw [hopen]; rfl)).2.2

theorem State.voidRecord_port {q : PortId} (hq : q ≠ .signalling) (run : Nat) (s : State) :
    (s.voidRecord run).port q = s.port q := by
  unfold State.voidRecord
  split
  · have hpost (u : State) : (State.withdraw .change run (u.post [.signalling] .changeVoid (.run run))).port q = u.port q := by
      refine (State.post_port (names := [.signalling]) (by decide) .changeVoid (.run run) u q).trans (if_neg ?_)
      simpa using hq
    exact hpost _
  · rfl

/-- A trigger with room reaches a cue, made or found (R83, R87). -/
theorem State.trigger_reached (hroom : s.cues.list.length < 32) (kind : CueKind) (run : Nat) (zones : List Nat) (due : Int) :
    ∃ c ∈ (s.trigger kind run zones due).cues.list, c.Reached kind run zones ∧ (c.state = .waiting → c.due = due ∧ s.now < due) := by
  unfold State.trigger
  cases hc : s.cue? kind run with
  | some c =>
    rw [Option.isSome_some, if_pos rfl]
    obtain ⟨hmem, hkind, hrun⟩ := State.cue?_some hc
    refine ⟨_, List.mem_map.2 ⟨c, hmem, if_pos (by simp [hkind, hrun])⟩, Cue.revise_reached hkind hrun ..⟩
  | none =>
    rw [Option.isSome_none, if_neg nofun, if_pos hroom, State.appendCue_list]
    exact ⟨_, List.mem_append_right _ List.mem_cons_self, newCue_reached ..⟩

/-! ## The cancelled entry -/

/-- The state in which the CANCEL cue is called: the entry changed, its record void, its other cues withdrawn (R17, R76). -/
def State.cancelling (e : Entry) (reason : Option Text) (s : State) : State :=
  ((s.changeEntry e (e.cancel s.now reason)).1.voidRecord e.run).withdrawWhere fun c => c.run = e.run && c.kind ≠ .cancel

/-- The state before the wall settles: the CANCEL cue called and the panels appended (R17, R92, R128). -/
def State.cancelledAt (e : Entry) (reason : Option Text) (s : State) : State :=
  ((s.cancelling e reason).trigger .cancel e.run (0 :: e.displayed.toList) (s.cancelling e reason).now).appendUrgent e.run e.displayed

theorem State.cancelEntry_eq (e : Entry) (reason : Option Text) (s : State) :
    s.cancelEntry e reason = (s.cancelledAt e reason).settle s := rfl

/-- A change with the displayed platform, Dd and A as they were makes the handover of the state alone (R38). -/
theorem State.changeEntry_restated (hrun : new.run = old.run) (hnodup : (s.table.entries.map (·.run)).Nodup)
    (hold : s.entry? old.run = some old) (hdisp : old.displayed = new.displayed) (hdd : old.dd = new.dd) (hexp : old.exp = new.exp)
    (hstate : old.state ≠ new.state) :
    (s.changeEntry old new).1 =
      (s.putEntry old (old.counted new)).cueHandover (some { old.counted new with state := old.state }) (old.counted new) := by
  have hfacts := Entry.counted_facts old new
  have hcrun : (old.counted new).run = old.run := (congrArg Entry.run hfacts :).trans hrun
  have hcdisp : old.displayed = (old.counted new).displayed := hdisp.trans (congrArg Entry.displayed hfacts :).symm
  have hcstate : (old.counted new).state = new.state := (congrArg Entry.state hfacts :)
  have hcdd : (old.counted new).dd = new.dd := (congrArg Entry.dd hfacts :)
  have hcexp : (old.counted new).exp = new.exp := (congrArg Entry.exp hfacts :)
  have hput : (s.putEntry old (old.counted new)).entry? old.run = some (old.counted new) := by
    rw [State.putEntry_entry _ _ _ hcrun hnodup, if_pos rfl, hold]
    rfl
  have hchanged : s.changed old (old.counted new) = s.putEntry old (old.counted new) := if_pos hcdisp
  rw [State.changeEntry_eq old new s (y := old.counted new) (by rw [hchanged, hcrun, hput]) rfl
    (v₁ := s.putEntry old (old.counted new)) (by rw [if_pos hcdisp, hchanged])
    (v₂ := (s.putEntry old (old.counted new)).cueHandover (some { old.counted new with state := old.state }) (old.counted new))
    (by rw [if_neg (by rw [hcstate]; exact hstate)]), hcdd, hcexp, if_pos ⟨hdd, hexp⟩]

/-- The handover of an entry that is not awaited, and does not board, withdraws alone (R88, R90, R91). -/
theorem State.cueHandover_left (haw : e.awaiting = false) (o : Option Entry) (s : State) : s.cueHandover o e = s.handoverPlaces o e := by
  have hboarding : e.state ≠ .boarding := by
    rintro hs
    simp [Entry.awaiting, hs] at haw
  rw [State.cueHandover_eq, State.platformCalled, Entry.wantsPlatformCue_eq_false (.inr haw), if_neg nofun, State.delayCalled,
    if_neg (by simp [Params.wantsDelayCue, haw])]
  exact State.handoverFinal_quiet (by simp [enteredBoarding, hboarding]) (.inl hboarding)

/-- The entry as the change to CANCELLED counts it. -/
def State.cancelled (e : Entry) (reason : Option Text) (s : State) : Entry := e.counted (e.cancel s.now reason)

theorem State.cancelEntry_change (hk : s.TableOk) (hold : s.entry? e.run = some e) (hstate : e.state ≠ .cancelled) (reason : Option Text) :
    (s.changeEntry e (e.cancel s.now reason)).1 =
      (s.putEntry e (s.cancelled e reason)).handoverPlaces (some { s.cancelled e reason with state := e.state }) (s.cancelled e reason) := by
  have hcstate : (s.cancelled e reason).state = .cancelled := (congrArg Entry.state (Entry.counted_facts e (e.cancel s.now reason)) :)
  rw [State.changeEntry_restated (old := e) (new := e.cancel s.now reason) rfl hk.2.1 hold rfl rfl rfl hstate]
  exact State.cueHandover_left (Entry.awaiting_eq_false (.inr (.inl hcstate))) ..

theorem State.cancelling_blocks (e : Entry) (reason : Option Text) (s : State) :
    (s.cancelling e reason).tracker = ((s.changeEntry e (e.cancel s.now reason)).1.voidRecord e.run).tracker ∧
      (s.cancelling e reason).table = ((s.changeEntry e (e.cancel s.now reason)).1.voidRecord e.run).table ∧
      (s.cancelling e reason).sources = s.sources ∧ (s.changeEntry e (e.cancel s.now reason)).1.facts = (s.cancelling e reason).facts := by
  refine ⟨rfl, rfl, ?_, (State.voidRecord_facts ..).symm⟩
  exact (State.voidRecord_sources ..).trans (State.changeEntry_sources ..)

theorem State.cancelledAt_blocks (e : Entry) (reason : Option Text) (s : State) :
    (s.cancelledAt e reason).tracker = (s.cancelling e reason).tracker ∧ (s.cancelledAt e reason).table = (s.cancelling e reason).table ∧
      (s.cancelledAt e reason).cues =
        ((s.cancelling e reason).trigger .cancel e.run (0 :: e.displayed.toList) s.now).cues := by
  obtain ⟨-, -, hsrc, -⟩ := State.cancelling_blocks e reason s
  unfold State.cancelledAt
  rw [State.now_of_sources hsrc, State.appendUrgent_tracker, State.trigger_tracker, State.appendUrgent_table, State.trigger_table]
  exact ⟨rfl, rfl, State.appendUrgent_cues ..⟩

theorem State.trigger_wall (kind : CueKind) (run : Nat) (zones : List Nat) (due : Int) (s : State) :
    (s.trigger kind run zones due).wall = s.wall := by
  unfold State.trigger
  split
  · rfl
  · split
    · rfl
    · split
      · exact State.post_wall ..
      · exact State.post_wall ..

theorem State.cueHandover_wall (o : Option Entry) (e : Entry) (s : State) : (s.cueHandover o e).wall = s.wall :=
  State.cueHandover_still (P := fun u => u.wall = s.wall) o e (fun _ _ hu => hu) (fun _ hu => hu)
    (fun _ _ _ _ _ hu => (State.trigger_wall ..).trans hu) rfl

/-- What every operation of a cancellation keeps of the bus and the row map. -/
theorem State.cancelling_bus (e : Entry) (reason : Option Text) (s : State) :
    (s.cancelling e reason).bus = s.bus ∧ (s.cancelling e reason).wall = s.wall := by
  have hchanged : (s.changeEntry e (e.cancel s.now reason)).1.bus = s.bus ∧
      (s.changeEntry e (e.cancel s.now reason)).1.wall = s.wall := by
    refine State.changeEntry_still (P := fun u => u.bus = s.bus ∧ u.wall = s.wall) rfl ?_ fun u o y hu => ?_
    · unfold State.putEntry
      dsimp only
      split <;> exact ⟨rfl, rfl⟩
    · exact ⟨(State.cueHandover_bus ..).trans hu.1, (State.cueHandover_wall ..).trans hu.2⟩
  have hvoid : ((s.changeEntry e (e.cancel s.now reason)).1.voidRecord e.run).bus = (s.changeEntry e (e.cancel s.now reason)).1.bus := by
    unfold State.voidRecord
    split <;> rfl
  exact ⟨hvoid.trans hchanged.1, (State.voidRecord_wall ..).trans hchanged.2⟩

theorem State.appendUrgent_bus_of (hbus : u.bus = s.bus) (hwall : u.wall = s.wall) (run : Nat) (platform : Option Nat) :
    (u.appendUrgent run platform).bus = (s.appendUrgent run platform).bus := by
  have hconcerned : u.concerned run platform = s.concerned run platform := by
    have hgate : u.gatePanel = s.gatePanel := by
      funext p
      rw [State.gatePanel, State.gatePanel, hbus]
    rw [State.concerned, State.concerned, State.rowPanelOf, State.rowPanelOf, hwall, hgate]
  rw [State.appendUrgent_bus, State.appendUrgent_bus, hbus, hconcerned]

theorem State.cancelEntry_urgent (e : Entry) (reason : Option Text) (s : State) :
    s.UrgentGained (s.cancelEntry e reason) e.run e.displayed := by
  obtain ⟨hbus, hwall⟩ := State.cancelling_bus e reason s
  rw [State.cancelEntry_eq]
  refine State.urgentGained_settle ?_ s
  exact State.appendUrgent_bus_of ((State.trigger_bus ..).trans hbus) ((State.trigger_wall ..).trans hwall) ..

theorem State.cancelEntry_voided (e : Entry) (reason : Option Text) (s : State) : s.Voided (s.cancelEntry e reason) e.run := by
  obtain ⟨htracker, hport⟩ := State.changeEntry_signalling (s := s) (old := e) (new := e.cancel s.now reason) rfl
  rw [State.cancelEntry_eq]
  refine State.voided_of htracker hport (State.clock_of_sources (State.changeEntry_sources ..))
    ((State.cancelledAt_blocks e reason s).1.trans (State.cancelling_blocks e reason s).1) ?_ s
  exact ((State.withdrawWhere_calm ..).trans ((State.trigger_calm ..).trans (State.appendUrgent_calm ..))).heard .signalling

/-- The cues of a cancelled run: none but the CANCEL cue, and those in speech marked (R17, R92). -/
theorem State.cancelEntry_gone (e : Entry) (reason : Option Text) (s : State) :
    ∀ c ∈ (s.cancelEntry e reason).cues.list, c.run = e.run → c.kind ≠ .cancel → c.isTaken = true ∧ c.pendDrop = true := by
  intro c hc hrun hkind
  obtain ⟨-, -, hcues⟩ := State.cancelledAt_blocks e reason s
  rw [State.cancelEntry_eq, State.settle_cues, hcues] at hc
  obtain hc | hc := State.trigger_mem hc
  · exact State.withdrawWhere_gone hc (by simp [hrun, hkind])
  · exact absurd hc.1 hkind

theorem State.cancelling_length (hk : s.TableOk) (hold : s.entry? e.run = some e) (hstate : e.state ≠ .cancelled) (reason : Option Text) :
    (s.cancelling e reason).cues.list.length ≤ s.cues.list.length := by
  have hplaces (u : State) (o : Option Entry) (y : Entry) : (u.handoverPlaces o y).cues.list.length ≤ u.cues.list.length := by
    rw [State.handoverPlaces, State.withCues, State.handoverWithdrawals_eq]
    exact (List.length_map _).le.trans (State.withdrawWhere_length ..)
  have hvoid (u : State) : (u.voidRecord e.run).cues.list.length ≤ u.cues.list.length := by
    obtain h | h := State.voidRecord_cues e.run u
    · rw [h]
    · rw [h]
      exact State.withdrawWhere_length ..
  have hput : (s.putEntry e (s.cancelled e reason)).cues = s.cues := (State.putEntry_blocks ..).2.1
  unfold State.cancelling
  refine (State.withdrawWhere_length ..).trans ((hvoid _).trans ?_)
  rw [State.cancelEntry_change hk hold hstate, ← hput]
  exact hplaces ..

theorem State.cancelEntry_called (hk : s.TableOk) (hold : s.entry? e.run = some e) (hstate : e.state ≠ .cancelled) (reason : Option Text)
    (hroom : s.cues.list.length < 32) :
    ∃ c ∈ (s.cancelEntry e reason).cues.list, c.Reached .cancel e.run (0 :: e.displayed.toList) ∧ c.state ≠ .waiting := by
  obtain ⟨-, -, hcues⟩ := State.cancelledAt_blocks e reason s
  obtain ⟨-, -, hsrc, -⟩ := State.cancelling_blocks e reason s
  rw [State.cancelEntry_eq, State.settle_cues, hcues]
  obtain ⟨c, hc, hreached, hwait⟩ := State.trigger_reached
    ((State.cancelling_length hk hold hstate reason).trans_lt hroom) .cancel e.run (0 :: e.displayed.toList) s.now
  refine ⟨c, hc, hreached, fun hs => ?_⟩
  have := (hwait hs).2
  rw [State.now_of_sources hsrc] at this
  omega

/-- With no cue of the run in the list, nothing is withdrawn before the CANCEL cue is called. -/
theorem State.cancelling_untouched (hk : s.TableOk) (hold : s.entry? e.run = some e) (hstate : e.state ≠ .cancelled)
    (reason : Option Text) (hnone : ∀ c ∈ s.cues.list, c.run ≠ e.run) :
    (s.cancelling e reason).cues = s.cues ∧
      ∀ q, q = .planning ∨ q = .announcement → (s.cancelling e reason).port q = s.port q := by
  have hcrun : (s.cancelled e reason).run = e.run := (congrArg Entry.run (Entry.counted_facts e (e.cancel s.now reason)) :)
  obtain ⟨hports, hputcues, -⟩ := State.putEntry_blocks e (s.cancelled e reason) s
  have hchange : (s.changeEntry e (e.cancel s.now reason)).1 = s.putEntry e (s.cancelled e reason) := by
    rw [State.cancelEntry_change hk hold hstate, State.handoverPlaces_eq]
    exact State.Fixed.of_runs (by rw [hputcues, hcrun]; exact hnone)
  have hvoid : ((s.putEntry e (s.cancelled e reason)).voidRecord e.run).cues = s.cues := by
    obtain h | h := State.voidRecord_cues e.run (s.putEntry e (s.cancelled e reason))
    · rw [h, hputcues]
    · rw [h, State.withdraw, State.withdrawWhere_none, hputcues]
      rw [hputcues]
      exact fun c hc => by simp [hnone c hc]
  unfold State.cancelling
  rw [hchange, State.withdrawWhere_none (by rw [hvoid]; exact fun c hc => by simp [hnone c hc])]
  refine ⟨hvoid, fun q hq => ?_⟩
  rw [State.voidRecord_port (by obtain rfl | rfl := hq <;> decide), State.port, hports]
  rfl

/-- What the CANCEL cue does to a list that holds no cue of the run (R83, R94). -/
theorem State.cancelEntry_displaces (hk : s.TableOk) (hold : s.entry? e.run = some e) (hstate : e.state ≠ .cancelled)
    (reason : Option Text) (hok : s.CuesOk) (hnone : ∀ c ∈ s.cues.list, c.run ≠ e.run) :
    ∃ lost, State.Called .cancel e.run (0 :: e.displayed.toList) s.now s (s.cancelledAt e reason) lost := by
  obtain ⟨hcues, hports⟩ := State.cancelling_untouched hk hold hstate reason hnone
  obtain ⟨-, -, hsrc, -⟩ := State.cancelling_blocks e reason s
  obtain ⟨lost, hcalled⟩ := State.trigger_called (s := s.cancelling e reason) (hok.of_cues hcues)
    (State.cue?_none_of_runs (by rw [hcues]; exact hnone) .cancel) (0 :: e.displayed.toList) s.now
  refine ⟨lost, ?_, fun q hq => ?_⟩
  · have hlist := hcalled.list
    rw [hcues, State.now_of_sources hsrc] at hlist
    rw [(State.cancelledAt_blocks e reason s).2.2]
    exact hlist
  · have hport := hcalled.ports q hq
    rw [hports q hq, State.clock_of_sources hsrc] at hport
    rw [← hport, State.cancelledAt, State.now_of_sources hsrc]
    rfl

end Sys2Proof.Machine
end

section
/-! PROOF. CANC settled (R17, R76, R92, R94, R128). -/
namespace Sys2Proof.Machine

open Sys2Proof

variable {s t u v w : State} {run : Nat} {e x y old new : Entry} {c : Cue} {lost : Option Nat}

/-! ## The entry of a cancellation -/

/-- What a changed entry leaves of the table, whatever comes after that keeps the facts. -/
theorem State.changed_entry (hrun : new.run = old.run) (hnodup : (s.table.entries.map (·.run)).Nodup)
    (hold : s.entry? old.run = some old) (hfacts : w.facts = (s.changeEntry old new).1.facts) :
    (∃ x, w.entry? old.run = some x ∧ x.facts = new.facts) ∧ s.OthersKept w old.run := by
  have hall (run : Nat) : (w.entry? run).map Entry.facts =
      if run = old.run then (s.entry? run).map fun _ => new.facts else (s.entry? run).map Entry.facts := by
    rw [State.entry_facts_of_facts hfacts, State.changeEntry_entry old new s hrun hnodup]
  have hown := hall old.run
  rw [if_pos rfl, hold] at hown
  exact ⟨Option.map_eq_some_iff.1 hown, fun r hr => (hall r).trans (if_neg hr)⟩

theorem State.cancelEntry_calm (e : Entry) (reason : Option Text) (s : State) :
    (s.changeEntry e (e.cancel s.now reason)).1.Calm (s.cancelEntry e reason) := by
  rw [State.cancelEntry_eq]
  exact (State.voidRecord_calm ..).trans ((State.withdrawWhere_calm ..).trans ((State.trigger_calm ..).trans
    ((State.appendUrgent_calm ..).trans (State.settle_calm ..))))

theorem State.cancelEntry_facts (e : Entry) (reason : Option Text) (s : State) :
    (s.cancelEntry e reason).facts = (s.changeEntry e (e.cancel s.now reason)).1.facts := by
  rw [(State.cancelling_blocks e reason s).2.2.2, State.cancelEntry_eq, State.settle_facts]
  exact State.facts_of_table (State.cancelledAt_blocks e reason s).2.1

theorem State.changeEntry_speaking (hok : s.CuesOk) (hcalm : (s.changeEntry old new).1.Calm w) : w.speaking = s.speaking := by
  have hput : (s.putEntry old (old.counted new)).CuesOk := hok.of_cues (State.putEntry_blocks ..).2.1
  have hchange := State.changeEntry_calm old new s
  rw [hcalm.speaking (hchange.cuesOk hput), hchange.speaking hput, State.speaking, State.speaking, (State.putEntry_blocks ..).2.1]

theorem State.cancelEntry_rev (hk : s.TableOk) (hold : s.entry? e.run = some e) (hstate : e.state ≠ .cancelled) (reason : Option Text) :
    (s.cancelEntry e reason).revOf e.run = some (e.rev + 1) := by
  obtain ⟨htracker, htable, -⟩ := State.cancelledAt_blocks e reason s
  obtain ⟨hvtracker, hvtable, -⟩ := State.cancelling_blocks e reason s
  have hcounted : (e.counted (e.cancel s.now reason)).rev = e.rev + 1 := Entry.counted_rev_state hstate
  rw [State.cancelEntry_eq, ← hcounted]
  exact State.voided_rev (old := e) (new := e.cancel s.now reason) rfl hk.2.1 hold (htracker.trans hvtracker) (htable.trans hvtable) s

theorem CueCalled.cancel_reached {now : Int} {zones : List Nat} (h : c.Made now .cancel run zones now) :
    c.Reached .cancel run zones ∧ c.state = .due ∧ c.attempts = 0 := by
  obtain ⟨hkind, hrun, hzones, -, hstate, hattempts, -⟩ := h
  rw [if_pos (le_refl now)] at hstate
  exact ⟨⟨hkind, hrun, fun ht => absurd (ht.symm.trans (Cue.isTaken_of_due hstate)) nofun, fun _ => hzones⟩, hstate, hattempts⟩

/-! ## A change of the reason alone -/

theorem State.amendEntry_reason (hk : s.TableOk) (hold : s.entry? e.run = some e) (reason : Option Text) :
    (s.amendEntry e { e with reason := reason }).1.cues = s.cues := by
  have hretest : s.retest e { e with reason := reason } = { e with reason := reason } := if_pos ⟨rfl, rfl⟩
  have hchange : (s.changeEntry e { e with reason := reason }).1 = s.putEntry e (e.counted { e with reason := reason }) := by
    rw [State.changeEntry_delayed (old := e) (new := { e with reason := reason }) rfl hk.2.1 hold rfl rfl, if_pos ⟨rfl, rfl⟩]
  have hput := (State.putEntry_blocks e (e.counted { e with reason := reason }) s).2.1
  unfold State.amendEntry
  split
  · rfl
  · rw [hretest]
    dsimp only
    split
    · rw [hchange, hput]
    · rw [State.settle_cues, hchange, hput]

theorem Entry.reason_sameShown (e : Entry) (reason : Option Text) : e.sameShown { e with reason := reason } = decide (reason = e.reason) := by
  simp [Entry.sameShown, Entry.displayed, eq_comm]

/-- Settles O25, by the change, the record voided, the cues withdrawn, the CANCEL cue called and the panels appended. -/
theorem cancCancelsTheEntry : Obligations.CancCancelsTheEntry := by
  intro s p seq f e htaking hk hrun he hdeparted hretiring reason hreason
  have herun : e.run = f.run := entryIn_run he
  have hold : s.entry? e.run = some e := by rwa [herun]
  have hallowed : (decide (e.state ≠ .departed) && decide (e.state ≠ .retiring)) = true := by simp [hdeparted, hretiring]
  by_cases hstate : e.state = .cancelled
  · have htaken : ((takenReason f.reason).orElse fun _ => e.reason) = reason := by
      rw [hreason, takenReason]
      split <;> rfl
    have hretest : s.retest e { e with reason := reason } = { e with reason := reason } := if_pos ⟨rfl, rfl⟩
    obtain ⟨x, hx⟩ := State.amendEntry_reworked (new := { e with reason := reason }) hk hold rfl hretiring
    rw [hretest] at hx
    obtain ⟨hexec, hanswered⟩ := State.taking_answered htaking (u := (s.amendEntry e { e with reason := reason }).1) (x := x)
      (clamped := (fixText 40 f.reason).2) (untracked := false) rfl (firstBad_runOk hrun) he hallowed
      (by dsimp only; rw [if_pos hstate, htaken]) (by rw [← herun]; exact hx.entry) fun q => State.amendEntry_link q e _ s
    have ht := hx.answerTel p ((Telegram.canc f).tel seq) (.accept (.revision x.rev) (fixText 40 f.reason).2 false)
    have hrev := ht.rev
    rw [Entry.reason_sameShown, herun] at hrev
    refine ⟨_, x, hexec, herun ▸ ht.entry, hanswered, fun hne => absurd hstate hne, fun _ => ⟨ht.facts, ?_, fun hnone => ?_⟩,
      herun ▸ ht.others, ht.beside, ht.speaking⟩
    · exact (State.answerTel_cues ..).trans (State.amendEntry_reason hk hold reason)
    · rw [hrev (.inl hnone) rfl]
      exact if_congr decide_eq_true_iff rfl rfl
  · have hcancel : e.cancel s.now (takenReason f.reason) =
        { e with state := .cancelled, stateTime := some s.now, reason := reason } := by
      by_cases hr : f.reason = [] <;> simp [hreason, Entry.cancel, takenReason, hr]
    obtain ⟨⟨x, hx, hxfacts⟩, hothers⟩ := State.changed_entry (old := e) (new := e.cancel s.now (takenReason f.reason)) rfl hk.2.1 hold
      (State.cancelEntry_facts e (takenReason f.reason) s)
    have hxrev := State.cancelEntry_rev hk hold hstate (takenReason f.reason)
    have hvoided := State.cancelEntry_voided e (takenReason f.reason) s
    have hurgent := State.cancelEntry_urgent e (takenReason f.reason) s
    have hgone := State.cancelEntry_gone e (takenReason f.reason) s
    have hcalled := State.cancelEntry_called hk hold hstate (takenReason f.reason)
    have hbeside := State.cancelEntry_beside e (takenReason f.reason) s
    have hspeaking (hok : s.CuesOk) := State.changeEntry_speaking hok (State.cancelEntry_calm e (takenReason f.reason) s)
    have hdisplaces (hok : s.CuesOk) (hnone : ∀ c ∈ s.cues.list, c.run ≠ e.run) :
        ∃ lost, CueCalled s.now .cancel e.run (0 :: e.displayed.toList) s.now s.cues.list
            (s.cancelEntry e (takenReason f.reason)).cues.list lost ∧
          s.RunsDropped (s.cancelEntry e (takenReason f.reason)) lost.toList := by
      obtain ⟨lost, hc⟩ := State.cancelEntry_displaces hk hold hstate (takenReason f.reason) hok hnone
      refine ⟨lost, hc.after ?_ fun q => ?_⟩
      · rw [State.cancelEntry_eq, State.settle_cues]
      · rw [State.cancelEntry_eq]
        exact (State.settle_calm ..).heard q
    have hlink (q : PortId) : (s.cancelEntry e (takenReason f.reason)).link q = s.link q := State.cancelEntry_link q e _ s
    rw [State.revOf, hx] at hxrev
    obtain ⟨hexec, hanswered⟩ := State.taking_answered htaking (u := s.cancelEntry e (takenReason f.reason)) (x := x)
      (clamped := (fixText 40 f.reason).2) (untracked := false) rfl (firstBad_runOk hrun) he hallowed
      (by dsimp only; rw [if_neg hstate]) (by rw [← herun]; exact hx) hlink
    generalize s.cancelEntry e (takenReason f.reason) = u at *
    have hheard (q : PortId) := State.answerTel_heard p ((Telegram.canc f).tel seq)
      (.accept (.revision x.rev) (fixText 40 f.reason).2 false) u q
    rw [herun] at hx hothers hvoided hurgent hgone hcalled hdisplaces
    refine ⟨_, x, hexec, hx, hanswered, fun _ => ⟨?_, Option.some.inj hxrev, hvoided.answerTel .., hurgent.of_bus rfl, hgone, hcalled,
      fun hok hfull hnone => ?_⟩, fun h => absurd h hstate, hothers, hbeside.trans ⟨rfl, rfl, rfl, rfl⟩, hspeaking⟩
    · rw [hxfacts, hcancel]
      rfl
    · obtain ⟨lost, hlist, hdropped⟩ := hdisplaces hok hnone
      obtain ⟨hgreatest, hlow⟩ := hlist.2 hfull
      refine ⟨fun before d after hl hw hp hb ha => ?_, fun hall => ?_⟩
      · obtain ⟨hlost, c, hc, hmade⟩ := hgreatest before d after hl hw hp hb ha
        refine ⟨⟨c, hc, CueCalled.cancel_reached hmade⟩, fun q hq => ?_⟩
        have hprefix := hdropped q hq
        rw [hlost] at hprefix
        exact hprefix.trans (hheard q).1
      · obtain ⟨hlost, hsame⟩ := hlow hall
        refine ⟨hsame, fun q hq => ?_⟩
        have hprefix := hdropped q hq
        rw [hlost] at hprefix
        exact hprefix.trans (hheard q).1

end Sys2Proof.Machine
end

section
/-! PROOF. What a change of other runs leaves of one run: the base of every operation that walks through the table
(R9, R33, R57). -/
namespace Sys2Proof.Machine

open Sys2Proof

variable {s t u v w : State} {run m : Nat} {e x y old new : Entry} {c : Cue} {k : CueKind}

/-- From `s` to `t` nothing of the run has been touched: its entry but for the change record's marks, its revision while no
OPEN record of it is announced, and its cues, but that one may have given its place in a full list. -/
structure State.Apart (run : Nat) (s t : State) : Prop where
  sources : t.sources = s.sources
  entry : (t.entry? run).map Entry.facts = (s.entry? run).map Entry.facts
  nodup : (s.table.entries.map (·.run)).Nodup → (t.table.entries.map (·.run)).Nodup
  unspoken : s.Unspoken run → t.Unspoken run
  rev : s.Unspoken run → t.revOf run = s.revOf run
  closed : s.openRecord? run = none → t.openRecord? run = none
  heard : ∀ q, (s.port q).Heard (t.port q)
  cuesOk : s.CuesOk → t.CuesOk
  speaking : s.CuesOk → t.speaking = s.speaking
  cues : ∀ c ∈ t.cues.list, c.run = run → c ∈ s.cues.list
  kept : s.CuesOk → ∀ c ∈ s.cues.list, c.run = run → c.state ≠ .waiting → c ∈ t.cues.list

theorem State.Apart.refl (s : State) : s.Apart run s :=
  ⟨rfl, rfl, id, id, fun _ => rfl, id, fun _ => .refl _, id, fun _ => rfl, fun _ h _ => h, fun _ _ h _ _ => h⟩

theorem State.Apart.trans (h : State.Apart run s t) (k : State.Apart run t u) : State.Apart run s u where
  sources := k.sources.trans h.sources
  entry := k.entry.trans h.entry
  nodup := k.nodup ∘ h.nodup
  unspoken := k.unspoken ∘ h.unspoken
  rev hs := (k.rev (h.unspoken hs)).trans (h.rev hs)
  closed := k.closed ∘ h.closed
  heard q := (h.heard q).trans (k.heard q)
  cuesOk := k.cuesOk ∘ h.cuesOk
  speaking hs := (k.speaking (h.cuesOk hs)).trans (h.speaking hs)
  cues c hc hrun := h.cues c (k.cues c hc hrun) hrun
  kept hs c hc hrun hw := k.kept (h.cuesOk hs) c (h.kept hs c hc hrun hw) hrun hw

theorem State.runs_of_facts (h : t.facts = s.facts) : t.table.entries.map (·.run) = s.table.entries.map (·.run) := by
  have hruns (u : State) : u.table.entries.map (·.run) = u.facts.map (·.run) := by
    rw [State.facts, List.map_map]
    rfl
  rw [hruns, hruns, h]

/-- What leaves all the facts of the table, and brings in no cue of the run. -/
theorem State.Apart.of_calm (hsrc : t.sources = s.sources) (hcalm : s.Calm t) (hfacts : t.facts = s.facts) (hopen : s.OpenFrom t)
    (hcues : ∀ c ∈ t.cues.list, c.run = run → c ∈ s.cues.list)
    (hkept : s.CuesOk → ∀ c ∈ s.cues.list, c.run = run → c.state ≠ .waiting → c ∈ t.cues.list) : s.Apart run t where
  sources := hsrc
  entry := State.entry_facts_of_facts hfacts run
  nodup h := by rwa [State.runs_of_facts hfacts]
  unspoken := hcalm.unspoken run
  rev := hcalm.rev run
  closed := hopen.openRecord?_none
  heard := hcalm.heard
  cuesOk := hcalm.cuesOk
  speaking := hcalm.speaking
  cues := hcues
  kept := hkept

/-- A change of the table alone that leaves the entry of the run. -/
theorem State.Apart.of_table (hsrc : t.sources = s.sources) (htracker : t.tracker = s.tracker) (hcues : t.cues = s.cues)
    (hports : t.ports = s.ports) (hentry : t.entry? run = s.entry? run)
    (hnodup : (s.table.entries.map (·.run)).Nodup → (t.table.entries.map (·.run)).Nodup) : s.Apart run t where
  sources := hsrc
  entry := by rw [hentry]
  nodup := hnodup
  unspoken h := h.of_tracker htracker
  rev _ := by rw [State.revOf, hentry, State.revOf]
  closed := (State.OpenFrom.of_tracker htracker).openRecord?_none
  heard q := by
    rw [show t.port q = s.port q from congrArg (Ports.get · q) hports]
    exact .refl _
  cuesOk h := h.of_cues hcues
  speaking _ := by rw [State.speaking, hcues, State.speaking]
  cues _ hc _ := by rwa [hcues] at hc
  kept _ _ hc _ _ := by rwa [hcues]

/-- What leaves all the facts of the table and the cues. -/
theorem State.Apart.of_cues (hsrc : t.sources = s.sources) (hcalm : s.Calm t) (hfacts : t.facts = s.facts) (hopen : s.OpenFrom t)
    (hcues : t.cues = s.cues) : s.Apart run t :=
  .of_calm hsrc hcalm hfacts hopen (fun _ hc _ => by rwa [hcues] at hc) fun _ _ hc _ _ => by rwa [hcues]

theorem State.Apart.ite {p : Prop} [Decidable p] (ht : s.Apart run t) (hu : s.Apart run u) : s.Apart run (if p then t else u) := by
  split
  · exact ht
  · exact hu

/-! ## The operations -/

theorem State.recompose_apart (s : State) : s.Apart run s.recompose :=
  .of_cues (State.recompose_sources s) (State.recompose_calm s) (State.recompose_facts s) (State.recompose_openFrom s)
    (State.recompose_cues s)

theorem State.rederive_apart (s : State) : s.Apart run s.rederive :=
  .of_table rfl rfl rfl rfl rfl id

theorem State.post_apart {names : List PortId} (h : names.Nodup) (kind : NoticeKind) (x : Subject) (s : State) :
    s.Apart run (s.post names kind x) :=
  .of_cues (State.post_sources ..) (State.post_calm h kind x s) (State.facts_of_table (State.post_table ..))
    (.of_tracker (State.post_tracker ..)) (State.post_cues ..)

theorem State.withdrawWhere_apart {p : Cue → Bool} (hp : ∀ c, p c = true → c.run ≠ run) (s : State) :
    s.Apart run (s.withdrawWhere p) := by
  refine .of_calm rfl (State.withdrawWhere_calm p s) rfl (.of_tracker rfl) (fun c hc hrun => ?_) fun _ c hc hrun _ => ?_
  · rw [State.withdrawWhere_list] at hc
    obtain ⟨d, hd, rfl⟩ := List.mem_map.1 hc
    have hmem := (List.mem_filter.1 hd).1
    split
    next hpd =>
      rw [if_pos hpd] at hrun
      exact absurd hrun (hp d hpd)
    · exact hmem
  · have hpc : p c = false := Bool.eq_false_iff.2 fun h => hp c h hrun
    rw [State.withdrawWhere_list]
    exact List.mem_map.2 ⟨c, List.mem_filter.2 ⟨hc, by simp [hpc]⟩, by simp [hpc]⟩

/-- A trigger takes a WAITING cue alone off the list, and revises its own alone (R87, R94). -/
theorem State.trigger_kept (hok : s.CuesOk) {zones : List Nat} {due : Int} (hc : c ∈ s.cues.list) (hw : c.state ≠ .waiting)
    (hown : ¬(c.kind = k ∧ c.run = m)) : c ∈ (s.trigger k m zones due).cues.list := by
  have happend {u : State} (hu : c ∈ u.cues.list) : c ∈ (u.appendCue k m zones due).cues.list := by
    rw [State.appendCue_list]
    exact List.mem_append_left _ hu
  unfold State.trigger
  split
  · exact List.mem_map.2 ⟨c, hc, if_neg (by simpa using hown)⟩
  · split
    · exact happend hc
    · split
      next d hd =>
        obtain ⟨hmem, hwaiting, -⟩ := displaced_mem hd
        refine happend ?_
        rw [State.postDropped, State.post_cues]
        refine List.mem_filter.2 ⟨hc, decide_eq_true fun hnum => hw ?_⟩
        rw [List.inj_on_of_nodup_map hok.2.1 hc hmem hnum, hwaiting]
      · rwa [State.postDropped, State.post_cues]

theorem State.trigger_apart (hm : m ≠ run) (k : CueKind) (zones : List Nat) (due : Int) (s : State) :
    s.Apart run (s.trigger k m zones due) :=
  .of_calm (State.trigger_sources ..) (State.trigger_calm ..) (State.facts_of_table (State.trigger_table ..))
    (.of_tracker (State.trigger_tracker ..))
    (fun _ hc hrun => (State.trigger_mem hc).resolve_right fun h => hm (h.2.symm.trans hrun))
    fun hok _ hc hrun hw => State.trigger_kept hok hc hw fun h => hm (h.2.symm.trans hrun)

theorem State.handoverPlaces_apart (hm : e.run ≠ run) (o : Option Entry) (s : State) : s.Apart run (s.handoverPlaces o e) := by
  have hdrawn : s.Apart run (s.handoverWithdrawals o e) := by
    rw [State.handoverWithdrawals_eq]
    refine State.withdrawWhere_apart (fun b hb => ?_) s
    rw [Bool.and_eq_true, decide_eq_true_eq] at hb
    exact hb.1 ▸ hm
  refine hdrawn.trans (.of_calm rfl (State.follow_calm e _) rfl (.of_tracker rfl) (fun c hc hrun => ?_) fun _ c hc hrun _ => ?_)
  · obtain ⟨d, hd, rfl⟩ := List.mem_map.1 hc
    split
    next hown =>
      rw [if_pos hown, (Cue.follow_sameBut ..).run] at hrun
      exact absurd ((of_decide_eq_true hown).symm.trans hrun) hm
    · exact hd
  · exact List.mem_map.2 ⟨c, hc, if_neg (by simpa using fun h => hm (h.symm.trans hrun))⟩

theorem State.cueHandover_apart (hm : e.run ≠ run) (o : Option Entry) (s : State) : s.Apart run (s.cueHandover o e) := by
  have hcalled {p : Prop} [Decidable p] (k : CueKind) (zones : List Nat) (due : Int) (u : State) :
      u.Apart run (if p then u.trigger k e.run zones due else u) := .ite (State.trigger_apart hm ..) (.refl u)
  have hfinal (u : State) : u.Apart run (u.handoverFinal o e) := by
    unfold State.handoverFinal
    split
    · exact State.trigger_apart hm ..
    · exact hcalled ..
  rw [State.cueHandover_eq]
  exact (State.handoverPlaces_apart hm o s).trans ((hcalled ..).trans ((hcalled ..).trans (hfinal _)))

theorem State.putEntry_runs (hrun : new.run = old.run) (s : State) :
    ((s.putEntry old new).table.entries.map (·.run)).Perm (s.table.entries.map (·.run)) := by
  have hput : (s.putEntry old new).table.entries = sortEntries (updWhere (·.run = old.run) (fun _ => new) s.table.entries) := by
    unfold State.putEntry
    split <;> rfl
  have hsame : (updWhere (·.run = old.run) (fun _ => new) s.table.entries).map (·.run) = s.table.entries.map (·.run) := by
    rw [updWhere, List.map_map]
    refine List.map_congr_left fun a _ => ?_
    by_cases ha : a.run = old.run <;> simp [ha, hrun]
  rw [hput, ← hsame]
  exact (sortEntries_perm _).map _

theorem State.putEntry_apart (hrun : new.run = old.run) (hm : old.run ≠ run) (hnodup : (s.table.entries.map (·.run)).Nodup) :
    s.Apart run (s.putEntry old new) := by
  refine .of_table (State.putEntry_sources ..) (State.putEntry_blocks ..).2.2 (State.putEntry_blocks ..).2.1
    (State.putEntry_blocks ..).1 ?_ (State.putEntry_runs hrun s).nodup_iff.2
  rw [State.putEntry_entry _ _ _ hrun hnodup, if_neg hm.symm]

/-- The change of another entry, its displayed platform as it was. -/
theorem State.changeEntry_apart (hrun : new.run = old.run) (hm : old.run ≠ run) (hnodup : (s.table.entries.map (·.run)).Nodup)
    (hdisp : old.displayed = new.displayed) : s.Apart run (s.changeEntry old new).1 := by
  have hfacts := Entry.counted_facts old new
  have hcrun : (old.counted new).run = old.run := (congrArg Entry.run hfacts :).trans hrun
  have hcdisp : old.displayed = (old.counted new).displayed := hdisp.trans (congrArg Entry.displayed hfacts :).symm
  have hput : s.Apart run (s.putEntry old (old.counted new)) := State.putEntry_apart hcrun hm hnodup
  have hhand (o : Option Entry) (st : EntryState) (u v : State) : u.Apart run (u.cueHandover o (v.standing (old.counted new) st)) :=
    State.cueHandover_apart (by rwa [State.standing_run, hcrun]) o u
  simp only [State.changeEntry, if_pos hcdisp, State.handStanding]
  split <;> split
  · exact hput
  · exact hput.trans (hhand ..)
  · exact hput.trans (hhand ..)
  · exact (hput.trans (hhand ..)).trans (hhand ..)

/-! ## A walk through the runs of the table -/

/-- A step of the walk may touch its own run alone. -/
def State.Walks (f : State → Nat → State) : Prop :=
  ∀ (s : State) (m run : Nat), m ≠ run → (s.table.entries.map (·.run)).Nodup → s.Apart run (f s m)

theorem State.Walks.apart {f : State → Nat → State} (hf : State.Walks f) {runs : List Nat} (hrun : run ∉ runs)
    (hnodup : (s.table.entries.map (·.run)).Nodup) : s.Apart run (runs.foldl f s) := by
  induction runs generalizing s with
  | nil => exact .refl s
  | cons m ms ih =>
    rw [List.mem_cons, not_or] at hrun
    have hstep := hf s m run (Ne.symm hrun.1) hnodup
    exact hstep.trans (ih hrun.2 (hstep.nodup hnodup))

/-- A walk comes to a run once: what stands before it and what comes after leaves the run alone. -/
theorem State.Walks.reaches {f : State → Nat → State} (hf : State.Walks f) {runs : List Nat} (hruns : runs.Nodup) (hrun : run ∈ runs)
    (hnodup : (s.table.entries.map (·.run)).Nodup)
    (hstep : ∀ u : State, (u.table.entries.map (·.run)).Nodup → ((f u run).table.entries.map (·.run)).Nodup) :
    ∃ u, s.Apart run u ∧ (u.table.entries.map (·.run)).Nodup ∧ (f u run).Apart run (runs.foldl f s) := by
  obtain ⟨before, after, rfl⟩ := List.append_of_mem hrun
  obtain ⟨-, hafter, hbefore⟩ := List.nodup_append.1 hruns
  have hu := hf.apart (fun h => hbefore _ h _ (List.mem_cons_self ..) rfl) hnodup (s := s) (runs := before) (run := run)
  refine ⟨_, hu, hu.nodup hnodup, ?_⟩
  rw [List.foldl_append, List.foldl_cons]
  exact hf.apart (List.nodup_cons.1 hafter).1 (hstep _ (hu.nodup hnodup))

/-! ## Filters cleared -/

/-- An entry under the run of another. -/
def Entry.under (new a : Entry) : Entry := { new with run := a.run }

theorem Entry.under_run (new a : Entry) : (new.under a).run = a.run := rfl

theorem State.updEntry_put (hm : new.run = m) (s : State) : s.updEntry m (fun _ => new) = s.updEntry m new.under := by
  refine congrArg (fun l => ({ s with table := { s.table with entries := l } } : State)) (List.map_congr_left fun a _ => ?_)
  by_cases ha : a.run = m
  · simp [ha, ← hm, Entry.under]
  · simp [ha]

theorem State.updEntry_runs {f : Entry → Entry} (hf : ∀ e, (f e).run = e.run) (m : Nat) (s : State) :
    (s.updEntry m f).table.entries.map (·.run) = s.table.entries.map (·.run) := by
  rw [State.updEntry, updWhere, List.map_map]
  refine List.map_congr_left fun a _ => ?_
  by_cases ha : a.run = m <;> simp [ha, hf]

theorem State.updEntry_apart {f : Entry → Entry} (hf : ∀ e, (f e).run = e.run) (hm : m ≠ run) (s : State) :
    s.Apart run (s.updEntry m f) := by
  refine .of_table rfl rfl rfl rfl ?_ (fun h => by rwa [State.updEntry_runs hf])
  rw [State.updEntry_entry hf, if_neg hm.symm]

/-- The entry that stands when the filters have been cleared (R33). -/
def State.cleared (s : State) (e : Entry) : Entry :=
  s.refiltered e Filter.empty (e.filter.dp.isSome && e.inService)

theorem State.refiltered_run (e : Entry) (g : Filter) (runs : Bool) (s : State) : (s.refiltered e g runs).run = e.run := by
  cases runs with
  | false => rfl
  | true => exact (State.retest_run ..).trans (Entry.recompute_keeps ..).1

theorem State.refiltered_displayed (e : Entry) (g : Filter) (runs : Bool) (s : State) :
    (s.refiltered e g runs).displayed = e.displayed := by
  cases runs with
  | false => rfl
  | true => exact (State.retest_displayed ..).trans (Entry.recompute_keeps ..).2.2.2

theorem State.clearFilter_eq (he : s.entry? m = some e) :
    s.clearFilter m =
      if e.filter.dp.isSome = true ∧ e.inService = true then (s.changeEntry e (s.cleared e)).1.recompose
      else s.updEntry m fun _ => s.cleared e := by
  unfold State.clearFilter State.cleared State.refiltered
  rw [he]
  dsimp only
  by_cases h : e.filter.dp.isSome = true ∧ e.inService = true
  · rw [if_pos h, if_pos h, if_pos (by simp [h])]
  · rw [if_neg h, if_neg h, if_neg (by simpa using h)]

theorem State.clearFilter_walks : State.Walks fun s m => s.clearFilter m := by
  intro s m run hm hnodup
  dsimp only
  cases he : s.entry? m with
  | none =>
    unfold State.clearFilter
    rw [he]
    exact .refl s
  | some e =>
    have herun : e.run = m := entryIn_run he
    have hrun : (s.cleared e).run = e.run := State.refiltered_run ..
    rw [State.clearFilter_eq he]
    refine .ite ?_ ?_
    · exact (State.changeEntry_apart hrun (herun ▸ hm) hnodup (State.refiltered_displayed ..).symm).trans (State.recompose_apart _)
    · rw [State.updEntry_put (hrun.trans herun)]
      exact State.updEntry_apart (Entry.under_run _) hm s

/-- From `s` to `t` the entry `old` has been changed to the facts of `new`, with its revision counted. -/
structure State.Became (s t : State) (old new : Entry) : Prop where
  entry : ∃ x, t.entry? old.run = some x ∧ x.facts = new.facts
  unspoken : s.Unspoken old.run → t.Unspoken old.run
  closed : s.openRecord? old.run = none → t.openRecord? old.run = none
  rev : s.Unspoken old.run → t.revOf old.run = some (if old.sameShown new then new.rev else old.rev + 1)
  nodup : (t.table.entries.map (·.run)).Nodup

theorem State.changeEntry_became (hrun : new.run = old.run) (hold : s.entry? old.run = some old)
    (hnodup : (s.table.entries.map (·.run)).Nodup) (hdisp : old.displayed = new.displayed) :
    s.Became (s.changeEntry old new).1.recompose old new := by
  obtain ⟨hentry, -⟩ := State.changed_entry hrun hnodup hold (State.recompose_facts (s.changeEntry old new).1)
  have hcrun : (old.counted new).run = old.run := (congrArg Entry.run (Entry.counted_facts old new) :).trans hrun
  have hruns := State.runs_of_facts ((State.recompose_facts _).trans (State.changeEntry_facts old new s))
  have hcalm := State.recompose_calm (s.changeEntry old new).1
  have hopen := State.recompose_openFrom (s.changeEntry old new).1
  refine ⟨hentry, fun h => hcalm.unspoken _ (State.changeEntry_unspoken h old new), fun h => hopen.openRecord?_none ?_, fun h => ?_, ?_⟩
  · exact (State.OpenFrom.of_tracker (State.changeEntry_signalling hdisp).1).openRecord?_none h
  · rw [hcalm.rev _ (State.changeEntry_unspoken h old new), State.changeEntry_rev, State.revOf,
      State.putEntry_entry _ _ _ hcrun hnodup, if_pos rfl, hold, Entry.counted]
    split <;> rfl
  · rw [hruns]
    exact (State.putEntry_runs hcrun s).nodup_iff.2 hnodup

theorem State.updEntry_became (hrun : new.run = old.run) (hshown : old.sameShown new = true) (hold : s.entry? old.run = some old)
    (hnodup : (s.table.entries.map (·.run)).Nodup) : s.Became (s.updEntry old.run fun _ => new) old new := by
  have hput := State.updEntry_put hrun s
  have hentry : (s.updEntry old.run fun _ => new).entry? old.run = some new := by
    rw [hput, State.updEntry_entry (Entry.under_run new), if_pos rfl, hold, Option.map_some, Entry.under, ← hrun]
  refine ⟨⟨new, hentry, rfl⟩, fun h => h.of_tracker rfl, id, fun _ => ?_, ?_⟩
  · rw [State.revOf, hentry, hshown, if_pos rfl]
    rfl
  · rw [hput, State.updEntry_runs (Entry.under_run new)]
    exact hnodup

theorem State.clearFilter_became (hold : s.entry? e.run = some e) (hnodup : (s.table.entries.map (·.run)).Nodup) :
    s.Became (s.clearFilter e.run) e (s.cleared e) := by
  rw [State.clearFilter_eq hold]
  split
  · exact State.changeEntry_became (State.refiltered_run ..) hold hnodup (State.refiltered_displayed ..).symm
  next h =>
    have hcleared : s.cleared e = { e with filter := Filter.empty } := by
      unfold State.cleared State.refiltered
      rw [if_neg (by simpa using h)]
    rw [hcleared]
    exact State.updEntry_became rfl (Entry.filter_sameShown e Filter.empty) hold hnodup

end Sys2Proof.Machine
end

section
/-! PROOF. A silent port and the start of holdover (R33, R55, R184). -/
namespace Sys2Proof.Machine

open Sys2Proof

variable {s t u v w : State} {run m : Nat} {e x y old new : Entry} {p q : PortId}

/-! ## What the facts of an entry decide -/

theorem Entry.sameShown_of_facts (h : old.openRec = new.openRec) : old.sameShown new = old.facts.sameShown new.facts := by
  have hopen : decide (old.openRec.isSome = new.openRec.isSome) = true := by rw [h]; exact decide_eq_true rfl
  unfold Entry.sameShown
  rw [hopen]
  rfl

theorem Entry.transition_of_facts (h : y.facts = e.facts) (p : Params) (now : Int) :
    (y.transition p now).facts = (e.transition p now).facts := by
  have hcommute (a : Entry) : (a.transition p now).facts = a.facts.transition p now := by
    unfold Entry.transition
    simp only [apply_ite Entry.facts]
    rfl
  rw [hcommute, hcommute, h]

theorem Entry.recompute_of_facts (h : y.facts = e.facts) (hysteresis : Nat) :
    (y.recompute hysteresis).facts = (e.recompute hysteresis).facts := by
  have hcommute (a : Entry) : (a.recompute hysteresis).facts = a.facts.recompute hysteresis := by
    unfold Entry.recompute
    simp only [apply_ite Entry.facts]
    rfl
  rw [hcommute, hcommute, h]

theorem State.retest_of_facts (hsrc : u.sources = s.sources) (hold : y.facts = e.facts) {a b : Entry} (hnew : a.facts = b.facts) :
    (u.retest y a).facts = (s.retest e b).facts := by
  have hnow : u.now = s.now := State.now_of_sources hsrc
  have hin : u.inForce = s.inForce := State.inForce_of_sources hsrc
  have hdisp : y.displayed = e.displayed := (congrArg Entry.displayed hold :)
  have hexp : y.exp = e.exp := (congrArg Entry.exp hold :)
  have hdisp' : a.displayed = b.displayed := (congrArg Entry.displayed hnew :)
  have hexp' : a.exp = b.exp := (congrArg Entry.exp hnew :)
  unfold State.retest
  rw [hnow, hin, hdisp, hexp, hdisp', hexp']
  split
  · exact hnew
  · exact Entry.transition_of_facts hnew ..

theorem Entry.filter_facts (h : y.facts = e.facts) (g : Filter) :
    ({ y with filter := g } : Entry).facts = ({ e with filter := g } : Entry).facts :=
  congrArg (fun a : Entry => { a with filter := g }) h

theorem State.cleared_of_facts (hsrc : u.sources = s.sources) (h : y.facts = e.facts) :
    (u.cleared y).facts = (s.cleared e).facts := by
  have hfilter : y.filter = e.filter := (congrArg Entry.filter h :)
  have hin : y.inService = e.inService := (congrArg Entry.inService h :)
  unfold State.cleared State.refiltered
  rw [hfilter, hin, State.inForce_of_sources hsrc]
  split
  · exact State.retest_of_facts hsrc h (Entry.recompute_of_facts (Entry.filter_facts h _) _)
  · exact Entry.filter_facts h _

theorem State.refiltered_openRec (e : Entry) (g : Filter) (runs : Bool) (s : State) : (s.refiltered e g runs).openRec = e.openRec := by
  cases runs with
  | false => rfl
  | true =>
    have hrecompute := (Entry.recompute_keeps s.inForce.hysteresis { e with filter := g }).2.1
    unfold State.refiltered State.retest
    rw [if_pos rfl]
    split
    · exact hrecompute
    · exact (Entry.transition_fields ..).2.1.trans hrecompute

theorem State.cleared_sameShown (hsrc : u.sources = s.sources) (h : y.facts = e.facts) :
    y.sameShown (u.cleared y) = e.sameShown (s.cleared e) := by
  rw [Entry.sameShown_of_facts (new := u.cleared y) (State.refiltered_openRec ..).symm,
    Entry.sameShown_of_facts (new := s.cleared e) (State.refiltered_openRec ..).symm, h, State.cleared_of_facts hsrc h]

/-! ## Every filter cleared -/

/-- Where a step of a walk comes to the run of `e` in a state that has left it alone. -/
theorem State.Apart.at_entry (h : s.Apart e.run u) (he : s.entry? e.run = some e) :
    ∃ y, u.entry? e.run = some y ∧ y.facts = e.facts ∧ y.run = e.run ∧ (s.Unspoken e.run → y.rev = e.rev) := by
  have hentry := h.entry
  rw [he] at hentry
  obtain ⟨y, hy, hfacts⟩ := Option.map_eq_some_iff.1 hentry
  refine ⟨y, hy, hfacts, entryIn_run hy, fun hs => ?_⟩
  have hrev := h.rev hs
  rw [State.revOf, State.revOf, hy, he] at hrev
  exact Option.some.inj hrev

theorem State.Became.apart (h : s.Became t old new) (k : t.Apart old.run u) : s.Became u old new where
  entry := by
    obtain ⟨x, hx, hfacts⟩ := h.entry
    have hentry := k.entry
    rw [hx] at hentry
    obtain ⟨y, hy, hyfacts⟩ := Option.map_eq_some_iff.1 hentry
    exact ⟨y, hy, hyfacts.trans hfacts⟩
  unspoken := k.unspoken ∘ h.unspoken
  closed := k.closed ∘ h.closed
  rev hs := (k.rev (h.unspoken hs)).trans (h.rev hs)
  nodup := k.nodup h.nodup

theorem State.clearFilter_nodup (hnodup : (u.table.entries.map (·.run)).Nodup) :
    ((u.clearFilter run).table.entries.map (·.run)).Nodup := by
  cases hy : u.entry? run with
  | none =>
    unfold State.clearFilter
    rwa [hy]
  | some y =>
    have hrun : y.run = run := entryIn_run hy
    rw [← hrun] at hy ⊢
    exact (State.clearFilter_became hy hnodup).nodup

/-- What is made of the entry that stands where `s` has been left alone is made of the entry of `s`. -/
theorem State.Apart.became {f : State → Entry → Entry} (h : s.Apart e.run u) (hold : s.entry? e.run = some e)
    (hfacts : ∀ y : Entry, y.facts = e.facts → (f u y).facts = (f s e).facts)
    (hshown : ∀ y : Entry, y.facts = e.facts → y.sameShown (f u y) = e.sameShown (f s e))
    (hrev : ∀ (v : State) (y : Entry), (f v y).rev = y.rev)
    (hb : ∀ y, y.run = e.run → u.entry? e.run = some y → u.Became t y (f u y)) : s.Became t e (f s e) := by
  obtain ⟨y, hy, hyfacts, hyrun, hyrev⟩ := h.at_entry hold
  obtain ⟨⟨x, hx, hxfacts⟩, hunspoken, hclosed, hbrev, hnodup⟩ := hb y hyrun hy
  rw [hyrun] at hx hunspoken hclosed hbrev
  refine ⟨⟨x, hx, hxfacts.trans (hfacts y hyfacts)⟩, hunspoken ∘ h.unspoken, hclosed ∘ h.closed, fun hs => ?_, hnodup⟩
  rw [hbrev (h.unspoken hs), hshown y hyfacts, hrev, hrev, hyrev hs]

theorem State.cleared_rev (v : State) (y : Entry) : (v.cleared y).rev = y.rev := State.refiltered_rev ..

theorem State.clearFilters_became (hnodup : (s.table.entries.map (·.run)).Nodup) (he : e ∈ s.table.entries) :
    s.Became s.clearFilters e (s.cleared e) := by
  obtain ⟨u, hu, hunodup, hrest⟩ := State.clearFilter_walks.reaches hnodup (List.mem_map_of_mem he) hnodup
    fun _ => State.clearFilter_nodup
  refine hu.became (entryIn_of_mem hnodup he) (fun _ => State.cleared_of_facts hu.sources)
    (fun _ => State.cleared_sameShown hu.sources) State.cleared_rev fun y hrun hy => ?_
  rw [← hrun] at hy hrest
  exact (State.clearFilter_became hy hunodup).apart hrest

theorem State.clearFilters_apart (hnodup : (s.table.entries.map (·.run)).Nodup) (hrun : run ∉ s.table.entries.map (·.run)) :
    s.Apart run s.clearFilters := State.clearFilter_walks.apart hrun hnodup

theorem State.entry?_none_iff : s.entry? run = none ↔ run ∉ s.table.entries.map (·.run) := by
  simp [State.entry?, List.find?_eq_none]

/-- Every filter cleared, in a state that has the table, the change records and the clock of `s`. -/
theorem State.filtersCleared_of (hold : ∀ e ∈ s.table.entries, s.Became t e (s.cleared e))
    (hnone : ∀ run, run ∉ s.table.entries.map (·.run) → s.Apart run t) : s.FiltersCleared t := by
  refine ⟨fun run => ?_, fun e he => ?_⟩
  · by_cases hrun : run ∈ s.table.entries.map (·.run)
    · obtain ⟨e, he, rfl⟩ := List.mem_map.1 hrun
      obtain ⟨x, hx, -⟩ := (hold e he).entry
      rw [hx, Option.isSome_some, Option.isSome_iff_ne_none.2 fun h => State.entry?_none_iff.1 h hrun]
    · have hentry := (hnone run hrun).entry
      rw [State.entry?_none_iff.2 hrun, Option.map_none, Option.map_eq_none_iff] at hentry
      rw [hentry, State.entry?_none_iff.2 hrun]
  · have hb := hold e he
    obtain ⟨x, hx, hfacts⟩ := hb.entry
    refine ⟨x, hx, fun cleared new hcleared hnew => ?_⟩
    have heq : new = s.cleared e := by
      rw [hnew, hcleared, State.cleared, State.refiltered]
      refine if_congr ?_ rfl rfl
      rw [Bool.and_eq_true, Option.isSome_iff_ne_none, and_comm]
    refine ⟨heq ▸ hfacts, fun hopen => ?_⟩
    have hrev := hb.rev (State.unspoken_of_none hopen)
    rw [State.revOf, hx, State.cleared, State.refiltered_rev, ← State.cleared] at hrev
    rw [heq]
    exact Option.some.inj hrev

/-! ## What every walk keeps -/

/-- From `s` to `t` the lists of notices have only grown, and the cues being spoken are as they were. -/
structure State.Overheard (s t : State) : Prop where
  heard : ∀ q, (s.port q).Heard (t.port q)
  cuesOk : s.CuesOk → t.CuesOk
  speaking : s.CuesOk → t.speaking = s.speaking

theorem State.Overheard.refl (s : State) : s.Overheard s := ⟨fun _ => .refl _, id, fun _ => rfl⟩

theorem State.Overheard.trans (h : s.Overheard t) (k : t.Overheard u) : s.Overheard u :=
  ⟨fun q => (h.heard q).trans (k.heard q), k.cuesOk ∘ h.cuesOk, fun hs => (k.speaking (h.cuesOk hs)).trans (h.speaking hs)⟩

theorem State.Calm.overheard (h : s.Calm t) : s.Overheard t := ⟨h.heard, h.cuesOk, h.speaking⟩

theorem State.Overheard.foldl {f : State → Nat → State} (hf : ∀ (u : State) (m : Nat), u.Overheard (f u m)) (runs : List Nat) (s : State) :
    s.Overheard (runs.foldl f s) := by
  induction runs generalizing s with
  | nil => exact .refl s
  | cons m ms ih => exact (hf s m).trans (ih _)

theorem State.Overheard.of_table (hports : t.ports = s.ports) (hcues : t.cues = s.cues) : s.Overheard t := by
  refine ⟨fun q => ?_, fun h => h.of_cues hcues, fun _ => by rw [State.speaking, hcues, State.speaking]⟩
  rw [show t.port q = s.port q from congrArg (Ports.get · q) hports]
  exact .refl _

theorem State.changeEntry_overheard (old new : Entry) (s : State) : s.Overheard (s.changeEntry old new).1 :=
  have hput := State.putEntry_blocks old (old.counted new) s
  .trans (.of_table hput.1 hput.2.1) (State.changeEntry_calm old new s).overheard

theorem State.clearFilters_overheard (s : State) : s.Overheard s.clearFilters := by
  refine .foldl (fun u m => ?_) _ s
  cases he : u.entry? m with
  | none =>
    unfold State.clearFilter
    rw [he]
    exact .refl u
  | some e =>
    rw [State.clearFilter_eq he]
    split
    · exact (State.changeEntry_overheard ..).trans (State.recompose_calm _).overheard
    · exact .of_table rfl rfl

/-! ## A silent port -/

/-- The state once a port has been found silent and the others have been told (R184). -/
def State.hushed (p : PortId) (s : State) : State :=
  (s.updPort p fun r => { r with live := false }).post ([PortId.planning, .signalling, .announcement].filter (· ≠ p))
    .portSilent (.port p)

theorem State.fallSilent_eq (p : PortId) (s : State) :
    s.fallSilent p = if p = .signalling then (s.hushed p).clearFilters else s.hushed p := rfl

theorem State.hushed_port (p q : PortId) (s : State) :
    (s.hushed p).port q =
      if q = p then { s.port q with live := false } else (s.port q).post ⟨.portSilent, .port p, s.time.clock⟩ := by
  rw [State.hushed, State.post_port (by cases p <;> decide), State.port_updPort]
  by_cases hq : q = p
  · subst hq
    simp
  · have hmem : q ∈ [PortId.planning, .signalling, .announcement].filter (· ≠ p) := by
      rw [List.mem_filter]
      exact ⟨by cases q <;> simp, by simpa using hq⟩
    rw [if_pos hmem, if_neg hq, if_neg hq]
    rfl

theorem State.hushed_blocks (p : PortId) (s : State) :
    (s.hushed p).table = s.table ∧ (s.hushed p).tracker = s.tracker ∧ (s.hushed p).cues = s.cues :=
  ⟨State.post_table .., State.post_tracker .., State.post_cues ..⟩

theorem State.hushed_heard (p q : PortId) (s : State) : (s.port q).Heard ((s.hushed p).port q) := by
  rw [State.hushed_port]
  split
  · exact ⟨List.prefix_rfl, id⟩
  · exact Port.heard_post ..

theorem State.hushed_sources (p : PortId) (s : State) : (s.hushed p).sources = s.sources := State.post_sources ..

theorem State.hushed_apart (p : PortId) (s : State) : s.Apart run (s.hushed p) := by
  obtain ⟨htable, htracker, hcues⟩ := State.hushed_blocks p s
  have hentry : (s.hushed p).entry? run = s.entry? run := by rw [State.entry?, htable, State.entry?]
  exact ⟨State.hushed_sources p s, by rw [hentry], by rw [htable]; exact id, fun h => h.of_tracker htracker,
    fun _ => by rw [State.revOf, hentry, State.revOf], (State.OpenFrom.of_tracker htracker).openRecord?_none,
    fun q => State.hushed_heard p q s, fun h => h.of_cues hcues, fun _ => by rw [State.speaking, hcues, State.speaking],
    fun _ hc _ => by rwa [hcues] at hc, fun _ _ hc _ _ => by rwa [hcues]⟩

theorem State.fallSilent_overheard (p : PortId) (s : State) : (s.hushed p).Overheard (s.fallSilent p) := by
  rw [State.fallSilent_eq]
  split
  · exact State.clearFilters_overheard _
  · exact .refl _

theorem State.fallSilent_link (p q : PortId) (s : State) :
    (s.fallSilent p).link q = if q = p then { s.link q with live := false } else s.link q := by
  have hpost (r : Port) (n : Notice) : (r.post n).link = r.link := by
    unfold Port.post
    split <;> rfl
  have hhushed : (s.hushed p).link q = if q = p then { s.link q with live := false } else s.link q := by
    rw [State.link, State.hushed_port]
    split
    · rfl
    · exact hpost ..
  rw [State.fallSilent_eq]
  split
  · rw [State.clearFilters_link, hhushed]
  · exact hhushed

theorem State.fallSilent_heard (p q : PortId) (s : State) : (s.port q).Heard ((s.fallSilent p).port q) :=
  (State.hushed_heard p q s).trans ((State.fallSilent_overheard p s).heard q)

theorem State.fallSilent_noticed {p q : PortId} (hq : q ≠ p) (s : State) :
    s.Noticed (s.fallSilent p) q ⟨.portSilent, .port p, s.time.clock⟩ := by
  have hheard := (State.fallSilent_overheard p s).heard q
  rw [State.hushed_port, if_neg hq] at hheard
  exact hheard.1

/-- What the silence of the signalling port makes of every filter (R33). -/
theorem State.fallSilent_became (hnodup : (s.table.entries.map (·.run)).Nodup) (he : e ∈ s.table.entries) :
    s.Became (s.fallSilent .signalling) e (s.cleared e) := by
  have hsrc := State.hushed_sources .signalling s
  have htable := (State.hushed_blocks .signalling s).1
  refine (State.hushed_apart .signalling s).became (entryIn_of_mem hnodup he) (fun _ => State.cleared_of_facts hsrc)
    (fun _ => State.cleared_sameShown hsrc) State.cleared_rev fun y hrun hy => ?_
  have hmem : y ∈ (s.hushed .signalling).table.entries := List.mem_of_find?_eq_some hy
  rw [State.fallSilent_eq, if_pos rfl]
  exact State.clearFilters_became (by rwa [htable]) hmem

theorem State.fallSilent_apart (hnodup : (s.table.entries.map (·.run)).Nodup) (hrun : run ∉ s.table.entries.map (·.run)) :
    s.Apart run (s.fallSilent .signalling) := by
  have htable := (State.hushed_blocks .signalling s).1
  rw [State.fallSilent_eq, if_pos rfl]
  exact (State.hushed_apart .signalling s).trans (State.clearFilters_apart (by rwa [htable]) (by rwa [htable]))

theorem State.settle_apart (s o : State) : s.Apart run (s.settle o) :=
  .of_cues (State.settle_sources ..) (State.settle_calm ..) (State.settle_facts ..) (State.settle_openFrom s o)
    (State.settle_cues ..)

/-- Settles O16, by what a silent port and the passage to HOLDOVER leave. -/
theorem silenceAndHoldoverAreReported : Obligations.SilenceAndHoldoverAreReported := by
  refine ⟨fun s p hp hlive hlimit => ⟨fun hmoved => ?_, fun hmoved => ?_⟩, fun s p hno => ?_, fun s hp => ⟨fun hset hlimit hmoved => ?_, fun hno => ?_⟩⟩
  · have hreached : s.silenceReached p = true ∧ ¬s.time.limitsMoved.contains (silenceParam p) = true := by
      rw [State.silenceReached, hlive, hmoved]
      exact ⟨by simpa using hlimit, nofun⟩
    refine ⟨(s.fallSilent p).settle s, ?_, ?_, fun q hq => ⟨?_, ?_⟩, ?_, ?_, fun hsig hk => ?_, fun hsig => ?_⟩
    · rw [← State.answer_powered hp]
      exact congrArg s.answer (if_pos hreached)
    · rw [State.settle_link, State.fallSilent_link, if_pos rfl]
    · rw [State.settle_link, State.fallSilent_link, if_neg hq]
    · exact State.Noticed.heard (State.fallSilent_noticed hq s) ((State.settle_calm ..).heard q)
    · exact ((State.fallSilent_heard p p s).trans ((State.settle_calm ..).heard p)).1
    · exact (State.fallSilent_beside p s).trans (State.settle_beside ..)
    · rw [hsig]
      exact State.filtersCleared_of (fun e he => (State.fallSilent_became hk.2.1 he).apart (State.settle_apart ..))
        fun run hrun => (State.fallSilent_apart hk.2.1 hrun).trans (State.settle_apart ..)
    · obtain ⟨htable, -, hcues⟩ := State.hushed_blocks p s
      rw [State.settle_facts, State.settle_cues, State.fallSilent_eq, if_neg hsig]
      exact ⟨State.facts_of_table htable, hcues⟩
  · rw [← State.answer_self s]
    exact congrArg s.answer (if_neg fun h => h.2 hmoved)
  · rw [← State.answer_self s]
    refine congrArg s.answer (if_neg fun h => ?_)
    obtain ⟨hl, hlim⟩ := Bool.and_eq_true _ _ ▸ h.1
    exact hno.elim (fun hn => by simp [hn] at hl) fun hlt => absurd (of_decide_eq_true hlim) (by omega)
  · have hreached : s.holdoverReached = true ∧ ¬s.time.limitsMoved.contains 321 = true := by
      rw [State.holdoverReached, hset, hmoved]
      exact ⟨by simpa using hlimit, nofun⟩
    refine ⟨s.enterHoldover.settleAttention, ?_, rfl, fun q => ?_, ?_, fun q hq => ?_⟩
    · rw [← State.answer_powered hp]
      exact congrArg s.answer (if_pos hreached)
    · rw [State.settleAttention_link, State.enterHoldover_link]
    · rw [State.settleAttention_notices, State.enterHoldover, State.post_port (by decide), if_pos (by decide)]
      rfl
    · rw [State.settleAttention_notices, State.enterHoldover, State.post_port (by decide), if_neg (by simpa using hq)]
      rfl
  · rw [← State.answer_self s]
    refine congrArg s.answer (if_neg fun h => ?_)
    obtain ⟨hstate, hlim⟩ := Bool.and_eq_true _ _ ▸ h.1
    obtain hn | hlt | hmoved := hno
    · exact hn (of_decide_eq_true hstate)
    · exact absurd (of_decide_eq_true hlim) (by omega)
    · exact h.2 hmoved

end Sys2Proof.Machine
end

section
/-! PROOF. What the evaluation of an entry makes of it and of its cues (R6 to R11, R57, R76). -/
namespace Sys2Proof.Machine

open Sys2Proof

variable {s t u v w : State} {run m : Nat} {e x y old new : Entry} {c c' : Cue} {k : CueKind}

/-! ## The cues of a run that is not left alone -/

/-- A cue that no longer waits, as it stands after a change of its run: only its content, its zones and its marks may have
moved. -/
structure Cue.StandsAs (c c' : Cue) : Prop where
  due : c'.due = c.due
  reached : c'.state ≠ .waiting
  isDue : c.state = .due → c'.state = .due

theorem Cue.StandsAs.refl (h : c.state ≠ .waiting) : c.StandsAs c := ⟨rfl, h, id⟩

theorem Cue.StandsAs.trans {d : Cue} (h : c.StandsAs d) (k : d.StandsAs c') : c.StandsAs c' :=
  ⟨k.due.trans h.due, k.reached, k.isDue ∘ h.isDue⟩

/-- From `s` to `t` the cues of the run that no longer wait have kept their due. -/
def State.CuesStand (run : Nat) (s t : State) : Prop :=
  s.CuesOk → ∀ c ∈ s.cues.list, c.run = run → c.state ≠ .waiting →
    ∀ c' ∈ t.cues.list, c'.kind = c.kind → c'.run = run → c.StandsAs c'

theorem State.CuesOk.same (h : s.CuesOk) (hc : c ∈ s.cues.list) (hc' : c' ∈ s.cues.list) (hkind : c'.kind = c.kind)
    (hrun : c'.run = c.run) : c' = c :=
  List.inj_on_of_nodup_map h.2.2.2.1 hc' hc (Prod.ext hkind hrun)

theorem State.Apart.cuesStand (h : s.Apart run t) : State.CuesStand run s t := by
  intro hok c hc hrun hw c' hc' hkind hrun'
  rw [hok.same hc (h.cues c' hc' hrun') hkind (hrun'.trans hrun.symm)]
  exact .refl hw

theorem State.Apart.cuesStand_through (h : s.Apart run u) (hstep : State.CuesStand run u v) (k : v.Apart run t) :
    State.CuesStand run s t :=
  fun hok c hc hrun hw c' hc' hkind hrun' =>
    hstep (h.cuesOk hok) c (h.kept hok c hc hrun hw) hrun hw c' (k.cues c' hc' hrun') hkind hrun'

theorem Cue.revise_stands (h : c.state ≠ .waiting) (now : Int) (zones : List Nat) (due : Int) : c.StandsAs (c.revise now zones due) := by
  unfold Cue.revise
  split
  next hw => exact absurd hw h
  next hd => exact ⟨rfl, h, id⟩
  next x ht => exact ⟨rfl, h, fun hd => by rw [ht] at hd; cases hd⟩

theorem Cue.follow_stands (h : c.state ≠ .waiting) (p : Params) (now exp : Int) : c.StandsAs (c.follow p now exp) := by
  unfold Cue.follow
  split
  next hw _ => exact absurd hw h
  next hw _ => exact absurd hw h
  · exact .refl h

/-- The place of a cue after a handover: it stands on, or there is none of its kind and none is made. -/
def State.Placed (c : Cue) (t : State) : Prop := ∃ c' ∈ t.cues.list, c'.kind = c.kind ∧ c'.run = c.run ∧ c.StandsAs c'

theorem State.Placed.trigger (h : s.Placed c) (hok : s.CuesOk) (k : CueKind) (run : Nat) (zones : List Nat) (due : Int) :
    (s.trigger k run zones due).Placed c := by
  obtain ⟨c', hc', hkind, hrun, hstands⟩ := h
  by_cases hown : c'.kind = k ∧ c'.run = run
  · have hsome : (s.cue? k run).isSome = true := by
      rw [Option.isSome_iff_ne_none]
      exact fun hnone => State.cue?_none_iff.1 hnone c' hc' hown
    obtain ⟨-, hrkind, hrrun, -⟩ := Cue.revise_fields s.now zones due c'
    refine ⟨c'.revise s.now zones due, ?_, hrkind.trans hkind, hrrun.trans hrun,
      hstands.trans (Cue.revise_stands hstands.reached ..)⟩
    unfold State.trigger
    rw [if_pos hsome]
    exact List.mem_map.2 ⟨c', hc', if_pos (by simpa using hown)⟩
  · exact ⟨c', State.trigger_kept hok hc' hstands.reached hown, hkind, hrun, hstands⟩

/-- No cue of the kind stands for the run. -/
def State.Vacant (k : CueKind) (run : Nat) (t : State) : Prop := ∀ c ∈ t.cues.list, ¬(c.kind = k ∧ c.run = run)

theorem State.Vacant.trigger {k' : CueKind} (h : State.Vacant k run s) (hk : k' ≠ k) (m : Nat) (zones : List Nat) (due : Int) :
    State.Vacant k run (s.trigger k' m zones due) := fun c hc hown =>
  (State.trigger_mem hc).elim (fun hmem => h c hmem hown) fun hnew => hk (hnew.1.symm.trans hown.1)

/-- A kind that a handover withdraws it does not call for (R86 to R91). -/
def Entry.spares (p : Params) (o : Option Entry) (e : Entry) : CueKind → Prop
  | .platform => e.wantsPlatformCue = false
  | .delay => p.wantsDelayCue e = false
  | .final => enteredBoarding o e = false
  | _ => False

theorem Entry.spares_of_withdraws {p : Params} {o : Option Entry} (h : e.withdraws p o k = true) : e.spares p o k := by
  have hleft : leftService o e = true → e.awaiting = false ∧ e.state ≠ .boarding := by
    intro hl
    simp only [leftService, Bool.and_eq_true, Bool.or_eq_true, decide_eq_true_eq] at hl
    obtain ⟨-, (hs | hs) | hs⟩ := hl <;> simp [Entry.awaiting, hs]
  cases k with
  | platform =>
    simp only [Entry.withdraws, Bool.or_eq_true, Bool.and_eq_true] at h
    obtain ⟨-, hnone⟩ | hl := h
    · simp [Entry.spares, Entry.wantsPlatformCue, Option.isNone_iff_eq_none.1 hnone]
    · simp [Entry.spares, Entry.wantsPlatformCue, (hleft hl).1]
  | delay =>
    simp only [Entry.withdraws, Bool.or_eq_true, decide_eq_true_eq, Bool.not_eq_true'] at h
    obtain hlt | haw := h
    · simp [Entry.spares, Params.wantsDelayCue, Nat.not_le.2 hlt]
    · simp [Entry.spares, Params.wantsDelayCue, haw]
  | final =>
    simp only [Entry.withdraws, Bool.or_eq_true, Bool.and_eq_true, decide_eq_true_eq] at h
    obtain hl | ⟨-, hs⟩ := h
    · simp [Entry.spares, enteredBoarding, (hleft hl).2]
    · simp [Entry.spares, enteredBoarding, hs]
  | change => exact nomatch h
  | cancel => exact nomatch h

theorem State.cueHandover_vacant {o : Option Entry} (h : (s.handoverPlaces o e).Vacant k e.run) (hspares : e.spares s.inForce o k) :
    (s.cueHandover o e).Vacant k e.run := by
  have hplatform : (s.platformCalled o e).Vacant k e.run := by
    unfold State.platformCalled
    split
    next hw =>
      refine h.trigger (fun hk => ?_) _ _ _
      rw [← hk, Entry.spares, hw] at hspares
      exact nomatch hspares
    · exact h
  have hin : (s.platformCalled o e).inForce = s.inForce := by
    unfold State.platformCalled
    split
    · exact State.inForce_of_sources (State.trigger_sources ..)
    · rfl
  have hdelay : ((s.platformCalled o e).delayCalled e).Vacant k e.run := by
    unfold State.delayCalled
    rw [hin]
    split
    next hw =>
      refine hplatform.trigger (fun hk => ?_) _ _ _
      rw [← hk, Entry.spares, hw] at hspares
      exact nomatch hspares
    · exact hplatform
  rw [State.cueHandover_eq]
  unfold State.handoverFinal
  dsimp only
  split
  next hentered =>
    refine hdelay.trigger (fun hk => ?_) _ _ _
    rw [← hk, Entry.spares, hentered] at hspares
    exact nomatch hspares
  · split
    next hsome =>
      obtain ⟨-, -, -, hsome⟩ := hsome
      obtain ⟨d, hd⟩ := Option.isSome_iff_exists.1 hsome
      obtain ⟨hmem, hkind, hrun⟩ := State.cue?_some hd
      exact hdelay.trigger (fun hk => hdelay d hmem ⟨hkind.trans hk, hrun⟩) _ _ _
    · exact hdelay

theorem State.cueHandover_placed {o : Option Entry} (hok : s.CuesOk) (h : (s.handoverPlaces o e).Placed c) :
    (s.cueHandover o e).Placed c := by
  have htried {p : Prop} [Decidable p] {u : State} (k : CueKind) (zones : List Nat) (due : Int) (hu : u.Placed c ∧ u.CuesOk) :
      (if p then u.trigger k e.run zones due else u).Placed c ∧ (if p then u.trigger k e.run zones due else u).CuesOk := by
    split
    · exact ⟨hu.1.trigger hu.2 .., (State.trigger_calm ..).cuesOk hu.2⟩
    · exact hu
  have hplaces : (s.handoverPlaces o e).CuesOk := by
    have hdrawn : (s.handoverWithdrawals o e).CuesOk := by
      rw [State.handoverWithdrawals_eq]
      exact (State.withdrawWhere_calm ..).cuesOk hok
    exact (State.follow_calm ..).cuesOk hdrawn
  have hdelay := htried (p := (s.platformCalled o e).inForce.wantsDelayCue e = true) .delay (0 :: e.displayed.toList)
    (s.platformCalled o e).now (htried (p := e.wantsPlatformCue = true) .platform (0 :: e.displayed.toList)
      (e.exp - s.inForce.platformLead) ⟨h, hplaces⟩)
  rw [State.cueHandover_eq]
  unfold State.handoverFinal
  dsimp only
  split
  · exact hdelay.1.trigger hdelay.2 ..
  · exact (htried _ _ _ hdelay).1

/-- Through a handover a cue that no longer waits stands on, or leaves the list and is not made anew. -/
theorem State.cueHandover_stand (hrun : e.run = run) (o : Option Entry) (s : State) : State.CuesStand run s (s.cueHandover o e) := by
  intro hok c hc hcrun hw c' hc' hkind hrun'
  by_cases hgone : e.withdraws s.inForce o c.kind = true ∧ c.isTaken = false
  · have hvacant : (s.handoverPlaces o e).Vacant c.kind e.run := by
      intro d hd hown
      obtain ⟨d', hd', rfl⟩ := List.mem_map.1 hd
      have hsame : (if decide (d'.run = e.run) = true then d'.follow s.inForce s.now e.exp else d').kind = d'.kind ∧
          (if decide (d'.run = e.run) = true then d'.follow s.inForce s.now e.exp else d').run = d'.run := by
        split
        · exact ⟨(Cue.follow_sameBut ..).kind, (Cue.follow_sameBut ..).run⟩
        · exact ⟨rfl, rfl⟩
      have hdkind : d'.kind = c.kind := hsame.1.symm.trans hown.1
      have hdrun : d'.run = e.run := hsame.2.symm.trans hown.2
      rw [State.handoverWithdrawals_eq, State.withdrawWhere_list] at hd'
      obtain ⟨b, hb, rfl⟩ := List.mem_map.1 hd'
      obtain ⟨hmem, hkeep⟩ := List.mem_filter.1 hb
      have hbsame : (if (decide (b.run = e.run) && e.withdraws s.inForce o b.kind) = true then { b with pendDrop := true } else b).kind = b.kind ∧
          (if (decide (b.run = e.run) && e.withdraws s.inForce o b.kind) = true then { b with pendDrop := true } else b).run = b.run := by
        split <;> exact ⟨rfl, rfl⟩
      have hbc : b = c := hok.same hc hmem (hbsame.1.symm.trans hdkind) ((hbsame.2.symm.trans hdrun).trans (hrun.trans hcrun.symm))
      rw [hbc] at hkeep
      simp [hcrun, hrun, hgone] at hkeep
    exact absurd ⟨hkind, hrun'.trans hrun.symm⟩
      (State.cueHandover_vacant hvacant (Entry.spares_of_withdraws hgone.1) c' hc')
  · have hplaced : (s.handoverPlaces o e).Placed c := by
      have hdrawn : ∃ d ∈ (s.handoverWithdrawals o e).cues.list, d.kind = c.kind ∧ d.run = c.run ∧ c.StandsAs d := by
        rw [State.handoverWithdrawals_eq, State.withdrawWhere_list]
        refine ⟨_, List.mem_map.2 ⟨c, List.mem_filter.2 ⟨hc, ?_⟩, rfl⟩, ?_⟩
        · cases hwd : e.withdraws s.inForce o c.kind <;> simp_all
        · split
          · exact ⟨rfl, rfl, rfl, hw, id⟩
          · exact ⟨rfl, rfl, .refl hw⟩
      obtain ⟨d, hd, hdkind, hdrun, hstands⟩ := hdrawn
      refine ⟨d.follow s.inForce s.now e.exp, List.mem_map.2 ⟨d, hd, if_pos ?_⟩, (Cue.follow_sameBut ..).kind.trans hdkind,
        (Cue.follow_sameBut ..).run.trans hdrun, hstands.trans (Cue.follow_stands hstands.reached ..)⟩
      exact decide_eq_true (hdrun.trans (hcrun.trans hrun.symm))
    obtain ⟨d, hd, hdkind, hdrun, hstands⟩ := State.cueHandover_placed hok hplaced
    rw [((State.cueHandover_calm o e s).cuesOk hok).same hd hc' (hkind.trans hdkind.symm) ((hrun'.trans hcrun.symm).trans hdrun.symm)]
    exact hstands

end Sys2Proof.Machine
end

section
/-! PROOF. A removal, and the evaluation of one entry (R8 to R11, R76). -/
namespace Sys2Proof.Machine

open Sys2Proof

variable {s t u v w : State} {run m : Nat} {e x y old new : Entry} {c c' : Cue} {k : CueKind} {b expired named : Bool}

/-! ## A removal -/

theorem State.dropEntry_runs (m : Nat) (s : State) :
    ((s.dropEntry m).table.entries.map (·.run)).Sublist (s.table.entries.map (·.run)) := List.filter_sublist.map _

theorem State.retire_nodup (m : Nat) (h : (s.table.entries.map (·.run)).Nodup) :
    ((s.retire m).table.entries.map (·.run)).Nodup := by
  unfold State.retire
  split
  · exact (State.updEntry_runs (f := fun e => { e with state := .retiring, rev := e.rev + 1 }) (fun _ => rfl) m s).symm ▸ h
  · exact h.sublist (State.dropEntry_runs m s)

theorem State.retire_sources (m : Nat) (s : State) : (s.retire m).sources = s.sources := by
  unfold State.retire
  split <;> rfl

theorem State.retire_apart (hm : m ≠ run) (s : State) : s.Apart run (s.retire m) := by
  obtain ⟨-, htracker, hcues, -, -, hports⟩ := State.retire_frame m s
  refine .of_table (State.retire_sources ..) htracker hcues hports ?_ (State.retire_nodup m)
  unfold State.retire
  split
  · exact (State.updEntry_entry (f := fun e => { e with state := .retiring, rev := e.rev + 1 }) (fun _ => rfl) m run s).trans
      (if_neg hm.symm)
  · rw [State.dropEntry_entry, if_neg hm.symm]

theorem State.voidRecord_openFrom (m : Nat) (s : State) : s.OpenFrom (s.voidRecord m) := by
  cases hopen : s.openRecord? m with
  | none =>
    rw [State.voidRecord_of_none hopen]
    exact .of_tracker rfl
  | some r =>
    obtain ⟨htracker, -, -⟩ := State.voidRecord_of_open (run := m) (s := s) (by rw [hopen]; rfl)
    intro x hx hxo
    rw [htracker] at hx
    obtain ⟨r, hr, rfl⟩ := List.mem_map.1 hx
    obtain ⟨-, hrun, hiff⟩ := ChangeRec.voided_fields m r
    exact ⟨r, hr, (hiff.1 hxo).1, hrun.symm⟩

theorem State.voidRecord_apart (hm : m ≠ run) (s : State) : s.Apart run (s.voidRecord m) := by
  have hdrawn : s.Apart run (s.withdraw .change m) := by
    refine State.withdrawWhere_apart (fun b hb => ?_) s
    simp only [Bool.and_eq_true, decide_eq_true_eq] at hb
    exact hb.2 ▸ hm
  refine .of_calm (State.voidRecord_sources ..) (State.voidRecord_calm ..) (State.voidRecord_facts ..) (State.voidRecord_openFrom m s) ?_ ?_
  · obtain hcues | hcues := State.voidRecord_cues m s
    · rw [hcues]
      exact fun _ h _ => h
    · rw [hcues]
      exact hdrawn.cues
  · obtain hcues | hcues := State.voidRecord_cues m s
    · rw [hcues]
      exact fun _ _ h _ _ => h
    · rw [hcues]
      exact hdrawn.kept

theorem State.decideRemoval_apart (hm : m ≠ run) (expired : Bool) (s : State) : s.Apart run (s.decideRemoval expired m) := by
  have hquiet : s.Apart run (s.takeOff m).recompose :=
    (State.retire_apart hm s).trans ((State.voidRecord_apart hm _).trans
      ((State.withdrawWhere_apart (fun b hb => by rw [of_decide_eq_true hb]; exact hm) _).trans (State.recompose_apart _)))
  rw [State.decideRemoval_eq]
  exact .ite (hquiet.trans (State.post_apart (by decide) ..)) hquiet

/-- What a removal leaves of the entry `e`: with `named` it is RETIRING, else it has left the table (R8 to R11, R76). -/
structure State.Removed (s t : State) (e : Entry) (expired named : Bool) : Prop where
  closed : t.openRecord? e.run = none
  cues : ∀ c ∈ t.cues.list, c.run = e.run → c.isTaken = true ∧ c.pendDrop = true
  gone : named = false → t.entry? e.run = none
  retiring : named = true → ∃ x, t.entry? e.run = some x ∧ x.facts = { e.facts with state := .retiring } ∧
    (s.Unspoken e.run → x.rev = e.rev + 1)
  noticed : expired = true → ∀ q, q = .planning ∨ q = .signalling → (t.port q).Holds ⟨.expired, .run e.run, s.time.clock⟩
  named : s.CuesOk → named = s.namedByTaken e.run
  nodup : (t.table.entries.map (·.run)).Nodup

theorem Port.Holds.heard {n : Notice} {r q : Port} (h : r.Holds n) (k : r.Heard q) : q.Holds n :=
  h.imp (fun hmem => k.1.subset hmem) k.2

theorem State.Removed.apart (h : s.Removed t e expired named) (k : t.Apart e.run u) : s.Removed u e expired named where
  closed := k.closed h.closed
  cues c hc hrun := h.cues c (k.cues c hc hrun) hrun
  gone hn := by
    have hentry := k.entry
    rw [h.gone hn] at hentry
    exact Option.map_eq_none_iff.1 hentry
  retiring hn := by
    obtain ⟨x, hx, hfacts, hrev⟩ := h.retiring hn
    have hxrun : x.run = e.run := entryIn_run hx
    rw [← hxrun] at hx
    obtain ⟨y, hy, hyfacts, -, hyrev⟩ := (hxrun ▸ k : t.Apart x.run u).at_entry hx
    rw [hxrun] at hy hyrev
    exact ⟨y, hy, hyfacts.trans hfacts, fun hs => (hyrev (State.unspoken_of_none h.closed)).trans (hrev hs)⟩
  noticed he q hq := (h.noticed he q hq).heard (k.heard q)
  named := h.named
  nodup := k.nodup h.nodup

theorem State.retire_entry (hold : s.entry? e.run = some e) :
    (s.retire e.run).entry? e.run =
      if s.namedByTaken e.run then some { e with state := .retiring, rev := e.rev + 1 } else none := by
  unfold State.retire
  split
  · refine (State.updEntry_entry (f := fun e => { e with state := .retiring, rev := e.rev + 1 }) (fun _ => rfl) e.run e.run s).trans ?_
    rw [if_pos rfl, hold]
    rfl
  · rw [State.dropEntry_entry, if_pos rfl]

theorem State.namedByTaken_of_speaking (h : t.speaking = s.speaking) (run : Nat) : t.namedByTaken run = s.namedByTaken run := by
  have hnamed (u : State) : u.namedByTaken run = u.speaking.any fun c => c.run = run := by
    rw [State.namedByTaken, State.speaking, List.any_map, List.any_filter]
    refine congrArg (List.any u.cues.list) (funext fun c => ?_)
    rw [Bool.and_comm]
    rfl
  rw [hnamed, hnamed, h]

theorem State.takeOff_removed (hold : s.entry? e.run = some e) (hnodup : (s.table.entries.map (·.run)).Nodup) :
    s.Removed (s.takeOff e.run).recompose e false (s.namedByTaken e.run) := by
  have hretire := State.retire_entry hold
  have hrestnodup := State.retire_nodup e.run hnodup
  have hsame : (s.takeOff e.run).recompose.facts = (s.retire e.run).facts := by
    rw [State.recompose_facts, State.takeOff_eq, State.facts_of_table (State.withdrawWhere_table ..), State.voidRecord_facts]
  have hcalm : (s.retire e.run).Calm (s.takeOff e.run).recompose := by
    rw [State.takeOff_eq]
    exact (State.voidRecord_calm ..).trans ((State.withdrawWhere_calm ..).trans (State.recompose_calm _))
  have hentry := State.entry_facts_of_facts hsame e.run
  rw [hretire] at hentry
  refine ⟨?_, fun c hc hrun => ?_, fun hn => ?_, fun hn => ?_, nofun, fun _ => rfl, ?_⟩
  · refine (State.recompose_openFrom (s.takeOff e.run)).openRecord?_none ?_
    exact (State.OpenFrom.of_tracker rfl).openRecord?_none (State.voidRecord_openRecord e.run (s.retire e.run))
  · rw [State.recompose_cues, State.takeOff_eq] at hc
    exact State.withdrawWhere_gone hc (decide_eq_true hrun)
  · rw [hn, if_neg nofun] at hentry
    exact Option.map_eq_none_iff.1 hentry
  · rw [hn, if_pos rfl] at hentry hretire
    obtain ⟨x, hx, hfacts⟩ := Option.map_eq_some_iff.1 hentry
    refine ⟨x, hx, hfacts, fun hs => ?_⟩
    have hrev := hcalm.rev e.run (hs.of_tracker (State.retire_frame e.run s).2.1)
    rw [State.revOf, State.revOf, hx, hretire] at hrev
    exact Option.some.inj hrev
  · rw [State.runs_of_facts hsame]
    exact hrestnodup

theorem State.decideRemoval_removed (hold : s.entry? e.run = some e) (hnodup : (s.table.entries.map (·.run)).Nodup)
    (expired : Bool) : s.Removed (s.decideRemoval expired e.run) e expired (s.namedByTaken e.run) := by
  have hquiet := State.takeOff_removed hold hnodup
  rw [State.decideRemoval_eq]
  cases expired with
  | false => exact hquiet
  | true =>
    have hclock : (s.takeOff e.run).recompose.time = s.time :=
      State.time_of_sources ((State.recompose_sources _).trans (State.takeOff_sources ..))
    obtain ⟨hclosed, hcues, hgone, hretiring, -, hnamed, hn⟩ := hquiet.apart (State.post_apart (run := e.run)
      (names := [.planning, .signalling]) (by decide) .expired (.run e.run) (s.takeOff e.run).recompose)
    refine ⟨hclosed, hcues, hgone, hretiring, fun _ q hq => ?_, hnamed, hn⟩
    have hholds := State.holds_post (names := [.planning, .signalling]) (q := q) (by simpa using hq) .expired (.run e.run) (by decide)
      (s.takeOff e.run).recompose
    rwa [hclock] at hholds

/-- Withdrawals bring nothing in, and move no due. -/
theorem State.withdrawWhere_origin {p : Cue → Bool} (hc : c ∈ (s.withdrawWhere p).cues.list) :
    ∃ d ∈ s.cues.list, c.kind = d.kind ∧ c.run = d.run ∧ c.due = d.due ∧ c.state = d.state := by
  rw [State.withdrawWhere_list] at hc
  obtain ⟨d, hd, rfl⟩ := List.mem_map.1 hc
  refine ⟨d, (List.mem_filter.1 hd).1, ?_⟩
  split <;> exact ⟨rfl, rfl, rfl, rfl⟩

theorem State.decideRemoval_cues (expired : Bool) (run : Nat) (s : State) :
    (s.decideRemoval expired run).cues = (((s.retire run).voidRecord run).withdrawWhere (·.run = run)).cues := by
  rw [State.decideRemoval_eq]
  split
  · rw [State.post_cues, State.recompose_cues, State.takeOff_eq]
  · rw [State.recompose_cues, State.takeOff_eq]

theorem State.decideRemoval_stand (expired : Bool) (run : Nat) (s : State) : State.CuesStand run s (s.decideRemoval expired run) := by
  intro hok c hc hrun hw c' hc' hkind hrun'
  rw [State.decideRemoval_cues] at hc'
  obtain ⟨d, hd, hdkind, hdrun, hddue, hdstate⟩ := State.withdrawWhere_origin hc'
  have hvoid : ∃ b ∈ (s.retire run).cues.list, d.kind = b.kind ∧ d.run = b.run ∧ d.due = b.due ∧ d.state = b.state := by
    obtain hcues | hcues := State.voidRecord_cues run (s.retire run)
    · rw [hcues] at hd
      exact ⟨d, hd, rfl, rfl, rfl, rfl⟩
    · rw [hcues] at hd
      exact State.withdrawWhere_origin hd
  obtain ⟨b, hb, hbkind, hbrun, hbdue, hbstate⟩ := hvoid
  rw [(State.retire_frame run s).2.2.1] at hb
  have hbc : b = c := hok.same hc hb (by rw [← hbkind, ← hdkind, hkind]) (by rw [← hbrun, ← hdrun, hrun', hrun])
  rw [hbdue, hbc] at hddue
  rw [hbstate, hbc] at hdstate
  exact ⟨hddue, hdstate ▸ hw, fun h => hdstate.trans h⟩

/-! ## The evaluation of an entry -/

/-- The entry is overdue at the clock (R8). -/
def State.overdue (s : State) (e : Entry) : Bool := e.inService && decide (e.exp + s.inForce.overdue ≤ s.now)

theorem State.evaluateEntry_eq (he : s.entry? m = some e) :
    s.evaluateEntry m =
      if s.overdue e = true ∨ e.lingered s.inForce s.now = true then s.decideRemoval (s.overdue e) m
      else if (e.transition s.inForce s.now).state = e.state then s
      else (s.changeEntry e (e.transition s.inForce s.now)).1.recompose := by
  have hover : (e.inService = true ∧ e.exp + s.inForce.overdue ≤ s.now) ↔ s.overdue e = true := by
    rw [State.overdue, Bool.and_eq_true, decide_eq_true_eq]
  unfold State.evaluateEntry
  rw [he]
  dsimp only
  cases ho : s.overdue e with
  | true => rw [if_pos (hover.2 ho), if_pos (.inl rfl)]
  | false =>
    rw [if_neg (fun h => by rw [hover.1 h] at ho; cases ho)]
    refine if_congr ?_ rfl rfl
    simp

theorem State.evaluateEntry_walks : State.Walks State.evaluateEntry := by
  intro s m run hm hnodup
  cases he : s.entry? m with
  | none =>
    unfold State.evaluateEntry
    rw [he]
    exact .refl s
  | some e =>
    have herun : e.run = m := entryIn_run he
    have hfields := Entry.transition_fields s.inForce s.now e
    rw [State.evaluateEntry_eq he]
    refine .ite (State.decideRemoval_apart hm ..) (.ite (.refl s) ?_)
    exact (State.changeEntry_apart hfields.1 (herun ▸ hm) hnodup hfields.2.2.symm).trans (State.recompose_apart _)

/-- A change of state with the platform, Dd and A as they were makes one handover. -/
theorem State.changeEntry_state (hdisp : old.displayed = new.displayed) (hstate : old.state ≠ new.state) (hdd : old.dd = new.dd)
    (hexp : old.exp = new.exp) :
    ∃ e' o, e'.run = (old.counted new).run ∧ (s.changeEntry old new).1 = (s.putEntry old (old.counted new)).cueHandover o e' := by
  have hfacts := Entry.counted_facts old new
  have hcdisp : old.displayed = (old.counted new).displayed := hdisp.trans (congrArg Entry.displayed hfacts :).symm
  have hcstate : ¬old.state = (old.counted new).state := fun h => hstate (h.trans (congrArg Entry.state hfacts :))
  have hcdd : old.dd = (old.counted new).dd := hdd.trans (congrArg Entry.dd hfacts :).symm
  have hcexp : old.exp = (old.counted new).exp := hexp.trans (congrArg Entry.exp hfacts :).symm
  refine ⟨(s.putEntry old (old.counted new)).standing (old.counted new) (old.counted new).state,
    some ((s.putEntry old (old.counted new)).standing (old.counted new) old.state), State.standing_run .., ?_⟩
  simp only [State.changeEntry, if_pos hcdisp, if_neg hcstate, if_pos (And.intro hcdd hcexp)]

/-- What the evaluation makes of the entry `e` and of its cues (R6 to R11). -/
structure State.Judged (s t : State) (e : Entry) : Prop where
  kept : s.overdue e = false → e.lingered s.inForce s.now = false → s.Became t e (e.transition s.inForce s.now)
  still : s.overdue e = false → e.lingered s.inForce s.now = false → (e.transition s.inForce s.now).state = e.state → s.Apart e.run t
  removed : s.overdue e = true ∨ e.lingered s.inForce s.now = true → ∃ named, s.Removed t e (s.overdue e) named
  cues : State.CuesStand e.run s t
  nodup : (t.table.entries.map (·.run)).Nodup

theorem State.Became.refl (hold : s.entry? e.run = some e) (hnodup : (s.table.entries.map (·.run)).Nodup) : s.Became s e e := by
  have hshown : e.sameShown e = true := by simp [Entry.sameShown]
  refine ⟨⟨e, hold, rfl⟩, id, id, fun _ => ?_, hnodup⟩
  rw [State.revOf, hold, hshown, if_pos rfl]
  rfl

theorem Entry.transition_self {p : Params} {now : Int} (h : (e.transition p now).state = e.state) : e.transition p now = e := by
  rw [Entry.transition_eq, h]

theorem State.evaluateEntry_judged (hold : s.entry? e.run = some e) (hnodup : (s.table.entries.map (·.run)).Nodup) :
    s.Judged (s.evaluateEntry e.run) e := by
  obtain ⟨hrun, hopenRec, hdisp⟩ := Entry.transition_fields s.inForce s.now e
  rw [State.evaluateEntry_eq hold]
  by_cases hgone : s.overdue e = true ∨ e.lingered s.inForce s.now = true
  · have hremoved := State.decideRemoval_removed hold hnodup (s.overdue e)
    rw [if_pos hgone]
    refine ⟨fun ho hl => absurd hgone (by simp [ho, hl]), fun ho hl => absurd hgone (by simp [ho, hl]), fun _ => ⟨_, hremoved⟩,
      State.decideRemoval_stand _ _ s, hremoved.nodup⟩
  · rw [if_neg hgone]
    by_cases hstate : (e.transition s.inForce s.now).state = e.state
    · rw [if_pos hstate]
      refine ⟨fun _ _ => ?_, fun _ _ _ => .refl s, fun h => absurd h hgone, (State.Apart.refl s).cuesStand, hnodup⟩
      rw [Entry.transition_self hstate]
      exact .refl hold hnodup
    · rw [if_neg hstate]
      have hbecame := State.changeEntry_became hrun hold hnodup hdisp.symm
      have hsame : (e.transition s.inForce s.now).dd = e.dd ∧ (e.transition s.inForce s.now).exp = e.exp := by
        rw [Entry.transition_eq]
        exact ⟨rfl, rfl⟩
      obtain ⟨e', o, he', hchange⟩ := State.changeEntry_state (s := s) hdisp.symm (Ne.symm hstate) hsame.1.symm hsame.2.symm
      have hcounted : (e.counted (e.transition s.inForce s.now)).run = e.run :=
        (congrArg Entry.run (Entry.counted_facts e (e.transition s.inForce s.now)) :).trans hrun
      refine ⟨fun _ _ => hbecame, fun _ _ h => absurd h hstate, fun h => absurd h hgone, fun hok c hc hcrun hw c' hc' hkind hrun' => ?_,
        hbecame.nodup⟩
      rw [State.recompose_cues, hchange] at hc'
      have hput := (State.putEntry_blocks e (e.counted (e.transition s.inForce s.now)) s).2.1
      exact State.cueHandover_stand (he'.trans hcounted) o _ (hok.of_cues hput) c (by rwa [hput]) hcrun hw c' hc' hkind hrun'

end Sys2Proof.Machine
end

section
/-! PROOF. The evaluation of every entry, the rollover's removals before it (R9, R56, R57). -/
namespace Sys2Proof.Machine

open Sys2Proof

variable {s t u v w : State} {run m : Nat} {e x y old new : Entry} {c c' : Cue} {k : CueKind} {b expired named gone : Bool}

/-! ## One entry of a walk -/

theorem State.overdue_of_facts (hsrc : u.sources = s.sources) (h : y.facts = e.facts) : u.overdue y = s.overdue e := by
  have hin : y.inService = e.inService := (congrArg Entry.inService h :)
  have hexp : y.exp = e.exp := (congrArg Entry.exp h :)
  rw [State.overdue, State.overdue, State.inForce_of_sources hsrc, State.now_of_sources hsrc, hin, hexp]

theorem Entry.lingered_of_facts (h : y.facts = e.facts) (p : Params) (now : Int) : y.lingered p now = e.lingered p now :=
  (congrArg (Entry.lingered p now) h :)

theorem State.Removed.before (h : s.Apart e.run u) (hold : s.entry? e.run = some e)
    (hb : ∀ y, y.facts = e.facts → y.run = e.run → u.entry? e.run = some y → u.Removed t y expired named) :
    s.Removed t e expired named := by
  obtain ⟨y, hy, hfacts, hrun, hrev⟩ := h.at_entry hold
  obtain ⟨hclosed, hcues, hgone, hretiring, hnoticed, hnamed, hnodup⟩ := hb y hfacts hrun hy
  rw [hrun] at hclosed hcues hgone hretiring hnoticed hnamed
  refine ⟨hclosed, hcues, hgone, fun hn => ?_, fun he q hq => ?_, fun hok => ?_, hnodup⟩
  · obtain ⟨x, hx, hxfacts, hxrev⟩ := hretiring hn
    exact ⟨x, hx, by rw [hxfacts, hfacts], fun hs => (hxrev (h.unspoken hs)).trans (by rw [hrev hs])⟩
  · have hclock : u.time = s.time := State.time_of_sources h.sources
    have hq' := hnoticed he q hq
    rwa [hclock] at hq'
  · rw [hnamed (h.cuesOk hok), State.namedByTaken_of_speaking (h.speaking hok)]

theorem State.Judged.apart (h : s.Judged t e) (k : t.Apart e.run u) : s.Judged u e where
  kept ho hl := (h.kept ho hl).apart k
  still ho hl hs := (h.still ho hl hs).trans k
  removed hgone := (h.removed hgone).imp fun _ hr => hr.apart k
  cues := (State.Apart.refl s).cuesStand_through h.cues k
  nodup := k.nodup h.nodup

theorem State.transition_sameShown (p : Params) (now : Int) (e : Entry) :
    e.sameShown (e.transition p now) = decide (e.state = (e.transition p now).state) := by
  rw [Entry.transition_eq]
  simp [Entry.sameShown, Entry.displayed]

theorem State.Judged.before (h : s.Apart e.run u) (hold : s.entry? e.run = some e)
    (hb : ∀ y, y.facts = e.facts → y.run = e.run → u.entry? e.run = some y → u.Judged t y) : s.Judged t e := by
  obtain ⟨y, hy, hfacts, hrun, -⟩ := h.at_entry hold
  have hj := hb y hfacts hrun hy
  have hover : u.overdue y = s.overdue e := State.overdue_of_facts h.sources hfacts
  have hnow : u.now = s.now := State.now_of_sources h.sources
  have hin : u.inForce = s.inForce := State.inForce_of_sources h.sources
  have hlinger (y' : Entry) (hf : y'.facts = e.facts) : y'.lingered u.inForce u.now = e.lingered s.inForce s.now := by
    rw [hin, hnow, Entry.lingered_of_facts hf]
  have htrans (y' : Entry) (hf : y'.facts = e.facts) :
      (y'.transition u.inForce u.now).facts = (e.transition s.inForce s.now).facts := by
    rw [hin, hnow, Entry.transition_of_facts hf]
  refine ⟨fun ho hl => ?_, fun ho hl hs => ?_, fun hgone => ?_, ?_, hj.nodup⟩
  · refine h.became (f := fun v a => a.transition v.inForce v.now) hold htrans (fun y' hf => ?_) (fun _ _ => Entry.transition_rev ..)
      fun y' hr' hy' => (hb y' (Option.some.inj (hy.symm.trans hy') ▸ hfacts) hr' hy').kept ?_ ?_
    · rw [State.transition_sameShown, State.transition_sameShown]
      have h1 : (y'.transition u.inForce u.now).state = (e.transition s.inForce s.now).state := (congrArg Entry.state (htrans y' hf) :)
      have h2 : y'.state = e.state := (congrArg Entry.state hf :)
      rw [h1, h2]
    · rw [State.overdue_of_facts h.sources (Option.some.inj (hy.symm.trans hy') ▸ hfacts), ho]
    · rw [hlinger _ (Option.some.inj (hy.symm.trans hy') ▸ hfacts), hl]
  · have hstate : (y.transition u.inForce u.now).state = y.state :=
      (congrArg Entry.state (htrans y hfacts) :).trans (hs.trans (congrArg Entry.state hfacts :).symm)
    exact h.trans (hrun ▸ hj.still (hover.trans ho) ((hlinger y hfacts).trans hl) hstate)
  · obtain ⟨named, hr⟩ := hj.removed (by rwa [hover, hlinger y hfacts])
    rw [hover] at hr
    exact ⟨named, State.Removed.before h hold fun y' _ _ hy' => Option.some.inj (hy.symm.trans hy') ▸ hr⟩
  · have hcues := h.cuesStand_through (hrun ▸ hj.cues) (.refl t)
    exact hcues

/-! ## The walks -/

theorem State.evaluateEntry_nodup (hnodup : (u.table.entries.map (·.run)).Nodup) :
    ((u.evaluateEntry run).table.entries.map (·.run)).Nodup := by
  cases hy : u.entry? run with
  | none =>
    unfold State.evaluateEntry
    rwa [hy]
  | some y =>
    have hrun : y.run = run := entryIn_run hy
    rw [← hrun] at hy ⊢
    exact (State.evaluateEntry_judged hy hnodup).nodup

/-- Every entry evaluated, in the order of the table (R9). -/
def State.evaluateAll (s : State) : State := (s.table.entries.map (·.run)).foldl State.evaluateEntry s

theorem State.evaluateAll_judged (hnodup : (s.table.entries.map (·.run)).Nodup) (he : e ∈ s.table.entries) :
    s.Judged s.evaluateAll e := by
  obtain ⟨u, hu, hunodup, hrest⟩ := State.evaluateEntry_walks.reaches hnodup (List.mem_map_of_mem he) hnodup
    fun _ => State.evaluateEntry_nodup
  refine .before hu (entryIn_of_mem hnodup he) fun y _ hrun hy => ?_
  rw [← hrun] at hy hrest
  exact (State.evaluateEntry_judged hy hunodup).apart hrest

theorem State.evaluateAll_apart (hnodup : (s.table.entries.map (·.run)).Nodup) (hrun : run ∉ s.table.entries.map (·.run)) :
    s.Apart run s.evaluateAll := State.evaluateEntry_walks.apart hrun hnodup

/-- The runs whose entries are more than an hour behind the service day (R57). -/
def State.behind (s : State) : List Nat := (s.table.entries.filter fun e => e.state ≠ .retiring && e.exp < -60).map (·.run)

/-- The entries behind the service day removed (R57). -/
def State.clearBehind (s : State) : State := s.behind.foldl (fun t run => t.decideRemoval true run) s

theorem State.mem_behind (hnodup : (s.table.entries.map (·.run)).Nodup) (he : e ∈ s.table.entries) :
    e.run ∈ s.behind ↔ e.state ≠ .retiring ∧ e.exp < -60 := by
  constructor
  · intro h
    obtain ⟨d, hd, hrun⟩ := List.mem_map.1 h
    obtain ⟨hmem, hcond⟩ := List.mem_filter.1 hd
    rw [List.inj_on_of_nodup_map hnodup hmem he hrun] at hcond
    simpa using hcond
  · intro h
    exact List.mem_map_of_mem (List.mem_filter.2 ⟨he, by simpa using h⟩)

theorem State.removals_walk : State.Walks fun t run => t.decideRemoval true run :=
  fun s _ _ hm _ => State.decideRemoval_apart hm true s

theorem State.decideRemoval_facts (expired : Bool) (run : Nat) (s : State) :
    (s.decideRemoval expired run).facts = (s.retire run).facts := by
  have hquiet : (s.takeOff run).recompose.facts = (s.retire run).facts := by
    rw [State.recompose_facts, State.takeOff_eq, State.facts_of_table (State.withdrawWhere_table ..), State.voidRecord_facts]
  rw [State.decideRemoval_eq]
  split
  · rw [State.facts_of_table (State.post_table ..), hquiet]
  · exact hquiet

theorem State.decideRemoval_nodup (hnodup : (u.table.entries.map (·.run)).Nodup) :
    ((u.decideRemoval true run).table.entries.map (·.run)).Nodup := by
  rw [State.runs_of_facts (State.decideRemoval_facts ..)]
  exact State.retire_nodup run hnodup

theorem State.clearBehind_removed (hnodup : (s.table.entries.map (·.run)).Nodup) (he : e ∈ s.table.entries)
    (hbehind : e.run ∈ s.behind) : ∃ named, s.Removed s.clearBehind e true named ∧ State.CuesStand e.run s s.clearBehind := by
  have hold : s.entry? e.run = some e := entryIn_of_mem hnodup he
  have hruns : s.behind.Nodup := hnodup.sublist (List.filter_sublist.map _)
  obtain ⟨u, hu, hunodup, hrest⟩ := State.removals_walk.reaches hruns hbehind hnodup
    fun _ => State.decideRemoval_nodup
  refine ⟨u.namedByTaken e.run, .before hu hold fun y _ hrun hy => ?_, hu.cuesStand_through (State.decideRemoval_stand true e.run u) hrest⟩
  rw [← hrun] at hy hrest ⊢
  exact (State.decideRemoval_removed hy hunodup true).apart hrest

theorem State.clearBehind_apart (hnodup : (s.table.entries.map (·.run)).Nodup) (hrun : run ∉ s.behind) : s.Apart run s.clearBehind :=
  State.removals_walk.apart hrun hnodup

end Sys2Proof.Machine
end

section
/-! PROOF. The owners' actions at a minute advance and at a time step (R9, R56, R78, R95). -/
namespace Sys2Proof.Machine

open Sys2Proof

variable {s t u v w b : State} {run m : Nat} {e x y : Entry} {c c' : Cue} {rolls minute expired named : Bool}

/-! ## The actions, one after another -/

/-- The entries with every absolute minute reduced by a day (R56). -/
def State.reduced (s : State) : State :=
  { s with
    table :=
      { s.table with
        entries := s.table.entries.map fun e =>
          { e with sched := e.sched - 1440, exp := e.exp - 1440, stateTime := e.stateTime.map (· - 1440) } } }

/-- The absolute minutes of every block reduced, at a rollover (R56). -/
def State.rolledBack (rolls : Bool) (s : State) : State := if rolls then s.rollTracker.rollCues.reduced else s

/-- The table without what a rollover removes (R57). -/
def State.relieved (rolls : Bool) (b : State) : State := if rolls then b.clearBehind.rederive.recompose else b

/-- The table evaluated, the rollover's removals first where there is one (R9, R57). -/
def State.surveyed (rolls : Bool) (b : State) : State := (b.relieved rolls).evaluateAll.rederive

/-- The cues and the holds tested and the time announced to the lines (R78, R95, R167). -/
def State.tested (minute : Bool) (v : State) : State := v.testCues.testHolds.announceLines minute

theorem State.announceTime_eq (rolls minute : Bool) (s : State) :
    (if rolls then s.rollover else s).announceTime minute = ((s.rolledBack rolls).surveyed rolls).tested minute := by
  cases rolls <;> rfl

/-! ## The table evaluated -/

/-- The entry `e` leaves at this evaluation (R8, R10, R57). -/
def State.leaves (rolls : Bool) (b : State) (e : Entry) : Prop :=
  (rolls = true ∧ e.state ≠ .retiring ∧ e.exp < -60) ∨ b.overdue e = true ∨ e.lingered b.inForce b.now = true

/-- It leaves as EXPIRED (R8, R57). -/
def State.expires (rolls : Bool) (b : State) (e : Entry) : Prop :=
  (rolls = true ∧ e.state ≠ .retiring ∧ e.exp < -60) ∨ b.overdue e = true

/-- What the evaluation of the whole table leaves of the base `b` (R6 to R11). -/
structure State.Surveyed (b t : State) (rolls : Bool) : Prop where
  removed : ∀ e ∈ b.table.entries, b.leaves rolls e → ∃ named expired, b.Removed t e expired named ∧ (expired = true ↔ b.expires rolls e)
  kept : ∀ e ∈ b.table.entries, ¬b.leaves rolls e → b.Became t e (e.transition b.inForce b.now)
  none : ∀ run, run ∉ b.table.entries.map (·.run) → t.entry? run = none
  nodup : (t.table.entries.map (·.run)).Nodup

/-- What it leaves of the cues. -/
structure State.CuesSurveyed (b v : State) (rolls : Bool) : Prop where
  stand : ∀ run, State.CuesStand run b v
  still : ∀ run, (∀ e, b.entry? run = some e → ¬b.leaves rolls e ∧ (e.transition b.inForce b.now).state = e.state) →
    b.Apart run v

theorem State.Judged.retiring (h : u.Judged v x) (hret : x.state = .retiring) : u.Apart x.run v := by
  refine h.still ?_ ?_ ?_
  · simp [State.overdue, Entry.inService, hret]
  · simp [Entry.lingered, hret]
  · exact (Entry.transition_state u.inForce u.now x).2.2.2.2.2 (by simp [hret]) (by simp [hret])

/-- The runs that a rollover removes are left alone by the evaluation after it. -/
theorem State.Removed.evaluateAll (h : b.Removed u e expired named) : u.Apart e.run u.evaluateAll := by
  cases named with
  | false => exact State.evaluateAll_apart h.nodup (State.entry?_none_iff.1 (h.gone rfl))
  | true =>
    obtain ⟨x, hx, hfacts, -⟩ := h.retiring rfl
    have hrun : x.run = e.run := entryIn_run hx
    rw [← hrun]
    exact (State.evaluateAll_judged h.nodup (List.mem_of_find?_eq_some hx)).retiring (congrArg Entry.state hfacts :)

theorem State.relieved_apart (hnodup : (b.table.entries.map (·.run)).Nodup) (hrun : rolls = true → run ∉ b.behind) :
    b.Apart run (b.relieved rolls) := by
  cases rolls with
  | false => exact .refl b
  | true => exact (State.clearBehind_apart hnodup (hrun rfl)).trans ((State.rederive_apart _).trans (State.recompose_apart _))

/-- An entry that the rollover removes stays so. -/
theorem State.surveyed_behind (hnodup : (b.table.entries.map (·.run)).Nodup) (he : e ∈ b.table.entries) (hbehind : e.run ∈ b.behind) :
    ∃ named, b.Removed (b.surveyed true) e true named ∧ State.CuesStand e.run b (b.surveyed true) := by
  obtain ⟨named, hremoved, hstand⟩ := State.clearBehind_removed hnodup he hbehind
  have hrelieved := hremoved.apart ((State.rederive_apart _).trans (State.recompose_apart _))
  have hrest := hrelieved.evaluateAll.trans (State.rederive_apart _)
  exact ⟨named, hrelieved.apart hrest, (State.Apart.refl b).cuesStand_through hstand
    (((State.rederive_apart _).trans (State.recompose_apart _)).trans hrest)⟩

/-- Any other is judged by the evaluation. -/
theorem State.surveyed_judged (hnodup : (b.table.entries.map (·.run)).Nodup) (he : e ∈ b.table.entries)
    (hbehind : rolls = true → e.run ∉ b.behind) : b.Judged (b.surveyed rolls) e := by
  have hrelieved := State.relieved_apart hnodup hbehind
  refine .before hrelieved (entryIn_of_mem hnodup he) fun y _ hrun hy => ?_
  have hj := State.evaluateAll_judged (hrelieved.nodup hnodup) (List.mem_of_find?_eq_some hy)
  exact hj.apart (State.rederive_apart _)

theorem State.surveyed_apart (hnodup : (b.table.entries.map (·.run)).Nodup) (hrun : run ∉ b.table.entries.map (·.run)) :
    b.Apart run (b.surveyed rolls) := by
  have hbefore : b.Apart run (b.relieved rolls) := State.relieved_apart hnodup fun _ h =>
    hrun ((List.filter_sublist.map _).subset h)
  have hnone := hbefore.entry
  rw [State.entry?_none_iff.2 hrun, Option.map_none, Option.map_eq_none_iff] at hnone
  exact hbefore.trans ((State.evaluateAll_apart (hbefore.nodup hnodup) (State.entry?_none_iff.1 hnone)).trans (State.rederive_apart _))

theorem State.surveyed_nodup (hnodup : (b.table.entries.map (·.run)).Nodup) :
    ((b.surveyed rolls).table.entries.map (·.run)).Nodup := by
  obtain ⟨run, hrun⟩ := Infinite.exists_notMem_finset (b.table.entries.map (·.run)).toFinset
  exact (State.surveyed_apart hnodup (by simpa using hrun)).nodup hnodup

theorem State.surveyed_surveyed (hnodup : (b.table.entries.map (·.run)).Nodup) : b.Surveyed (b.surveyed rolls) rolls where
  removed e he hleaves := by
    by_cases hbehind : rolls = true ∧ e.run ∈ b.behind
    · obtain ⟨rfl, hmem⟩ := hbehind
      obtain ⟨named, hremoved, -⟩ := State.surveyed_behind hnodup he hmem
      exact ⟨named, true, hremoved, fun _ => .inl ⟨rfl, (State.mem_behind hnodup he).1 hmem⟩, fun _ => rfl⟩
    · have hnot : ¬(rolls = true ∧ e.state ≠ .retiring ∧ e.exp < -60) := fun h =>
        hbehind ⟨h.1, (State.mem_behind hnodup he).2 h.2⟩
      obtain ⟨named, hremoved⟩ := (State.surveyed_judged hnodup he fun hr h => hbehind ⟨hr, h⟩).removed (hleaves.resolve_left hnot)
      exact ⟨named, _, hremoved, .inr, fun h => h.resolve_left hnot⟩
  kept e he hstays := by
    have hbehind (hr : rolls = true) : e.run ∉ b.behind := fun h => hstays (.inl ⟨hr, (State.mem_behind hnodup he).1 h⟩)
    exact (State.surveyed_judged hnodup he hbehind).kept (Bool.eq_false_iff.2 fun h => hstays (.inr (.inl h)))
      (Bool.eq_false_iff.2 fun h => hstays (.inr (.inr h)))
  none run hrun := by
    have hentry := (State.surveyed_apart (rolls := rolls) hnodup hrun).entry
    rwa [State.entry?_none_iff.2 hrun, Option.map_none, Option.map_eq_none_iff] at hentry
  nodup := State.surveyed_nodup hnodup

theorem State.surveyed_cues (hnodup : (b.table.entries.map (·.run)).Nodup) : b.CuesSurveyed (b.surveyed rolls) rolls where
  stand run := by
    by_cases hrun : run ∈ b.table.entries.map (·.run)
    · obtain ⟨e, he, rfl⟩ := List.mem_map.1 hrun
      by_cases hbehind : rolls = true ∧ e.run ∈ b.behind
      · obtain ⟨rfl, hmem⟩ := hbehind
        obtain ⟨-, -, hstand⟩ := State.surveyed_behind hnodup he hmem
        exact hstand
      · exact (State.surveyed_judged hnodup he fun hr h => hbehind ⟨hr, h⟩).cues
    · exact (State.surveyed_apart hnodup hrun).cuesStand
  still run hstill := by
    by_cases hrun : run ∈ b.table.entries.map (·.run)
    · obtain ⟨e, he, rfl⟩ := List.mem_map.1 hrun
      obtain ⟨hstays, hstate⟩ := hstill e (entryIn_of_mem hnodup he)
      have hbehind (hr : rolls = true) : e.run ∉ b.behind := fun h => hstays (.inl ⟨hr, (State.mem_behind hnodup he).1 h⟩)
      exact (State.surveyed_judged hnodup he hbehind).still (Bool.eq_false_iff.2 fun h => hstays (.inr (.inl h)))
        (Bool.eq_false_iff.2 fun h => hstays (.inr (.inr h))) hstate
    · exact State.surveyed_apart hnodup hrun

end Sys2Proof.Machine
end

section
/-! PROOF. What follows the evaluation of the table: the cues, the holds and the lines (R12, R78, R95, R167). -/
namespace Sys2Proof.Machine

open Sys2Proof

variable {s t u v w b : State} {run m : Nat} {e x y old new : Entry} {c c' : Cue} {rolls minute expired named : Bool}

/-! ## The minutes of the change records -/

/-- What time has to do with in a change record: its number and run, its minutes and its diverted gates (R64, R77, R78). -/
def ChangeRec.mark (r : ChangeRec) : Nat × Nat × Int × List Diverted := (r.no, r.run, r.openedMinute, r.diverted)

/-- Those of every record. -/
def State.marks (s : State) : List (Nat × Nat × Int × List Diverted) := s.tracker.records.map ChangeRec.mark

theorem State.marks_of_tracker (h : t.tracker = s.tracker) : t.marks = s.marks := by rw [State.marks, h, State.marks]

theorem State.marks_of_map {f : ChangeRec → ChangeRec} (h : t.tracker.records = s.tracker.records.map f)
    (hf : ∀ r, (f r).mark = r.mark) : t.marks = s.marks := by
  rw [State.marks, h, List.map_map]
  exact List.map_congr_left fun r _ => hf r

theorem State.updRecords_marks {p : ChangeRec → Bool} {f : ChangeRec → ChangeRec} (hf : ∀ r, (f r).mark = r.mark) (s : State) :
    (s.updRecords p f).marks = s.marks := by
  refine State.marks_of_map (f := fun r => if p r then f r else r) rfl fun r => ?_
  split
  · exact hf r
  · rfl

theorem State.inform_marks (r : ChangeRec) (s : State) : (s.inform r).marks = s.marks := by
  refine State.marks_of_map (f := ChangeRec.informed r.no) (by rw [State.inform_tracker]) fun x => ?_
  unfold ChangeRec.informed
  split <;> rfl

theorem State.foldl_keeps {α β : Type} {f : State → α → State} {g : State → β} (hf : ∀ s a, g (f s a) = g s) (l : List α) (s : State) :
    g (l.foldl f s) = g s := by
  induction l generalizing s with
  | nil => rfl
  | cons a l ih => exact (ih _).trans (hf s a)

theorem State.recompose_marks (s : State) : s.recompose.marks = s.marks := by
  have hevaluate (u : State) : u.evaluate.marks = u.marks := by
    unfold State.evaluate
    split
    · exact (State.foldl_keeps (fun t r => State.inform_marks r t) _ _).trans (State.updRecords_marks (f := u.evaluated) (fun _ => rfl) u)
    · rfl
  rw [State.recompose, State.marks_of_tracker (State.compose_tracker _), hevaluate, State.marks_of_tracker (State.compose_tracker _)]

theorem State.decideRemoval_marks (expired : Bool) (run : Nat) (s : State) : (s.decideRemoval expired run).marks = s.marks := by
  have hvoid (u : State) : (u.voidRecord run).marks = u.marks := by
    cases hopen : u.openRecord? run with
    | none => rw [State.voidRecord_of_none hopen]
    | some r =>
      refine State.marks_of_map (f := ChangeRec.voided run)
        (by rw [(State.voidRecord_of_open (run := run) (s := u) (by rw [hopen]; rfl)).1]) fun x => ?_
      unfold ChangeRec.voided
      split <;> rfl
  have hquiet : (s.takeOff run).recompose.marks = s.marks := by
    rw [State.recompose_marks, State.takeOff_eq, State.marks_of_tracker (State.withdrawWhere_tracker ..), hvoid,
      State.marks_of_tracker (State.retire_frame run s).2.1]
  rw [State.decideRemoval_eq]
  split
  · rw [State.marks_of_tracker (State.post_tracker ..), hquiet]
  · exact hquiet

theorem State.evaluateEntry_marks (s : State) (run : Nat) : (s.evaluateEntry run).marks = s.marks := by
  cases he : s.entry? run with
  | none =>
    unfold State.evaluateEntry
    rw [he]
  | some e =>
    rw [State.evaluateEntry_eq he]
    split
    · exact State.decideRemoval_marks ..
    · split
      · rfl
      · rw [State.recompose_marks]
        exact State.marks_of_tracker (State.changeEntry_signalling (Entry.transition_fields ..).2.2.symm).1

theorem State.surveyed_marks (rolls : Bool) (b : State) : (b.surveyed rolls).marks = b.marks := by
  have hrelieved : (b.relieved rolls).marks = b.marks := by
    cases rolls with
    | false => rfl
    | true =>
      exact (State.recompose_marks _).trans (State.foldl_keeps (f := fun t run => t.decideRemoval true run)
        (fun t run => State.decideRemoval_marks true run t) b.behind b)
  exact (State.foldl_keeps State.evaluateEntry_marks _ _).trans hrelieved

/-! ## What the composition and the answer leave -/

/-- From `w` to `t` the picture has only been composed afresh, notices have been posted and frames sent. -/
structure State.Tails (w t : State) : Prop where
  calm : w.Calm t
  opens : w.OpenFrom t
  facts : t.facts = w.facts
  displayable : t.table.displayable = w.table.displayable
  cues : t.cues = w.cues
  marks : t.marks = w.marks

theorem State.Tails.trans (h : w.Tails u) (k : u.Tails t) : w.Tails t :=
  ⟨h.calm.trans k.calm, h.opens.trans k.opens, k.facts.trans h.facts, k.displayable.trans h.displayable, k.cues.trans h.cues,
    k.marks.trans h.marks⟩

theorem State.Tails.of_blocks (hcalm : w.Calm t) (htable : t.table = w.table) (htracker : t.tracker = w.tracker)
    (hcues : t.cues = w.cues) : w.Tails t :=
  ⟨hcalm, .of_tracker htracker, State.facts_of_table htable, by rw [htable], hcues, State.marks_of_tracker htracker⟩

theorem State.recompose_displayable (s : State) : s.recompose.table.displayable = s.table.displayable := by
  have hinform (t : State) (r : ChangeRec) : (t.inform r).table.displayable = t.table.displayable := rfl
  have hevaluate (u : State) : u.evaluate.table.displayable = u.table.displayable := by
    unfold State.evaluate
    split
    · exact State.foldl_keeps (g := fun t => t.table.displayable) hinform _ _
    · rfl
  rw [State.recompose, State.compose_table, hevaluate, State.compose_table]

theorem State.recompose_tails (w : State) : w.Tails w.recompose :=
  ⟨State.recompose_calm w, State.recompose_openFrom w, State.recompose_facts w, State.recompose_displayable w,
    State.recompose_cues w, State.recompose_marks w⟩

theorem State.finish_tails (w o : State) : w.Tails (w.finish o) :=
  .of_blocks (State.finish_calm w o) (State.finish_table w o) (State.finish_tracker w o) (State.finish_cues w o)

theorem State.settle_tails (w o : State) : w.Tails (w.settle o) := (State.recompose_tails w).trans (State.finish_tails _ o)

theorem State.post_tails {names : List PortId} (h : names.Nodup) (kind : NoticeKind) (x : Subject) (w : State) :
    w.Tails (w.post names kind x) :=
  .of_blocks (State.post_calm h kind x w) (State.post_table ..) (State.post_tracker ..) (State.post_cues ..)

theorem State.answerTel_tails (p : PortId) (tel : Tel) (a : Answer) (w : State) : w.Tails (w.answerTel p tel a) :=
  .of_blocks (State.Calm.answerTel p tel a w) rfl rfl rfl

/-! ## The cues and the holds tested -/

theorem Cue.test_marks (now : Int) (c : Cue) :
    (c.test now).number = c.number ∧ (c.test now).kind = c.kind ∧ (c.test now).run = c.run ∧ (c.test now).due = c.due ∧
      (c.test now).isTaken = c.isTaken ∧ (c.test now).pendDrop = c.pendDrop := by
  unfold Cue.test
  split
  next hw =>
    split
    · exact ⟨rfl, rfl, rfl, rfl, by simp [Cue.isTaken, hw], rfl⟩
    · exact ⟨rfl, rfl, rfl, rfl, rfl, rfl⟩
  · exact ⟨rfl, rfl, rfl, rfl, rfl, rfl⟩

/-- A diverted gate once its hold has been tested (R78). -/
def Diverted.tested (p : Params) (now : Int) (d : Diverted) : Diverted :=
  { d with ended := d.ended || d.minute + p.diversionHold ≤ now }

/-- The base `b` of an evaluation, and the state `t` that has come of it. -/
structure State.Announced (b t : State) (rolls minute : Bool) : Prop where
  surveyed : b.Surveyed t rolls
  cues : ∃ v, b.CuesSurveyed v rolls ∧ t.cues.list = v.cues.list.map (Cue.test b.now)
  marks : t.marks = b.marks.map fun r => (r.1, r.2.1, r.2.2.1, r.2.2.2.map (Diverted.tested b.inForce b.now))
  displayable : t.table.displayable =
    (t.table.entries.filter fun e => decide (e.state ≠ .retiring ∧ e.exp ≤ b.now + b.inForce.horizon)).map (·.run)

theorem State.surveyed_sources (rolls : Bool) (b : State) : (b.surveyed rolls).sources = b.sources := by
  have hrelieved : (b.relieved rolls).sources = b.sources := by
    cases rolls with
    | false => rfl
    | true =>
      exact (State.recompose_sources _).trans (State.foldl_keeps (f := fun t run => t.decideRemoval true run)
        (fun t run => State.decideRemoval_sources true run t) b.behind b)
  exact (State.foldl_keeps State.evaluateEntry_sources _ _).trans hrelieved

end Sys2Proof.Machine
end

section
/-! PROOF. An announcement of the time base as a whole (R12, R47, R53, R56). -/
namespace Sys2Proof.Machine

open Sys2Proof

variable {s t u v w b : State} {run m : Nat} {e x y old new : Entry} {c c' : Cue} {rolls minute expired named : Bool}

/-! ## From the table evaluated to the answer -/

/-- What the tests of the cues, the holds and the lines leave of the table, the records and the notices. -/
theorem State.tested_rests (minute : Bool) (v : State) :
    v.OpenFrom (v.tested minute) ∧ (∀ run, v.Unspoken run → (v.tested minute).Unspoken run) ∧
      (v.tested minute).table = v.table ∧ (v.tested minute).ports = v.ports ∧
      (v.tested minute).cues.list = v.cues.list.map (Cue.test v.now) := by
  have hopen : v.testCues.OpenFrom v.testCues.testHolds := State.OpenFrom.updRecords _ fun r _ h => ⟨h, rfl⟩
  have hcalm : v.testCues.Calm v.testCues.testHolds := by
    unfold State.testHolds
    refine State.updRecords_calm (fun r => ?_) v.testCues
    exact ⟨rfl, fun h => ⟨h, id⟩⟩
  exact ⟨hopen, fun run h => hcalm.unspoken run h, rfl, rfl, rfl⟩

theorem State.Tails.rev (k : (v.tested minute).Tails t) (h : v.Unspoken run) : t.revOf run = v.revOf run := by
  obtain ⟨-, hunspoken, htable, -, -⟩ := State.tested_rests minute v
  rw [k.calm.rev run (hunspoken run h), State.revOf, State.entry?, htable, State.revOf, State.entry?]

theorem State.Tails.facts_eq (k : (v.tested minute).Tails t) : t.facts = v.facts := k.facts

theorem State.Tails.closed (k : (v.tested minute).Tails t) (h : v.openRecord? run = none) : t.openRecord? run = none :=
  k.opens.openRecord?_none ((State.tested_rests minute v).1.openRecord?_none h)

theorem State.Tails.unspoken (k : (v.tested minute).Tails t) (h : v.Unspoken run) : t.Unspoken run :=
  k.calm.unspoken run ((State.tested_rests minute v).2.1 run h)

theorem State.Tails.nodup (k : (v.tested minute).Tails t) (h : (v.table.entries.map (·.run)).Nodup) :
    (t.table.entries.map (·.run)).Nodup := by rwa [State.runs_of_facts k.facts_eq]

theorem State.Tails.mem_cues (k : (v.tested minute).Tails t) (hc : c ∈ t.cues.list) :
    ∃ d ∈ v.cues.list, c = d.test v.now := by
  rw [k.cues, (State.tested_rests minute v).2.2.2.2] at hc
  obtain ⟨d, hd, rfl⟩ := List.mem_map.1 hc
  exact ⟨d, hd, rfl⟩

theorem State.Tails.entry (k : (v.tested minute).Tails t) (run : Nat) :
    (t.entry? run).map Entry.facts = (v.entry? run).map Entry.facts := State.entry_facts_of_facts k.facts_eq run

theorem State.Removed.tails (h : b.Removed v e expired named) (k : (v.tested minute).Tails t) : b.Removed t e expired named where
  closed := k.closed h.closed
  cues c hc hrun := by
    obtain ⟨d, hd, rfl⟩ := k.mem_cues hc
    obtain ⟨-, -, hdrun, -, htaken, hdrop⟩ := Cue.test_marks v.now d
    rw [htaken, hdrop]
    exact h.cues d hd (hdrun.symm.trans hrun)
  gone hn := by
    have hentry := k.entry e.run
    rw [h.gone hn] at hentry
    exact Option.map_eq_none_iff.1 hentry
  retiring hn := by
    obtain ⟨x, hx, hfacts, hrev⟩ := h.retiring hn
    have hentry := k.entry e.run
    rw [hx] at hentry
    obtain ⟨y, hy, hyfacts⟩ := Option.map_eq_some_iff.1 hentry
    refine ⟨y, hy, hyfacts.trans hfacts, fun hs => ?_⟩
    have hyrev := k.rev (State.unspoken_of_none h.closed)
    rw [State.revOf, State.revOf, hx, hy] at hyrev
    exact (Option.some.inj hyrev).trans (hrev hs)
  noticed he q hq := (h.noticed he q hq).heard (k.calm.heard q)
  named := h.named
  nodup := k.nodup h.nodup

theorem State.Became.tails (h : b.Became v old new) (k : (v.tested minute).Tails t) : b.Became t old new where
  entry := by
    obtain ⟨x, hx, hfacts⟩ := h.entry
    have hentry := k.entry old.run
    rw [hx] at hentry
    obtain ⟨y, hy, hyfacts⟩ := Option.map_eq_some_iff.1 hentry
    exact ⟨y, hy, hyfacts.trans hfacts⟩
  unspoken := k.unspoken ∘ h.unspoken
  closed := k.closed ∘ h.closed
  rev hs := (k.rev (h.unspoken hs)).trans (h.rev hs)
  nodup := k.nodup h.nodup

theorem State.Surveyed.tails (h : b.Surveyed v rolls) (k : (v.tested minute).Tails t) : b.Surveyed t rolls where
  removed e he hl := by
    obtain ⟨named, expired, hr, hx⟩ := h.removed e he hl
    exact ⟨named, expired, hr.tails k, hx⟩
  kept e he hl := (h.kept e he hl).tails k
  none run hrun := by
    have hentry := k.entry run
    rw [h.none run hrun] at hentry
    exact Option.map_eq_none_iff.1 hentry
  nodup := k.nodup h.nodup

/-- The displayable set of a table is a matter of its facts and the clock (R12). -/
theorem State.displayable_of_facts (h : t.facts = v.facts) (now : Int) (p : Params) :
    (t.table.entries.filter fun e => decide (e.state ≠ .retiring ∧ e.exp ≤ now + p.horizon)).map (·.run) =
      (v.table.entries.filter fun e => decide (e.state ≠ .retiring ∧ e.exp ≤ now + p.horizon)).map (·.run) := by
  have hfacts (u : State) : (u.table.entries.filter fun e => decide (e.state ≠ .retiring ∧ e.exp ≤ now + p.horizon)).map (·.run) =
      (u.facts.filter fun e => decide (e.state ≠ .retiring ∧ e.exp ≤ now + p.horizon)).map (·.run) := by
    rw [State.facts, List.filter_map, List.map_map]
    rfl
  rw [hfacts, hfacts, h]

/-- What an announcement leaves, of a base whose runs are distinct. -/
theorem State.announced_of (hnodup : (b.table.entries.map (·.run)).Nodup) (k : ((b.surveyed rolls).tested minute).Tails t) :
    b.Announced t rolls minute where
  surveyed := (State.surveyed_surveyed hnodup).tails k
  cues := by
    refine ⟨b.surveyed rolls, State.surveyed_cues hnodup, ?_⟩
    rw [k.cues, (State.tested_rests minute _).2.2.2.2, State.now_of_sources (State.surveyed_sources rolls b)]
  marks := by
    have hsrc := State.surveyed_sources rolls b
    have hmarks : ((b.surveyed rolls).tested minute).marks =
        (b.surveyed rolls).marks.map fun r => (r.1, r.2.1, r.2.2.1,
          r.2.2.2.map (Diverted.tested (b.surveyed rolls).inForce (b.surveyed rolls).now)) := by
      rw [State.marks, State.marks, List.map_map]
      refine (List.map_map ..).trans (List.map_congr_left fun r _ => ?_)
      rfl
    rw [k.marks, hmarks, State.surveyed_marks, State.inForce_of_sources hsrc, State.now_of_sources hsrc]
  displayable := by
    have hsrc := State.surveyed_sources rolls b
    have hfresh : (b.surveyed rolls).table.displayable =
        ((b.surveyed rolls).table.entries.filter fun e => decide (e.state ≠ .retiring ∧
          e.exp ≤ (b.surveyed rolls).now + (b.surveyed rolls).inForce.horizon)).map (·.run) := by
      have hshow : (b.surveyed rolls).table.displayable =
          ((b.surveyed rolls).table.entries.filter (b.surveyed rolls).canShow).map (·.run) := rfl
      rw [hshow]
      refine congrArg (List.map _) (List.filter_congr fun e _ => ?_)
      rw [State.canShow, Bool.decide_and]
    rw [State.displayable_of_facts k.facts_eq, k.displayable, ← State.inForce_of_sources hsrc, ← State.now_of_sources hsrc, ← hfresh]
    rfl

end Sys2Proof.Machine
end

section
/-! PROOF. What station time leaves of the picture (R6 to R11, R56, R57, R78, R95). -/
namespace Sys2Proof.Machine

open Sys2Proof

variable {s t u v w b : State} {run m : Nat} {e x y old new : Entry} {c c' : Cue} {rolls minute expired named : Bool}
  {shift : Int} {tick : Filter → Filter}

/-! ## The base of an evaluation -/

/-- An entry with its absolute minutes reduced and its filter moved. -/
def Entry.shifted (shift : Int) (tick : Filter → Filter) (e : Entry) : Entry :=
  { e with
    sched := e.sched - shift, exp := e.exp - shift, stateTime := e.stateTime.map (· - shift)
    filter := tick e.filter }

/-- An absolute minute of a change record reduced, none below -32768 (R78). -/
def rolledMinute (shift m : Int) : Int := if shift = 0 then m else max (-32768) (m - shift)

/-- A cue with its due reduced, whatever its timer. -/
structure Cue.ShiftedTo (shift : Int) (c d : Cue) : Prop where
  number : d.number = c.number
  kind : d.kind = c.kind
  run : d.run = c.run
  due : d.due = c.due - shift
  waiting : d.state = .waiting ↔ c.state = .waiting
  isDue : d.state = .due ↔ c.state = .due

/-- The state `b` that an evaluation starts from, where station time has come to it from `s`. -/
structure State.Based (s b : State) (rolls : Bool) (shift : Int) (tick : Filter → Filter) : Prop where
  rolled : shift = if rolls then 1440 else 0
  entries : b.table.entries = s.table.entries.map (Entry.shifted shift tick)
  marks : b.marks = s.marks.map fun r =>
    (r.1, r.2.1, rolledMinute shift r.2.2.1, r.2.2.2.map fun d => { d with minute := rolledMinute shift d.minute })
  cues : ∃ f : Cue → Cue, b.cues.list = s.cues.list.map f ∧ ∀ c : Cue, c.ShiftedTo shift (f c)
  cuesOk : s.CuesOk → b.CuesOk
  opens : ∀ run, s.openRecord? run = none → b.openRecord? run = none
  named : ∀ run, b.namedByTaken run = s.namedByTaken run
  inForce : b.inForce = s.inForce

theorem State.Based.runs (h : s.Based b rolls shift tick) : b.table.entries.map (·.run) = s.table.entries.map (·.run) := by
  rw [h.entries, List.map_map]
  rfl

theorem State.Based.mem (h : s.Based b rolls shift tick) (he : e ∈ s.table.entries) : e.shifted shift tick ∈ b.table.entries := by
  rw [h.entries]
  exact List.mem_map_of_mem he

theorem Entry.lingered_iff (p : Params) (now : Int) (e : Entry) :
    e.lingered p now = true ↔
      (∃ m, e.state = .departed ∧ e.stateTime = some m ∧ m + p.departedLinger ≤ now) ∨
        ∃ m, e.state = .cancelled ∧ e.stateTime = some m ∧ max m e.exp + p.cancelledLinger ≤ now := by
  unfold Entry.lingered
  split
  next m hs ht => simp [hs, ht]
  next m hs ht => simp [hs, ht]
  next hd hc =>
    refine iff_of_false nofun ?_
    rintro (⟨m, hs, ht, -⟩ | ⟨m, hs, ht, -⟩)
    · exact hd m hs ht
    · exact hc m hs ht

/-! ## The entries -/

/-- An entry that stands after the evaluation is one that stood before it, but for its state. -/
theorem State.Surveyed.origin (h : b.Surveyed t rolls) (hx : x ∈ t.table.entries) :
    ∃ e ∈ b.table.entries, x.facts = { e.facts with state := x.state } ∧
      ((b.leaves rolls e ∧ x.state = .retiring) ∨
        (¬b.leaves rolls e ∧ x.state = (e.transition b.inForce b.now).state)) := by
  have hentry : t.entry? x.run = some x := entryIn_of_mem h.nodup hx
  by_cases hrun : x.run ∈ b.table.entries.map (·.run)
  · obtain ⟨e, he, herun⟩ := List.mem_map.1 hrun
    refine ⟨e, he, ?_⟩
    by_cases hleaves : b.leaves rolls e
    · obtain ⟨named, expired, hr, -⟩ := h.removed e he hleaves
      cases named with
      | false =>
        have hgone := hr.gone rfl
        rw [herun, hentry] at hgone
        cases hgone
      | true =>
        obtain ⟨y, hy, hfacts, -⟩ := hr.retiring rfl
        rw [herun, hentry] at hy
        cases hy
        have hstate : x.state = .retiring := (congrArg Entry.state hfacts :)
        exact ⟨by rw [hfacts, hstate], .inl ⟨hleaves, hstate⟩⟩
    · obtain ⟨y, hy, hfacts⟩ := (h.kept e he hleaves).entry
      rw [herun, hentry] at hy
      cases hy
      have hstate : x.state = (e.transition b.inForce b.now).state := (congrArg Entry.state hfacts :)
      refine ⟨?_, .inr ⟨hleaves, hstate⟩⟩
      rw [hfacts, hstate, Entry.transition_eq]
      rfl
  · rw [h.none _ hrun] at hentry
    cases hentry

theorem State.Announced.nothingDue (h : b.Announced t rolls minute) (hnow : t.now = b.now) (hin : t.inForce = b.inForce) :
    t.NothingDue := by
  refine ⟨fun x hx => ?_, fun c hc hw => ?_⟩
  · obtain ⟨e, -, hfacts, ⟨-, hret⟩ | ⟨hstays, hstate⟩⟩ := h.surveyed.origin hx
    · exact ⟨fun haw => by simp [Entry.awaiting, hret] at haw, fun hl => by simp [hret] at hl,
        fun hs => by simp [Entry.inService, hret] at hs, fun _ hd => by simp [hret] at hd, fun _ hd => by simp [hret] at hd⟩
    · have hexp : x.exp = e.exp := (congrArg Entry.exp hfacts :)
      have hdisp : x.displayed = e.displayed := (congrArg Entry.displayed hfacts :)
      have htime : x.stateTime = e.stateTime := (congrArg Entry.stateTime hfacts :)
      have hover : b.overdue e = false := Bool.eq_false_iff.2 fun ho => hstays (.inr (.inl ho))
      have hlinger : ¬e.lingered b.inForce b.now = true := fun hl => hstays (.inr (.inr hl))
      rw [Entry.lingered_iff, not_or] at hlinger
      obtain ⟨hclosed, hboarding, hlisted, hback, hstill, hother⟩ := Entry.transition_state b.inForce b.now e
      rw [← hstate] at hclosed hboarding hlisted hback hstill hother
      have hleft (hs : x.state ≠ .listed ∧ x.state ≠ .boarding ∧ x.state ≠ .closed) : x.state = e.state := by
        obtain heq | ⟨-, hserv⟩ := Entry.transition_service b.inForce b.now e
        · rw [hstate, heq]
        · simp [Entry.inService, ← hstate, hs] at hserv
      rw [hnow, hin, hexp, hdisp, htime]
      refine ⟨fun haw => ?_, fun hl hd => ?_, fun hs => ?_, fun m hs hm => ?_, fun m hs hm => ?_⟩
      · by_contra hle
        by_cases hes : e.state = .listed ∨ e.state = .boarding
        · simp [Entry.awaiting, hclosed hes (by omega)] at haw
        · rw [not_or] at hes
          simp [Entry.awaiting, hother hes.1 hes.2, hes.1, hes.2] at haw
      · by_contra hle
        by_cases hes : e.state = .listed ∨ e.state = .boarding
        · by_cases hexp' : e.exp ≤ b.now
          · simp [hclosed hes hexp'] at hl
          · obtain hes | hes := hes
            · simp [hboarding hes (by omega) hd (by omega)] at hl
            · simp [hstill hes (by omega) hd] at hl
        · rw [not_or] at hes
          exact hes.1 ((hother hes.1 hes.2).symm.trans hl)
      · have hserv : e.inService = true := by
          obtain heq | ⟨hserv, -⟩ := Entry.transition_service b.inForce b.now e
          · rw [heq] at hstate
            rw [Entry.inService, ← hstate]
            exact hs
          · exact hserv
        rw [State.overdue, hserv, Bool.true_and] at hover
        exact not_le.1 (of_decide_eq_false hover)
      · exact not_le.1 fun hle => hlinger.1 ⟨m, (hleft (by simp [hs])).symm.trans hs, hm, hle⟩
      · exact not_le.1 fun hle => hlinger.2 ⟨m, (hleft (by simp [hs])).symm.trans hs, hm, hle⟩
  · obtain ⟨v, -, hlist⟩ := h.cues
    rw [hlist] at hc
    obtain ⟨d, -, rfl⟩ := List.mem_map.1 hc
    unfold Cue.test at hw ⊢
    rw [hnow]
    split at hw
    next hdw =>
      split at hw
      · cases hw
      next hle =>
        rw [if_neg hle]
        exact not_le.1 hle
    next hdw => exact absurd hw hdw

/-! ## From the base to the state before -/

/-- The transitions that the clock and the platform call for, in the order of R9 (R6, R7). -/
theorem Entry.transition_cases (p : Params) (now : Int) (e : Entry) :
    (e.transition p now).facts =
      { e.facts with
        state :=
          if (e.state = .listed ∨ e.state = .boarding) ∧ e.exp ≤ now then .closed
          else if e.state = .listed ∧ e.displayed ≠ none ∧ e.exp - p.boarding ≤ now then .boarding
          else if e.state = .boarding ∧ e.displayed = none then .listed
          else e.state } := by
  have hstate : (e.transition p now).state =
      if (e.state = .listed ∨ e.state = .boarding) ∧ e.exp ≤ now then .closed
      else if e.state = .listed ∧ e.displayed ≠ none ∧ e.exp - p.boarding ≤ now then .boarding
      else if e.state = .boarding ∧ e.displayed = none then .listed
      else e.state := by
    unfold Entry.transition
    simp only [apply_ite Entry.state]
    refine if_congr (by simp [Entry.awaiting]) rfl (if_congr ?_ rfl (if_congr (by simp) rfl rfl))
    rw [Bool.and_eq_true, Bool.and_eq_true, decide_eq_true_eq, decide_eq_true_eq, Option.isSome_iff_ne_none, and_assoc]
  rw [← hstate, Entry.transition_eq]
  rfl

theorem State.Based.entry (h : s.Based b rolls shift tick) (run : Nat) :
    b.entry? run = (s.entry? run).map (Entry.shifted shift tick) := by
  rw [State.entry?_eq, State.entry?_eq, h.entries]
  exact entryIn_map (f := Entry.shifted shift tick) (fun _ => rfl) run s.table.entries

theorem State.leaves_not_retiring (h : b.leaves rolls e) : e.state ≠ .retiring := by
  obtain ⟨-, hne, -⟩ | hover | hlinger := h
  · exact hne
  · rw [State.overdue, Bool.and_eq_true] at hover
    exact Entry.inService_not_retiring hover.1
  · obtain ⟨_, hs, -⟩ | ⟨_, hs, -⟩ := (Entry.lingered_iff ..).1 hlinger <;> simp [hs]

theorem State.Based.expires_iff (h : s.Based b rolls shift tick) (hnow : t.now = b.now) (r : Entry) :
    b.expires rolls r ↔
      (r.inService = true ∧ r.exp + s.inForce.overdue ≤ t.now) ∨ (shift = 1440 ∧ r.exp < -60 ∧ r.state ≠ .retiring) := by
  have hshift : shift = 1440 ↔ rolls = true := by
    rw [h.rolled]
    cases rolls <;> simp
  rw [State.expires, State.overdue, Bool.and_eq_true, decide_eq_true_eq, h.inForce, hnow, hshift, or_comm, and_comm (b := r.exp < -60)]

theorem State.Based.leaves_iff (b : State) (rolls : Bool) (r : Entry) :
    b.leaves rolls r ↔ b.expires rolls r ∨ r.lingered b.inForce b.now = true := by
  rw [State.leaves, State.expires, or_assoc]

theorem State.Announced.passed (h : b.Announced t rolls minute) (hb : s.Based b rolls shift tick) (hnow : t.now = b.now) :
    s.Passed t shift := by
  refine ⟨fun x hx => ?_, fun e he => ?_⟩
  · obtain ⟨d, hd, hfacts, -⟩ := h.surveyed.origin hx
    rw [hb.entries] at hd
    obtain ⟨e, he, rfl⟩ := List.mem_map.1 hd
    exact ⟨e, he, (congrArg Entry.run hfacts :), (congrArg Entry.sched hfacts :), (congrArg Entry.exp hfacts :),
      (congrArg Entry.dd hfacts :), (congrArg Entry.displayed hfacts :), (congrArg Entry.stateTime hfacts :),
      (congrArg Entry.reason hfacts :), (congrArg Entry.headcode hfacts :), (congrArg Entry.destination hfacts :),
      (congrArg Entry.calls hfacts :), (congrArg Entry.announced hfacts :), (congrArg Entry.lastDelay hfacts :),
      (congrArg Entry.opDelay hfacts :)⟩
  · by_cases hleaves : b.leaves rolls (e.shifted shift tick)
    · refine .inr ?_
      rw [State.Based.leaves_iff, hb.expires_iff hnow, Entry.lingered_iff, hb.inForce, ← hnow] at hleaves
      obtain (⟨hs, hle⟩ | ⟨hroll, hlt, hret⟩) | ⟨m, hs, ht, hle⟩ | ⟨m, hs, ht, hle⟩ := hleaves
      · exact .inl ⟨hs, hle⟩
      · exact .inr (.inl ⟨hroll, hlt, hret⟩)
      · obtain ⟨n, hn, rfl⟩ := Option.map_eq_some_iff.1 ht
        exact .inr (.inr (.inl ⟨n, hs, hn, hle⟩))
      · obtain ⟨n, hn, rfl⟩ := Option.map_eq_some_iff.1 ht
        refine .inr (.inr (.inr ⟨n, hs, hn, ?_⟩))
        have hle' : max (n - shift) (e.exp - shift) + s.inForce.cancelledLinger ≤ t.now := hle
        omega
    · obtain ⟨x, hx, -⟩ := (h.surveyed.kept _ (hb.mem he) hleaves).entry
      exact .inl ⟨x, List.mem_of_find?_eq_some hx, entryIn_run hx⟩

theorem State.Announced.holdsTested (h : b.Announced t rolls minute) (hb : s.Based b rolls shift tick) (hnow : t.now = b.now) :
    s.HoldsTested t shift := by
  intro roll hroll
  obtain rfl : roll = rolledMinute shift := funext hroll
  have hmarks := h.marks
  rw [hb.marks, List.map_map, hb.inForce, ← hnow, State.marks, State.marks, List.map_map] at hmarks
  refine hmarks.trans (List.map_congr_left fun r _ => ?_)
  simp only [Function.comp_apply, ChangeRec.mark, List.map_map]
  rfl

theorem State.Announced.evaluated (h : b.Announced t rolls minute) (hb : s.Based b rolls shift tick) (hnow : t.now = b.now)
    (hclock : t.time.clock = b.time.clock) : s.Evaluated t shift tick := by
  intro hok e he r hr expired lingered hexpired hlingered
  obtain rfl : r = e.shifted shift tick := hr
  have hexpires : expired ↔ b.expires rolls (e.shifted shift tick) := hexpired.trans (hb.expires_iff hnow _).symm
  have hleaves : expired ∨ lingered ↔ b.leaves rolls (e.shifted shift tick) := by
    rw [State.Based.leaves_iff, hexpires, hlingered, Entry.lingered_iff, hb.inForce, hnow]
  have hopen (hnone : s.openRecord? e.run = none) : b.Unspoken e.run := State.unspoken_of_none (hb.opens e.run hnone)
  refine ⟨fun hexp q hq => ?_, fun hgone => ?_, fun hstays => ?_⟩
  · obtain ⟨named, x, hr, hiff⟩ := h.surveyed.removed _ (hb.mem he) (hleaves.1 (.inl hexp))
    rw [hclock]
    exact hr.noticed (hiff.2 (hexpires.1 hexp)) q hq
  · obtain ⟨named, x, hr, -⟩ := h.surveyed.removed _ (hb.mem he) (hleaves.1 hgone)
    have hnamed : named = s.namedByTaken e.run := (hr.named (hb.cuesOk hok)).trans (hb.named e.run)
    refine ⟨hr.closed, hr.cues, fun hn => hr.gone (hnamed.trans hn), fun hn => ?_⟩
    obtain ⟨y, hy, hfacts, hrev⟩ := hr.retiring (hnamed.trans hn)
    exact ⟨y, hy, hfacts, fun hnone => hrev (hopen hnone)⟩
  · have hk := h.surveyed.kept _ (hb.mem he) fun hl => hstays (hleaves.2 hl)
    obtain ⟨x, hx, hfacts⟩ := hk.entry
    have hstate : x.state = ((e.shifted shift tick).transition b.inForce b.now).state := (congrArg Entry.state hfacts :)
    refine ⟨x, hx, ?_, fun hnone => ?_⟩
    · rw [hfacts, hnow, ← hb.inForce]
      exact Entry.transition_cases ..
    · have hrev := hk.rev (hopen hnone)
      rw [State.revOf, hx, State.transition_sameShown, ← hstate, Entry.transition_rev] at hrev
      exact (Option.some.inj hrev).trans (if_congr (decide_eq_true_iff.trans eq_comm) rfl rfl)

theorem State.Based.entry_state (h : s.Based b rolls shift tick) (run : Nat) :
    (b.entry? run).map (·.state) = (s.entry? run).map (·.state) := by
  rw [h.entry, Option.map_map]
  rfl

/-- An entry whose state is as it was has neither left nor moved. -/
theorem State.Surveyed.still (h : b.Surveyed t rolls) (he : b.entry? run = some e)
    (hsame : (t.entry? run).map (·.state) = (b.entry? run).map (·.state)) :
    ¬b.leaves rolls e ∧ (e.transition b.inForce b.now).state = e.state := by
  have herun : e.run = run := entryIn_run he
  have hmem : e ∈ b.table.entries := List.mem_of_find?_eq_some he
  rw [he, ← herun] at hsame
  by_cases hleaves : b.leaves rolls e
  · obtain ⟨named, expired, hr, -⟩ := h.removed e hmem hleaves
    cases named with
    | false =>
      rw [hr.gone rfl] at hsame
      cases hsame
    | true =>
      obtain ⟨x, hx, hfacts, -⟩ := hr.retiring rfl
      have hstate : x.state = .retiring := (congrArg Entry.state hfacts :)
      rw [hx] at hsame
      exact absurd ((Option.some.inj hsame).symm.trans hstate) (State.leaves_not_retiring hleaves)
  · obtain ⟨x, hx, hfacts⟩ := (h.kept e hmem hleaves).entry
    have hstate : x.state = (e.transition b.inForce b.now).state := (congrArg Entry.state hfacts :)
    rw [hx] at hsame
    exact ⟨hleaves, hstate.symm.trans (Option.some.inj hsame)⟩

theorem State.Announced.cuesRolled (h : b.Announced t rolls minute) (hb : s.Based b rolls shift tick) (hnow : t.now = b.now) :
    s.CuesRolled t shift := by
  intro hok c hc c' hc' hnumber hkind hrun
  obtain ⟨v, ⟨hstand, hstill⟩, hlist⟩ := h.cues
  obtain ⟨f, hf, hshifted⟩ := hb.cues
  obtain ⟨-, hfkind, hfrun, hfdue, hfwaiting, hfisDue⟩ := hshifted c
  have hmem : f c ∈ b.cues.list := hf ▸ List.mem_map_of_mem hc
  rw [hlist] at hc'
  obtain ⟨d, hd, rfl⟩ := List.mem_map.1 hc'
  obtain ⟨-, hdkind, hdrun, hddue, -⟩ := Cue.test_marks b.now d
  have hdk : d.kind = (f c).kind := by rw [← hdkind, hkind, hfkind]
  have hdr : d.run = c.run := hdrun.symm.trans hrun
  have hbok := hb.cuesOk hok
  have hstands (hw : c.state ≠ .waiting) : (f c).StandsAs d :=
    hstand c.run hbok (f c) hmem hfrun (fun h => hw (hfwaiting.1 h)) d hd hdk hdr
  refine ⟨fun hw => ?_, fun hdue => ?_, fun hsame => ?_⟩
  · rw [hddue, (hstands hw).due, hfdue]
  · have hds := (hstands (by rw [hdue]; exact nofun)).isDue (hfisDue.2 hdue)
    simp only [Cue.test, hds]
  · have hdc : d = f c := by
      refine hbok.same hmem ((hstill c.run fun e he => ?_).cues d hd hdr) hdk (hdr.trans hfrun.symm)
      exact h.surveyed.still he (hsame.trans (hb.entry_state c.run).symm)
    rw [hddue, hdc, hfdue]
    refine ⟨rfl, fun hw => ?_⟩
    simp only [Cue.test, hfwaiting.2 hw, hfdue, hnow]
    split
    · rfl
    · exact hfwaiting.2 hw

end Sys2Proof.Machine
end

section
/-! PROOF. TIME accepted (R50 to R56, R167). -/
namespace Sys2Proof.Machine

open Sys2Proof

variable {s t u v w b : State} {run m : Nat} {e x y old new : Entry} {c c' : Cue} {rolls minute expired named : Bool}
  {shift : Int} {tick : Filter → Filter}

/-! ## The lines at an announcement -/

/-- A line at an announcement in SET or HOLDOVER (R167). -/
theorem Line.announce_announced (p : Params) (clock now : Nat) (minute : Bool) (l : Line) :
    l.Announced p clock now minute (l.announce p false clock now minute) := by
  unfold Line.announce
  refine ⟨fun h => if_pos h, fun hoff hfault himp => ?_, fun hoff hfault himp => ?_⟩
  · rw [if_neg (not_or.2 ⟨hoff, hfault⟩), if_pos (Option.isSome_iff_ne_none.2 himp)]
  · have hface := Line.decide_face p false clock now minute .between l
    simp only [Line.face, Prod.mk.injEq] at hface
    obtain ⟨-, hdial, hpol, hmissed, huse⟩ := hface
    rw [if_neg (not_or.2 ⟨hoff, hfault⟩), if_neg (by simp [himp])]
    exact ⟨hdial, hpol, hmissed, huse, fun d hd hdiff => Line.decide_placedBy himp (Line.diff_eq hd hdiff)⟩

theorem State.announceLines_announced (hset : u.time.state ≠ .unset) (hlines : u.lines = s.lines)
    (htl : t.lines = (u.announceLines minute).lines) (htime : t.time = u.time) (hin : t.inForce = u.inForce) :
    s.LinesAnnounced t minute := by
  intro n l hl
  have hrun : t.runTime = u.runTime := by rw [State.runTime, htime, State.runTime]
  have hunset : decide (u.time.state = .unset) = false := decide_eq_false hset
  refine ⟨l.announce u.inForce false u.time.clock u.runTime minute, ?_, ?_⟩
  · have hmap : t.lines = s.lines.map (Line.announce u.inForce false u.time.clock u.runTime minute) := by
      rw [htl, ← hlines, ← hunset]
      rfl
    have hno (k : Line) : (k.announce u.inForce false u.time.clock u.runTime minute).no = k.no := by
      have hface := Line.announce_face u.inForce false u.time.clock u.runTime minute k
      simp only [Line.face, Prod.mk.injEq] at hface
      exact hface.1
    rw [State.line?, hmap, List.find?_map]
    simp only [Function.comp_def, hno]
    rw [State.line?] at hl
    rw [hl]
    rfl
  · rw [hin, htime, hrun]
    exact Line.announce_announced ..

/-! ## The base of a step and of a minute advance -/

theorem Cue.ShiftedTo.trans {d f : Cue} {a b : Int} (h : c.ShiftedTo a d) (k : d.ShiftedTo b f) : c.ShiftedTo (a + b) f :=
  ⟨k.number.trans h.number, k.kind.trans h.kind, k.run.trans h.run, by rw [k.due, h.due]; omega, k.waiting.trans h.waiting,
    k.isDue.trans h.isDue⟩

/-- Station time has come to `u` from `s`, the filters and the speak timers moved. -/
structure State.Ticked (s u : State) (tick : Filter → Filter) (g : Cue → Cue) : Prop where
  entries : u.table.entries = s.table.entries.map fun e => { e with filter := tick e.filter }
  tracker : u.tracker = s.tracker
  cues : u.cues.list = s.cues.list.map g
  last : u.cues.last = s.cues.last
  inForce : u.inForce = s.inForce
  moved : ∀ c : Cue, c.ShiftedTo 0 (g c)
  marks : ∀ c : Cue, (g c).attempts = c.attempts ∧ (g c).isTaken = c.isTaken

theorem State.cuesOk_of_map {g : Cue → Cue} (hcues : u.cues.list = s.cues.list.map g) (hlast : u.cues.last = s.cues.last)
    (hg : ∀ c : Cue, c.ShiftedTo shift (g c) ∧ (g c).attempts = c.attempts) (h : s.CuesOk) : u.CuesOk := by
  rw [State.cuesOk_iff] at h ⊢
  rw [hcues, hlast]
  refine h.map fun c => ?_
  obtain ⟨hshift, hattempts⟩ := hg c
  exact ⟨hshift.number, hshift.kind, hshift.run, fun hle => hattempts ▸ hle⟩

theorem State.namedByTaken_of_map {g : Cue → Cue} (hcues : u.cues.list = s.cues.list.map g)
    (hg : ∀ c : Cue, (g c).run = c.run ∧ (g c).isTaken = c.isTaken) (run : Nat) : u.namedByTaken run = s.namedByTaken run := by
  rw [State.namedByTaken, hcues, List.any_map, State.namedByTaken]
  refine congrArg (List.any s.cues.list) (funext fun c => ?_)
  rw [Function.comp_apply, (hg c).1, (hg c).2]

theorem Entry.shifted_zero (tick : Filter → Filter) (e : Entry) : e.shifted 0 tick = { e with filter := tick e.filter } := by
  have htime : e.stateTime.map (· - (0 : Int)) = e.stateTime := by simp
  rw [Entry.shifted, htime, sub_zero, sub_zero]

theorem rolledMinute_zero (m : Int) : rolledMinute 0 m = m := if_pos rfl

theorem State.Ticked.based_still {g : Cue → Cue} (h : s.Ticked u tick g) : s.Based u false 0 tick where
  rolled := rfl
  entries := h.entries.trans (List.map_congr_left fun e _ => (Entry.shifted_zero tick e).symm)
  marks := by
    have hdiverted (l : List Diverted) : (l.map fun d => { d with minute := rolledMinute 0 d.minute }) = l := by
      simp [rolledMinute_zero]
    rw [State.marks_of_tracker h.tracker]
    refine ((List.map_congr_left (g := id) fun r _ => ?_).trans (List.map_id _)).symm
    rw [rolledMinute_zero, hdiverted]
    rfl
  cues := ⟨g, h.cues, h.moved⟩
  cuesOk := State.cuesOk_of_map h.cues h.last fun c => ⟨h.moved c, (h.marks c).1⟩
  opens run := (State.OpenFrom.of_tracker h.tracker).openRecord?_none
  named := State.namedByTaken_of_map h.cues fun c => ⟨(h.moved c).run, (h.marks c).2⟩
  inForce := h.inForce

/-- A cue with its due reduced by a day. -/
def Cue.rolled (c : Cue) : Cue := { c with due := c.due - 1440 }

theorem State.Ticked.based_rolled {g : Cue → Cue} (h : s.Ticked u tick g) : s.Based (u.rolledBack true) true 1440 tick where
  rolled := rfl
  entries := by
    have hrolled : (u.rolledBack true).table.entries = u.table.entries.map fun e =>
        { e with sched := e.sched - 1440, exp := e.exp - 1440, stateTime := e.stateTime.map (· - 1440) } := rfl
    rw [hrolled, h.entries, List.map_map]
    rfl
  marks := by
    have hrolled : (u.rolledBack true).tracker.records = u.tracker.records.map fun r =>
        { r with
          openedMinute := max (-32768) (r.openedMinute - 1440)
          diverted := r.diverted.map fun d => { d with minute := max (-32768) (d.minute - 1440) } } := by
      exact List.map_congr_left fun r _ => if_pos rfl
    rw [State.marks, hrolled, h.tracker, State.marks, List.map_map, List.map_map]
    rfl
  cues := by
    refine ⟨fun c => (g c).rolled, ?_, fun c => ?_⟩
    · have hrolled : (u.rolledBack true).cues.list = u.cues.list.map Cue.rolled := rfl
      rw [hrolled, h.cues, List.map_map]
      rfl
    · have hone : (g c).ShiftedTo 1440 (g c).rolled := ⟨rfl, rfl, rfl, rfl, Iff.rfl, Iff.rfl⟩
      exact (h.moved c).trans hone
  cuesOk hok := by
    have hu : u.CuesOk := State.cuesOk_of_map h.cues h.last (fun c => ⟨h.moved c, (h.marks c).1⟩) hok
    exact State.cuesOk_of_map (u := u.rolledBack true) (g := Cue.rolled) rfl rfl
      (fun c => ⟨⟨rfl, rfl, rfl, rfl, Iff.rfl, Iff.rfl⟩, rfl⟩) hu
  opens run hnone := by
    have hopen : u.OpenFrom u.rollTracker := State.OpenFrom.updRecords u fun r _ ho => ⟨ho, rfl⟩
    exact hopen.openRecord?_none ((State.OpenFrom.of_tracker h.tracker).openRecord?_none hnone)
  named run := by
    refine Eq.trans ?_ (State.namedByTaken_of_map h.cues (fun c => ⟨(h.moved c).run, (h.marks c).2⟩) run)
    exact State.namedByTaken_of_map (u := u.rolledBack true) (g := Cue.rolled) rfl (fun _ => ⟨rfl, rfl⟩) run
  inForce := h.inForce

theorem State.Ticked.based {g : Cue → Cue} (h : s.Ticked u tick g) (rolls : Bool) :
    s.Based (u.rolledBack rolls) rolls (if rolls then 1440 else 0) tick := by
  cases rolls with
  | false => exact h.based_still
  | true => exact h.based_rolled

theorem State.rolledBack_sources (rolls : Bool) (u : State) : (u.rolledBack rolls).sources = u.sources := by
  cases rolls <;> rfl

/-! ## The announcement as a whole -/

theorem State.tested_clock (minute : Bool) (v : State) :
    (v.tested minute).time = v.time ∧ (v.tested minute).inForce = v.inForce := ⟨rfl, rfl⟩

/-- What station time leaves when it has come to `u` from `s` and the owners have acted on it. -/
structure State.Elapsed (s u t : State) (rolls minute : Bool) (tick : Filter → Filter) : Prop where
  nothingDue : t.NothingDue
  lines : u.time.state ≠ .unset → u.lines = s.lines → s.LinesAnnounced t minute
  passed : s.Passed t (if rolls then 1440 else 0)
  holds : s.HoldsTested t (if rolls then 1440 else 0)
  cues : s.CuesRolled t (if rolls then 1440 else 0)
  evaluated : s.Evaluated t (if rolls then 1440 else 0) tick
  displayable : t.Displayable

theorem State.elapsed_of {g : Cue → Cue} (h : s.Ticked u tick g) (hnodup : (s.table.entries.map (·.run)).Nodup)
    (k : ((u.rolledBack rolls).surveyed rolls |>.tested minute).Tails t)
    (hsrc : t.sources = ((u.rolledBack rolls).surveyed rolls |>.tested minute).sources) :
    s.Elapsed u t rolls minute tick := by
  have hb := h.based rolls
  have hsurveyed := State.surveyed_sources rolls (u.rolledBack rolls)
  have hbase := State.rolledBack_sources rolls u
  have hannounced := State.announced_of (by rwa [hb.runs]) k
  obtain ⟨htested, htested'⟩ := State.tested_clock minute ((u.rolledBack rolls).surveyed rolls)
  have htime : t.time = (u.rolledBack rolls).time :=
    (State.time_of_sources hsrc).trans (htested.trans (State.time_of_sources hsurveyed))
  have hin : t.inForce = (u.rolledBack rolls).inForce :=
    (State.inForce_of_sources hsrc).trans (htested'.trans (State.inForce_of_sources hsurveyed))
  have hnow : t.now = (u.rolledBack rolls).now := by rw [State.now, State.elapsed, htime, hin, State.now, State.elapsed]
  refine ⟨hannounced.nothingDue hnow hin, fun hset hlines => ?_, hannounced.passed hb hnow, hannounced.holdsTested hb hnow,
    hannounced.cuesRolled hb hnow, hannounced.evaluated hb hnow (by rw [htime]), ?_⟩
  · have hu := hsurveyed.trans hbase
    have htl : t.lines = (((u.rolledBack rolls).surveyed rolls).announceLines minute).lines := (congrArg Sources.lines hsrc :)
    refine State.announceLines_announced (u := (u.rolledBack rolls).surveyed rolls) ?_ ?_ htl ?_ ?_
    · rw [State.time_of_sources hu]
      exact hset
    · exact (congrArg Sources.lines hu :).trans hlines
    · rw [htime, State.time_of_sources hsurveyed]
    · rw [hin, State.inForce_of_sources hsurveyed]
  · rw [State.Displayable, hnow, hin]
    exact hannounced.displayable

end Sys2Proof.Machine
end

section
/-! PROOF. TIME accepted (R50 to R56, R167). -/
namespace Sys2Proof.Machine

open Sys2Proof

variable {s t u v w b : State} {p : PortId} {d : Int} {n : Nat}

theorem timeOwner_set (hn : n ≤ 86399) (hsource : s.notTimeSource p = false) (hunset : s.time.state = .unset) :
    timeOwner p n s = (s.setClock n, Answer.accept ((s.setClock n).clockResult none)) := by
  rw [timeOwner, if_neg (Nat.not_lt.2 hn), hsource, if_neg nofun, if_pos hunset]

theorem timeOwner_accepted (hn : n ≤ 86399) (hsource : s.notTimeSource p = false) (hset : s.time.state ≠ .unset)
    (hd : d = timeOffset n s.time.clock) (hc : s.offsetRefusal d = none) :
    timeOwner p n s =
      (if d.natAbs ≤ 30 then s.slewClock d else s.stepClock n d p,
        Answer.accept ((if d.natAbs ≤ 30 then s.slewClock d else s.stepClock n d p).clockResult (some d))) := by
  subst hd
  simp [timeOwner, Nat.not_lt.2 hn, hsource, hset, hc]

/-- The state that a time step starts from (R53). -/
def State.stepped (n : Nat) (s : State) : State := { s with time := s.time.stepTo n }

/-- The step enters the service-day start (R53). -/
def State.stepRolls (d : Int) (s : State) : Bool := 0 < d && 86400 ≤ s.elapsed + d

theorem State.stepClock_eq (n : Nat) (d : Int) (p : PortId) (s : State) :
    s.stepClock n d p =
      ((((((s.stepped n).rolledBack (s.stepRolls d)).surveyed (s.stepRolls d)).tested false).recompose).post
        [.planning, .signalling] .timeStepped (.port p)).finish s := by
  rw [← State.announceTime_eq]
  rfl

theorem Port.last_post (k : Notice) (r : Port) : (r.post k).notices.getLast? = some k ∨ (r.post k).overflow = true := by
  unfold Port.post
  split
  · exact .inl (List.getLast?_concat ..)
  · exact .inr rfl

theorem State.stepClock_told {q : PortId} (hq : q = .planning ∨ q = .signalling) (n : Nat) (d : Int) (p : PortId) (s : State) :
    ((s.stepClock n d p).port q).notices.getLast? = some ⟨.timeStepped, .port p, n⟩ ∨
      ((s.stepClock n d p).port q).overflow = true := by
  have hmem : q ∈ [PortId.planning, .signalling] := by simpa using hq
  have hclock : (((((s.stepped n).rolledBack (s.stepRolls d)).surveyed (s.stepRolls d)).tested false).recompose).time.clock = n := by
    have htime := State.time_of_sources (State.recompose_sources
      ((((s.stepped n).rolledBack (s.stepRolls d)).surveyed (s.stepRolls d)).tested false))
    rw [htime, (State.tested_clock ..).1, State.time_of_sources (State.surveyed_sources ..),
      State.time_of_sources (State.rolledBack_sources ..)]
    rfl
  rw [State.stepClock_eq, State.finish_port, State.post_port (by decide), if_pos hmem, hclock]
  exact Port.last_post ..

theorem State.stepClock_steady (n : Nat) (d : Int) (p : PortId) (s : State) :
    (s.stepClock n d p).wall.board = s.wall.board ∧ (s.stepClock n d p).records = s.records := by
  have hroll : s.Steady (if s.stepRolls d then (s.stepped n).rollover else s.stepped n) := by
    have hstep : s.Steady (s.stepped n) := .of_blocks rfl rfl rfl
    split
    · exact hstep.trans (State.rollover_steady _)
    · exact hstep
  have hall := hroll.trans (State.announceTime_steady false _)
  rw [State.announceTime_eq] at hall
  have hrest := hall.trans ((State.recompose_steady _).trans (State.post_steady [.planning, .signalling] .timeStepped (.port p) _))
  rw [State.stepClock_eq]
  obtain ⟨-, hboard, hrecords, -⟩ := State.finish_beside ((((((s.stepped n).rolledBack (s.stepRolls d)).surveyed
    (s.stepRolls d)).tested false).recompose).post [.planning, .signalling] .timeStepped (.port p)) s
  exact ⟨hboard.trans hrest.board, hrecords.trans hrest.records⟩

theorem State.stepped_ticked (n : Nat) (s : State) : s.Ticked (s.stepped n) id id where
  entries := (List.map_id _).symm
  tracker := rfl
  cues := (List.map_id _).symm
  last := rfl
  inForce := rfl
  moved _ := ⟨rfl, rfl, rfl, (sub_zero _).symm, Iff.rfl, Iff.rfl⟩
  marks _ := ⟨rfl, rfl⟩

theorem State.stepClock_elapsed (hnodup : (s.table.entries.map (·.run)).Nodup) (n : Nat) (d : Int) (p : PortId) (q : PortId) (tel : Tel)
    (a : Answer) : s.Elapsed (s.stepped n) ((s.stepClock n d p).answerTel q tel a) (s.stepRolls d) false id := by
  refine State.elapsed_of (State.stepped_ticked n s) hnodup ?_ ?_
  · rw [State.stepClock_eq]
    exact (State.recompose_tails _).trans ((State.post_tails (by decide) ..).trans ((State.finish_tails ..).trans (State.answerTel_tails ..)))
  · rw [State.answerTel_sources, State.stepClock_eq, State.finish_sources, State.post_sources, State.recompose_sources]

/-- Settles O35, by the set, the slew and the step of the clock. -/
theorem timeSetsSlewsOrSteps : Obligations.TimeSetsSlewsOrSteps := by
  intro s p seq v htaking hv hsource d hd
  have hsrc := (s.timeSource_iff p).2 hsource
  have hhandled {u : State} {x : Option Int} (howner : timeOwner p v s = (u, Answer.accept (u.clockResult x))) :
      (Telegram.time v).handled p s = (u, .accept (u.clockResult x)) := by
    refine (?_ : ((timeOwner p v s).1, completeTime (timeOwner p v s).1 (timeOwner p v s).2) = _)
    rw [howner]
    rfl
  refine ⟨fun hunset => ?_, fun hset hlo hhi => ?_, fun hset hfar hlo hhi hback hk => ?_⟩
  · obtain ⟨hexec, hanswered⟩ := exec_taking_answered htaking (hhandled (timeOwner_set hv hsrc hunset)) fun q => State.setClock_link q v s
    refine ⟨_, hexec, hanswered, rfl, rfl, ?_, fun q => ?_⟩
    · refine State.announceLines_announced (u := { s with time := s.time.setTo v }) ?_ rfl rfl rfl rfl
      exact nofun
    · rw [State.answerTel_notices, State.setClock, State.settleAttention_notices]
      rfl
  · have hc : s.offsetRefusal d = none := by
      rw [State.offsetRefusal, if_neg (by omega), if_neg (by omega)]
    have howner := timeOwner_accepted hv hsrc hset hd hc
    rw [if_pos (by omega)] at howner
    obtain ⟨hexec, hanswered⟩ := exec_taking_answered htaking (hhandled howner) fun q => State.slewClock_link q d s
    refine ⟨_, hexec, hanswered, rfl, rfl, fun q => ?_⟩
    rw [State.answerTel_notices]
    rfl
  · have hc : s.offsetRefusal d = none := by
      rw [State.offsetRefusal, if_neg (by omega), if_neg fun h => by have := hback (by omega); omega]
    have howner := timeOwner_accepted hv hsrc hset hd hc
    rw [if_neg (by omega)] at howner
    obtain ⟨hexec, hanswered⟩ := exec_taking_answered htaking (hhandled howner) fun q => State.stepClock_link q v d p s
    have hsources := State.stepClock_sources v d p s
    have htime : (s.stepClock v d p).time = s.time.stepTo v := (congrArg Sources.time hsources :)
    have hresult : (s.stepClock v d p).clockResult (some d) = .clock v .set (some d) := by
      rw [State.clockResult, htime]
      rfl
    rw [hresult] at hexec hanswered
    obtain ⟨hdue, hlines, hpassed, hholds, hcues, hevaluated, hdisplayable⟩ :=
      State.stepClock_elapsed hk.2.1 v d p p ((Telegram.time v).tel seq) (.accept (.clock v .set (some d)))
    have htold {q : PortId} (hq : q = .planning ∨ q = .signalling) := State.stepClock_told hq v d p s
    obtain ⟨hboard, hrecords⟩ := State.stepClock_steady v d p s
    have hshift : (if s.stepRolls d then (1440 : Int) else 0) = if 0 < d ∧ 86400 ≤ s.elapsed + d then 1440 else 0 := by
      refine if_congr ?_ rfl rfl
      rw [State.stepRolls, Bool.and_eq_true, decide_eq_true_eq, decide_eq_true_eq]
    rw [hshift] at hpassed hholds hcues hevaluated
    refine ⟨_, hexec, hanswered, htime, hdue, hlines nofun rfl, fun shift hs => ?_, hdisplayable, fun q hq => ?_,
      (congrArg Sources.store hsources :), (congrArg Sources.sense hsources :), (congrArg Sources.inForce hsources :), hboard, hrecords⟩
    · rw [hs]
      exact ⟨hpassed, hevaluated, hholds, hcues⟩
    · rw [State.answerTel_port]
      split
      next h =>
        rw [h] at hq
        exact htold hq
      · exact htold hq

end Sys2Proof.Machine
end

section
/-! PROOF. The minute advance (R47, R56, R167). -/
namespace Sys2Proof.Machine

open Sys2Proof

variable {s t u v w b : State} {p : PortId} {rolls : Bool}

/-! ## The second that enters a new minute -/

theorem State.judgeLimits_unmoved (h : s.time.limitsMoved = []) : s.judgeLimits = s := by
  have hport (q : PortId) : s.judgePort q = s := by
    unfold State.judgePort
    rw [if_neg (by simp [h])]
  unfold State.judgeLimits
  rw [if_neg (by simp [h])]
  simp only [hport]

theorem TimeBase.count_advance (limit : Nat) (x : TimeBase) :
    (x.count limit).advance.clock = x.advance.clock ∧ (x.count limit).advance.state = x.state ∧
      (x.count limit).entersMinute = x.entersMinute := by
  have hclock : (x.count limit).advance.clock = x.advance.clock := by
    unfold TimeBase.advance
    simp only [apply_ite TimeBase.clock]
    rfl
  have hstate : (x.count limit).advance.state = x.state := by
    unfold TimeBase.advance
    simp only [apply_ite TimeBase.state, ite_self]
    rfl
  refine ⟨hclock, hstate, ?_⟩
  unfold TimeBase.entersMinute
  rw [hclock]
  rfl

/-- The state once a second has been counted and the clock has moved (R47). -/
def State.ticked (s : State) : State := { s.countSecond with time := s.countSecond.time.advance }

theorem Cue.tick_shifted (c : Cue) : c.ShiftedTo 0 c.tick ∧ c.tick.attempts = c.attempts ∧ c.tick.isTaken = c.isTaken := by
  unfold Cue.tick
  split
  next x hx => exact ⟨⟨rfl, rfl, rfl, (sub_zero _).symm, by simp [hx], by simp [hx]⟩, rfl, by simp [Cue.isTaken, hx]⟩
  · exact ⟨⟨rfl, rfl, rfl, (sub_zero _).symm, Iff.rfl, Iff.rfl⟩, rfl, rfl⟩

theorem Filter.tick_eq (g : Filter) : g.tick = { g with age := if g.dp = none then g.age else min 901 (g.age + 1) } := by
  unfold Filter.tick
  cases h : g.dp with
  | none =>
    rw [Option.isSome_none, if_neg nofun, if_pos rfl, ← h]
  | some m =>
    rw [Option.isSome_some, if_pos rfl, if_neg nofun]

theorem State.ticked_ticked (s : State) :
    s.Ticked s.ticked (fun g => { g with age := if g.dp = none then g.age else min 901 (g.age + 1) }) Cue.tick where
  entries := by
    refine List.map_congr_left fun e _ => ?_
    rw [Filter.tick_eq]
  tracker := rfl
  cues := rfl
  last := rfl
  inForce := rfl
  moved c := (Cue.tick_shifted c).1
  marks c := (Cue.tick_shifted c).2

theorem State.second_minute (hmoved : s.time.limitsMoved = []) (henters : s.time.entersMinute = true) :
    s.second = s.ticked.minuteAdvanced.settle s := by
  have hcount : s.countSecond.time.entersMinute = true := (TimeBase.count_advance ..).2.2.trans henters
  unfold State.second
  rw [State.judgeLimits_unmoved hmoved]
  exact if_pos hcount

theorem State.minuteAdvanced_eq (u : State) :
    u.minuteAdvanced = ((u.rolledBack (decide (u.elapsed = 0))).surveyed (decide (u.elapsed = 0))).tested true := by
  rw [← State.announceTime_eq]
  unfold State.minuteAdvanced
  by_cases h : u.elapsed = 0 <;> simp [h]

/-- Settles O37, by the owners' actions at a minute advance. -/
theorem minuteAdvanceBringsEverythingUpToDate : Obligations.MinuteAdvanceBringsEverythingUpToDate := by
  intro s hp
  refine ⟨fun henters => ⟨?_, fun hk hmoved => ?_⟩, fun hnot => ?_⟩
  · exact congrArg s.answer (if_pos henters)
  · have hexec : exec .minuteAdvance s = .next s.second := by
      rw [← State.answer_powered hp]
      exact congrArg s.answer (if_pos henters)
    have hform : s.second = ((((s.ticked.rolledBack (decide (s.ticked.elapsed = 0))).surveyed
        (decide (s.ticked.elapsed = 0))).tested true).settle s) := by
      rw [State.second_minute hmoved henters, State.minuteAdvanced_eq]
    have hsources : s.second.sources = s.ticked.minuteAdvanced.sources := by
      rw [State.second_minute hmoved henters, State.settle_sources]
    rw [State.minuteAdvanced_sources] at hsources
    have htime : s.second.time = s.ticked.time := (congrArg Sources.time hsources :)
    have hin : s.second.inForce = s.inForce := (congrArg Sources.inForce hsources :)
    obtain ⟨hdue, hlines, hpassed, hholds, hcues, hevaluated, hdisplayable⟩ := State.elapsed_of (t := s.second) s.ticked_ticked hk.2.1
      (by rw [hform]; exact State.settle_tails ..) (by rw [hform, State.settle_sources])
    have helapsed : s.second.elapsed = s.ticked.elapsed := by rw [State.elapsed, htime, hin, State.elapsed]; rfl
    have hunset : s.ticked.time.state ≠ .unset := by
      have hstate : s.ticked.time.state = s.time.state := (TimeBase.count_advance ..).2.1
      rw [hstate]
      have h := (Bool.and_eq_true _ _ ▸ henters :).1
      exact of_decide_eq_true h
    have hshift : (if decide (s.ticked.elapsed = 0) = true then (1440 : Int) else 0) = if s.second.elapsed = 0 then 1440 else 0 := by
      rw [helapsed]
      exact if_congr decide_eq_true_iff rfl rfl
    rw [hshift] at hpassed hholds hcues hevaluated
    refine ⟨_, hexec, hdue, hlines hunset rfl, fun shift hs => ?_, hdisplayable, fun q => ?_, (congrArg Sources.store hsources :),
      (congrArg Sources.sense hsources :), hin, ?_⟩
    · rw [hs]
      exact ⟨hpassed, hholds, hcues, hevaluated⟩
    · rw [State.second_minute hmoved henters, State.settle_link, State.minuteAdvanced_link]
      cases q <;> rfl
    · rw [State.second_minute hmoved henters, State.settle_records, (State.minuteAdvanced_steady _).records]
      rfl
  · rw [← State.answer_self s]
    exact congrArg s.answer (if_neg (by simp [hnot]))

end Sys2Proof.Machine
end

section
/-! PROOF. The running second refuted (R33, R47): the entries do not always stand as if the silence had expired first.
Where the cue list breaks R83, a TAKEN cue having the number of a WAITING one, the cue that the settling of an expiry
lets a run call for displaces both, and the entry that the TAKEN one named leaves the table. -/
namespace Sys2Proof.Machine

open Sys2Proof

/-! ## The state -/

/-- An entry with no delay, reason or prediction. -/
def plainEntry (run : Nat) (sched : Int) (state : EntryState) (stateTime : Option Int) (openRec : Option Nat) : Entry :=
  { run := run, headcode := none, destination := [0x59], calls := [], sched := sched, planned := some 2, assigned := none
    opDelay := none, filter := Filter.empty, dd := 0, exp := sched, state := state, stateTime := stateTime, reason := none
    rev := 0, announced := none, lastDelay := 0, openRec := openRec }

/-- A cue without zones. -/
def plainCue (number run : Nat) (kind : CueKind) (state : CueState) : Cue :=
  { number := number, kind := kind, run := run, zones := [], due := 0, state := state, attempts := 0, pendRev := false
    pendDrop := false }

/-- What the TAKEN cue speaks. -/
def plainTaken : Taken :=
  { content :=
      { kind := .final, number := 5, run := 2, zones := [], destination := [], headcode := none, sched := (0, 0)
        expected := none, platform := none, src := none, dst := none, delay := none, reason := none, calls := [] }
    timer := 0, limit := 60 }

/-- An OPEN record of run 1 that is displayed and announced. -/
def ripeRecord : ChangeRec :=
  { no := 0, run := 1, src := 1, dst := 2, openedMinute := 0, openedSecond := 0, r := 0, state := .opened, announced := true
    displayed := true, degraded := false, rowPart := .met, gatePart := .met, gateReq := none, cue := none, inSpeech := false
    diverted := [] }

/-- A full list in which the number 5 stands twice. -/
def doubledCues : List Cue :=
  [plainCue 5 2 .final (.taken plainTaken), plainCue 5 3 .delay .waiting, plainCue 6 1 .final .due] ++
    (List.range 29).map fun i => plainCue (10 + i) (10 + i) .change .due

/-- A second before a minute: run 1 is about to be BOARDING, run 2 to leave, and a CONF has moved the limit at which the
silence timer of the signalling port stands. -/
def doubled : State :=
  let s := State.reset
  { s with
    time := { s.time with clock := 43259, state := .set, limitsMoved := [silenceParam .signalling] }
    table := { entries := [plainEntry 1 482 .listed none (some 0), plainEntry 2 500 .departed (some 0) none], displayable := [] }
    tracker := { records := [ripeRecord], closed := [] }
    cues := { s.cues with list := doubledCues }
    ports := { s.ports with signalling := { s.ports.signalling with live := true, silence := 1000 } } }

/-! ## Its two futures -/

/-- How many entries the state of an outcome holds. -/
def entryCount : Host.Outcome State Fault Refusal → Option Nat
  | .next t => some t.facts.length
  | _ => none

/-- The same one second after an outcome. -/
def entryCountAfter : Host.Outcome State Fault Refusal → Option Nat
  | .next u => entryCount (exec .runningSecond u)
  | _ => none

/-- The second leaves run 2 RETIRING, its cue being TAKEN. -/
theorem doubled_second : entryCount (exec .runningSecond doubled) = some 2 := by decide +kernel

/-- Where the silence has expired first, the record is INFORMED, and the PLATFORM cue that run 1 then calls for takes both
cues of number 5 off the list: run 2 leaves the table. -/
theorem doubled_silence_second :
    entryCountAfter (exec (.silenceExpiry .signalling) { doubled with time := { doubled.time with limitsMoved := [] } }) = some 1 := by
  decide +kernel

theorem doubled_judged : doubled.SilenceJudged .signalling := by decide +kernel

theorem doubled_tableOk : doubled.TableOk := by decide +kernel

/-- Refutes O36: in `doubled` the second leaves two entries, and the silence and then the second leave one. -/
theorem not_runningSecondMovesTheClock : ¬ Obligations.RunningSecondMovesTheClock := by
  intro h
  obtain ⟨t, hexec, -, -, -, -, -, -, -, -, -, -, -, -, -, -, hsilent, -⟩ := h doubled (by decide +kernel)
  obtain ⟨-, u, v, hu, hv, hfacts, -⟩ := hsilent doubled_judged doubled_tableOk
  have htwo : some t.facts.length = some 2 := (congrArg entryCount hexec).symm.trans doubled_second
  have hone : some v.facts.length = some 1 := by
    refine (congrArg entryCount hv).symm.trans ?_
    exact (congrArg entryCountAfter hu).symm.trans doubled_silence_second
  rw [hfacts, hone] at htwo
  exact absurd htwo (by decide)

end Sys2Proof.Machine
end

section
/-! PROOF. CONF: one parameter brought into its range, and what its value calls for (R189, log entry 25). -/
namespace Sys2Proof.Machine

open Sys2Proof

variable {s t u : State} {n v a : Nat} {row : ParamRow} {e : Entry} {q : Panel}

/-! ## The parameters that act within the CONF -/

/-- The numbers at whose CONF something is carried out (log entry 25). -/
def actingNumbers : List Nat := [301, 303, 304, 321, 332, 341, 342, 343, 361, 391, 392, 393]

theorem timing_of_acting (hn : n ∈ actingNumbers) (h : paramRow n = some row) : row.structural = false := by
  have hall : ∀ m ∈ actingNumbers, ∀ r ∈ paramRow m, r.structural = false := by decide
  exact hall n hn row h

theorem State.afterConf_idle (h : n ∉ actingNumbers) (s old : State) : s.afterConf n old = s := by
  simp only [actingNumbers, List.mem_cons, List.not_mem_nil, or_false, not_or] at h
  simp only [State.afterConf, h, if_false, or_self]

/-- Log entry 8: a limit set waits for the next running second; no other number moves the time. -/
theorem State.afterConf_time (n : Nat) (s old : State) :
    (s.afterConf n old).time =
      if n ∈ [304, 321, 391, 392, 393] then { s.time with limitsMoved := n :: s.time.limitsMoved } else s.time := by
  by_cases h : n ∈ [304, 321, 391, 392, 393]
  · rw [if_pos h]
    fin_cases h <;> rfl
  · rw [if_neg h]
    refine State.time_of_sources ?_
    simp only [List.mem_cons, List.not_mem_nil, or_false] at h
    unfold State.afterConf
    rw [if_neg (c := n = 304 ∨ n = 321 ∨ n = 391 ∨ n = 392 ∨ n = 393) h]
    repeat' split
    all_goals simp

theorem State.reclass_undisturbed (before : Nat) (s : State) : s.Undisturbed (s.reclass before) := by
  refine ⟨(List.map_map ..).trans (List.map_congr_left fun e _ => ?_), rfl, rfl⟩
  rw [Function.comp_apply]
  split <;> rfl

theorem State.failPanels_undisturbed (l : List Nat) (s : State) : s.Undisturbed (l.foldl (fun t a => t.failPanel a) s) := by
  induction l generalizing s with
  | nil => exact .of_blocks rfl rfl rfl
  | cons a l ih => exact (State.failPanel_undisturbed a s).trans (ih _)

theorem State.settle_undisturbed (s old : State) : s.Undisturbed (s.settle old) :=
  (State.recompose_undisturbed s).trans (State.finish_undisturbed ..)

theorem State.afterConf_undisturbed (h301 : n ≠ 301) (h341 : n ≠ 341) (h342 : n ≠ 342) (s old : State) :
    s.Undisturbed (s.afterConf n old) := by
  unfold State.afterConf
  rw [if_neg h301, if_neg h341, if_neg h342]
  split
  · exact (State.reclass_undisturbed ..).trans (State.settle_undisturbed ..)
  split
  · exact .of_blocks rfl rfl rfl
  split
  · exact (State.Undisturbed.of_blocks rfl rfl rfl : s.Undisturbed s.testHolds).trans (State.settle_undisturbed ..)
  split
  · exact State.settle_undisturbed ..
  split
  · rw [State.failAbove_eq]
    exact (State.failPanels_undisturbed _ s).trans (State.finish_undisturbed ..)
  · exact .of_blocks rfl rfl rfl

theorem State.afterConf_board (n : Nat) (s old : State) : (s.afterConf n old).wall.board = s.wall.board := by
  by_cases h301 : n = 301
  · subst h301; rfl
  by_cases h341 : n = 341
  · subst h341; rfl
  by_cases h342 : n = 342
  · subst h342; rfl
  · exact (State.afterConf_undisturbed h301 h341 h342 s old).board

theorem State.afterConf_facts (h301 : n ≠ 301) (s old : State) : (s.afterConf n old).facts = s.facts := by
  by_cases h341 : n = 341
  · subst h341; rfl
  by_cases h342 : n = 342
  · subst h342; rfl
  · exact (State.afterConf_undisturbed h301 h341 h342 s old).facts

theorem State.afterConf_cues (h341 : n ≠ 341) (h342 : n ≠ 342) (s old : State) : (s.afterConf n old).cues = s.cues := by
  by_cases h301 : n = 301
  · subst h301; rfl
  · exact (State.afterConf_undisturbed h301 h341 h342 s old).cues

theorem State.afterConf_records (h361 : n ≠ 361) (s old : State) : (s.afterConf n old).records = s.records := by
  unfold State.afterConf
  rw [if_neg h361]
  split
  · rfl
  split
  · exact State.settle_records ..
  split
  · rfl
  split
  · exact State.settle_records ..
  split
  · rfl
  split
  · rfl
  split
  · exact State.settle_records ..
  · rfl

/-! ## A threshold that panels have reached -/

/-- A panel as its failure leaves it (R146). -/
def Panel.down (q : Panel) : Panel := { q with state := .failed, ec := 0, goodRun := 0 }

/-- The panels of a list failed one after another, each of them once or more, and no other (R147). -/
theorem State.failPanels_panel (l : List Nat) (b : Nat) (s : State) :
    ((l.foldl (fun t a => t.failPanel a) s).panel? b).map Panel.record =
      (s.panel? b).map fun q => (if b ∈ l then q.down else q).record := by
  induction l generalizing s with
  | nil => rfl
  | cons a l ih =>
    have hone : ((s.failPanel a).panel? b).map Panel.record =
        (s.panel? b).map fun q => (if b = a then q.down else q).record := by
      rw [State.panel?_of_records (State.failPanel_records ..)]
      show ((s.updPanel a Panel.down).panel? b).map Panel.record = _
      rw [State.panel?_updPanel (f := Panel.down) (fun _ => rfl)]
      split
      · next h => rw [h, Option.map_map]; rfl
      · rfl
    have hdown (o : Option Panel) : (o.map fun q => (if b ∈ l then q.down else q).record) =
        (o.map Panel.record).map fun q => if b ∈ l then q.down else q := by
      rw [Option.map_map]
      refine congrArg (o.map ·) (funext fun q => ?_)
      rw [Function.comp_apply]
      split <;> rfl
    rw [List.foldl_cons, ih, hdown, hone, Option.map_map]
    refine congrArg ((s.panel? b).map ·) (funext fun q => ?_)
    rw [Function.comp_apply]
    by_cases hl : b ∈ l
    · rw [if_pos hl, if_pos (List.mem_cons_of_mem a hl)]
      split <;> rfl
    · rw [if_neg hl]
      by_cases ha : b = a
      · rw [if_pos ha, if_pos (ha ▸ List.mem_cons_self)]
      · rw [if_neg ha, if_neg (by simp [ha, hl])]

theorem State.failPanels_calm (l : List Nat) (s : State) : s.Calm (l.foldl (fun t a => t.failPanel a) s) := by
  induction l generalizing s with
  | nil => exact .refl s
  | cons a l ih => exact (State.failPanel_calm a s).trans (ih _)

theorem State.failPanels_waivers (l : List Nat) (s : State) : s.WaiversKept (l.foldl (fun t a => t.failPanel a) s) := by
  induction l generalizing s with
  | nil => exact .of_tracker rfl
  | cons a l ih => exact (State.failPanel_waivers a s).trans (ih _)

theorem State.failPanels_holds {l : List Nat} (h : a ∈ l) (s : State) :
    ((l.foldl (fun t a => t.failPanel a) s).port .planning).Holds ⟨.panelFailed, .panel a, s.time.clock⟩ := by
  obtain ⟨before, after, rfl⟩ := List.append_of_mem h
  have htime : (before.foldl (fun t a => t.failPanel a) s).time = s.time :=
    State.foldl_keeps (fun t a => State.failPanel_clock a t) before s
  rw [List.foldl_append, List.foldl_cons, ← htime]
  exact ((State.failPanels_calm after _).heard .planning).holds (State.failPanel_holds ..)

theorem State.failPanels_tracker (l : List Nat) (h : s.wall.mode ≠ .normal) :
    (l.foldl (fun t a => t.failPanel a) s).tracker = s.tracker := by
  induction l generalizing s with
  | nil => rfl
  | cons a l ih =>
    have hmode : (s.failPanel a).wall.mode = s.wall.mode := (congrArg (·.2.1) (State.failPanel_undisturbed a s).board :)
    rw [List.foldl_cons, ih (by rw [hmode]; exact h), State.failPanel_tracker a h]

/-- The addresses of the ACTIVE panels at or above the threshold (R147). -/
def State.overThreshold (s : State) : List Nat :=
  (s.bus.panels.filter fun p => p.state = .active && s.inForce.failThreshold ≤ p.ec).map (·.addr)

theorem State.mem_overThreshold (h : (s.bus.panels.map (·.addr)).Nodup) (hq : s.panel? a = some q) :
    a ∈ s.overThreshold ↔ q.state = .active ∧ s.inForce.failThreshold ≤ q.ec := by
  obtain ⟨hmem, rfl⟩ := State.panel?_some hq
  simp only [State.overThreshold, List.mem_map, List.mem_filter, Bool.and_eq_true, decide_eq_true_eq]
  constructor
  · rintro ⟨p, ⟨hp, hover⟩, haddr⟩
    rwa [List.inj_on_of_nodup_map h hp hmem haddr] at hover
  · exact fun hover => ⟨q, ⟨hmem, hover⟩, rfl⟩

/-- The panel of lowest address that fails makes its waivers against the picture as it stood (R73, log entry 37). -/
theorem State.failAbove_waives (h : s.bus.panels.Pairwise fun p q => p.addr < q.addr) (hq : s.panel? a = some q) (ha : a ∈ s.overThreshold)
    (hfirst : ∀ b ∈ s.bus.panels, b.addr < a → b.state = .active → b.ec < s.inForce.failThreshold) :
    s.WaivedBy s.failAbove a := by
  intro hmode _ r hr hopen hdisplayed
  have hsorted : s.overThreshold.Pairwise (· < ·) :=
    List.pairwise_map.2 (h.filter fun p => p.state = .active && s.inForce.failThreshold ≤ p.ec)
  obtain ⟨after, hhead⟩ : ∃ after, s.overThreshold = a :: after := by
    obtain ⟨before, after, hsplit⟩ := List.append_of_mem ha
    cases before with
    | nil => exact ⟨after, hsplit⟩
    | cons b before =>
      rw [hsplit] at hsorted
      obtain ⟨-, -, hcross⟩ := List.pairwise_append.1 hsorted
      have hlt : b < a := hcross b List.mem_cons_self a List.mem_cons_self
      obtain ⟨p, hp, rfl⟩ := List.mem_map.1 (hsplit ▸ List.mem_cons_self : b ∈ s.overThreshold)
      obtain ⟨hmem, hover⟩ := List.mem_filter.1 hp
      simp only [Bool.and_eq_true, decide_eq_true_eq] at hover
      exact absurd hover.2 (Nat.not_le.2 (hfirst p hmem hlt hover.1))
  obtain ⟨hrow, hgate⟩ := State.failPanel_waives hq hmode hr hopen hdisplayed
  have hkept := State.failPanels_waivers after (s.failPanel a)
  rw [State.failAbove_eq, ← State.overThreshold, hhead, List.foldl_cons]
  refine ⟨fun h1 h2 => ?_, fun h1 h2 => ?_⟩
  · obtain ⟨x, hx, hno, hw, hd⟩ := hrow h1 h2
    obtain ⟨y, hy, kno, kw, -, kd⟩ := hkept x hx
    exact ⟨y, hy, kno.trans hno, kw hw, kd hd⟩
  · obtain ⟨x, hx, hno, hw, hd⟩ := hgate h1 h2
    obtain ⟨y, hy, kno, -, kw, kd⟩ := hkept x hx
    exact ⟨y, hy, kno.trans hno, kw hw, kd hd⟩

end Sys2Proof.Machine
end

section
/-! PROOF. What a CONF leaves, number by number (R41, R43, R73, R78, R95, R121, R147). -/
namespace Sys2Proof.Machine

open Sys2Proof

variable {s t u : State} {n v a run : Nat} {row : ParamRow} {e : Entry} {q : Panel}

/-! ## The numbers that call for something -/

/-- Nt (R41). -/
theorem State.lateness_rev (hk : s.TableOk) (he : e ∈ s.table.entries) (hnone : s.openRecord? e.run = none) :
    (((s.setParameter 303 v false).afterConf 303 s).entry? e.run).map (·.rev) =
      some (if e.state ≠ .retiring ∧ ¬(s.inForce.lateness ≤ e.dd ↔ v ≤ e.dd) then e.rev + 1 else e.rev) := by
  have hentry : entryIn e.run s.table.entries = some e := entryIn_of_mem hk.2.1 he
  have hrev := (State.settle_calm ((s.setParameter 303 v false).reclass s.inForce.lateness) s).rev e.run
    ((State.unspoken_of_none hnone).of_tracker rfl)
  refine hrev.trans ?_
  rw [State.revOf, State.entry?_eq]
  show (entryIn e.run (s.table.entries.map fun e =>
    if e.state ≠ .retiring ∧ e.late s.inForce.lateness ≠ e.late v then { e with rev := e.rev + 1 } else e)).map _ = _
  rw [entryIn_map (fun e => by split <;> rfl), hentry, Option.map_some, Option.map_some, apply_ite Entry.rev]
  refine congrArg some (if_congr (and_congr Iff.rfl ?_) rfl rfl)
  simp [Entry.late]

/-- H (R78). -/
theorem State.diversionHold_records :
    (((s.setParameter 332 v false).afterConf 332 s).tracker.records.map fun r => (r.no, r.diverted)) =
      s.tracker.records.map fun r =>
        (r.no, r.diverted.map fun d => { d with ended := d.ended || decide (d.minute + v ≤ s.now) }) := by
  have hmarks : ((s.setParameter 332 v false).afterConf 332 s).marks = (s.setParameter 332 v false).testHolds.marks :=
    (State.settle_tails (s.setParameter 332 v false).testHolds s).marks
  have hread (w : State) : (w.tracker.records.map fun r => (r.no, r.diverted)) = w.marks.map fun m => (m.1, m.2.2.2) := by
    rw [State.marks, List.map_map]
    rfl
  rw [hread, hmarks, ← hread]
  exact List.map_map ..

theorem Cue.test_waiting {c : Cue} (h : c.state = .waiting) (now due : Int) :
    Cue.test now { c with due := due } = { c with due := due, state := if due ≤ now then .due else .waiting } := by
  simp only [Cue.test, h]
  split
  · rfl
  · rw [← h]

/-- A WAITING cue of a kind that has a lead takes its due from the expected minute; any other stays (R95). -/
theorem Cue.follow_of_lead {p : Params} {kind : CueKind} {lead : Nat} (c : Cue)
    (hlead : (kind = .platform ∧ p.platformLead = lead) ∨ (kind = .final ∧ p.finalLead = lead)) (now exp : Int) :
    (if c.kind = kind then Cue.follow p now exp c else c) =
      if c.kind = kind ∧ c.state = .waiting then
        { c with due := exp - lead, state := if exp - lead ≤ now then .due else .waiting }
      else c := by
  by_cases hk : c.kind = kind
  · by_cases hw : c.state = .waiting
    · have hfollow : Cue.follow p now exp c = Cue.test now { c with due := exp - lead } := by
        obtain ⟨rfl, rfl⟩ | ⟨rfl, rfl⟩ := hlead <;> simp only [Cue.follow, hw, hk]
      rw [if_pos hk, if_pos ⟨hk, hw⟩, hfollow, Cue.test_waiting hw]
    · rw [if_pos hk, if_neg fun h => hw h.2]
      unfold Cue.follow
      cases hs : c.state with
      | waiting => exact absurd hs hw
      | due => rfl
      | taken k => rfl
  · rw [if_neg hk, if_neg fun h => hk h.1]

/-- The leads (R95). -/
theorem State.refollow_list {kind : CueKind} {lead : Nat}
    (hlead : (kind = .platform ∧ s.inForce.platformLead = lead) ∨ (kind = .final ∧ s.inForce.finalLead = lead)) :
    (s.refollow kind).cues.list =
      s.cues.list.map fun c =>
        match s.entry? c.run with
        | some e =>
          if c.kind = kind ∧ c.state = .waiting then
            { c with due := e.exp - lead, state := if e.exp - lead ≤ s.now then .due else .waiting }
          else c
        | none => c := by
  refine List.map_congr_left fun c _ => ?_
  cases s.entry? c.run with
  | none => rfl
  | some e => exact Cue.follow_of_lead c hlead ..

/-- D (R121). -/
theorem State.delay_items (run : Nat) :
    Item.delay run ∈ ((s.setParameter 343 v false).afterConf 343 s).wall.items ↔
      ∃ e ∈ s.displayed, e.run = run ∧ e.awaiting = true ∧ v ≤ e.dd := by
  have hitems : ((s.setParameter 343 v false).afterConf 343 s).wall.items = (s.setParameter 343 v false).freshItems := by
    have hrecompose (w : State) : w.recompose.wall.items = w.freshItems := by
      have hlast : w.recompose.wall.items = w.compose.evaluate.freshItems := by
        rw [State.recompose, State.compose_wall, State.rotate_items]
        rfl
      rw [hlast, State.evaluate_freshItems, State.compose_freshItems]
    show ((s.setParameter 343 v false).settle s).wall.items = _
    rw [State.settle, State.finish_wall, hrecompose]
  have hdisplayed : (s.setParameter 343 v false).displayed = s.displayed := rfl
  have hthreshold : (s.setParameter 343 v false).inForce.delayThreshold = v := rfl
  rw [hitems, State.freshItems_shown, hdisplayed, hthreshold]
  simp [Entry.awaiting, and_comm, and_assoc]

/-- T (R146, R147). -/
theorem State.failThreshold_panel (h : s.PanelsOk) (hq : s.panel? a = some q) :
    ((((s.setParameter 361 v false).afterConf 361 s).panel? a).map Panel.record =
      some (if q.state = .active ∧ v ≤ q.ec then { q.record with state := .failed, ec := 0, goodRun := 0 } else q.record)) ∧
    (q.state = .active → v ≤ q.ec →
      (⟨.panelFailed, .panel a, s.time.clock⟩ ∈ (((s.setParameter 361 v false).afterConf 361 s).port .planning).notices ∨
          (((s.setParameter 361 v false).afterConf 361 s).port .planning).overflow = true) ∧
        ((∀ b ∈ s.bus.panels, b.addr < a → b.state = .active → b.ec < v) →
          s.WaivedBy ((s.setParameter 361 v false).afterConf 361 s) a)) := by
  have hover : a ∈ (s.setParameter 361 v false).overThreshold ↔ q.state = .active ∧ v ≤ q.ec :=
    State.mem_overThreshold (s := s.setParameter 361 v false) h.nodup hq
  have hconf : (s.setParameter 361 v false).afterConf 361 s = (s.setParameter 361 v false).failAbove.finish s := rfl
  rw [hconf]
  refine ⟨?_, fun hactive hec => ⟨?_, fun hfirst => ?_⟩⟩
  · rw [State.panel?_of_records (State.finish_records ..), State.failAbove_eq, State.failPanels_panel]
    show (s.panel? a).map _ = _
    rw [hq, Option.map_some, apply_ite Panel.record]
    exact congrArg some (if_congr hover rfl rfl)
  · rw [State.finish_port, State.failAbove_eq]
    exact State.failPanels_holds (hover.2 ⟨hactive, hec⟩) (s.setParameter 361 v false)
  · have hwaived := State.failAbove_waives (s := s.setParameter 361 v false) h.sorted hq (hover.2 ⟨hactive, hec⟩) hfirst
    rw [State.WaivedBy, State.finish_tracker]
    exact hwaived

theorem State.failThreshold_tracker (h : s.wall.mode ≠ .normal) :
    ((s.setParameter 361 v false).afterConf 361 s).tracker = s.tracker := by
  have hconf : (s.setParameter 361 v false).afterConf 361 s = (s.setParameter 361 v false).failAbove.finish s := rfl
  rw [hconf, State.finish_tracker, State.failAbove_eq]
  exact State.failPanels_tracker _ (s := s.setParameter 361 v false) h

end Sys2Proof.Machine
end

section
/-! PROOF. CONF answered (R189). -/
namespace Sys2Proof.Machine

open Sys2Proof

variable {s : State} {n v : Nat} {row : ParamRow}

theorem State.setParameter_eq (n v : Nat) (structural : Bool) (s : State) :
    s.setParameter n v structural =
      { s with
        pendingCfg := s.pendingCfg.setNumber n v
        inForce := if structural then s.inForce else s.inForce.setNumber n v } := by
  cases structural <;> rfl

/-- The state in which the owners of a CONF leave the block: the parameter set, and what its value calls for. -/
theorem confOwner_eq {f : ConfFields} (hrow : paramRow f.number = some row) (s : State) :
    confOwner f s =
      ((s.setParameter f.number (row.range.nearest f.value) row.structural).afterConf f.number s,
        .accept (.parameter f.number row.structural (row.range.nearest f.value))
          (clamped := row.range.nearest f.value ≠ f.value)) := by
  unfold confOwner
  rw [hrow]
  refine congrArg (·, _) ?_
  split
  · next hs =>
    refine (State.afterConf_idle (fun hacting => ?_) _ s).symm
    exact absurd ((timing_of_acting hacting hrow).symm.trans hs) nofun
  · rfl

/-- Settles O14, by what each parameter calls for within its CONF. -/
theorem confSetsOneParameter : Obligations.ConfSetsOneParameter := by
  refine ⟨fun n row v hrow => nearest_of_paramRow hrow v, fun s p seq f htake => ⟨fun row hrow hok => ?_, fun hnone => ?_⟩⟩
  · obtain ⟨n, value⟩ := f
    dsimp only at hrow ⊢
    obtain ⟨hv, -⟩ := nearest_of_paramRow hrow value
    have howner := confOwner_eq (f := ⟨n, value⟩) hrow s
    have hsense := confOwner_sense ⟨n, value⟩ s
    obtain ⟨hlines, hstore⟩ := confOwner_lines ⟨n, value⟩ s
    rw [howner] at hsense hlines hstore
    dsimp only at howner hsense hlines hstore
    generalize row.range.nearest value = v at *
    have hset := State.setParameter_eq n v row.structural s
    have htiming (hn : n ∈ actingNumbers) : s.setParameter n v row.structural = s.setParameter n v false := by
      rw [timing_of_acting hn hrow]
    obtain ⟨hexec, hanswered⟩ := exec_taking_answered (p := p) htake howner fun q => by
      rw [State.afterConf_link, hset]
      rfl
    obtain ⟨hin, hpend, -⟩ := Configuration.mk.inj
      (State.afterConf_configuration n (s.setParameter n v row.structural) s)
    have hpending : ((s.setParameter n v row.structural).afterConf n s).pendingCfg = s.pendingCfg.setNumber n v :=
      hpend.trans (by rw [hset])
    have hinForce : ((s.setParameter n v row.structural).afterConf n s).inForce =
        if row.structural then s.inForce else s.inForce.setNumber n v := hin.trans (by rw [hset])
    obtain ⟨hforce, hpend, -⟩ := hok
    obtain ⟨hpl, hpr, hpz, -⟩ := hpend
    obtain ⟨hfl, hfr, hfz, -⟩ := hforce
    refine ⟨_, hexec, hanswered, ?_, fun hs => ?_, fun hs => ?_, fun m row' hm hrow' => ⟨?_, ?_⟩, ?_, hlines, hsense, hstore, ?_,
      ?_, ?_, ?_, ?_, ?_, ?_, ?_, ?_, ?_, ?_⟩
    · exact (congrArg (Params.value · n) hpending).trans (Params.value_setNumber_same hrow ⟨hpl, hpr, hpz⟩ hv)
    · rw [if_neg (by rw [hs]; nofun)] at hinForce
      exact (congrArg (Params.value · n) hinForce).trans (Params.value_setNumber_same hrow ⟨hfl, hfr, hfz⟩ hv)
    · have hidle : n ∉ actingNumbers := fun hn => absurd ((timing_of_acting hn hrow).symm.trans hs) nofun
      rw [State.afterConf_idle hidle, hset, if_pos hs]
      rfl
    · exact (congrArg (Params.value · m) hpending).trans (Params.value_setNumber_other hrow hrow' hm _ v)
    · refine (congrArg (Params.value · m) hinForce).trans ?_
      split
      · rfl
      · exact Params.value_setNumber_other hrow hrow' hm _ v
    · exact (State.afterConf_time ..).trans (by rw [hset])
    · exact (State.afterConf_board ..).trans (by rw [hset])
    · rintro rfl
      rw [htiming (by decide)]
      rfl
    · rintro rfl hk e he hnone
      rw [htiming (by decide)]
      exact State.lateness_rev hk he hnone
    · rintro rfl hpanels a q hq
      rw [htiming (by decide)]
      obtain ⟨hrecord, hfails⟩ := State.failThreshold_panel (v := v) hpanels hq
      refine ⟨hrecord, fun hactive hec => ?_⟩
      obtain ⟨hnotice, hwaived⟩ := hfails hactive hec
      exact ⟨(State.answerTel_heard p _ _ _ .planning).holds hnotice, hwaived⟩
    · rintro rfl hmode
      rw [htiming (by decide)]
      exact State.failThreshold_tracker hmode
    · rintro rfl
      rw [htiming (by decide)]
      exact State.diversionHold_records
    · rintro kind (⟨rfl, rfl⟩ | ⟨rfl, rfl⟩)
      · rw [htiming (by decide)]
        exact State.refollow_list (s := s.setParameter 341 v false) (.inl ⟨rfl, rfl⟩)
      · rw [htiming (by decide)]
        exact State.refollow_list (s := s.setParameter 342 v false) (.inr ⟨rfl, rfl⟩)
    · exact fun h341 h342 => (State.afterConf_cues h341 h342 _ s).trans (by rw [hset])
    · rintro rfl
      rw [htiming (by decide)]
      exact State.delay_items
    · exact fun h301 => (State.afterConf_facts h301 _ s).trans (by rw [hset]; rfl)
    · exact fun h361 => (State.afterConf_records h361 _ s).trans (by rw [hset]; rfl)
  · refine exec_taking_refused htake ?_
    show confOwner f s = _
    unfold confOwner
    rw [hnone]

end Sys2Proof.Machine
end

section
/-! PROOF. The slot of a new change record, and the records that an opened one leaves (R64 to R69). -/
namespace Sys2Proof.Machine

open Sys2Proof

variable {s t u v w : State} {k : Tracker} {run src dst n : Nat} {r : Count16} {q : ChangeRec}

/-! ## The free slots -/

theorem Tracker.freeSlot_some (h : k.freeSlot = some n) :
    1 ≤ n ∧ n ≤ 16 ∧ (∀ r ∈ k.records, r.no ≠ n) ∧ ∀ m, 1 ≤ m → m < n → ∃ r ∈ k.records, r.no = m := by
  obtain ⟨hfree, before, after, hsplit, hbefore⟩ := List.find?_eq_some_iff_append.1 h
  have hall : (List.range 16).map (· + 1) = before ++ n :: after := hsplit
  have hsorted : (before ++ n :: after).Pairwise (· < ·) := hall ▸ (by decide)
  have hmem : n ∈ (List.range 16).map (· + 1) := hall ▸ List.mem_append_right _ List.mem_cons_self
  simp only [List.mem_map, List.mem_range] at hmem
  obtain ⟨a, ha, rfl⟩ := hmem
  refine ⟨by omega, by omega, fun r hr hno => ?_, fun m hm hlt => ?_⟩
  · have hany : k.records.any (fun x => x.no = a + 1) = true := List.any_eq_true.2 ⟨r, hr, decide_eq_true hno⟩
    simp [hany] at hfree
  · have hin : m ∈ before ++ (a + 1) :: after := by
      rw [← hall]
      exact List.mem_map.2 ⟨m - 1, List.mem_range.2 (by omega), by omega⟩
    obtain hin | hin := List.mem_append.1 hin
    · have hused := hbefore m hin
      simpa using hused
    · obtain ⟨-, hafter, -⟩ := List.pairwise_append.1 hsorted
      obtain rfl | hin := List.mem_cons.1 hin
      · omega
      · have := (List.pairwise_cons.1 hafter).1 m hin
        omega

theorem Tracker.Ok.numbers_subset (h : k.Ok) : k.records.map (·.no) ⊆ (List.range 16).map (· + 1) := fun n hn => by
  obtain ⟨-, hrange, -⟩ := h
  obtain ⟨r, hr, rfl⟩ := List.mem_map.1 hn
  have := hrange r hr
  exact List.mem_map.2 ⟨r.no - 1, List.mem_range.2 (by omega), by omega⟩

theorem Tracker.Ok.length_le (h : k.Ok) : k.records.length ≤ 16 := by
  simpa using (h.1.subperm h.numbers_subset).length_le

/-- With fewer than sixteen records a slot is free, and with sixteen none (R64, R65). -/
theorem Tracker.Ok.freeSlot_none_iff (h : k.Ok) : k.freeSlot = none ↔ k.records.length = 16 := by
  have hle := h.length_le
  have hnone : k.freeSlot = none ↔ (List.range 16).map (· + 1) ⊆ k.records.map (·.no) := by
    rw [Tracker.freeSlot, List.find?_eq_none]
    simp [List.subset_def]
  rw [hnone]
  constructor
  · intro hall
    have hge := ((by decide : ((List.range 16).map (· + 1)).Nodup).subperm hall).length_le
    simp only [List.length_map, List.length_range] at hge
    omega
  · intro hlen
    exact ((h.1.subperm h.numbers_subset).perm_of_length_le (by simp [hlen])).symm.subset

/-- R65: what a slot is taken from. -/
theorem Tracker.Ok.takeSlot_eq (h : k.Ok) :
    (k.records.length < 16 → ∃ n, k.takeSlot = some (n, k) ∧ (∀ r ∈ k.records, r.no ≠ n) ∧
        ∀ m, 1 ≤ m → m < n → ∃ r ∈ k.records, r.no = m) ∧
      (k.records.length = 16 → (k.closed = [] → k.takeSlot = none) ∧
        ∀ n rest, k.closed = n :: rest →
          k.takeSlot = some (n, { records := k.records.filter (·.no ≠ n), closed := rest })) := by
  refine ⟨fun hroom => ?_, fun hfull => ?_⟩
  · obtain ⟨n, hn⟩ : ∃ n, k.freeSlot = some n :=
      Option.ne_none_iff_exists'.1 fun hnone => by rw [h.freeSlot_none_iff] at hnone; omega
    obtain ⟨-, -, hfree, hlow⟩ := Tracker.freeSlot_some hn
    exact ⟨n, by rw [Tracker.takeSlot, hn], hfree, hlow⟩
  · have hnone := h.freeSlot_none_iff.2 hfull
    refine ⟨fun hc => ?_, fun n rest hc => ?_⟩
    · rw [Tracker.takeSlot, hnone, hc]
    · rw [Tracker.takeSlot, hnone, hc]

end Sys2Proof.Machine
end

section
/-! PROOF. What a change record opened leaves: the records, the CHANGE cue, the urgent list (R66 to R69, R89, R128). -/
namespace Sys2Proof.Machine

open Sys2Proof

variable {s t u v w : State} {k : Tracker} {run src dst n : Nat} {r : Count16} {q c : ChangeRec}

/-- The state in which the CHANGE cue of a change has been called for (R89). -/
def State.changeCalled (run src dst : Nat) (s : State) : State := s.trigger .change run [0, src, dst] s.now

/-- The number of that cue, where it stands in the list. -/
def State.changeCue (run src dst : Nat) (s : State) : Option Nat :=
  ((s.changeCalled run src dst).cue? .change run).map (·.number)

/-- A record with its CHANGE cue (R69). -/
def ChangeRec.withCue (c : Option Nat) (r : ChangeRec) : ChangeRec := { r with cue := c }

theorem State.callChange_blocks (run src dst n : Nat) (s : State) :
    (s.callChange run src dst n).tracker =
        { s.tracker with
          records := s.tracker.records.map fun x => if x.no = n then x.withCue (s.changeCue run src dst) else x } ∧
      (s.callChange run src dst n).cues = ((s.changeCalled run src dst).withdraw .platform run).cues ∧
      (s.callChange run src dst n).ports = (s.changeCalled run src dst).ports ∧
      (s.callChange run src dst n).table = s.table ∧ (s.callChange run src dst n).wall = s.wall ∧
      (s.callChange run src dst n).bus = (s.appendUrgent run (some src)).bus ∧
      (s.callChange run src dst n).sources = s.sources := by
  have hcalled : (s.changeCalled run src dst).tracker = s.tracker := State.trigger_tracker ..
  have hurgent : (s.callChange run src dst n).bus = (s.appendUrgent run (some src)).bus :=
    State.appendUrgent_bus_of (State.trigger_bus ..) (State.trigger_wall ..) run (some src)
  refine ⟨?_, rfl, rfl, State.trigger_table .., State.trigger_wall .., hurgent, State.trigger_sources ..⟩
  rw [← hcalled]
  simp only [State.callChange, State.updRecords, updWhere, decide_eq_true_eq]
  rfl

/-- The records once a change from `src` to `dst` has taken the slot `n` (R65 to R69). -/
theorem State.openRecord_record (hk : s.tracker.Ok) (h : (s.supersede run).tracker.takeSlot = some (n, k)) (src dst : Nat)
    (r : Count16) :
    (s.openRecord run src dst r).1.tracker =
      { k with
        records := k.records ++
          [(s.newRecord run src dst n r).withCue
            ((s.enterRecord (s.newRecord run src dst n r) n k).changeCue run src dst)] } := by
  obtain ⟨-, -, -, hfree, -, -⟩ := (State.supersede_trackerOk hk run).takeSlot h
  obtain ⟨htracker, -⟩ := (s.enterRecord (s.newRecord run src dst n r) n k).callChange_blocks run src dst n
  rw [State.openRecord_tracked h, htracker, State.enterRecord_tracker, List.map_append, List.map_singleton,
    if_pos (show (s.newRecord run src dst n r).no = n from rfl)]
  refine congrArg (fun l => ({ k with records := l ++ _ } : Tracker)) ?_
  exact (List.map_congr_left (g := id) fun x hx => if_neg (hfree x hx)).trans (List.map_id _)

/-- Whatever becomes of the change, an OPEN record of another run stays (R65, R67). -/
theorem State.openRecord_keeps (hk : s.tracker.Ok) (hq : q ∈ s.tracker.records) (hopen : q.isOpen = true) (hrun : q.run ≠ run)
    (src dst : Nat) (r : Count16) : q ∈ (s.openRecord run src dst r).1.tracker.records := by
  have hsuper : q ∈ (s.supersede run).tracker.records := by
    rw [State.supersede_tracker]
    exact List.mem_map.2 ⟨q, hq, if_neg (by simp [hrun])⟩
  cases hslot : (s.supersede run).tracker.takeSlot with
  | none =>
    rw [State.openRecord_untracked hslot, State.post_tracker]
    exact hsuper
  | some slot =>
    obtain ⟨n, k⟩ := slot
    obtain ⟨-, -, -, -, -, hkept⟩ := (State.supersede_trackerOk hk run).takeSlot hslot
    rw [State.openRecord_record hk hslot]
    exact List.mem_append_left _ (hkept q hsuper hopen)

theorem State.openRecord_trackerOk (hk : s.tracker.Ok) (run src dst : Nat) (r : Count16) :
    (s.openRecord run src dst r).1.tracker.Ok := by
  cases hslot : (s.supersede run).tracker.takeSlot with
  | none =>
    rw [State.openRecord_untracked hslot, State.post_tracker]
    exact State.supersede_trackerOk hk run
  | some slot =>
    obtain ⟨n, k⟩ := slot
    have hentered := State.enterRecord_trackerOk (r := s.newRecord run src dst n r) hk rfl rfl hslot
    obtain ⟨htracker, -⟩ := (s.enterRecord (s.newRecord run src dst n r) n k).callChange_blocks run src dst n
    rw [State.openRecord_tracked hslot, htracker]
    refine hentered.mapKeeps fun x => ?_
    split <;> exact ⟨rfl, rfl, rfl⟩

theorem State.openRecord_wall (run src dst : Nat) (r : Count16) (s : State) : (s.openRecord run src dst r).1.wall = s.wall := by
  cases hslot : (s.supersede run).tracker.takeSlot with
  | none =>
    rw [State.openRecord_untracked hslot, State.post_wall]
    rfl
  | some slot =>
    obtain ⟨n, k⟩ := slot
    obtain ⟨-, -, -, -, hwall, -⟩ := (s.enterRecord (s.newRecord run src dst n r) n k).callChange_blocks run src dst n
    rw [State.openRecord_tracked hslot]
    exact hwall

end Sys2Proof.Machine
end

section
/-! PROOF. What the handovers of the scheduler leave behind a change of platform (R86 to R91, R94). -/
namespace Sys2Proof.Machine

open Sys2Proof

variable {s t u v w : State} {run : Nat} {c : Cue} {e old new : Entry} {o : Option Entry}

/-! ## The scheduler alone -/

/-- From `w` to `u` the scheduler alone has acted: its cues, and the notices of those it drops. -/
structure State.Scheduled (w u : State) : Prop where
  table : u.table = w.table
  tracker : u.tracker = w.tracker
  wall : u.wall = w.wall
  bus : u.bus = w.bus
  sources : u.sources = w.sources
  calm : w.Calm u

theorem State.Scheduled.refl (w : State) : w.Scheduled w := ⟨rfl, rfl, rfl, rfl, rfl, .refl w⟩

theorem State.Scheduled.trans (h : w.Scheduled u) (k : u.Scheduled t) : w.Scheduled t :=
  ⟨k.table.trans h.table, k.tracker.trans h.tracker, k.wall.trans h.wall, k.bus.trans h.bus, k.sources.trans h.sources,
    h.calm.trans k.calm⟩

theorem State.cueHandover_scheduled (o : Option Entry) (e : Entry) (s : State) : s.Scheduled (s.cueHandover o e) :=
  ⟨State.cueHandover_table .., (State.cueHandover_signalling o e s).1, State.cueHandover_wall .., State.cueHandover_bus ..,
    State.cueHandover_sources .., State.cueHandover_calm ..⟩

/-! ## One handover -/

/-- A property that the withdrawals and dues of a handover bring, and every trigger of it keeps. -/
theorem State.cueHandover_stages {P : State → Prop} (h : P (s.handoverPlaces o e))
    (htrigger : ∀ u kind zones due, (kind = .platform ∧ e.wantsPlatformCue = true) ∨ kind = .delay ∨ kind = .final →
      P u → P (u.trigger kind e.run zones due)) : P (s.cueHandover o e) := by
  have hplatform : P (s.platformCalled o e) := by
    unfold State.platformCalled
    split
    next hw => exact htrigger _ _ _ _ (.inl ⟨rfl, hw⟩) h
    · exact h
  have hdelay : P ((s.platformCalled o e).delayCalled e) := by
    unfold State.delayCalled
    split
    · exact htrigger _ _ _ _ (.inr (.inl rfl)) hplatform
    · exact hplatform
  rw [State.cueHandover_eq]
  unfold State.handoverFinal
  dsimp only
  split
  · exact htrigger _ _ _ _ (.inr (.inr rfl)) hdelay
  · split
    · exact htrigger _ _ _ _ (.inr (.inr rfl)) hdelay
    · exact hdelay

theorem State.handoverPlaces_cuesOk (h : s.CuesOk) (o : Option Entry) (e : Entry) : (s.handoverPlaces o e).CuesOk := by
  have hdrawn : (s.handoverWithdrawals o e).CuesOk := by
    rw [State.handoverWithdrawals_eq]
    exact (State.withdrawWhere_calm ..).cuesOk h
  exact (State.follow_calm ..).cuesOk hdrawn

/-- A CHANGE cue that no longer waits stands through a handover as it is (R89, R94). -/
theorem State.cueHandover_keepsChange (hok : s.CuesOk) (hc : c ∈ s.cues.list) (hkind : c.kind = .change)
    (hw : c.state ≠ .waiting) (o : Option Entry) (e : Entry) : c ∈ (s.cueHandover o e).cues.list := by
  have hall : (s.cueHandover o e).CuesOk ∧ c ∈ (s.cueHandover o e).cues.list := by
    refine State.cueHandover_stages (P := fun u => u.CuesOk ∧ c ∈ u.cues.list) ⟨State.handoverPlaces_cuesOk hok o e, ?_⟩
      fun u kind zones due hk hu => ⟨(State.trigger_calm ..).cuesOk hu.1, State.trigger_kept hu.1 hu.2 hw fun hown => ?_⟩
    · have hdrawn : c ∈ (s.handoverWithdrawals o e).cues.list := by
        have hnot : (decide (c.run = e.run) && e.withdraws s.inForce o c.kind) = false := by simp [hkind, Entry.withdraws]
        rw [State.handoverWithdrawals_eq, State.withdrawWhere_list]
        exact List.mem_map.2 ⟨c, List.mem_filter.2 ⟨hc, by simp [hnot]⟩, by simp [hnot]⟩
      refine List.mem_map.2 ⟨c, hdrawn, ?_⟩
      have hfollow (p : Params) (now exp : Int) : c.follow p now exp = c := by
        unfold Cue.follow
        rw [hkind]
        split
        next hk => cases hk
        next hk => cases hk
        · rfl
      split
      · exact hfollow ..
      · rfl
    · rw [hkind] at hown
      obtain ⟨hk, -⟩ | hk | hk := hk <;> exact absurd (hown.1.trans hk) nofun
  exact hall.2

/-- A handover of an entry whose change record is OPEN calls for no PLATFORM cue (R88). -/
theorem State.cueHandover_withdrawn_platform (h : s.Withdrawn .platform run) (hwants : e.wantsPlatformCue = false)
    (o : Option Entry) : (s.cueHandover o e).Withdrawn .platform run := by
  refine State.cueHandover_stages (P := fun u => u.Withdrawn .platform run) ?_ fun u kind zones due hk hu c hc hkind hrun => ?_
  · refine State.Withdrawn.follow (s := s.handoverWithdrawals o e) ?_ e
    rw [State.handoverWithdrawals_eq]
    exact h.withdrawWhere _
  · refine (State.trigger_mem hc).elim (fun hc => hu c hc hkind hrun) fun hown => ?_
    obtain ⟨-, hw⟩ | rfl | rfl := hk
    · exact absurd (hw.symm.trans hwants) nofun
    · exact absurd (hown.1.symm.trans hkind) nofun
    · exact absurd (hown.1.symm.trans hkind) nofun

/-! ## The handovers of a change -/

/-- A property that the change of the platform brings, and every handover keeps, holds when the change is complete. -/
theorem State.changeEntry_moved_platform {P : State → Prop} (hmoved : old.displayed ≠ (old.counted new).displayed)
    (h : P ((s.putEntry old (old.counted new)).platformChanged (old.counted new) old.state old.displayed).1)
    (hhand : ∀ u o, ∀ st ∈ [old.state, (old.counted new).state], P u →
      P (u.cueHandover o (u.standing (old.counted new) st))) : P (s.changeEntry old new).1 := by
  have hold : old.state ∈ [old.state, (old.counted new).state] := List.mem_cons_self
  have hnew : (old.counted new).state ∈ [old.state, (old.counted new).state] := List.mem_cons_of_mem _ List.mem_cons_self
  have hfirst := hhand _ (some old) old.state hold h
  unfold State.changeEntry
  dsimp only
  rw [if_neg hmoved, State.handPlatform]
  split <;> split
  · exact hfirst
  · exact hhand _ _ _ hnew hfirst
  · exact hhand _ _ _ hnew hfirst
  · exact hhand _ _ _ hnew (hhand _ _ _ hnew hfirst)

/-- A change of platform of a published entry opens a record or is untracked (R61, R65). -/
theorem State.platformChanged_published {src dst : Nat} (hentry : s.entry? e.run = some e) (hdst : e.displayed = some dst)
    (hne : src ≠ dst) (hpub : s.isPublished e src = true) (st : EntryState) :
    s.platformChanged e st (some src) =
      ((s.openRecord e.run src dst e.rev).1.handStanding e st, (s.openRecord e.run src dst e.rev).2) := by
  unfold State.platformChanged
  rw [hdst, hentry]
  exact if_pos ⟨hne, hpub⟩

end Sys2Proof.Machine
end

section
/-! PROOF. The displayed platform of a published entry moved (R61, R62, R65 to R69). -/
namespace Sys2Proof.Machine

open Sys2Proof

variable {s t u v w : State} {k : Tracker} {run src dst n : Nat} {c : Cue} {e x new : Entry}

/-! ## A change that counts -/

/-- The entry `e` becomes `new` with the displayed platform moved from `src` to `dst`, and the change counts (R61, R62). -/
structure State.Diverts (s : State) (e new : Entry) (src dst : Nat) : Prop where
  table : s.TableOk
  tracker : s.TrackerOk
  cues : s.CuesOk
  entry : s.entry? e.run = some e
  run : new.run = e.run
  rev : new.rev = e.rev
  openRec : new.openRec = e.openRec
  source : e.displayed = some src
  target : new.displayed = some dst
  moved : src ≠ dst
  published : s.Publishes new src

/-- The state once the change has been entered in the change records, and whether it is untracked. -/
def State.diverted (e new : Entry) (src dst : Nat) (s : State) : State × Bool :=
  (s.putEntry e (e.counted new)).openRecord e.run src dst (e.rev + 1)

theorem State.putEntry_frame (e new : Entry) (s : State) :
    (s.putEntry e new).wall = s.wall ∧ (s.putEntry e new).bus = s.bus := by
  unfold State.putEntry
  dsimp only
  split <;> exact ⟨rfl, rfl⟩

section
variable (h : s.Diverts e new src dst)
include h

theorem State.Diverts.counted : e.counted new = { new with rev := e.rev + 1 } := by
  refine if_neg fun hsame => h.moved ?_
  have := (Entry.sameShown_fields hsame).2.1
  rw [h.source, h.target] at this
  exact Option.some.inj this

theorem State.Diverts.put : (s.putEntry e (e.counted new)).entry? e.run = some { new with rev := e.rev + 1 } := by
  rw [h.counted, State.putEntry_entry e { new with rev := e.rev + 1 } s h.run h.table.2.1, if_pos rfl, h.entry]
  rfl

theorem State.Diverts.isPublished :
    (s.putEntry e (e.counted new)).isPublished { new with rev := e.rev + 1 } src = true := by
  obtain ⟨-, hcues, htracker⟩ := State.putEntry_blocks e (e.counted new) s
  obtain ⟨-, hbus⟩ := State.putEntry_frame e (e.counted new) s
  have hsrc := State.putEntry_sources e (e.counted new) s
  have hcue (kind : CueKind) (run : Nat) : (s.putEntry e (e.counted new)).cue? kind run = s.cue? kind run :=
    State.cue?_of_cues hcues kind run
  unfold State.isPublished State.gatePanel State.liveRecord?
  rw [hcue, htracker, hbus, State.inForce_of_sources hsrc, State.now_of_sources hsrc]
  simp only [Bool.or_eq_true, decide_eq_true_eq]
  obtain hann | ⟨c, hc, hrun, hkind, htaken⟩ | hexp | ⟨q, rev, hq, hacked⟩ | hlive := h.published
  · exact .inl (.inl (.inl (.inl (Option.isSome_iff_ne_none.2 hann))))
  · refine .inl (.inl (.inl (.inr ?_)))
    rw [(State.CuesOk.cue?_iff h.cues).2 ⟨hc, hkind, hrun⟩]
    exact htaken
  · exact .inl (.inl (.inr hexp))
  · refine .inl (.inr ?_)
    rw [State.gatePanel] at hq
    rw [hq, Option.any_some, hacked]
    exact decide_eq_true rfl
  · exact .inr hlive

theorem State.Diverts.platformChanged (st : EntryState) :
    (s.putEntry e (e.counted new)).platformChanged (e.counted new) st e.displayed =
      ((s.diverted e new src dst).1.handStanding (e.counted new) st, (s.diverted e new src dst).2) := by
  have hput := h.put
  have hpub := h.isPublished
  have hrun : ({ new with rev := e.rev + 1 } : Entry).run = e.run := h.run
  rw [State.diverted, h.source]
  rw [h.counted] at hput hpub ⊢
  rw [← hrun] at hput ⊢
  exact State.platformChanged_published hput h.target h.moved hpub st

theorem State.Diverts.displayed : e.displayed ≠ (e.counted new).displayed := by
  rw [h.counted, h.source]
  show some src ≠ new.displayed
  rw [h.target]
  exact fun heq => h.moved (Option.some.inj heq)

/-- What the change of the records brings, and every handover keeps, holds once the entry has been changed. -/
theorem State.Diverts.complete {P : State → Prop} (hmoved : P (s.diverted e new src dst).1)
    (hhand : ∀ u o, ∀ st ∈ [e.state, new.state], P u → P (u.cueHandover o (u.standing (e.counted new) st))) :
    P (s.changeEntry e new).1 := by
  have hstate : (e.counted new).state = new.state := (congrArg Entry.state (Entry.counted_facts e new) :)
  refine State.changeEntry_moved_platform h.displayed ?_ (by rwa [hstate])
  rw [h.platformChanged]
  exact hhand _ _ _ List.mem_cons_self hmoved

theorem State.Diverts.untracked : (s.changeEntry e new).2 = (s.diverted e new src dst).2 := by
  unfold State.changeEntry
  dsimp only
  rw [if_neg h.displayed, State.handPlatform, h.platformChanged]

theorem State.Diverts.scheduled : (s.diverted e new src dst).1.Scheduled (s.changeEntry e new).1 :=
  h.complete (.refl _) fun _ _ _ _ hu => hu.trans (State.cueHandover_scheduled ..)

end

end Sys2Proof.Machine
end

section
/-! PROOF. A published change entered in the change records: the entry, the CHANGE cue and the urgent list (R66 to R69, R89,
R94, R128). -/
namespace Sys2Proof.Machine

open Sys2Proof

variable {s t u v w : State} {k : Tracker} {run src dst n : Nat} {c : Cue} {e x new : Entry}

/-- The state once the record of the change stands in the slot `n` and its CHANGE cue has not yet been called for. -/
def State.divertedTo (e new : Entry) (src dst n : Nat) (k : Tracker) (s : State) : State :=
  (s.putEntry e (e.counted new)).enterRecord (s.newRecord e.run src dst n (e.rev + 1)) n k

/-- The record of the change, with its CHANGE cue (R66, R69). -/
def State.divertedRec (e new : Entry) (src dst n : Nat) (k : Tracker) (s : State) : ChangeRec :=
  (s.newRecord e.run src dst n (e.rev + 1)).withCue ((s.divertedTo e new src dst n k).changeCue e.run src dst)

theorem State.newRecord_congr (htracker : t.tracker = s.tracker) (hbus : t.bus = s.bus) (hsrc : t.sources = s.sources)
    (run src dst n : Nat) (r : Count16) : t.newRecord run src dst n r = s.newRecord run src dst n r := by
  unfold State.newRecord State.gatePanel State.liveRecord?
  rw [htracker, hbus, State.now_of_sources hsrc, State.inForce_of_sources hsrc, State.clock_of_sources hsrc]

theorem State.enterRecord_blocks (r : ChangeRec) (n : Nat) (k : Tracker) (s : State) :
    (s.enterRecord r n k).cues = s.cues ∧ (s.enterRecord r n k).ports = s.ports ∧ (s.enterRecord r n k).wall = s.wall ∧
      (s.enterRecord r n k).bus = s.bus ∧ (s.enterRecord r n k).sources = s.sources := ⟨rfl, rfl, rfl, rfl, rfl⟩

theorem State.divertedTo_blocks (e new : Entry) (src dst n : Nat) (k : Tracker) (s : State) :
    (s.divertedTo e new src dst n k).cues = s.cues ∧ (s.divertedTo e new src dst n k).ports = s.ports ∧
      (s.divertedTo e new src dst n k).wall = s.wall ∧ (s.divertedTo e new src dst n k).bus = s.bus ∧
      (s.divertedTo e new src dst n k).sources = s.sources := by
  obtain ⟨hports, hcues, -⟩ := State.putEntry_blocks e (e.counted new) s
  obtain ⟨hwall, hbus⟩ := State.putEntry_frame e (e.counted new) s
  obtain ⟨kcues, kports, kwall, kbus, ksrc⟩ := State.enterRecord_blocks (s.newRecord e.run src dst n (e.rev + 1)) n k
    (s.putEntry e (e.counted new))
  exact ⟨kcues.trans hcues, kports.trans hports, kwall.trans hwall, kbus.trans hbus, ksrc.trans (State.putEntry_sources ..)⟩

theorem State.divertedTo_cuesOk (h : s.CuesOk) : (s.divertedTo e new src dst n k).CuesOk :=
  h.of_cues (State.divertedTo_blocks ..).1

theorem State.supersede_tracker_congr (h : t.tracker = s.tracker) (run : Nat) :
    (t.supersede run).tracker = (s.supersede run).tracker := by
  rw [State.supersede_tracker, State.supersede_tracker, State.openNumbers, State.openNumbers, h]

theorem State.putEntry_takeSlot (e new : Entry) (run : Nat) (s : State) :
    ((s.putEntry e new).supersede run).tracker.takeSlot = (s.supersede run).tracker.takeSlot := by
  rw [State.supersede_tracker_congr (State.putEntry_blocks ..).2.2]

theorem State.putEntry_newRecord (e new : Entry) (run src dst n : Nat) (r : Count16) (s : State) :
    (s.putEntry e new).newRecord run src dst n r = s.newRecord run src dst n r :=
  State.newRecord_congr (State.putEntry_blocks ..).2.2 (State.putEntry_frame ..).2 (State.putEntry_sources ..) ..

theorem State.changeCalled_cuesOk (h : s.CuesOk) (run src dst : Nat) : (s.changeCalled run src dst).CuesOk :=
  (State.trigger_calm ..).cuesOk h

theorem State.diverted_eq (hslot : (s.supersede e.run).tracker.takeSlot = some (n, k)) (new : Entry) (src dst : Nat) :
    s.diverted e new src dst = ((s.divertedTo e new src dst n k).callChange e.run src dst n, false) := by
  rw [State.diverted, State.openRecord_tracked ((State.putEntry_takeSlot ..).trans hslot), State.putEntry_newRecord]
  rfl

theorem State.enterRecord_entry (r : ChangeRec) (n : Nat) (k : Tracker) (run : Nat) (s : State) :
    (s.enterRecord r n k).entry? run =
      if run = r.run then (s.entry? run).map fun e => { e with openRec := some n } else s.entry? run :=
  State.updEntry_entry (f := fun e => { e with openRec := some n }) (fun _ => rfl) r.run run _

section
variable (h : s.Diverts e new src dst) (hslot : (s.supersede e.run).tracker.takeSlot = some (n, k))
include h hslot

theorem State.Diverts.records :
    (s.changeEntry e new).1.tracker = { k with records := k.records ++ [s.divertedRec e new src dst n k] } := by
  have hk : (s.putEntry e (e.counted new)).tracker.Ok := by
    rw [(State.putEntry_blocks ..).2.2]
    exact h.tracker
  rw [h.scheduled.tracker, State.diverted, State.openRecord_record hk ((State.putEntry_takeSlot ..).trans hslot),
    State.putEntry_newRecord]
  rfl

/-- The entry once its change has been entered (R4, R66). -/
theorem State.Diverts.diverted_entry :
    (s.diverted e new src dst).1.entry? e.run = some { new with rev := e.rev + 1, openRec := some n } := by
  obtain ⟨-, -, -, htable, -⟩ := (s.divertedTo e new src dst n k).callChange_blocks e.run src dst n
  rw [State.diverted_eq hslot, State.entry?, htable, ← State.entry?, State.divertedTo, State.enterRecord_entry,
    if_pos (show e.run = (s.newRecord e.run src dst n (e.rev + 1)).run from rfl), h.put]
  rfl

theorem State.Diverts.entered :
    (s.changeEntry e new).1.entry? e.run = some { new with rev := e.rev + 1, openRec := some n } := by
  rw [State.entry?, h.scheduled.table, ← State.entry?]
  exact h.diverted_entry hslot

/-- The entry handed on past the change has an OPEN record. -/
theorem State.Diverts.standing (hu : u.table = (s.diverted e new src dst).1.table) (st : EntryState) :
    u.standing (e.counted new) st = { new with state := st, rev := e.rev + 1, openRec := some n } := by
  have hrun : (e.counted new).run = e.run := (congrArg Entry.run (Entry.counted_facts e new) :).trans h.run
  refine State.standing_of_entry (y := { new with rev := e.rev + 1, openRec := some n }) ?_ st
  rw [hrun, State.entry?, hu, ← State.entry?]
  exact h.diverted_entry hslot

theorem State.Diverts.urgent : (s.changeEntry e new).1.bus = (s.appendUrgent e.run (some src)).bus := by
  obtain ⟨-, -, -, -, -, hbus, -⟩ := (s.divertedTo e new src dst n k).callChange_blocks e.run src dst n
  obtain ⟨-, -, hwall, hsame, -⟩ := State.divertedTo_blocks e new src dst n k s
  rw [h.scheduled.bus, State.diverted_eq hslot, hbus]
  exact State.appendUrgent_bus_of hsame hwall ..

/-- R89: the PLATFORM cue goes, and no handover makes it again while the record is OPEN. -/
theorem State.Diverts.withdrawn : (s.changeEntry e new).1.Withdrawn .platform e.run := by
  have hall : (s.changeEntry e new).1.table = (s.diverted e new src dst).1.table ∧
      (s.changeEntry e new).1.Withdrawn .platform e.run := by
    refine h.complete (P := fun u => u.table = (s.diverted e new src dst).1.table ∧ u.Withdrawn .platform e.run) ⟨rfl, ?_⟩
      fun u o st _ hu => ⟨(State.cueHandover_table ..).trans hu.1, State.cueHandover_withdrawn_platform hu.2 ?_ o⟩
    · rw [State.diverted_eq hslot, State.Withdrawn, (State.callChange_blocks ..).2.1]
      exact State.withdraw_withdrawn .platform e.run ((s.divertedTo e new src dst n k).changeCalled e.run src dst)
    · rw [h.standing hslot hu.1]
      simp [Entry.wantsPlatformCue]
  exact hall.2

/-- R89: with room in the list the CHANGE cue stands in it, and the record names it. -/
theorem State.Diverts.reached (hroom : s.cues.list.length < 32) :
    ∃ c ∈ (s.changeEntry e new).1.cues.list, c.Reached .change e.run [0, src, dst] ∧ c.state ≠ .waiting ∧
      (s.divertedRec e new src dst n k).cue = some c.number := by
  obtain ⟨hcues, -, -, -, hsrc⟩ := State.divertedTo_blocks e new src dst n k s
  have hcalled := State.changeCalled_cuesOk (State.divertedTo_cuesOk (e := e) (new := new) (src := src) (dst := dst) (n := n)
    (k := k) h.cues) e.run src dst
  obtain ⟨c, hc, hreached, hwaits⟩ := State.trigger_reached (s := s.divertedTo e new src dst n k) (by rw [hcues]; exact hroom)
    .change e.run [0, src, dst] (s.divertedTo e new src dst n k).now
  obtain ⟨hkind, hrun, -⟩ := id hreached
  have hstate : c.state ≠ .waiting := fun hw => by
    obtain ⟨-, hlt⟩ := hwaits hw
    exact absurd hlt (lt_irrefl _)
  have hkept : c ∈ (s.diverted e new src dst).1.cues.list := by
    rw [State.diverted_eq hslot, (State.callChange_blocks ..).2.1, State.withdraw, State.withdrawWhere_list]
    exact List.mem_map.2 ⟨c, List.mem_filter.2 ⟨hc, by simp [hkind]⟩, by simp [hkind]⟩
  have hall : (s.changeEntry e new).1.CuesOk ∧ c ∈ (s.changeEntry e new).1.cues.list := by
    refine h.complete (P := fun u => u.CuesOk ∧ c ∈ u.cues.list) ⟨?_, hkept⟩ fun u o st _ hu =>
      ⟨(State.cueHandover_calm ..).cuesOk hu.1, State.cueHandover_keepsChange hu.1 hu.2 hkind hstate ..⟩
    rw [State.diverted_eq hslot]
    have hdrawn : (((s.divertedTo e new src dst n k).changeCalled e.run src dst).withdraw .platform e.run).CuesOk :=
      (State.withdrawWhere_calm ..).cuesOk hcalled
    exact hdrawn.of_cues (State.callChange_blocks ..).2.1
  refine ⟨c, hall.2, hreached, hstate, ?_⟩
  have hfound := hcalled.cue?_eq hc
  rw [hkind, hrun] at hfound
  show (s.divertedTo e new src dst n k).changeCue e.run src dst = _
  rw [State.changeCue, hfound, Option.map_some]

/-- R89, R94: a LISTED entry with no cue before and none to call for gets the CHANGE cue alone. -/
theorem State.Diverts.quiet (hnone : ∀ c ∈ s.cues.list, c.run ≠ e.run) (hstate : e.state = .listed)
    (hlisted : new.state = .listed) (hdelay : ¬new.CallsDelay s.inForce) :
    (∃ lost, State.Called .change e.run [0, src, dst] s.now s (s.changeEntry e new).1 lost) ∧
      (∀ c ∈ (s.changeEntry e new).1.cues.list, c.run = e.run → (s.divertedRec e new src dst n k).cue = some c.number) ∧
      ((∀ c ∈ (s.changeEntry e new).1.cues.list, c.run ≠ e.run) → (s.divertedRec e new src dst n k).cue = none) := by
  obtain ⟨hcues, hports, -, -, hsrc⟩ := State.divertedTo_blocks e new src dst n k s
  have hcalled := State.changeCalled_cuesOk (State.divertedTo_cuesOk (e := e) (new := new) (src := src) (dst := dst) (n := n)
    (k := k) h.cues) e.run src dst
  have honly : ∀ c ∈ ((s.divertedTo e new src dst n k).changeCalled e.run src dst).cues.list, c.run = e.run → c.kind = .change :=
    fun c hc hrun => (State.trigger_mem hc).elim (fun hmem => absurd hrun (hnone c (hcues ▸ hmem))) fun hnew => hnew.1
  have hlist : (s.diverted e new src dst).1.cues = ((s.divertedTo e new src dst n k).changeCalled e.run src dst).cues := by
    rw [State.diverted_eq hslot, (State.callChange_blocks ..).2.1, State.withdraw, State.withdrawWhere_none fun c hc => ?_]
    by_cases hrun : c.run = e.run
    · simp [honly c hc hrun]
    · simp [hrun]
  have hsame : (s.changeEntry e new).1 = (s.diverted e new src dst).1 := by
    refine h.complete (P := fun u => u = (s.diverted e new src dst).1) rfl fun u o st hst hu => ?_
    have hst' : st = .listed := by simpa [hstate, hlisted] using hst
    rw [hu, h.standing hslot rfl, hst']
    refine State.cueHandover_quiet (e := { new with state := .listed, rev := e.rev + 1, openRec := some n }) (fun c hc hrun => .inl (honly c (hlist ▸ hc) (hrun.trans h.run))) o ?_ ?_ ?_
    · simp [Entry.wantsPlatformCue]
    · have hin : (s.diverted e new src dst).1.inForce = s.inForce := by
        obtain ⟨-, -, -, -, -, -, hkept⟩ := (s.divertedTo e new src dst n k).callChange_blocks e.run src dst n
        rw [State.diverted_eq hslot]
        exact State.inForce_of_sources (hkept.trans hsrc)
      rw [hin]
      refine Bool.eq_false_iff.2 fun hwants => hdelay ?_
      simpa [Params.wantsDelayCue, Entry.CallsDelay, Entry.awaiting, hlisted, and_assoc] using hwants
    · simp [enteredBoarding]
  have hfound (c : Cue) : ((s.divertedTo e new src dst n k).changeCalled e.run src dst).cue? .change e.run = some c ↔
      c ∈ (s.changeEntry e new).1.cues.list ∧ c.kind = .change ∧ c.run = e.run := by
    rw [hsame, hlist]
    exact hcalled.cue?_iff
  refine ⟨?_, fun c hc hrun => ?_, fun hno => ?_⟩
  · obtain ⟨lost, hlost⟩ := State.trigger_called (s := s.divertedTo e new src dst n k) (State.divertedTo_cuesOk h.cues)
      (State.cue?_none_of_runs (by rw [hcues]; exact hnone) .change) [0, src, dst] (s.divertedTo e new src dst n k).now
    have hstart := hlost.of_start hcues hports hsrc
    have hnow := State.now_of_sources hsrc
    rw [hnow] at hstart
    refine ⟨lost, ?_, fun q hq => ?_⟩
    · rw [hsame, hlist, State.changeCalled, hnow]
      exact hstart.list
    · refine Eq.trans ?_ (hstart.ports q hq)
      rw [hsame, State.diverted_eq hslot, State.port, (State.callChange_blocks ..).2.2.1, State.changeCalled, hnow]
      rfl
  · show (s.divertedTo e new src dst n k).changeCue e.run src dst = _
    rw [State.changeCue, (hfound c).2 ⟨hc, honly c ?_ hrun, hrun⟩, Option.map_some]
    rwa [hsame, hlist] at hc
  · show (s.divertedTo e new src dst n k).changeCue e.run src dst = _
    rw [State.changeCue, Option.map_eq_none_iff, Option.eq_none_iff_forall_ne_some]
    exact fun c hc => hno c ((hfound c).1 hc).1 ((hfound c).1 hc).2.2

end

end Sys2Proof.Machine
end

section
/-! PROOF. The change records once the change is entered, and after the evaluation that settles it (R65, R67, R72). -/
namespace Sys2Proof.Machine

open Sys2Proof

variable {s t u v w : State} {k : Tracker} {run src dst n : Nat} {q : ChangeRec} {e x new : Entry}

/-! ## The slot -/

/-- Where the new record goes, and what of the earlier ones stays (R65, R67). -/
structure State.SlotFound (s : State) (run n : Nat) (k : Tracker) : Prop where
  taken : (s.supersede run).tracker.takeSlot = some (n, k)
  free : s.tracker.records.length < 16 → (∀ q ∈ s.tracker.records, q.no ≠ n) ∧
    (∀ m, 1 ≤ m → m < n → ∃ q ∈ s.tracker.records, q.no = m) ∧ k.closed = s.tracker.closed ++ s.openNumbers run
  oldest : s.tracker.records.length = 16 → ∀ m rest, s.tracker.closed ++ s.openNumbers run = m :: rest →
    n = m ∧ k.closed = rest
  superseded : ∀ q ∈ s.tracker.records, q.run = run → q.live = true → q.no ≠ n →
    ({ q with state := .superseded } : ChangeRec) ∈ k.records

theorem State.superseded_mem (hq : q ∈ s.tracker.records) (hrun : q.run = run) (hlive : q.live = true) :
    ({ q with state := .superseded } : ChangeRec) ∈ (s.supersede run).tracker.records := by
  rw [State.supersede_tracker]
  exact List.mem_map.2 ⟨q, hq, if_pos (by simp [hrun, hlive])⟩

theorem State.slotFound (hk : s.tracker.Ok) (h : s.tracker.records.length < 16 ∨ s.tracker.closed ++ s.openNumbers run ≠ []) :
    ∃ n k, s.SlotFound run n k := by
  obtain ⟨hfree, hfull⟩ := (State.supersede_trackerOk hk run).takeSlot_eq
  have hlen : (s.supersede run).tracker.records.length = s.tracker.records.length := by
    rw [State.supersede_tracker, List.length_map]
  have hno (m : Nat) : (∃ r ∈ (s.supersede run).tracker.records, r.no = m) ↔ ∃ r ∈ s.tracker.records, r.no = m := by
    rw [State.supersede_tracker]
    simp [(ChangeRec.superseded_fields run _).1]
  rw [hlen] at hfree hfull
  by_cases hroom : s.tracker.records.length < 16
  · obtain ⟨n, htaken, hn, hlow⟩ := hfree hroom
    refine ⟨n, _, htaken, fun _ => ⟨fun q hq hqn => ?_, fun m h1 hm => (hno m).1 (hlow m h1 hm), rfl⟩, fun hlen' => ?_,
      fun q hq hrun hlive _ => State.superseded_mem hq hrun hlive⟩
    · obtain ⟨r, hr, hrn⟩ := (hno n).2 ⟨q, hq, hqn⟩
      exact hn r hr hrn
    · omega
  · obtain ⟨n, rest, hclosed⟩ := List.exists_cons_of_ne_nil (h.resolve_left hroom)
    have hle := hk.length_le
    refine ⟨n, _, (hfull (by omega)).2 n rest hclosed, fun hlt => absurd hlt hroom, fun _ m rest' hm => ?_,
      fun q hq hrun hlive hqn => List.mem_filter.2 ⟨State.superseded_mem hq hrun hlive, by simpa using hqn⟩⟩
    rw [hclosed] at hm
    obtain ⟨rfl, rfl⟩ := List.cons.inj hm
    exact ⟨rfl, rfl⟩

/-- With every slot held by an OPEN record of another run there is none to take (R65). -/
theorem State.slot_none (hk : s.tracker.Ok) (hfull : s.tracker.records.length = 16)
    (hall : ∀ r ∈ s.tracker.records, r.isOpen = true ∧ r.run ≠ run) : (s.supersede run).tracker.takeSlot = none := by
  have hclosed : (s.supersede run).tracker.closed = [] := by
    have hnumbers : s.openNumbers run = [] := by
      rw [State.openNumbers, List.map_eq_nil_iff, List.filter_eq_nil_iff]
      exact fun r hr => by simp [(hall r hr).2]
    have hempty : s.tracker.closed = [] := by
      obtain ⟨-, -, -, hback, -⟩ := hk
      refine List.eq_nil_iff_forall_not_mem.2 fun m hm => ?_
      obtain ⟨r, hr, -, hclosed⟩ := hback m hm
      exact absurd ((hall r hr).1.symm.trans hclosed) nofun
    rw [State.supersede_tracker, hnumbers, hempty]
    rfl
  exact ((State.supersede_trackerOk hk run).takeSlot_eq.2 (by rw [State.supersede_tracker, List.length_map, hfull])).1 hclosed

/-! ## The evaluation that settles the change -/

/-- An evaluation closes records after those closed before it (R65). -/
theorem State.settle_closed_prefix (s o : State) : s.tracker.closed <+: (s.settle o).tracker.closed := by
  rw [State.settle, State.finish_tracker]
  by_cases hmode : s.wall.mode = .normal
  · rw [State.recompose_eq hmode, State.compose_tracker, State.informAll_eq, State.informs_tracker]
    have hjudged : s.judged.tracker.closed = s.tracker.closed := (congrArg Tracker.closed s.compose_tracker :)
    rw [← hjudged]
    exact List.prefix_append ..
  · rw [State.recompose_tracker hmode]

theorem State.settle_tracker (hmode : s.wall.mode ≠ .normal) (o : State) : (s.settle o).tracker = s.tracker := by
  rw [State.settle, State.finish_tracker, State.recompose_tracker hmode]

section
variable (h : s.Diverts e new src dst)
include h

theorem State.Diverts.putOk : (s.putEntry e (e.counted new)).tracker.Ok := by
  rw [(State.putEntry_blocks ..).2.2]
  exact h.tracker

theorem State.Diverts.trackerOk : (s.changeEntry e new).1.tracker.Ok := by
  rw [h.scheduled.tracker]
  exact State.openRecord_trackerOk h.putOk ..

/-- Whatever becomes of the change, an OPEN record of another run stays (R65, R67). -/
theorem State.Diverts.keeps (hq : q ∈ s.tracker.records) (hopen : q.isOpen = true) (hrun : q.run ≠ e.run) :
    q ∈ (s.changeEntry e new).1.tracker.records := by
  rw [h.scheduled.tracker]
  refine State.openRecord_keeps h.putOk ?_ hopen hrun ..
  rw [(State.putEntry_blocks ..).2.2]
  exact hq

theorem State.Diverts.unspoken : (s.changeEntry e new).1.Unspoken e.run := by
  refine State.changeEntry_unspoken_moved h.run h.table.2.1 h.entry ?_ (by rw [h.source]; nofun)
  rw [h.source, h.target]
  exact fun heq => h.moved (Option.some.inj heq)

theorem State.Diverts.settled_entry (o : State) :
    ((s.changeEntry e new).1.settle o).entry? e.run = (s.changeEntry e new).1.entry? e.run :=
  State.settle_entry o h.unspoken

theorem State.Diverts.wall : (s.changeEntry e new).1.wall = s.wall := by
  rw [h.scheduled.wall, State.diverted, State.openRecord_wall, (State.putEntry_frame ..).1]

/-- R72: in NORMAL mode every other OPEN record is judged against the picture that follows. -/
theorem State.Diverts.judged (hmode : s.wall.mode = .normal) (hrests : (s.changeEntry e new).1.recompose.Rests t) :
    s.OpenJudged t fun q => q.run ≠ e.run := fun _ r hr hopen hdisplayed hrun => by
  refine State.record_judged h.trackerOk (by rw [h.wall]; exact hmode) (h.keeps hr hopen hrun) hopen hdisplayed
    (State.clock_of_sources (State.changeEntry_sources ..)) ?_ hrests.tracker hrests.table hrests.seen hrests.heard
  rw [State.changeEntry_rev, State.revOf, State.putEntry_entry _ _ _ (by rw [h.counted]; exact h.run) h.table.2.1, if_neg hrun]
  rfl

end

end Sys2Proof.Machine
end

section
/-! PROOF. A published change of platform, by PLAT or AMND (R61 to R73, R89, R94, R128). -/
namespace Sys2Proof.Machine

open Sys2Proof

variable {s t u v w : State} {k : Tracker} {run src dst n : Nat} {r : ChangeRec} {e x new : Entry}

/-- A record as it was before any of it was judged. -/
def ChangeRec.unjudged (r : ChangeRec) : ChangeRec :=
  { r with rowPart := .pending, gatePart := .pending, displayed := false, degraded := false }

theorem State.Diverts.settled_trackerOk (h : s.Diverts e new src dst) (ht : (s.changeEntry e new).1.recompose.Rests t) :
    t.tracker.Ok := by
  rw [ht.tracker]
  exact State.recompose_trackerOk h.trackerOk

/-- The new record at the end of the command: in NORMAL mode judged against the picture that follows, in another as it was
made (R72). -/
theorem State.Diverts.record (h : s.Diverts e new src dst) (hslot : (s.supersede e.run).tracker.takeSlot = some (n, k))
    (ht : (s.changeEntry e new).1.recompose.Rests t) :
    ∃ r ∈ t.tracker.records, r.unjudged = s.divertedRec e new src dst n k ∧
      (s.wall.mode = .normal → s.RecordJudged t r.unjudged r) ∧
      (s.wall.mode ≠ .normal → r.rowPart = .pending ∧ r.gatePart = .pending ∧ r.displayed = false ∧ r.degraded = false) := by
  have hmem : s.divertedRec e new src dst n k ∈ (s.changeEntry e new).1.tracker.records := by
    rw [h.records hslot]
    exact List.mem_append_right _ List.mem_cons_self
  have hk := h.trackerOk
  by_cases hmode : s.wall.mode = .normal
  · have hvmode : (s.changeEntry e new).1.wall.mode = .normal := by rw [h.wall]; exact hmode
    obtain ⟨hstays, -⟩ := State.recompose_record hk hvmode hmem rfl rfl
    have hin : (s.changeEntry e new).1.compose.evaluated (s.divertedRec e new src dst n k) ∈ t.tracker.records := by
      rw [ht.tracker]
      exact hstays fun hinformed => absurd hinformed.2 nofun
    obtain ⟨r, hr, hno, hjudged⟩ := State.record_judged hk hvmode hmem rfl rfl rfl rfl ht.tracker ht.table ht.seen ht.heard
    have hsame := (h.settled_trackerOk ht).record_unique hin hr hno.symm
    obtain ⟨hrow, hgate, hdisplayed, hdegraded, hannounced, -, hopened⟩ := hjudged
    rw [← hsame] at hrow hgate hdisplayed hdegraded hannounced hopened
    exact ⟨_, hin, rfl, fun _ => ⟨hrow, hgate, hdisplayed, hdegraded, hannounced, fun _ hann => absurd hann nofun, hopened⟩,
      fun hno => absurd hmode hno⟩
  · have hvmode : (s.changeEntry e new).1.wall.mode ≠ .normal := by rw [h.wall]; exact hmode
    refine ⟨s.divertedRec e new src dst n k, ?_, rfl, fun hyes => absurd hyes hmode, fun _ => ⟨rfl, rfl, rfl, rfl⟩⟩
    rw [ht.tracker, State.recompose_tracker hvmode]
    exact hmem

end Sys2Proof.Machine
end

section
/-! PROOF. PLAT and AMND carried out where the displayed platform of a published entry moves (R61, R62). -/
namespace Sys2Proof.Machine

open Sys2Proof

variable {s t u v w : State} {k : Tracker} {run src dst n : Nat} {r : ChangeRec} {e x new : Entry} {tg : Telegram}

/-! ## The telegram carried out -/

/-- The entry that a PLAT or an AMND of the run of `e` gives it (R15, R19). -/
def State.AmendedBy (s : State) (tg : Telegram) (e new : Entry) : Prop :=
  (∃ platform, tg = .plat { run := e.run, platform := platform } ∧
      new = { e with assigned := if platform = 0 then none else some platform }) ∨
    ∃ f, tg = .amnd f ∧ f.run = e.run ∧ new = e.amend s.inForce.dayStart f ∧
      (f.clock = none ∨ s.now - s.inForce.overdue ≤ new.sched)

theorem State.AmendedBy.keeps (h : s.AmendedBy tg e new) :
    new.run = e.run ∧ new.rev = e.rev ∧ new.openRec = e.openRec ∧ new.state = e.state := by
  obtain ⟨platform, -, rfl⟩ | ⟨f, -, -, rfl, -⟩ := h <;> exact ⟨rfl, rfl, rfl, rfl⟩

theorem AmndFields.not_past {f : AmndFields} (hrange : f.inRange s.inForce = true)
    (h : f.clock = none ∨ s.now - s.inForce.overdue ≤ (e.amend s.inForce.dayStart f).sched) :
    ¬(f.sched s.inForce.dayStart).any (· < s.now - s.inForce.overdue) = true := by
  have hsched := AmndFields.sched_eq hrange
  have hamend : (e.amend s.inForce.dayStart f).sched = (f.sched s.inForce.dayStart).getD e.sched := rfl
  cases hs : f.sched s.inForce.dayStart with
  | none => nofun
  | some m =>
    have hclock : f.clock ≠ none := fun hnone => by
      rw [hs, hnone] at hsched
      cases hsched
    rw [hamend, hs, Option.getD_some] at h
    simpa using h.resolve_left hclock

/-- Within its ranges the telegram amends the entry, and its reply is the revision (R15, R19). -/
theorem State.AmendedBy.handled (h : s.AmendedBy tg e new) (he : s.entry? e.run = some e) (hin : e.inService = true)
    (hrange : tg.inRange s.inForce = true) (hx : (s.amendEntry e new).1.entry? e.run = some x) (p : PortId) :
    ∃ clamped, tg.handled p s = ((s.amendEntry e new).1, .accept (.revision x.rev) clamped (s.amendEntry e new).2) := by
  have haccept (clamped : Bool) : State.acceptRevision e.run (s.amendEntry e new).1 clamped (s.amendEntry e new).2 =
      ((s.amendEntry e new).1, .accept (.revision x.rev) clamped (s.amendEntry e new).2) := by
    rw [State.acceptRevision, State.revisionOf, hx]
  have hfaults := of_decide_eq_true hrange
  obtain ⟨platform, rfl, rfl⟩ | ⟨f, rfl, hrun, rfl, hpast⟩ := h
  · have hchecks : firstBad [(1, runOk e.run), (2, platform ≤ s.inForce.platforms)] = none := by
      rw [firstBad_eq_head?, runOk_limit_faults]
      exact congrArg List.head? hfaults
    exact ⟨false, ((State.onEntry_found hchecks he).trans (if_pos hin)).trans (haccept false)⟩
  · have hchecks : firstBad (amndChecks s.inForce f) = none := by
      rw [firstBad_eq_head?, amndChecks_faults]
      exact congrArg List.head? hfaults
    refine ⟨amndClamped f, ?_⟩
    rw [← hrun] at he haccept
    refine ((State.onEntry_found hchecks he).trans (if_pos hin)).trans ((if_neg (AmndFields.not_past ?_ hpast)).trans (haccept _))
    exact hrange

/-! ## The entry retested -/

theorem State.retest_keeps (s : State) (old new : Entry) :
    (s.retest old new).openRec = new.openRec ∧ (s.retest old new).announced = new.announced ∧
      (s.retest old new).exp = new.exp := by
  unfold State.retest
  split
  · exact ⟨rfl, rfl, rfl⟩
  · rw [Entry.transition_eq]
    exact ⟨rfl, rfl, rfl⟩

theorem State.amendEntry_diverts (h : s.Diverts e (s.retest e new) src dst) :
    s.amendEntry e new = ((s.changeEntry e (s.retest e new)).1.settle s, (s.changeEntry e (s.retest e new)).2) := by
  have hdisp : e.displayed ≠ new.displayed := by
    rw [← State.retest_displayed s e new, h.source, h.target]
    exact fun heq => h.moved (Option.some.inj heq)
  have hne : e ≠ new := fun heq => hdisp (congrArg Entry.displayed heq)
  have hshown : ¬e.sameShown (s.retest e new) = true := fun hsame =>
    hdisp ((Entry.sameShown_fields hsame).2.1.trans (State.retest_displayed ..))
  rw [State.amendEntry, if_neg hne]
  refine Prod.ext ?_ rfl
  exact if_neg hshown

/-- The entry once the change has been settled: its revision counted, its OPEN record named where one was opened. -/
theorem State.Diverts.settled (h : s.Diverts e new src dst) (o : State) :
    ∃ x, ((s.changeEntry e new).1.settle o).entry? e.run = some x ∧ x.rev = e.rev + 1 ∧
      (∀ n k, (s.supersede e.run).tracker.takeSlot = some (n, k) →
        x = { new with rev := e.rev + 1, openRec := some n }) ∧
      ((s.supersede e.run).tracker.takeSlot = none → x.openRec = e.openRec) := by
  rw [h.settled_entry o]
  cases hslot : (s.supersede e.run).tracker.takeSlot with
  | none =>
    refine ⟨{ new with rev := e.rev + 1 }, ?_, rfl, nofun, fun _ => h.openRec⟩
    have hput : ((s.putEntry e (e.counted new)).supersede e.run).entry? e.run = some { new with rev := e.rev + 1 } := h.put
    rw [State.entry?, h.scheduled.table, State.diverted, State.openRecord_untracked ((State.putEntry_takeSlot ..).trans hslot),
      State.post_table]
    exact hput
  | some slot =>
    obtain ⟨n, k⟩ := slot
    refine ⟨_, h.entered hslot, rfl, fun m k' heq => ?_, nofun⟩
    cases heq
    rfl

end Sys2Proof.Machine
end

section
/-! PROOF. A published change of platform answered (R61 to R73, R89, R94, R128). -/
namespace Sys2Proof.Machine

open Sys2Proof

variable {s t u v w : State} {k : Tracker} {run src dst n : Nat} {r : ChangeRec} {e x new : Entry} {tg : Telegram}

/-- Past the handovers of the change the wall has settled and the reply has been formed in `t`. -/
structure State.Concludes (v t : State) : Prop where
  rests : v.recompose.Rests t
  cues : t.cues = v.cues
  heard : ∀ q, (v.port q).Heard (t.port q)
  closed : v.tracker.closed <+: t.tracker.closed
  kept : v.tracker.Ok → ∀ r ∈ v.tracker.records, r.isOpen = false → r ∈ t.tracker.records

theorem State.concludes (v o : State) (p : PortId) (tel : Tel) (a : Answer) : v.Concludes ((v.settle o).answerTel p tel a) where
  rests := (State.finish_rests v.recompose o).trans (State.answerTel_rests ..)
  cues := State.settle_cues v o
  heard q := ((State.settle_calm v o).heard q).trans (State.answerTel_heard ..)
  closed := State.settle_closed_prefix v o
  kept hk _ hr hclosed := State.settle_closed hk hr hclosed o

/-- With every slot held by an OPEN record of another run the change is reported untracked before all else (R65). -/
theorem State.Diverts.noticed (h : s.Diverts e new src dst) (hslot : (s.supersede e.run).tracker.takeSlot = none)
    (ht : (s.changeEntry e new).1.Concludes t) :
    (s.changeEntry e new).2 = true ∧ s.Noticed t .planning ⟨.changeUntracked, .run e.run, s.time.clock⟩ := by
  have huntracked : s.diverted e new src dst =
      (((s.putEntry e (e.counted new)).supersede e.run).post [.planning] .changeUntracked (.run e.run), true) :=
    State.openRecord_untracked ((State.putEntry_takeSlot ..).trans hslot) ..
  refine ⟨by rw [h.untracked, huntracked], ?_⟩
  have hclock : ((s.putEntry e (e.counted new)).supersede e.run).time.clock = s.time.clock :=
    State.clock_of_sources (s := s) (State.putEntry_sources ..)
  have hport : ((s.putEntry e (e.counted new)).supersede e.run).port .planning = s.port .planning := by
    show (s.putEntry e (e.counted new)).port .planning = _
    rw [State.port, State.port, (State.putEntry_blocks ..).1]
  have hfirst : ((s.diverted e new src dst).1.port .planning) =
      (s.port .planning).post ⟨.changeUntracked, .run e.run, s.time.clock⟩ := by
    rw [huntracked, State.post_port (by decide), if_pos (by decide), hclock, hport]
  have hheard := (h.scheduled.calm.heard .planning).trans (ht.heard .planning)
  rw [hfirst] at hheard
  exact hheard.1

/-- Settles O28, by the record that the change opens and the evaluation that settles it. -/
theorem publishedChangeOpensARecord : Obligations.PublishedChangeOpensARecord := by
  intro s p seq tg run src dst e old htaking hk htracker hcues he hin hrange hkind hsrc hdst hne hpub
  obtain rfl : e.run = run := entryIn_run he
  have hamended : s.AmendedBy tg e old := hkind
  obtain ⟨hrun, hrev, hrec, -⟩ := hamended.keeps
  obtain ⟨hrrec, hrann, hrexp⟩ := s.retest_keeps e old
  obtain ⟨new, hnew⟩ : ∃ new, s.retest e old = new := ⟨_, rfl⟩
  have h : s.Diverts e (s.retest e old) src dst :=
    { table := hk, tracker := htracker, cues := hcues, entry := he
      run := (State.retest_run ..).trans hrun, rev := State.retest_rev.trans hrev, openRec := hrrec.trans hrec
      source := hsrc, target := (State.retest_displayed ..).trans hdst, moved := hne
      published := by rw [State.Publishes, hrann, hrexp, State.retest_run]; exact hpub }
  obtain ⟨x, hx, hxrev, hopened, huntracked⟩ := h.settled s
  have hamend := State.amendEntry_diverts h
  obtain ⟨clamped, hhandled⟩ := hamended.handled he hin hrange (by rw [hamend]; exact hx) p
  obtain ⟨hexec, hanswered⟩ := exec_taking_answered htaking hhandled fun q => State.amendEntry_link q e old s
  rw [hamend] at hexec hanswered
  rw [hnew] at *
  have hconcludes := (s.changeEntry e new).1.concludes s p (tg.tel seq)
    (.accept (.revision x.rev) clamped (s.changeEntry e new).2)
  have hurgent : ∀ n k, (s.supersede e.run).tracker.takeSlot = some (n, k) →
      s.UrgentGained (((s.changeEntry e new).1.settle s).answerTel p (tg.tel seq)
        (.accept (.revision x.rev) clamped (s.changeEntry e new).2)) e.run (some src) := fun n k hslot =>
    State.urgentGained_settle (h.urgent hslot) s
  refine ⟨_, x, clamped, (s.changeEntry e new).2, hexec, hx, hxrev, hanswered, ?_⟩
  generalize ((s.changeEntry e new).1.settle s).answerTel p (tg.tel seq)
    (.accept (.revision x.rev) clamped (s.changeEntry e new).2) = t at *
  refine ⟨fun hroom => ?_, fun hfull hall => ?_, fun hmode => h.judged hmode hconcludes.rests, fun hmode q hq hopen hqrun => ?_⟩
  · obtain ⟨n, k, hfound⟩ := State.slotFound htracker hroom
    have hslot := hfound.taken
    have hrecords := h.records hslot
    obtain ⟨r, hr, hmade, hjudged, hunjudged⟩ := h.record hslot hconcludes.rests
    have hcue : r.cue = (s.divertedRec e new src dst n k).cue := (congrArg ChangeRec.cue hmade :)
    have hno : r.no = n := (congrArg ChangeRec.no hmade :)
    have hrrun : r.run = e.run := (congrArg ChangeRec.run hmade :)
    have hstate : r.state = .opened := (congrArg ChangeRec.state hmade :)
    have hclosed : k.closed <+: t.tracker.closed := by
      have hprefix := hconcludes.closed
      rwa [hrecords] at hprefix
    have hxopen : x.openRec = some r.no := by rw [hopened n k hslot, hno]
    have hlist : t.cues.list = (s.changeEntry e new).1.cues.list := congrArg Cues.list hconcludes.cues
    refine ⟨h.untracked.trans (by rw [State.diverted_eq hslot]), hurgent n k hslot, ⟨r, hr, hrrun, (congrArg ChangeRec.src hmade :),
      (congrArg ChangeRec.dst hmade :), hstate, (congrArg ChangeRec.r hmade :).trans hxrev.symm,
      (congrArg ChangeRec.announced hmade :), (congrArg ChangeRec.inSpeech hmade :), (congrArg ChangeRec.openedMinute hmade :),
      (congrArg ChangeRec.openedSecond hmade :), hxopen, (congrArg ChangeRec.gateReq hmade :),
      (congrArg ChangeRec.diverted hmade :), fun hlt => ?_, fun hfull m rest hm => ?_, fun q hq hqrun hlive hqno => ?_,
      fun hlt => ?_, fun hnone helisted hxlisted hdelay => ?_, hjudged, hunjudged⟩, fun q hq hqrun hqopen => ?_, ?_⟩
    · obtain ⟨hfree, hlow, hkclosed⟩ := hfound.free hlt
      rw [hno]
      exact ⟨hfree, hlow, hkclosed ▸ hclosed⟩
    · obtain ⟨rfl, rfl⟩ := hfound.oldest hfull m rest hm
      exact ⟨hno, hclosed⟩
    · have hmem := hfound.superseded q hq hqrun hlive (hno ▸ hqno)
      refine ⟨{ q with state := .superseded }, hconcludes.kept h.trackerOk _ ?_ rfl, rfl, hqrun, rfl⟩
      rw [hrecords]
      exact List.mem_append_left _ hmem
    · rw [hlist, hcue]
      exact h.reached hslot hlt
    · have hxnew := hopened n k hslot
      rw [hxnew] at hxlisted hdelay
      obtain ⟨⟨lost, hlost⟩, hnamed, hunnamed⟩ := h.quiet hslot hnone helisted hxlisted hdelay
      rw [hlist, hcue]
      refine ⟨⟨lost, ?_⟩, hnamed, hunnamed⟩
      have hafter := hlost.after hconcludes.cues hconcludes.heard
      rwa [hlist] at hafter
    · have hqisOpen : q.isOpen = true := decide_eq_true hqopen
      have hrisOpen : r.isOpen = true := decide_eq_true hstate
      rw [(h.settled_trackerOk hconcludes.rests).open_unique hq hr hqisOpen hrisOpen (hqrun.trans hrrun.symm)]
      exact hxopen
    · rw [State.Withdrawn, hlist]
      exact h.withdrawn hslot
  · have hslot := State.slot_none htracker hfull hall
    obtain ⟨hflag, hnoticed⟩ := h.noticed hslot hconcludes
    exact ⟨hflag, huntracked hslot, hnoticed⟩
  · rw [hconcludes.rests.tracker, State.recompose_tracker (by rw [h.wall]; exact hmode)]
    exact h.keeps hq hopen hqrun

end Sys2Proof.Machine
end
